-- ==== Sys2Proof/Word.lean ====
section
/-!
DEFINITION. The words the manual treats as bits: 64-bit register words (R9), 32-bit halves, bytes, and the 56-bit
addresses they spell. Quantities the manual counts (ticks, indexes, sizes) are plain naturals elsewhere.
-/
namespace Sys2Proof

/-- A 64-bit register word (R9). -/
abbrev Word := BitVec 64

/-- One byte of memory. -/
abbrev Byte := BitVec 8

/-- One 32-bit half of a register (R9). -/
abbrev Half := BitVec 32

end Sys2Proof
end

