-- ==== Sys2Proof/Syntax.lean ====
section
/-!
DEFINITION. The commands the block takes, one constructor per row of spec/opcode_table.json, and the operands they carry:
what the sender of the command supplies (a register address and the value written, a message that arrives on a port, the data
a host read returns, the lane and the word of a TZI instruction). A command that is an event of the block's own (a timer, an
engine finishing) carries only the names of the unit and the work it concerns.
-/
namespace Sys2Proof

/-- A register write as the bus performs it (R9): 64 bits, either 32-bit half, or an access of another width or alignment. -/
inductive WForm where
  /-- a naturally aligned 64-bit write -/
  | full (v : BitVec 64)
  /-- a 32-bit write of bits 31:0 -/
  | lo (v : BitVec 32)
  /-- a 32-bit write of bits 63:32 -/
  | hi (v : BitVec 32)
  /-- any other access (R9) -/
  | bad
  deriving DecidableEq, Repr, Inhabited

/-- A register read: 64 bits, either half, or an access of another width or alignment (R9). -/
inductive RForm where
  | full | lo | hi | bad
  deriving DecidableEq, Repr, Inhabited

/-- Lane `n` of the Stallholder of cluster `cl` (R127). -/
structure LaneId where
  cl : Nat
  n : Nat
  deriving DecidableEq, Repr, Inhabited

/-- A TZI 3 instruction: its 64-bit word and, in a long form, the word that follows (R132, R134). -/
structure IWord where
  w : BitVec 64
  imm64 : BitVec 64
  deriving DecidableEq, Repr, Inhabited

/-- An area that is zeroed when a lease ends or its context is reset (R115). -/
inductive ZeroArea where
  /-- tile scratch and table memory of tile `t` -/
  | tile (t : Nat)
  /-- a cluster-scratch range of cluster `c`: first MiB and size in MiB -/
  | range (c base size : Nat)
  deriving DecidableEq, Repr, Inhabited

/-- What an ATS Translation Completion carries (R251). -/
structure AtsResult where
  /-- translated host address, page aligned -/
  addr : Nat
  /-- page size in bytes -/
  size : Nat
  r : Bool
  w : Bool
  u : Bool
  deriving DecidableEq, Repr, Inhabited

/-- The Page Request Group Response codes of R255. -/
inductive PrgCode where
  | success | invalidRequest | responseFailure
  deriving DecidableEq, Repr, Inhabited

/-- What the link does to one line read (R311): nothing, one bit that its ECC corrects, two that it detects, or more, which pass it and which
the MAC detects (R308). -/
inductive LinkCheck where
  | clean | single | double | missed
  deriving DecidableEq, Repr, Inhabited

/-- What the link does to a line that is read, and to its MAC line where that is read too (R308, R311). -/
structure LineChecks where
  line : LinkCheck
  mac : LinkCheck
  deriving DecidableEq, Repr, Inhabited

/-- What one PMBus poll of a rail returns (R377); `ok` false when the packet error check failed twice. -/
structure RailRead where
  vout : Nat
  iout : Nat
  temp : Nat
  pout : Nat
  ok : Bool
  deriving DecidableEq, Repr, Inhabited

/-- A domain that may rest (R371, R391). -/
inductive RestDom where
  | tile (t : Nat)
  | cluster (c : Nat)
  deriving DecidableEq, Repr, Inhabited

/-- The payloads of the Inspector's commands (R411). -/
inductive CmdBody where
  | echo (bytes : List (BitVec 8))
  /-- pairs of a register offset and a value -/
  | regWrite (pairs : List (Nat × BitVec 64))
  | regRead (offsets : List Nat)
  | cgRun (slot ident members : Nat) (job : BitVec 64) (pairs : List (Nat × BitVec 64)) (tick : BitVec 64)
  | jobKeyLoad (slot phase : Nat) (wrapped : List (BitVec 8))
  | jobKeyErase (slot : Nat)
  | memKeyRotate
  | blockReset
  /-- the payload of an opcode that R411 does not name -/
  | other (bytes : List (BitVec 8))
  /-- a body whose layout the opcode does not have (R409 check 1) -/
  | malformed
  deriving DecidableEq, Repr, Inhabited

/-- A command as it reaches the Inspector (R408): the fields of its header, its payload and its tag. `mailbox` says whether
it came through INS_CMD or in a management message. -/
structure CmdFrame where
  length : Nat
  counter : Nat
  session : Nat
  target : Nat
  body : CmdBody
  tag : Nat
  mailbox : Bool
  deriving DecidableEq, Repr, Inhabited

/-- An SPDM request (R404): its parameters and its bytes, and the secured session it came in, when any; `doe` is the member whose DOE mailbox
it came through at the endpoint (0 on a block alone). -/
structure SpdmReq where
  doe : Nat
  session : Option Nat
  param1 : Nat
  param2 : Nat
  bytes : List (BitVec 8)
  deriving DecidableEq, Repr, Inhabited

/-- What one commit-group message carries (R271, R39). -/
structure CgInfo where
  ident : Nat
  tick : Nat
  cause : Nat
  first : Nat
  missing : Nat
  deriving DecidableEq, Repr, Inhabited

/-- What an ARRIVE message aggregates (R284). Slacks are signed ticks; ticks are station time. `pace` is 0 to 5, or 7 for
none. -/
structure ArriveInfo where
  group : Nat
  epoch : Nat
  count : Nat
  slack : Int
  slackBlock : Nat
  leastTick : Nat
  greatestTick : Nat
  noneFlag : Bool
  pace : Nat
  paceBlock : Nat
  overruns : Nat
  deriving DecidableEq, Repr, Inhabited

/-- What a CONFIRM message carries (R284). -/
structure ConfirmInfo where
  group : Nat
  epoch : Nat
  release : Nat
  slack : Int
  slackBlock : Nat
  pace : Nat
  paceBlock : Nat
  overruns : Nat
  deriving DecidableEq, Repr, Inhabited

/-- One fragment of a management message (R418). -/
structure MgmtFrag where
  kind : Nat
  ident : Nat
  index : Nat
  count : Nat
  bytes : List (BitVec 8)
  deriving DecidableEq, Repr, Inhabited

/-- The message types of R271 with their fields. -/
inductive MsgBody where
  | write (addr len : Nat) (data : List (BitVec 8))
  | reduce (addr len op fmt : Nat) (data : List (BitVec 8))
  | read (addr len : Nat)
  | ack (clamps : Nat)
  | data (bytes : List (BitVec 8))
  | refuse (answer : Nat)
  | error
  | arrive (a : ArriveInfo)
  | confirm (c : ConfirmInfo)
  | missing (group epoch number : Nat)
  | straggler (group epoch number : Nat)
  | cgStaged (g : CgInfo)
  | cgRefused (g : CgInfo)
  | cgCommit (g : CgInfo)
  | cgAbort (g : CgInfo)
  | timeReq (t1 : Nat)
  | timeResp (t1 t2 t3 : Nat)
  | mgmt (m : MgmtFrag)
  /-- a reserved type code -/
  | reserved (code : Nat)
  deriving DecidableEq, Repr, Inhabited

/-- One message of a head flit: the eight bytes every slot begins with, and its body (R270). -/
structure Msg where
  src : Nat
  jgen : Nat
  gctx : Nat
  tag : Nat
  body : MsgBody
  deriving DecidableEq, Repr, Inhabited

/-- A head flit with its data flits (R269). `sent` is bits 39:8 of the sender's station time; `slots` and `dataFlits` count the slots used and
the data flits that follow. With `enc`, `msgs` is empty, `sealed` is the ciphertext of slots and data flits and `tag` its GCM tag (R282). -/
structure Head where
  dst : Nat
  src : Nat
  vc : Nat
  enc : Bool
  hop : Nat
  phase : Nat
  job : Nat
  sent : Nat
  ivSrc : Nat
  ivCount : Nat
  msgs : List Msg
  slots : Nat
  dataFlits : Nat
  sealed : List (BitVec 8)
  tag : Nat
  deriving DecidableEq, Repr, Inhabited

/-- The result of the self-test of one tile (R437): its faulty physical cube rows, any other array fault, whether some scratch
word failed in more than one bit, and how many words were left to SECDED. -/
structure SelfTest where
  rows : List (List Nat)
  other : List Bool
  scratchFail : Bool
  corrected : List Nat
  deriving DecidableEq, Repr, Inhabited

/-- What start-up meets outside the block (R435 to R439): the straps as they stand, the self-test result, the flash areas'
checks and the channels' training. `repair` holds the 16 tile bytes of a repair record whose signature and digest match. -/
structure StartInputs where
  gangSize : Nat
  gangMember : Nat
  c1Channels : Nat
  capDefault : Nat
  freezeMode : Bool
  romOk : Bool
  svnA : Option Nat
  svnB : Option Nat
  seedOk : Bool
  keyOk : Bool
  repair : Option (List Nat)
  test : SelfTest
  chcap : Nat
  trained : Nat
  rfm : Bool
  gangReady : Bool
  deriving DecidableEq, Repr, Inhabited

/-- A launch as the lead of a gang dispatches it to another member (R291): what R195 and R198 take from its record, and the clusters that run it
on other members, all of them and those before this member's (R128). -/
structure GangLaunch where
  ring : Nat
  seq : Nat
  entry : Nat
  consts : List (BitVec 8)
  nb : Option Nat
  onTime : Bool
  more : Nat
  before : Nat
  deriving DecidableEq, Repr, Inhabited

/-- What the lead tells a member (R155, R291, R292): a launch, that a launch stops, that a context is reset. -/
inductive GangMsg where
  | launch (l : GangLaunch)
  | stop (seq : Nat)
  | reset
  deriving DecidableEq, Repr, Inhabited

/-- An exception on a member's cluster as it reaches the lead (R156). -/
structure GangExc where
  time : Nat
  cluster : Nat
  opNo : Nat
  code : Nat
  pc : Nat
  arg : Nat
  operand : Nat
  tile : Nat
  deriving DecidableEq, Repr, Inhabited

/-- What a member of a gang sends to the lead when its clusters have ended their share of a launch (R459): the energy its Ledger attributes (pJ,
exact), its running and throttled time, the unreconciled flag; and the counts and flags that the launch's record and counters take from every
cluster (DEDUCED, log entry 23). -/
structure GangFig where
  energy : Rat
  runSt : Nat
  thrSt : Nat
  unrec : Bool
  work : List Nat
  accSat : Nat
  convSat : Nat
  nan : Bool
  calib : Bool
  deriving DecidableEq, Repr, Inhabited

/-- What DISPATCH acts on: a context; on a member of a gang besides, what the lead tells it (R291). -/
structure DispatchOf where
  ctx : Nat
  gang : Option GangMsg
  deriving DecidableEq, Repr, Inhabited

/-- The launch whose end is reported; at the lead of a gang besides, the member that reports its share (R291, R459). -/
structure EndOf where
  seq : Nat
  member : Option (Nat × GangFig)
  deriving DecidableEq, Repr, Inhabited

/-- The launch whose exception is reported; at the lead of a gang besides, the member that reports one, or that is lost to the context because
it has reset alone (R292). -/
structure ExcOf where
  seq : Nat
  member : Option (Nat × Option GangExc)
  deriving DecidableEq, Repr, Inhabited

/-- The commands of the block, one constructor per row of spec/opcode_table.json. -/
inductive Instr where
  /-- REG_WR (R9). -/
  | regWr (addr : Nat) (mark : Bool) (f : WForm)
  /-- BELL_NOW_READ (R17). -/
  | bellNowRead (part : RForm)
  /-- PPS_EDGE (R19). -/
  | ppsEdge (seconds nanos : Nat) (valid : Bool)
  /-- PPS_MISSING (R20). -/
  | ppsMissing
  /-- TIME_EXCHANGE (R23). -/
  | timeExchange
  /-- TIME_REQ (R23). -/
  | timeReq (k : Nat)
  /-- TIME_RESP (R23). -/
  | timeResp (k : Nat)
  /-- LINK_TIME_LOST (R24). -/
  | linkTimeLost
  /-- HOLDOVER_LIMIT (R27). -/
  | holdoverLimit
  /-- CG_OPEN (R34). -/
  | cgOpen (slot : Nat) (mark : Bool) (f : WForm)
  /-- CG_ARM (R34). -/
  | cgArm (slot : Nat) (mark : Bool) (f : WForm)
  /-- CG_MEMBER_ACK (R34). -/
  | cgMemberAck (slot mask : Nat)
  /-- CG_DEADLINE (R35). -/
  | cgDeadline (slot : Nat)
  /-- CG_APPLY (R34). -/
  | cgApply (slot : Nat)
  /-- CG_CANCEL (R36). -/
  | cgCancel (slot : Nat) (mark : Bool) (f : WForm)
  /-- CG_STAGED (R39). -/
  | cgStaged (k : Nat)
  /-- CG_REFUSED (R39). -/
  | cgRefused (k : Nat)
  /-- CG_COMMIT (R39). -/
  | cgCommit (k : Nat)
  /-- CG_ABORT (R39). -/
  | cgAbort (k : Nat)
  /-- VERDICT_LOST (R39). -/
  | verdictLost (slot : Nat)
  /-- ARM_MODE (R163). -/
  | armMode (l : LaneId) (i : IWord)
  /-- ARM_LOAD (R166). -/
  | armLoad (l : LaneId) (i : IWord)
  /-- ARM_STREAM (R167). -/
  | armStream (l : LaneId) (i : IWord)
  /-- ARM_DRAIN (R169). -/
  | armDrain (l : LaneId) (i : IWord)
  /-- ROW_QUAD_ENTRY (R56). -/
  | rowQuadEntry (tile : Nat)
  /-- ROW_QUAD_RESULT (R53). -/
  | rowQuadResult (tile : Nat)
  /-- ARM_SHADOW_LOAD (R60). -/
  | armShadowLoad (tile : Nat)
  /-- GAP_START (R68). -/
  | gapStart (tile : Nat)
  /-- FILLER_LIMIT_EXPIRY (R69). -/
  | fillerLimitExpiry (tile : Nat)
  /-- TILE_CLEAR_DONE (R58). -/
  | tileClearDone (tile : Nat)
  /-- BOOK_WRITE_VALIDATE (R88). -/
  | bookWriteValidate (tile book : Nat)
  /-- TABLE_WRITE_VALIDATE (R119). -/
  | tableWriteValidate (tile table : Nat)
  /-- CALIBRATION_EVENT (R101). -/
  | calibrationEvent (l : LaneId)
  /-- LEASE_ZERO_DONE (R115). -/
  | leaseZeroDone (area : ZeroArea)
  /-- LANE_LAUNCH_START (R128). -/
  | laneLaunchStart (l : LaneId)
  /-- INSTRUCTION_FETCH (R129). -/
  | instructionFetch (l : LaneId) (host : List (BitVec 8))
  /-- ADD (R136). -/
  | addI (l : LaneId) (i : IWord)
  /-- SUB (R136). -/
  | subI (l : LaneId) (i : IWord)
  /-- MUL (R136). -/
  | mulI (l : LaneId) (i : IWord)
  /-- MULH (R136). -/
  | mulh (l : LaneId) (i : IWord)
  /-- MULHU (R136). -/
  | mulhu (l : LaneId) (i : IWord)
  /-- DIVU (R136). -/
  | divu (l : LaneId) (i : IWord)
  /-- REMU (R136). -/
  | remu (l : LaneId) (i : IWord)
  /-- AND (R136). -/
  | andI (l : LaneId) (i : IWord)
  /-- OR (R136). -/
  | orI (l : LaneId) (i : IWord)
  /-- XOR (R136). -/
  | xorI (l : LaneId) (i : IWord)
  /-- SHL (R136). -/
  | shl (l : LaneId) (i : IWord)
  /-- SHR (R136). -/
  | shr (l : LaneId) (i : IWord)
  /-- SRA (R136). -/
  | sra (l : LaneId) (i : IWord)
  /-- MIN (R136). -/
  | minI (l : LaneId) (i : IWord)
  /-- MAX (R136). -/
  | maxI (l : LaneId) (i : IWord)
  /-- MINU (R136). -/
  | minu (l : LaneId) (i : IWord)
  /-- MAXU (R136). -/
  | maxu (l : LaneId) (i : IWord)
  /-- CMP_EQ (R137). -/
  | cmpEq (l : LaneId) (i : IWord)
  /-- CMP_NE (R137). -/
  | cmpNe (l : LaneId) (i : IWord)
  /-- CMP_LT (R137). -/
  | cmpLt (l : LaneId) (i : IWord)
  /-- CMP_LE (R137). -/
  | cmpLe (l : LaneId) (i : IWord)
  /-- CMP_GT (R137). -/
  | cmpGt (l : LaneId) (i : IWord)
  /-- CMP_GE (R137). -/
  | cmpGe (l : LaneId) (i : IWord)
  /-- CMP_LTU (R137). -/
  | cmpLtu (l : LaneId) (i : IWord)
  /-- CMP_LEU (R137). -/
  | cmpLeu (l : LaneId) (i : IWord)
  /-- CMP_GTU (R137). -/
  | cmpGtu (l : LaneId) (i : IWord)
  /-- CMP_GEU (R137). -/
  | cmpGeu (l : LaneId) (i : IWord)
  /-- SEL (R137). -/
  | selI (l : LaneId) (i : IWord)
  /-- PAND (R137). -/
  | pand (l : LaneId) (i : IWord)
  /-- POR (R137). -/
  | por (l : LaneId) (i : IWord)
  /-- PXOR (R137). -/
  | pxor (l : LaneId) (i : IWord)
  /-- PANDN (R137). -/
  | pandn (l : LaneId) (i : IWord)
  /-- B (R138). -/
  | br (l : LaneId) (i : IWord)
  /-- CALL (R138). -/
  | call (l : LaneId) (i : IWord)
  /-- JR (R138). -/
  | jr (l : LaneId) (i : IWord)
  /-- JALR (R138). -/
  | jalr (l : LaneId) (i : IWord)
  /-- LOOP (R139). -/
  | loopI (l : LaneId) (i : IWord)
  /-- KRD (R139). -/
  | krd (l : LaneId) (i : IWord)
  /-- LD_B (R141). -/
  | ldB (l : LaneId) (i : IWord)
  /-- LD_BS (R141). -/
  | ldBs (l : LaneId) (i : IWord)
  /-- LD_H (R141). -/
  | ldH (l : LaneId) (i : IWord)
  /-- LD_HS (R141). -/
  | ldHs (l : LaneId) (i : IWord)
  /-- LD_W (R141). -/
  | ldW (l : LaneId) (i : IWord)
  /-- LD_WS (R141). -/
  | ldWs (l : LaneId) (i : IWord)
  /-- LD_D (R141). -/
  | ldD (l : LaneId) (i : IWord)
  /-- ST_B (R141). -/
  | stB (l : LaneId) (i : IWord)
  /-- ST_H (R141). -/
  | stH (l : LaneId) (i : IWord)
  /-- ST_W (R141). -/
  | stW (l : LaneId) (i : IWord)
  /-- ST_D (R141). -/
  | stD (l : LaneId) (i : IWord)
  /-- LDC_W (R142). -/
  | ldcW (l : LaneId) (i : IWord)
  /-- LDC_WS (R142). -/
  | ldcWs (l : LaneId) (i : IWord)
  /-- LDC_D (R142). -/
  | ldcD (l : LaneId) (i : IWord)
  /-- DLD (R145). -/
  | dld (l : LaneId) (i : IWord)
  /-- DST (R145). -/
  | dst (l : LaneId) (i : IWord)
  /-- DLDC (R145). -/
  | dldc (l : LaneId) (i : IWord)
  /-- DMOV (R145). -/
  | dmov (l : LaneId) (i : IWord)
  /-- DADV (R145). -/
  | dadv (l : LaneId) (i : IWord)
  /-- DCLIP (R145). -/
  | dclip (l : LaneId) (i : IWord)
  /-- DSET (R145). -/
  | dset (l : LaneId) (i : IWord)
  /-- DGET (R145). -/
  | dget (l : LaneId) (i : IWord)
  /-- NOP (R147). -/
  | nop (l : LaneId) (i : IWord)
  /-- END (R147). -/
  | endI (l : LaneId) (i : IWord)
  /-- END_RETIRE (R147). -/
  | endRetire (l : LaneId)
  /-- TRAP (R147). -/
  | trap (l : LaneId) (i : IWord)
  /-- OPERATION_START (R150). -/
  | operationStart (op : Nat)
  /-- OPERATION_COMPLETE (R160). -/
  | operationComplete (op : Nat)
  /-- VEC_ADD (R170). -/
  | vecAdd (l : LaneId) (i : IWord)
  /-- VEC_SUB (R170). -/
  | vecSub (l : LaneId) (i : IWord)
  /-- VEC_MUL (R170). -/
  | vecMul (l : LaneId) (i : IWord)
  /-- VEC_FMA (R170). -/
  | vecFma (l : LaneId) (i : IWord)
  /-- VEC_MIN (R170). -/
  | vecMin (l : LaneId) (i : IWord)
  /-- VEC_MAX (R170). -/
  | vecMax (l : LaneId) (i : IWord)
  /-- VEC_CMP (R170). -/
  | vecCmp (l : LaneId) (i : IWord)
  /-- VEC_SEL (R170). -/
  | vecSel (l : LaneId) (i : IWord)
  /-- VEC_CVT (R172). -/
  | vecCvt (l : LaneId) (i : IWord)
  /-- VEC_SUM (R118). -/
  | vecSum (l : LaneId) (i : IWord)
  /-- VEC_RQI (R96). -/
  | vecRqi (l : LaneId) (i : IWord)
  /-- VEC_RQF (R97). -/
  | vecRqf (l : LaneId) (i : IWord)
  /-- VEC_QMX (R98). -/
  | vecQmx (l : LaneId) (i : IWord)
  /-- VEC_SCTAG (R173). -/
  | vecSctag (l : LaneId) (i : IWord)
  /-- VEC_CBENC (R99). -/
  | vecCbenc (l : LaneId) (i : IWord)
  /-- VEC_TAB (R120). -/
  | vecTab (l : LaneId) (i : IWord)
  /-- VEC_POOLMAX (R121). -/
  | vecPoolmax (l : LaneId) (i : IWord)
  /-- VEC_POOLSUM (R121). -/
  | vecPoolsum (l : LaneId) (i : IWord)
  /-- VEC_ARGMAX (R122). -/
  | vecArgmax (l : LaneId) (i : IWord)
  /-- VEC_ARGMIN (R170). -/
  | vecArgmin (l : LaneId) (i : IWord)
  /-- VEC_TOPK (R122). -/
  | vecTopk (l : LaneId) (i : IWord)
  /-- VEC_BOXDEC (R123). -/
  | vecBoxdec (l : LaneId) (i : IWord)
  /-- VEC_DOT (R124). -/
  | vecDot (l : LaneId) (i : IWord)
  /-- VEC_SQDIST (R124). -/
  | vecSqdist (l : LaneId) (i : IWord)
  /-- VEC_IOU (R124). -/
  | vecIou (l : LaneId) (i : IWord)
  /-- BAR_MOVE (R176). -/
  | barMove (l : LaneId) (i : IWord)
  /-- BAR_CROP (R177). -/
  | barCrop (l : LaneId) (i : IWord)
  /-- BAR_REDUCE (R176). -/
  | barReduce (l : LaneId) (i : IWord)
  /-- BAR_DIGEST (R179). -/
  | barDigest (l : LaneId) (i : IWord)
  /-- SIG (R181). -/
  | sig (l : LaneId) (i : IWord)
  /-- WAIT (R182). -/
  | waitI (l : LaneId) (i : IWord)
  /-- WAIT_RELEASE (R182). -/
  | waitRelease (ctx sem : Nat)
  /-- FENCE (R183). -/
  | fence (l : LaneId) (i : IWord)
  /-- BARRIER (R184). -/
  | barrier (l : LaneId) (i : IWord)
  /-- BARRIER_RELEASE (R284). -/
  | barrierRelease (group : Nat)
  /-- TWAIT (R185). -/
  | twait (l : LaneId) (i : IWord)
  /-- TWAIT_C (R185). -/
  | twaitC (l : LaneId) (i : IWord)
  /-- TIME_WAIT_RELEASE (R31). -/
  | timeWaitRelease (op : Nat)
  /-- TSLOT (R185). -/
  | tslot (l : LaneId) (i : IWord)
  /-- PACE (R186). -/
  | pace (l : LaneId) (i : IWord)
  /-- CTX_DOORBELL (R190). -/
  | ctxDoorbell (ctx : Nat) (mark : Bool) (f : WForm)
  /-- RING_SCAN (R191). -/
  | ringScan (ctx ring : Nat)
  /-- RECORD_FETCH (R194). -/
  | recordFetch (ctx ring : Nat) (bytes : List (BitVec 8))
  /-- RECORD_FETCH_FAULT (R208). -/
  | recordFetchFault (ctx ring : Nat)
  /-- NOT_BEFORE_RELEASE (R195). -/
  | notBeforeRelease (ctx ring : Nat)
  /-- DISPATCH (R198). -/
  | dispatch (d : DispatchOf)
  /-- END_REPORT (R203). -/
  | endReport (ctx : Nat) (r : EndOf)
  /-- EXCEPTION_REPORT (R203). -/
  | exceptionReport (ctx : Nat) (r : ExcOf)
  /-- CTX_ABORT (R204). -/
  | ctxAbort (ctx : Nat) (mark : Bool) (f : WForm)
  /-- CTX_KABORT (R204). -/
  | ctxKabort (ctx : Nat) (mark : Bool) (f : WForm)
  /-- ABORT_REQUEST_ARRIVE (R204). -/
  | abortRequestArrive (ctx : Nat) (kernel : Bool)
  /-- COMPLETION_RECORD_WRITE (R199). -/
  | completionRecordWrite (ctx : Nat)
  /-- COMPLETION_WRITE_FAULT (R206). -/
  | completionWriteFault (ctx : Nat)
  /-- CTX_CQ_HEAD_WRITE (R199). -/
  | ctxCqHeadWrite (ctx : Nat) (mark : Bool) (f : WForm)
  /-- RING_ENABLE (R213). -/
  | ringEnable (ctx ring : Nat) (mark : Bool) (f : WForm)
  /-- CQ_ENABLE (R213). -/
  | cqEnable (ctx : Nat) (mark : Bool) (f : WForm)
  /-- UNDEL_ACK (R207). -/
  | undelAck (ctx : Nat) (mark : Bool) (f : WForm)
  /-- WATCH_SAMPLE (R210). -/
  | watchSample
  /-- DESCRIPTOR_QUEUE (R219). -/
  | descriptorQueue (op : Nat)
  /-- FRAME_TRANSLATED (R220). -/
  | frameTranslated (barrow op page : Nat)
  /-- BARROW_OP_START (R218). -/
  | barrowOpStart (barrow : Nat)
  /-- SEGMENT_ISSUE (R222). -/
  | segmentIssue (barrow : Nat)
  /-- BUDGET_GRANT (R236). -/
  | budgetGrant
  /-- SEGMENT_COMPLETE (R223). -/
  | segmentComplete (barrow op seg : Nat)
  /-- BARROW_REPLAY (R224). -/
  | barrowReplay (barrow : Nat)
  /-- ATS_TCPL (R251). -/
  | atsTcpl (req status : Nat) (r : AtsResult)
  /-- HW_WALK (R247). -/
  | hwWalk (req : Nat) (host : List (BitVec 64))
  /-- PRG_RSP (R255). -/
  | prgRsp (index : Nat) (code : PrgCode)
  /-- PRI_TIMEOUT (R255). -/
  | priTimeout (index : Nat)
  /-- ATS_INV (R259). -/
  | atsInv (itag : Nat) (pasid : Option Nat) (page pages : Nat)
  /-- ENGINE_INVAL_ACK (R259). -/
  | engineInvalAck (wd engine : Nat)
  /-- INVAL_ABANDON (R261). -/
  | invalAbandon (wd tag : Nat)
  /-- DRAIN_INVALIDATE (R264). -/
  | drainInvalidate (mark : Bool) (f : WForm)
  /-- PORT_ENABLE (R268). -/
  | portEnable (port : Nat) (mark : Bool) (f : WForm)
  /-- PORT_UP (R268). -/
  | portUp (port : Nat)
  /-- LINK_REPLAY (R268). -/
  | linkReplay (port : Nat)
  /-- HEAD_ARRIVE (R274). -/
  | headArrive (port : Nat) (h : Head)
  /-- WRITE (R280). -/
  | fabWrite (k : Nat)
  /-- REDUCE (R281). -/
  | fabReduce (k : Nat)
  /-- READ (R281). -/
  | fabRead (k : Nat)
  /-- ACK (R280). -/
  | fabAck (k : Nat)
  /-- DATA (R281). -/
  | fabData (k : Nat)
  /-- REFUSE (R228). -/
  | fabRefuse (k : Nat)
  /-- ERROR (R281). -/
  | fabError (k : Nat)
  /-- LINK_REQUEST_TIMEOUT (R273). -/
  | linkRequestTimeout (tag : Nat)
  /-- CREDIT_STALL (R272). -/
  | creditStall (port : Nat)
  /-- ARRIVE (R284). -/
  | arrive (k : Nat)
  /-- CONFIRM (R284). -/
  | confirm (k : Nat)
  /-- MISSING (R287). -/
  | missing (k : Nat)
  /-- STRAGGLER (R287). -/
  | straggler (k : Nat)
  /-- MISSING_TIMER (R287). -/
  | missingTimer (group : Nat)
  /-- STRAGGLER_SILENCE (R287). -/
  | stragglerSilence (group : Nat)
  /-- KEY_PHASE_EXPIRE (R416). -/
  | keyPhaseExpire (slot : Nat)
  /-- MGMT (R418). -/
  | mgmt (k : Nat)
  /-- MGMT_REASSEMBLY_TIMEOUT (R418). -/
  | mgmtReassemblyTimeout (src ident : Nat)
  /-- MEM_COMMAND_SLOT (R302). -/
  | memCommandSlot (ch : Nat)
  /-- MEM_READ_RETURN (R311). -/
  | memReadReturn (ch tag : Nat) (link : LineChecks)
  /-- REFRESH_DUE (R304). -/
  | refreshDue (ch bank : Nat)
  /-- MR4_POLL (R304). -/
  | mr4Poll (ch report : Nat) (hot : Bool)
  /-- CHANNEL_TRAINED (R306). -/
  | channelTrained (ch : Nat)
  /-- TRAIN_TIMEOUT (R306). -/
  | trainTimeout (ch : Nat)
  /-- PHY_UPDATE (R306). -/
  | phyUpdate (ch : Nat)
  /-- QOS_SLOT_BOUNDARY (R303). -/
  | qosSlotBoundary
  /-- MEM_CLEAR (R313). -/
  | memClear (mark : Bool) (f : WForm)
  /-- MEM_CLEAR_DONE (R313). -/
  | memClearDone
  /-- MEM_ENABLE (R306). -/
  | memEnable (mark : Bool) (f : WForm)
  /-- MEM_HPA_WRITE (R460). -/
  | memHpaWrite (mark : Bool) (f : WForm)
  /-- MEM_INJECT (R344). -/
  | memInject (mark : Bool) (f : WForm)
  /-- SWEEP_PAGE (R414). -/
  | sweepPage (ch page : Nat)
  /-- KEY_SLOT_ZERO (R414). -/
  | keySlotZero
  /-- CREATE (R318). -/
  | ctxCreate (ctx : Nat) (mark : Bool) (f : WForm)
  /-- RESUME (R319). -/
  | ctxResume (ctx : Nat) (mark : Bool) (f : WForm)
  /-- STOP (R317). -/
  | ctxStop (ctx : Nat) (mark : Bool) (f : WForm)
  /-- RESET (R355). -/
  | ctxReset (ctx : Nat) (mark : Bool) (f : WForm)
  /-- DESTROY (R360). -/
  | ctxDestroy (ctx : Nat) (mark : Bool) (f : WForm)
  /-- AWNING_ACK (R355). -/
  | awningAck (ctx engine : Nat)
  /-- SAMPLE_DONE (R363). -/
  | sampleDone (ctx : Nat)
  /-- SAMPLE_TIMEOUT (R364). -/
  | sampleTimeout (ctx : Nat)
  /-- GEN_CLEAN (R359). -/
  | genClean (ctx : Nat)
  /-- CONTEXT_RESET_COMPLETE (R355). -/
  | contextResetComplete (ctx : Nat)
  /-- MOD_TIMER (R331). -/
  | modTimer (ctx : Nat)
  /-- CTX_ATTN_CLEAR (R331). -/
  | ctxAttnClear (ctx : Nat) (mark : Bool) (f : WForm)
  /-- CTX_IRQ_LINE_WRITE (R332). -/
  | ctxIrqLineWrite (ctx : Nat) (mark : Bool) (f : WForm)
  /-- ERR_INJECT (R352). -/
  | errInject (mark : Bool) (f : WForm)
  /-- ERR_LOG_CONSUMED_WRITE (R370). -/
  | errLogConsumedWrite (mark : Bool) (f : WForm)
  /-- ERR_BRESET_GO (R367). -/
  | errBresetGo (mark : Bool) (f : WForm)
  /-- BLOCK_RESET_READY (R368). -/
  | blockResetReady
  /-- PMBUS_POLL (R377). -/
  | pmbusPoll (rail : Nat) (r : RailRead)
  /-- VOLTAGE_SETTLED (R375). -/
  | voltageSettled
  /-- PLL_LOCKED (R375). -/
  | pllLocked
  /-- DROOP_WARNING (R379). -/
  | droopWarning (tile mv : Nat)
  /-- DROOP_RELEASE (R379). -/
  | droopRelease
  /-- CAP_CONTROL (R381). -/
  | capControl
  /-- TEMP_SAMPLE (R383). -/
  | tempSample (readings : List Int)
  /-- THERMAL_CEILING_STEP (R384). -/
  | thermalCeilingStep
  /-- ALERT_ASSERT (R385). -/
  | alertAssert
  /-- ALERT_STATUS_READ (R385). -/
  | alertStatusRead (words : List Nat)
  /-- ALERT_CEILING_STEP (R385). -/
  | alertCeilingStep
  /-- LEDGER_WINDOW (R389). -/
  | ledgerWindow
  /-- REST_ENTRY (R391). -/
  | restEntry (dom : RestDom)
  /-- REST_WAKE (R392). -/
  | restWake (dom : RestDom)
  /-- WAKE_READY (R392). -/
  | wakeReady (dom : RestDom)
  /-- PWR_CAP_WRITE (R382). -/
  | pwrCapWrite (mark : Bool) (f : WForm)
  /-- FORCE_ALERT (R396). -/
  | forceAlert (mark : Bool) (f : WForm)
  /-- FORCE_DROOP (R396). -/
  | forceDroop (mark : Bool) (f : WForm)
  /-- INS_WATCHDOG_EXPIRY (R398). -/
  | insWatchdogExpiry
  /-- ROM_SELF_CHECK (R399). -/
  | romSelfCheck (ok : Bool)
  /-- ECHO (R411). -/
  | echo (c : CmdFrame)
  /-- REG_WRITE (R411). -/
  | regWrite (c : CmdFrame)
  /-- REG_READ (R411). -/
  | regRead (c : CmdFrame)
  /-- CG_RUN (R411). -/
  | cgRun (c : CmdFrame)
  /-- JOB_KEY_LOAD (R416). -/
  | jobKeyLoad (c : CmdFrame)
  /-- JOB_KEY_ERASE (R411). -/
  | jobKeyErase (c : CmdFrame)
  /-- MEM_KEY_ROTATE (R414). -/
  | memKeyRotate (c : CmdFrame)
  /-- BLOCK_RESET (R411). -/
  | blockReset (c : CmdFrame)
  /-- GET_VERSION (R404). -/
  | getVersion (r : SpdmReq)
  /-- GET_CAPABILITIES (R404). -/
  | getCapabilities (r : SpdmReq)
  /-- NEGOTIATE_ALGORITHMS (R404). -/
  | negotiateAlgorithms (r : SpdmReq)
  /-- GET_DIGESTS (R404). -/
  | getDigests (r : SpdmReq)
  /-- GET_CERTIFICATE (R404). -/
  | getCertificate (r : SpdmReq)
  /-- CHALLENGE (R404). -/
  | challenge (r : SpdmReq)
  /-- GET_MEASUREMENTS (R405). -/
  | getMeasurements (r : SpdmReq)
  /-- KEY_EXCHANGE (R404). -/
  | keyExchange (r : SpdmReq)
  /-- FINISH (R407). -/
  | finish (r : SpdmReq)
  /-- KEY_UPDATE (R404). -/
  | keyUpdate (r : SpdmReq)
  /-- HEARTBEAT (R404). -/
  | heartbeat (r : SpdmReq)
  /-- END_SESSION (R404). -/
  | endSession (r : SpdmReq)
  /-- INS_CTRL_LOCK (R407). -/
  | insCtrlLock (mark : Bool) (f : WForm)
  /-- DEBUG_READ (R454). -/
  | debugRead (off : Nat)
  /-- DEBUG_WRITE (R454). -/
  | debugWrite (off : Nat) (f : WForm)
  /-- CPL (R346). -/
  | cpl (tag status : Nat) (bytes : List (BitVec 8))
  /-- BME_CHANGE (R429). -/
  | bmeChange (on : Bool)
  /-- FLR (R430). -/
  | flr
  /-- LINK_DOWN (R428). -/
  | linkDown
  /-- HOSTPORT_RELEASE (R431). -/
  | hostportRelease (mark : Bool) (f : WForm)
  /-- POWER_ON_RESET (R434). -/
  | powerOnReset
  /-- START_UP (R436). -/
  | startUp (t : StartInputs)
  /-- GANG_READY_TIMEOUT (R439). -/
  | gangReadyTimeout
  /-- WS_BYPASS (R440). -/
  | wsBypass
  /-- WS_EXTEST (R440). -/
  | wsExtest
  /-- WS_INTEST (R441). -/
  | wsIntest
  /-- WS_SAFE (R440). -/
  | wsSafe
  /-- WP_SCAN (R441). -/
  | wpScan
  /-- TZ_SELFTEST (R440). -/
  | tzSelftest (r : SelfTest)
  /-- TEST_MODE_ENTRY (R441). -/
  | testModeEntry
  /-- REST_ENTRY_COMPLETE (R391). -/
  | restEntryComplete (dom : RestDom)
  /-- ALERT_RELEASE (R385). -/
  | alertRelease
  /-- INSPECTOR_RESTART_DONE (R398). -/
  | inspectorRestartDone
  /-- ENDPOINT_FATAL (R428). -/
  | endpointFatal
  /-- LINK_DOWN_CLEAR (R428). -/
  | linkDownClear
  /-- LINK_RATE_TOKEN (R329). -/
  | linkRateToken (ctx : Nat)
  /-- ALIGNED_GUARD_TICK (R288). -/
  | alignedGuardTick (op : Nat)
  deriving DecidableEq, Repr, Inhabited

end Sys2Proof
end

