-- ==== Sys2Proof/Config.lean ====
section
/-!
DEFINITION. What an implementation fixes and the free values: constants with no body, so that nothing in Lean can evaluate
them. A statement that holds of the model holds whatever they are.
-/
namespace Sys2Proof.Config

/-- The free values of the model, drawn one after another through the counter `State.free`: every value the spec leaves
undefined or unstated after a command is one of these. -/
opaque freeValue : Nat → Nat

/-- The payload bytes of CG_RUN, JOB_KEY_LOAD and JOB_KEY_ERASE, and the body that an opcode of these reads from bytes: R411 names their fields
and gives them no places. -/
opaque cmdPayload : CmdBody → List (BitVec 8)
opaque cmdParse : Nat → List (BitVec 8) → CmdBody

/-- The bytes of an SPDM request with a code, as the lead relays them to a member (R404). -/
opaque spdmBytes : Nat → SpdmReq → List (BitVec 8)

/-- The first result byte of a REFUSED response (R410): the causes IN_USE and BUSY of R411 and R416, and a key that does not unwrap, have
no code in the spec. Numbered 0, 1, 2. -/
opaque refuseCause : Nat → BitVec 8

/-- The digests that measurements 1 and 2 of R405 carry: of the ROM, and of the body of the firmware with an svn. -/
opaque romDigest : Nat
opaque bodyDigest : Nat → Nat
/-- The digest of the repair record that measurement 3 of R405 carries. -/
opaque recordDigest : Nat

/-- AES-256-GCM under the key of a number, at an IV (R282): the ciphertext of the slots and data flits, the messages that a ciphertext deciphers
to, and the tag over additional data and ciphertext. -/
opaque gcmSeal : Nat → List (BitVec 8) → List (BitVec 8) → List (BitVec 8)
opaque gcmOpen : Nat → List (BitVec 8) → List (BitVec 8) → List Msg
opaque gcmTag : Nat → List (BitVec 8) → List (BitVec 8) → List (BitVec 8) → Nat
/-- The bytes after byte 8 of a message's slot: R271 names the fields and gives them no places. -/
opaque slotFields : MsgBody → List (BitVec 8)
/-- The source job block number that an answer carries when no job slot here carries the job of the request (R278). -/
opaque strangerBlock : BitVec 12
/-- The bytes of a host-port header that hold the fields of an ATS or PRI message, and of a register access its width, by kind; and the fields
read back (R421): their places are not given. -/
opaque hostFields : Nat → List Nat → List (BitVec 8)
opaque hostRead : Nat → List (BitVec 8) → List Nat

/-- The CRC-32 that a board port adds to a flit with its sequence word (R268): its polynomial is not given. -/
opaque flitCrc : Nat → List (BitVec 8) → BitVec 32

/-- The key that AES Key Wrap under a wrapping key unwraps from 40 bytes; none when its check fails (R411). -/
opaque keyUnwrap : List (BitVec 8) → List (BitVec 8) → Option Nat

/-- The first and the second 8 bytes of the SHA-384 of the device's identity public key (R403). -/
opaque deviceId0 : BitVec 64
opaque deviceId1 : BitVec 64

/-- The factor 2 to the power (T - 85) / 25 of R388, T in degrees, as the Ledger's arithmetic forms it. -/
opaque leakScale : Rat → Rat

/-- The data of an SPDM response to a request in a session state (R404): certificates, signatures, key shares. -/
opaque spdmData : Nat → SpdmReq → List Nat

/-- Does an SPDM FINISH verify, and does the requester's certificate chain end in a root of this digest (R407)? -/
opaque spdmFinishOk : SpdmReq → List (BitVec 64) → Bool

/-- What the four bits of STH_ARM_REPAIRt.faulty_row show for a physical row that they cannot hold: row 16, the spare (R64, R71). -/
opaque faultyRow : Nat → Nat

/-- The values of PWR_POLICY_X.fixed_dw and margin_pct that a BASIC profile of PWR_POLICY derives (R13): R396's table names neither
(log entry 8). -/
opaque policyFixedDw : Nat → Nat
opaque policyMarginPct : Nat → Nat

/-- Where the two words of a page frame in the barrow view hold what R221 lists beside the page and the physical frame: bits 11:0 of the
first for the size and the side, of the second for the rights read, write and atomic, stale and valid. -/
opaque frameTags : Nat → Bool → BitVec 12
opaque frameFlags : Bool → Bool → Bool → Bool → Bool → BitVec 12

/-- The ciphertext of a 64-byte line under AES-256-XTS with the key pair of a number, at a tweak, and the leftmost 64 bits of AES-256-CMAC with
its MAC key over the tweak and the ciphertext (R307, R308). -/
opaque xtsLine : Nat → Nat → List (BitVec 8) → List (BitVec 8)
opaque lineMac : Nat → Nat → List (BitVec 8) → BitVec 64
/-- What a channel holds at an address where nothing has been written under a key in force. -/
opaque oldByte : Nat → Nat → BitVec 8

/-- The postponement limit of a bank's refresh, and its interval at a refresh-rate report, in ticks (R304): the device's. -/
opaque refreshLimit : Nat
opaque refreshInterval : Nat → Nat

end Sys2Proof.Config
end

