-- ==== Sys2Proof/Machine/Bits.lean ====
section
/-!
DEFINITION. Bit fields, sign extension, byte order and saturating counts: the helpers every register, descriptor and
message reader uses. Bit ranges are written high, low, as the manual writes them.
-/
namespace Sys2Proof.Machine

open Sys2Proof

/-- Bits `hi:lo` of a word, as a number. -/
def bits (w : Word) (hi lo : Nat) : Nat := w.toNat / 2 ^ lo % 2 ^ (hi + 1 - lo)

/-- One bit of a word. -/
def bit (w : Word) (i : Nat) : Bool := bits w i i == 1

/-- The mask of bits `hi:lo`. -/
def maskNat (hi lo : Nat) : Nat := (2 ^ (hi + 1 - lo) - 1) * 2 ^ lo

/-- The word with bits `hi:lo` replaced by `v` (cut to the field's width). -/
def setBits (w : Word) (hi lo v : Nat) : Word :=
  BitVec.ofNat 64 (w.toNat - bits w hi lo * 2 ^ lo + v % 2 ^ (hi + 1 - lo) * 2 ^ lo)

/-- The word with one bit set or cleared. -/
def setBit (w : Word) (i : Nat) (b : Bool) : Word := setBits w i i (if b then 1 else 0)

/-- A number seen as a signed integer of `n` bits. -/
def signed (n v : Nat) : Int :=
  let m := v % 2 ^ n
  if m < 2 ^ (n - 1) then (m : Int) else (m : Int) - (2 ^ n : Nat)

/-- The low `n` bits of an integer, two's complement. -/
def unsignedOf (n : Nat) (v : Int) : Nat := (v % (2 ^ n : Nat)).toNat

/-- How far a 32-bit count has come since it read `b`, modulo 2^32. -/
def since32 (a b : Nat) : Nat := unsignedOf 32 ((a : Int) - b)

/-- A field of `n` bits that stops at its largest value (a saturating count). -/
def sat (n v : Nat) : Nat := min v (2 ^ n - 1)

/-- An integer held within a range. -/
def clampInt (lo hi v : Int) : Int := max lo (min hi v)

/-- A signed integer saturated to `n` bits. -/
def satInt (n : Nat) (v : Int) : Int := clampInt (-(2 ^ (n - 1) : Nat)) ((2 ^ (n - 1) : Nat) - 1) v

/-- The word whose 64 bits spell an integer. -/
def wordOfInt (v : Int) : Word := BitVec.ofInt 64 v

/-- A word of a number, cut to 64 bits. -/
def word (v : Nat) : Word := BitVec.ofNat 64 v

/-- Does the mask have bit `i`? -/
def maskHas (m i : Nat) : Bool := m / 2 ^ i % 2 == 1

/-- The bits of a mask below `n`, lowest first. -/
def maskBits (n m : Nat) : List Nat := (List.range n).filter (maskHas m)

/-- The mask with exactly the bits listed (each once). -/
def maskOf (l : List Nat) : Nat := l.foldl (fun acc i => if maskHas acc i then acc else acc + 2 ^ i) 0

/-- Both masks' common bits. -/
def maskAnd (a b : Nat) : Nat := Nat.land a b

/-- Either mask's bits. -/
def maskOr (a b : Nat) : Nat := Nat.lor a b

/-- The bits of `a` that `b` lacks. -/
def maskDiff (a b : Nat) : Nat := a - Nat.land a b

/-- A number of `n` bytes from its little-endian bytes (R9). -/
def leNat : List Byte → Nat
  | [] => 0
  | b :: r => b.toNat + 256 * leNat r

/-- The `n` little-endian bytes of a number. -/
def leBytes : Nat → Nat → List Byte
  | 0, _ => []
  | n + 1, v => BitVec.ofNat 8 v :: leBytes n (v / 256)

/-- Element `i` of a list that has a default beyond its end. -/
def nth {α : Type} [Inhabited α] (l : List α) (i : Nat) : α := l.getD i default

/-- The list with element `i` changed by `f`. An element the list does not reach is a default one, which `nth` reads there, so what is
written is what is read whatever the list's length. -/
def upd {α : Type} [Inhabited α] : List α → Nat → (α → α) → List α
  | [], 0, f => [f default]
  | [], i + 1, f => default :: upd [] i f
  | a :: r, 0, f => f a :: r
  | a :: r, i + 1, f => a :: upd r i f

/-- The list with element `i` replaced. -/
def put {α : Type} [Inhabited α] (l : List α) (i : Nat) (v : α) : List α := upd l i fun _ => v

/-- The index of the first element that satisfies `p`. -/
def firstIdx {α : Type} (p : α → Bool) (l : List α) : Option Nat := l.findIdx? p

/-- Bytes padded with zeros, or cut, to a length. -/
def padTo (n : Nat) (l : List (BitVec 8)) : List (BitVec 8) := l.take n ++ List.replicate (n - l.length) 0

end Sys2Proof.Machine
end

