-- ==== Sys2Proof/Machine/Flit.lean ====
section
/-!
DEFINITION. The bytes of a head flit and of its data flits (R269 to R271, R282, R418).
-/
namespace Sys2Proof.Machine

open Sys2Proof

/-- The type code of a message (R271). -/
def typeCode : MsgBody → Nat
  | .write .. => 0x01 | .reduce .. => 0x02 | .read .. => 0x03
  | .ack _ => 0x11 | .data _ => 0x12 | .refuse _ => 0x13 | .error => 0x14
  | .arrive _ => 0x21 | .confirm _ => 0x22 | .missing .. => 0x23 | .straggler .. => 0x24
  | .cgStaged _ => 0x28 | .cgRefused _ => 0x29 | .cgCommit _ => 0x2A | .cgAbort _ => 0x2B
  | .timeReq _ => 0x30 | .timeResp .. => 0x31 | .mgmt _ => 0x40
  | .reserved c => c

/-- The codes that R271 gives a meaning. -/
def knownCodes : List Nat :=
  [0x01, 0x02, 0x03, 0x11, 0x12, 0x13, 0x14, 0x21, 0x22, 0x23, 0x24, 0x28, 0x29, 0x2A, 0x2B, 0x30, 0x31, 0x40]

/-- The virtual channel of a message (R271): 0 request, 1 response, 2 barrier-and-time, 3 management. -/
def vcOf : MsgBody → Nat
  | .write .. | .reduce .. | .read .. => 0
  | .ack .. | .data .. | .refuse .. | .error => 1
  | .mgmt .. => 3
  | _ => 2

/-- Does a message take a data flit (R270, R271)? -/
def hasData : MsgBody → Bool
  | .write .. | .reduce .. | .data .. | .mgmt .. => true
  | _ => false

/-- The bytes of a message's data flit, before padding. -/
def dataBytesOf : MsgBody → List (BitVec 8)
  | .write _ _ b | .reduce _ _ _ _ b | .data b => b
  | .mgmt f => f.bytes
  | _ => []

/-- The 44 bytes after the eight that every slot begins with: of a management message as R418 lays them out; of the others R271 gives the
fields and not their places. -/
def slotTail (b : MsgBody) : List (BitVec 8) :=
  padTo 44 (match b with
    | .mgmt f => leBytes 1 f.kind ++ leBytes 1 0 ++ leBytes 2 f.ident ++ leBytes 2 f.index ++ leBytes 2 f.count ++ leBytes 2 f.bytes.length
    | .data _ | .error => []
    | _ => Config.slotFields b)

/-- A slot of 52 bytes (R270); `k` is the index of its data flit. -/
def slotBytes (k : Nat) (m : Msg) : List (BitVec 8) :=
  leBytes 1 (typeCode m.body) ++ leBytes 1 (if hasData m.body then 4 + k else 0) ++ leBytes 2 (m.src % 2 ^ 12) ++ leBytes 1 m.jgen ++
    leBytes 1 m.gctx ++ leBytes 2 m.tag ++ slotTail m.body

/-- The slots in order, their data flits numbered as they come. -/
def slotsBytes (k : Nat) : List Msg → List (BitVec 8)
  | [] => []
  | m :: r => slotBytes k m ++ slotsBytes (if hasData m.body then k + 1 else k) r

/-- The data flits of messages, in index order. -/
def dataFlitsOf (l : List Msg) : List (BitVec 8) := ((l.filter fun m => hasData m.body).map fun m => padTo 256 (dataBytesOf m.body)).flatten

/-- What a job key encrypts (R282): the four slots, then the data flits. -/
def plainBytes (l : List Msg) : List (BitVec 8) := padTo 208 (slotsBytes 0 l) ++ dataFlitsOf l

/-- Bytes 0x10 to 0x1B of a head: its IV (R269). -/
def headIv (h : Head) : List (BitVec 8) := leBytes 2 (h.ivSrc % 2 ^ 12) ++ leBytes 10 h.ivCount

/-- Bytes 0x00 to 0x1F, which travel in clear (R269). -/
def headClear (h : Head) : List (BitVec 8) :=
  leBytes 2 (h.dst % 2 ^ 12) ++ leBytes 2 (h.src % 2 ^ 12) ++
    leBytes 1 (h.vc % 4 + 4 * (h.slots - 1) + 16 * h.dataFlits + (if h.enc then 128 else 0)) ++ leBytes 1 (h.hop % 32 + 32 * (h.phase % 2)) ++
    leBytes 2 h.job ++ leBytes 4 h.sent ++ leBytes 4 0 ++ (headIv h) ++ leBytes 4 0

/-- The additional data of R282: byte 0x05 reads as zero. -/
def headAad (h : Head) : List (BitVec 8) := put (headClear h) 5 0

/-- A head and its data flits on the wire. -/
def headBytes (h : Head) : List (BitVec 8) :=
  let body := if h.enc then h.sealed else plainBytes h.msgs
  (headClear h) ++ body.take 208 ++ leBytes 16 h.tag ++ body.drop 208

/-- Flits a head takes: itself and its data flits. -/
def flitsOf (h : Head) : Nat := 1 + h.dataFlits

/-- The flits of a head, in order. -/
def headFlits (h : Head) : List (List (BitVec 8)) := (List.range (flitsOf h)).map fun i => ((headBytes h).drop (256 * i)).take 256

/-- The head that carries messages. -/
def headWith (h : Head) (l : List Msg) : Head :=
  { h with msgs := l, slots := l.length, dataFlits := (l.filter fun m => hasData m.body).length }

end Sys2Proof.Machine
end

