-- ==== Sys2Proof/Machine/Straps.lean ====
section
/-!
DEFINITION. The build and the straps (R1, R435), and the figures of R1 and R457 that follow from them. The straps are
sampled when pwr_good rises and are constant after.
-/
namespace Sys2Proof.Machine

/-- The three builds of one design (R1). -/
inductive Build where
  | c1 | c2 | c4
  deriving DecidableEq, Repr, Inhabited

/-- The build and the straps of R435. -/
structure Straps where
  build : Build
  gangSize : Nat
  gangMember : Nat
  c1Channels : Nat
  capDefault : Nat
  freezeMode : Bool
  deriving DecidableEq, Repr, Inhabited

namespace Straps

/-- Clusters of the build (R1). -/
def clusters (t : Straps) : Nat := match t.build with | .c1 => 1 | .c2 => 2 | .c4 => 4
/-- Tiles of the build, four per cluster (R1). -/
def tiles (t : Straps) : Nat := 4 * t.clusters
/-- Attached channels (R1, R435). -/
def channels (t : Straps) : Nat := match t.build with | .c1 => min 4 t.c1Channels | .c2 => 8 | .c4 => 16
/-- Barrows, six per cluster (R1). -/
def barrows (t : Straps) : Nat := 6 * t.clusters
/-- Hardware contexts (R1, R450). -/
def contexts (t : Straps) : Nat := match t.build with | .c1 => 16 | .c2 => 32 | .c4 => 64
/-- Link ports, package ports first (R1, R457). -/
def ports (t : Straps) : Nat := match t.build with | .c1 => 0 | .c2 => 2 | .c4 => 8
/-- BELL_LINKn instances (R457). -/
def bellLinks (t : Straps) : Nat := t.ports
/-- Job slots (R457). -/
def jobSlots (t : Straps) : Nat := match t.build with | .c1 => 0 | .c2 => 8 | .c4 => 16
/-- Outstanding memory and fabric transactions (R1). -/
def transactions (t : Straps) : Nat := match t.build with | .c1 => 8192 | _ => 16384
/-- Peak power at OPP0, in 0.1 W (R1). -/
def peakPower (t : Straps) : Nat := match t.build with | .c1 => 300 | .c2 => 600 | .c4 => 1180
/-- Memory-controller quads in the build (R33). -/
def quads (t : Straps) : Nat := (t.channels + 3) / 4

end Straps

/-- INS_STRAPS (R442): the straps as sampled, and the build. -/
def strapsWord (t : Straps) : Nat :=
  t.capDefault % 2 ^ 16 * 2 ^ 48 + t.gangMember % 16 * 2 ^ 20 + t.gangSize % 16 * 2 ^ 16 + t.c1Channels % 8 * 2 ^ 8 +
    (if t.freezeMode then 16 else 0) + (match t.build with | .c1 => 1 | .c2 => 2 | .c4 => 3)

/-- PWR_CAP at reset (R382, R435): 95 W in a C4; the strap in a C1 or C2, the build's peak when it lies out of range. -/
def capReset (t : Straps) : Nat :=
  if t.build = .c4 then 0x03B6
  else if t.peakPower ≤ 10 * t.capDefault ∧ t.capDefault ≤ t.peakPower then t.capDefault else t.peakPower

/-- The coefficients of R387 by index (pJ for 0 to 12, mW for 16 to 21). -/
def coefReset (k : Nat) : Nat :=
  match k with
  | 0 => 2300 | 1 => 9200 | 2 => 2100 | 3 => 400 | 4 => 2 | 5 => 10 | 6 => 14 | 7 => 300 | 8 => 150 | 9 => 20
  | 10 => 1000 | 11 => 700 | 12 => 700
  | 16 => 400 | 17 => 500 | 18 => 600 | 19 => 800 | 20 => 1500 | 21 => 200
  | _ => 0

end Sys2Proof.Machine
end

