-- ==== Sys2Proof/Machine/RegMap.lean ====
section
/-!
DEFINITION. The register map (Register map, R443, R450, R456, R457): one row per register with its offset, the strides and
counts of its instances in the build, its fields with their access codes (R10), who may write each field (R449, R412), which
bits the kernel may read (R449), its value after power-on reset (R456) and the commit-group member that stages it (R33).
Reserved bits belong to no field: they read zero and discard writes (R9).
-/
namespace Sys2Proof.Machine

/-- Every register of the map, by the manual's name; an instance is a name and its indexes. -/
inductive RegName where
   | bellNow | bellCtrl | bellStatus | bellServo | bellServoX | bellPps | bellTod | bellOffset | bellFreq | bellStep
   | bellEvent | bellLink | bellCadPeriod | bellCadOrigin | cgOpen | cgArm | cgCancel | cgStatus | cgAcked | cgJob
   | cgJobStatus | criCtrl | criStatus | criEvent | criLate | barTxn | barTxnX | barEvent | barPool | barStatus
   | barBytes | barReplay | xltCtrl | xltFmt | xltFmtX0 | xltFmtX1 | xltPri | xltEvent | xltInv | xltDinvAddr
   | xltDinvCtl | xltDinvStatus | xltTcHit | xltTcMiss | memMap | memCtrl | memPolicy | memPolicyX | memEvent
   | memClearAddr | memClearCtl | memClearStatus | memInject | memHpa | memChStatus | memChErr | memChAct | pwrOpp
   | pwrStatus | pwrCap | pwrPolicy | pwrPolicyX | pwrTherm | pwrTemp | pwrDroop | pwrDroopX | pwrDroopCnt | pwrEvent
   | pwrRest | pwrRestStatus | pwrInswdt | pwrTest | pwrThrt | pwrRailCfg | pwrRailRead | pwrLedgerEst | pwrLedgerMeas
   | pwrLedgerScale | pwrLedgerIdle | pwrCoef | pwrCoefLeak | pwrDlogT | pwrDlogD | ctxCmd | ctxCmdStatus | ctxKirq
   | ctxMgmt | ctxMgmtEn | ctxSummary | ctxTiles | ctxQosSlot | ctxQosTable | errCtrl | errLogWritten | errLogConsumed
   | errInject | errBreset | errBresetStatus | errDumpBase | errDumpCfg | errDumpStatus | errDumpSkip | errSampleEn
   | errSample | errHostport | errCnt | errLog | insCtrl | insStatus | insEvent | insId0 | insId1 | insSession
   | insCmdLast | insCmdStatus | insCmdDoor | insOproot | insMkeyCtl | insMkey | insJkeyCtl | insBoot | insStraps
   | insCmdBuf | insRspBuf | sthLaneStatus | sthLanePc | sthArmFill | sthArmFillX | sthArmRepair | sthArmBusy
   | sthArmFillcnt | sthScrConf | sthScrEcc | sthScrCluster | dbgApSel | dbgStat | fabId | fabCtrl | fabEvent
   | fabRefused | fabLastref | fabDrops | fabOverrun | fabPortCfg | fabPortFlits | fabJobCfg | fabJobMap
   | fabJobStatus | fabWinBase | fabWinCfg | fabBarCfg | fabBarStatus | fabBarGctx | fabBchild | fabJmap | fabRt
   | ctxLease | ctxLeaseCs | ctxQos | ctxCadgrant | ctxIrq | ctxAttn | ctxRingBase | ctxRingCfg | ctxCqBase | ctxCqCfg
   | ctxSubmit | ctxKabort | ctxKabortStatus | ctxFlight | ctxTally | ctxUndel | ctxUndelStatus | ctxNumCtrl
   | ctxNumStatus | ctxNumTotal | ctxDigW | ctxDigState | ctxSegBase | ctxSegLimit | ctxSegTarget | ctxXltCfg
   | ctxXltDroot | ctxXltHroot | ctxXltFault | ctxXltFcause | ctxXltPrq | ctxDoorbell | ctxAbort | ctxAbortStatus
   | ctxUstatus | ctxHead | ctxCqHead | ctxCqTail | ctxUtime | ctxUcnt | ctxUenergy | ctxUlast
  deriving DecidableEq, Repr, Inhabited

/-- The access codes of R10. -/
inductive Acc where
  /-- current value; writes ignored -/
  | ro
  /-- replaced by a write -/
  | rw
  /-- a 1 clears -/
  | w1c
  /-- a 1 sets -/
  | w1s
  /-- reads zero; a write acts -/
  | wo
  /-- staged; in force when a commit group fires -/
  | sh
  deriving DecidableEq, Repr, Inhabited

/-- Who may write or stage a field (R449, R412). -/
inductive Writer where
  /-- the kernel (or the tenant on its user page) and the operator -/
  | host
  /-- the operator only -/
  | operator
  /-- the Inspector only (R412) -/
  | inspector
  deriving DecidableEq, Repr, Inhabited

/-- One field: bits `hi:lo`, its access code, its writer. -/
structure Field where
  hi : Nat
  lo : Nat
  acc : Acc
  wr : Writer
  deriving DecidableEq, Repr, Inhabited

/-- One row of the register map: instance `ix` stands at `base + Σ stride k * ix k`. -/
structure RegRow where
  name : RegName
  base : Nat
  dims : List (Nat × (Straps → Nat))
  fields : List Field
  reset : Straps → List Nat → Nat
  member : Option (List Nat → Nat)
  kernelReads : Nat

/-- All 64 bits. -/
def allBits : Nat := 2 ^ 64 - 1
/-- Bits 63:32. -/
def hiHalf : Nat := (2 ^ 32 - 1) * 2 ^ 32
/-- Bits 31:0. -/
def loHalf : Nat := 2 ^ 32 - 1

/-- The bell registers (R443, R456). -/
def bellRows : List RegRow := [
  ⟨.bellNow, 0x0, [], [⟨63, 0, .ro, .host⟩],
    fun _ _ => 0, none, allBits⟩,
  ⟨.bellCtrl, 0x8, [], [⟨63, 48, .rw, .operator⟩, ⟨47, 32, .rw, .operator⟩, ⟨23, 16, .rw, .operator⟩, ⟨11, 8, .rw, .operator⟩, ⟨1, 0, .rw, .operator⟩],
    fun _ _ => 0x0008006400000000, none, allBits⟩,
  ⟨.bellStatus, 0x10, [], [⟨63, 32, .ro, .host⟩, ⟨31, 16, .ro, .host⟩, ⟨2, 0, .ro, .host⟩],
    fun _ _ => 0xFFFFFFFF00000000, none, allBits⟩,
  ⟨.bellServo, 0x18, [], [⟨63, 63, .ro, .operator⟩, ⟨7, 0, .rw, .operator⟩],
    fun _ _ => 1, none, allBits⟩,
  ⟨.bellServoX, 0x20, [], [⟨63, 40, .rw, .operator⟩, ⟨39, 32, .rw, .operator⟩, ⟨31, 16, .rw, .operator⟩, ⟨15, 0, .rw, .operator⟩],
    fun _ _ => 0x000FA03220000400, none, allBits⟩,
  ⟨.bellPps, 0x28, [], [⟨63, 0, .ro, .host⟩],
    fun _ _ => 0, none, allBits⟩,
  ⟨.bellTod, 0x30, [], [⟨47, 0, .ro, .host⟩],
    fun _ _ => 0, none, allBits⟩,
  ⟨.bellOffset, 0x38, [], [⟨63, 0, .ro, .host⟩],
    fun _ _ => 0, none, allBits⟩,
  ⟨.bellFreq, 0x40, [], [⟨31, 0, .ro, .host⟩],
    fun _ _ => 0, none, allBits⟩,
  ⟨.bellStep, 0x48, [], [⟨63, 0, .sh, .inspector⟩],
    fun _ _ => 0, some (fun _ => 0), allBits⟩,
  ⟨.bellEvent, 0x50, [], [⟨6, 6, .w1c, .host⟩, ⟨5, 5, .w1c, .host⟩, ⟨4, 4, .w1c, .host⟩, ⟨3, 3, .w1c, .host⟩, ⟨2, 2, .w1c, .host⟩, ⟨1, 1, .w1c, .host⟩, ⟨0, 0, .w1c, .host⟩],
    fun _ _ => 0, none, allBits⟩,
  ⟨.bellLink, 0x80, [(0x8, fun t => t.bellLinks)], [⟨63, 48, .rw, .operator⟩, ⟨31, 0, .ro, .operator⟩],
    fun _ _ => 0, none, allBits⟩,
  ⟨.bellCadPeriod, 0x100, [(0x10, fun _ => 16)], [⟨63, 32, .sh, .host⟩, ⟨31, 0, .sh, .host⟩],
    fun _ _ => 0, some (fun _ => 0), allBits⟩,
  ⟨.bellCadOrigin, 0x108, [(0x10, fun _ => 16)], [⟨63, 0, .sh, .host⟩],
    fun _ _ => 0, some (fun _ => 0), allBits⟩]

/-- The cg registers (R443, R456). -/
def cgRows : List RegRow := [
  ⟨.cgOpen, 0x1000, [(0x40, fun _ => 4)], [⟨47, 32, .wo, .host⟩, ⟨31, 0, .wo, .host⟩],
    fun _ _ => 0, none, allBits⟩,
  ⟨.cgArm, 0x1008, [(0x40, fun _ => 4)], [⟨63, 0, .wo, .host⟩],
    fun _ _ => 0, none, allBits⟩,
  ⟨.cgCancel, 0x1010, [(0x40, fun _ => 4)], [⟨0, 0, .wo, .host⟩],
    fun _ _ => 0, none, allBits⟩,
  ⟨.cgStatus, 0x1018, [(0x40, fun _ => 4)], [⟨63, 32, .ro, .host⟩, ⟨23, 16, .ro, .host⟩, ⟨2, 0, .ro, .host⟩],
    fun _ _ => 0, none, allBits⟩,
  ⟨.cgAcked, 0x1020, [(0x40, fun _ => 4)], [⟨31, 0, .ro, .host⟩],
    fun _ _ => 0, none, allBits⟩,
  ⟨.cgJob, 0x1028, [(0x40, fun _ => 4)], [⟨63, 63, .rw, .host⟩, ⟨53, 48, .rw, .host⟩, ⟨44, 32, .rw, .host⟩, ⟨27, 16, .rw, .host⟩, ⟨15, 0, .rw, .host⟩],
    fun _ _ => 0, none, allBits⟩,
  ⟨.cgJobStatus, 0x1030, [(0x40, fun _ => 4)], [⟨63, 52, .ro, .host⟩, ⟨44, 32, .ro, .host⟩, ⟨1, 0, .ro, .host⟩],
    fun _ _ => 0, none, allBits⟩]

/-- The cri registers (R443, R456). -/
def criRows : List RegRow := [
  ⟨.criCtrl, 0x2000, [], [⟨0, 0, .rw, .host⟩],
    fun _ _ => 1, none, allBits⟩,
  ⟨.criStatus, 0x2008, [], [⟨47, 32, .ro, .host⟩, ⟨4, 0, .ro, .host⟩],
    fun _ _ => 0, none, allBits⟩,
  ⟨.criEvent, 0x2010, [], [⟨3, 3, .w1c, .host⟩, ⟨2, 2, .w1c, .host⟩, ⟨1, 1, .w1c, .host⟩, ⟨0, 0, .w1c, .host⟩],
    fun _ _ => 0, none, allBits⟩,
  ⟨.criLate, 0x2018, [], [⟨63, 0, .ro, .host⟩],
    fun _ _ => 0, none, allBits⟩]

/-- The bar registers (R443, R456). -/
def barRows : List RegRow := [
  ⟨.barTxn, 0x3000, [], [⟨63, 63, .ro, .operator⟩, ⟨7, 0, .sh, .operator⟩],
    fun _ _ => 0, some (fun _ => 3), allBits⟩,
  ⟨.barTxnX, 0x3008, [], [⟨47, 32, .sh, .operator⟩, ⟨31, 16, .sh, .operator⟩, ⟨15, 0, .sh, .operator⟩],
    fun t _ => if t.build = .c1 then 0x0000080001000200 else 0x0000080001000400, some (fun _ => 3), allBits⟩,
  ⟨.barEvent, 0x3010, [], [⟨2, 2, .w1c, .host⟩, ⟨1, 1, .w1c, .host⟩, ⟨0, 0, .w1c, .host⟩],
    fun _ _ => 0, none, allBits⟩,
  ⟨.barPool, 0x3018, [], [⟨47, 32, .ro, .host⟩, ⟨31, 16, .ro, .host⟩, ⟨15, 0, .ro, .host⟩],
    fun _ _ => 0, none, allBits⟩,
  ⟨.barStatus, 0x3100, [(0x10, fun t => t.barrows)], [⟨63, 56, .ro, .host⟩, ⟨55, 50, .ro, .host⟩, ⟨47, 32, .ro, .host⟩, ⟨31, 28, .ro, .host⟩, ⟨27, 26, .ro, .host⟩, ⟨2, 0, .ro, .host⟩],
    fun _ _ => 0, none, allBits⟩,
  ⟨.barBytes, 0x3108, [(0x10, fun t => t.barrows)], [⟨63, 0, .ro, .host⟩],
    fun _ _ => 0, none, allBits⟩,
  ⟨.barReplay, 0x3300, [(0x8, fun t => t.barrows)], [⟨63, 32, .ro, .host⟩, ⟨31, 0, .ro, .host⟩],
    fun _ _ => 0, none, allBits⟩]

/-- The xlt registers (R443, R456). -/
def xltRows : List RegRow := [
  ⟨.xltCtrl, 0x4000, [], [⟨11, 8, .ro, .host⟩, ⟨7, 4, .ro, .host⟩, ⟨1, 1, .rw, .host⟩, ⟨0, 0, .rw, .host⟩],
    fun t _ => match t.build with | .c1 => 0 | .c2 => 0x0410 | .c4 => 0x0820, none, allBits⟩,
  ⟨.xltFmt, 0x4008, [], [⟨63, 63, .ro, .operator⟩, ⟨7, 0, .sh, .operator⟩],
    fun _ _ => 0, some (fun _ => 2), allBits⟩,
  ⟨.xltFmtX0, 0x4010, [], [⟨55, 50, .sh, .operator⟩, ⟨49, 44, .sh, .operator⟩, ⟨43, 38, .sh, .operator⟩, ⟨37, 32, .sh, .operator⟩, ⟨31, 26, .sh, .operator⟩, ⟨25, 20, .sh, .operator⟩, ⟨19, 14, .sh, .operator⟩, ⟨13, 8, .sh, .operator⟩, ⟨7, 2, .sh, .operator⟩],
    fun t _ => if t.build = .c1 then 0 else 0x00D4C14418304200, some (fun _ => 2), allBits⟩,
  ⟨.xltFmtX1, 0x4018, [], [⟨23, 16, .sh, .operator⟩, ⟨11, 8, .sh, .operator⟩, ⟨7, 4, .sh, .operator⟩, ⟨3, 0, .sh, .operator⟩],
    fun t _ => if t.build = .c1 then 0 else 0x00070490, some (fun _ => 2), allBits⟩,
  ⟨.xltPri, 0x4020, [], [⟨47, 32, .rw, .host⟩, ⟨9, 0, .rw, .host⟩],
    fun _ _ => 0x000007D000000000, none, allBits⟩,
  ⟨.xltEvent, 0x4028, [], [⟨6, 6, .w1c, .host⟩, ⟨5, 5, .w1c, .host⟩, ⟨4, 4, .w1c, .host⟩, ⟨3, 3, .w1c, .host⟩, ⟨2, 2, .w1c, .host⟩, ⟨1, 1, .w1c, .host⟩, ⟨0, 0, .w1c, .host⟩],
    fun _ _ => 0, none, allBits⟩,
  ⟨.xltInv, 0x4030, [], [⟨63, 32, .ro, .host⟩, ⟨5, 0, .ro, .host⟩],
    fun _ _ => 0, none, allBits⟩,
  ⟨.xltDinvAddr, 0x4040, [], [⟨63, 12, .rw, .host⟩],
    fun _ _ => 0, none, allBits⟩,
  ⟨.xltDinvCtl, 0x4048, [], [⟨47, 16, .wo, .host⟩, ⟨13, 8, .wo, .host⟩, ⟨0, 0, .wo, .host⟩],
    fun _ _ => 0, none, allBits⟩,
  ⟨.xltDinvStatus, 0x4050, [], [⟨63, 32, .ro, .host⟩, ⟨31, 16, .ro, .host⟩, ⟨2, 0, .ro, .host⟩],
    fun _ _ => 0, none, allBits⟩,
  ⟨.xltTcHit, 0x4080, [(0x10, fun t => t.clusters)], [⟨63, 0, .ro, .host⟩],
    fun _ _ => 0, none, allBits⟩,
  ⟨.xltTcMiss, 0x4088, [(0x10, fun t => t.clusters)], [⟨63, 0, .ro, .host⟩],
    fun _ _ => 0, none, allBits⟩]

/-- The mem registers (R443, R456). -/
def memRows : List RegRow := [
  ⟨.memMap, 0x5000, [], [⟨47, 32, .rw, .operator⟩, ⟨17, 16, .rw, .operator⟩, ⟨12, 8, .rw, .operator⟩, ⟨0, 0, .rw, .operator⟩],
    fun t _ => match t.build with | .c4 => 0x0000FFFF00020C01 | .c2 => 0x000000FF00020C01 | .c1 => (2 ^ t.c1Channels - 1) * 2 ^ 32 + 0x00020C01, none, allBits⟩,
  ⟨.memCtrl, 0x5008, [], [⟨1, 1, .ro, .operator⟩, ⟨0, 0, .rw, .operator⟩],
    fun _ _ => 0, none, allBits⟩,
  ⟨.memPolicy, 0x5010, [], [⟨63, 63, .ro, .operator⟩, ⟨7, 0, .sh, .operator⟩],
    fun _ _ => 0, some (fun _ => 12), allBits⟩,
  ⟨.memPolicyX, 0x5018, [], [⟨63, 48, .sh, .operator⟩, ⟨47, 40, .sh, .operator⟩, ⟨39, 32, .sh, .operator⟩, ⟨19, 8, .sh, .operator⟩, ⟨4, 4, .sh, .operator⟩, ⟨3, 0, .sh, .operator⟩],
    fun _ _ => 0x07D0301000006409, some (fun _ => 12), allBits⟩,
  ⟨.memEvent, 0x5020, [], [⟨5, 5, .w1c, .host⟩, ⟨4, 4, .w1c, .host⟩, ⟨3, 3, .w1c, .host⟩, ⟨2, 2, .w1c, .host⟩, ⟨1, 1, .w1c, .host⟩, ⟨0, 0, .w1c, .host⟩],
    fun _ _ => 0, none, allBits⟩,
  ⟨.memClearAddr, 0x5028, [], [⟨42, 12, .rw, .host⟩],
    fun _ _ => 0, none, allBits⟩,
  ⟨.memClearCtl, 0x5030, [], [⟨39, 8, .wo, .host⟩, ⟨0, 0, .wo, .host⟩],
    fun _ _ => 0, none, allBits⟩,
  ⟨.memClearStatus, 0x5038, [], [⟨31, 16, .ro, .host⟩, ⟨2, 0, .ro, .host⟩],
    fun _ _ => 0, none, allBits⟩,
  ⟨.memInject, 0x5040, [], [⟨63, 62, .rw, .operator⟩, ⟨42, 6, .rw, .operator⟩],
    fun _ _ => 0, none, allBits⟩,
  ⟨.memHpa, 0x5048, [], [⟨54, 12, .rw, .host⟩, ⟨0, 0, .rw, .host⟩],
    fun _ _ => 0, none, allBits⟩,
  ⟨.memChStatus, 0x5100, [(0x10, fun t => if t.build = .c1 then 4 else t.channels)], [⟨15, 8, .ro, .host⟩, ⟨2, 0, .ro, .host⟩],
    fun _ _ => 0, none, allBits⟩,
  ⟨.memChErr, 0x5108, [(0x10, fun t => if t.build = .c1 then 4 else t.channels)], [⟨63, 48, .ro, .host⟩, ⟨47, 32, .ro, .host⟩, ⟨31, 16, .ro, .host⟩, ⟨15, 0, .ro, .host⟩],
    fun _ _ => 0, none, 0⟩,
  ⟨.memChAct, 0x5200, [(0x8, fun t => if t.build = .c1 then 4 else t.channels)], [⟨63, 40, .ro, .host⟩, ⟨39, 0, .ro, .host⟩],
    fun _ _ => 0, none, 0⟩]

/-- The pwr registers (R443, R456). -/
def pwrRows : List RegRow := [
  ⟨.pwrOpp, 0x6000, [], [⟨10, 8, .sh, .host⟩, ⟨2, 0, .sh, .host⟩],
    fun _ _ => 0, some (fun _ => 5), allBits⟩,
  ⟨.pwrStatus, 0x6008, [], [⟨37, 37, .ro, .host⟩, ⟨36, 36, .ro, .host⟩, ⟨35, 35, .ro, .host⟩, ⟨34, 34, .ro, .host⟩, ⟨33, 33, .ro, .host⟩, ⟨32, 32, .ro, .host⟩, ⟨26, 24, .ro, .host⟩, ⟨22, 20, .ro, .host⟩, ⟨18, 16, .ro, .host⟩, ⟨14, 12, .ro, .host⟩, ⟨10, 8, .ro, .host⟩, ⟨6, 4, .ro, .host⟩, ⟨2, 0, .ro, .host⟩],
    fun _ _ => 0x07000000, none, allBits⟩,
  ⟨.pwrCap, 0x6010, [], [⟨15, 0, .rw, .operator⟩],
    fun t _ => capReset t, none, allBits⟩,
  ⟨.pwrPolicy, 0x6018, [], [⟨63, 63, .ro, .operator⟩, ⟨7, 0, .sh, .operator⟩],
    fun _ _ => 0, some (fun _ => 5), 0⟩,
  ⟨.pwrPolicyX, 0x6020, [], [⟨63, 48, .sh, .operator⟩, ⟨39, 32, .sh, .operator⟩, ⟨23, 16, .sh, .operator⟩, ⟨15, 8, .sh, .operator⟩, ⟨7, 0, .sh, .operator⟩],
    fun _ _ => 0x001E001900550807, some (fun _ => 5), 0⟩,
  ⟨.pwrTherm, 0x6028, [], [⟨23, 16, .rw, .operator⟩, ⟨15, 8, .rw, .operator⟩, ⟨7, 0, .rw, .operator⟩],
    fun _ _ => 0x00736405, none, 0⟩,
  ⟨.pwrTemp, 0x6030, [], [⟨53, 48, .ro, .host⟩, ⟨15, 0, .ro, .host⟩],
    fun _ _ => 0, none, 0⟩,
  ⟨.pwrDroop, 0x6038, [], [⟨63, 63, .ro, .operator⟩, ⟨7, 0, .sh, .operator⟩],
    fun _ _ => 0, some (fun _ => 5), 0⟩,
  ⟨.pwrDroopX, 0x6040, [], [⟨31, 16, .sh, .operator⟩, ⟨15, 8, .sh, .operator⟩, ⟨7, 0, .sh, .operator⟩],
    fun _ _ => 0x03E80105, some (fun _ => 5), 0⟩,
  ⟨.pwrDroopCnt, 0x6048, [], [⟨63, 0, .ro, .host⟩],
    fun _ _ => 0, none, 0⟩,
  ⟨.pwrEvent, 0x6050, [], [⟨8, 8, .w1c, .operator⟩, ⟨7, 7, .w1c, .operator⟩, ⟨6, 6, .w1c, .operator⟩, ⟨5, 5, .w1c, .operator⟩, ⟨4, 4, .w1c, .operator⟩, ⟨3, 3, .w1c, .operator⟩, ⟨2, 2, .w1c, .operator⟩, ⟨1, 1, .w1c, .operator⟩, ⟨0, 0, .w1c, .operator⟩],
    fun _ _ => 0, none, 0⟩,
  ⟨.pwrRest, 0x6058, [], [⟨32, 32, .rw, .host⟩, ⟨19, 16, .rw, .host⟩, ⟨15, 0, .rw, .host⟩],
    fun _ _ => 0, none, allBits⟩,
  ⟨.pwrRestStatus, 0x6060, [], [⟨51, 48, .ro, .host⟩, ⟨47, 32, .ro, .host⟩, ⟨19, 16, .ro, .host⟩, ⟨15, 0, .ro, .host⟩],
    fun _ _ => 0, none, allBits⟩,
  ⟨.pwrInswdt, 0x6068, [], [⟨15, 0, .rw, .inspector⟩],
    fun _ _ => 0x64, none, 0⟩,
  ⟨.pwrTest, 0x6070, [], [⟨4, 4, .rw, .operator⟩, ⟨3, 0, .rw, .operator⟩],
    fun _ _ => 0, none, 0⟩,
  ⟨.pwrThrt, 0x6078, [], [⟨63, 48, .ro, .host⟩, ⟨47, 32, .ro, .host⟩, ⟨31, 16, .ro, .host⟩, ⟨15, 0, .ro, .host⟩],
    fun _ _ => 0, none, allBits⟩,
  ⟨.pwrRailCfg, 0x6100, [(0x10, fun _ => 4)], [⟨10, 10, .rw, .operator⟩, ⟨9, 8, .rw, .operator⟩, ⟨6, 0, .rw, .operator⟩],
    fun _ _ => 0, none, 0⟩,
  ⟨.pwrRailRead, 0x6108, [(0x10, fun _ => 4)], [⟨63, 48, .ro, .host⟩, ⟨47, 32, .ro, .host⟩, ⟨31, 24, .ro, .host⟩, ⟨23, 16, .ro, .host⟩, ⟨15, 0, .ro, .host⟩],
    fun _ _ => 0, none, 0⟩,
  ⟨.pwrLedgerEst, 0x6200, [], [⟨63, 0, .ro, .host⟩],
    fun _ _ => 0, none, 0⟩,
  ⟨.pwrLedgerMeas, 0x6208, [], [⟨63, 0, .ro, .host⟩],
    fun _ _ => 0, none, 0⟩,
  ⟨.pwrLedgerScale, 0x6210, [], [⟨32, 32, .ro, .host⟩, ⟨31, 16, .ro, .host⟩, ⟨15, 0, .ro, .host⟩],
    fun _ _ => 0x04000400, none, 0⟩,
  ⟨.pwrLedgerIdle, 0x6218, [], [⟨63, 0, .ro, .host⟩],
    fun _ _ => 0, none, 0⟩,
  ⟨.pwrCoef, 0x6300, [(0x8, fun _ => 13)], [⟨31, 0, .rw, .inspector⟩],
    fun _ ix => coefReset (ix.headD 0), none, 0⟩,
  ⟨.pwrCoefLeak, 0x6380, [(0x8, fun _ => 6)], [⟨31, 0, .rw, .inspector⟩],
    fun _ ix => coefReset (16 + ix.headD 0), none, 0⟩,
  ⟨.pwrDlogT, 0x6400, [(0x10, fun _ => 32)], [⟨63, 0, .ro, .host⟩],
    fun _ _ => 0, none, 0⟩,
  ⟨.pwrDlogD, 0x6408, [(0x10, fun _ => 32)], [⟨63, 32, .ro, .host⟩, ⟨31, 24, .ro, .host⟩, ⟨15, 0, .ro, .host⟩],
    fun _ _ => 0, none, 0⟩]

/-- The ctx registers (R443, R456). -/
def ctxRows : List RegRow := [
  ⟨.ctxCmd, 0x7000, [], [⟨13, 8, .wo, .host⟩, ⟨2, 0, .wo, .host⟩],
    fun _ _ => 0, none, allBits⟩,
  ⟨.ctxCmdStatus, 0x7008, [], [⟨23, 16, .ro, .host⟩, ⟨13, 8, .ro, .host⟩, ⟨6, 4, .ro, .host⟩, ⟨1, 0, .ro, .host⟩],
    fun _ _ => 0, none, allBits⟩,
  ⟨.ctxKirq, 0x7010, [], [⟨1, 0, .rw, .host⟩],
    fun _ _ => 0, none, allBits⟩,
  ⟨.ctxMgmt, 0x7018, [], [⟨7, 7, .w1c, .host⟩, ⟨6, 6, .w1c, .host⟩, ⟨5, 5, .w1c, .host⟩, ⟨4, 4, .w1c, .host⟩, ⟨3, 3, .w1c, .host⟩, ⟨2, 2, .w1c, .host⟩, ⟨1, 1, .w1c, .host⟩, ⟨0, 0, .w1c, .host⟩],
    fun _ _ => 0, none, allBits⟩,
  ⟨.ctxMgmtEn, 0x7020, [], [⟨7, 0, .rw, .host⟩],
    fun _ _ => 0xFF, none, allBits⟩,
  ⟨.ctxSummary, 0x7040, [(0x8, fun _ => 4)], [⟨63, 0, .ro, .host⟩],
    fun _ _ => 0, none, allBits⟩,
  ⟨.ctxTiles, 0x7060, [(0x8, fun t => if t.build = .c4 then 2 else 1)], [⟨63, 0, .ro, .host⟩],
    fun _ _ => 0, none, allBits⟩,
  ⟨.ctxQosSlot, 0x7080, [], [⟨11, 0, .sh, .host⟩],
    fun _ _ => 0x3E8, some (fun _ => 12), allBits⟩,
  ⟨.ctxQosTable, 0x7088, [(0x8, fun _ => 4)], [⟨63, 0, .sh, .host⟩],
    fun _ _ => 0, some (fun _ => 12), allBits⟩]

/-- The err registers (R443, R456). -/
def errRows : List RegRow := [
  ⟨.errCtrl, 0x8000, [], [⟨3, 3, .rw, .operator⟩, ⟨2, 2, .rw, .operator⟩, ⟨1, 1, .rw, .operator⟩, ⟨0, 0, .rw, .operator⟩],
    fun _ _ => 5, none, allBits⟩,
  ⟨.errLogWritten, 0x8008, [], [⟨63, 32, .ro, .host⟩, ⟨31, 0, .ro, .host⟩],
    fun _ _ => 0, none, allBits⟩,
  ⟨.errLogConsumed, 0x8010, [], [⟨31, 0, .rw, .host⟩],
    fun _ _ => 0, none, allBits⟩,
  ⟨.errInject, 0x8018, [], [⟨63, 56, .rw, .operator⟩, ⟨55, 50, .rw, .operator⟩, ⟨49, 44, .rw, .operator⟩, ⟨43, 42, .rw, .operator⟩, ⟨41, 41, .ro, .operator⟩, ⟨24, 0, .rw, .operator⟩],
    fun _ _ => 0, none, 0⟩,
  ⟨.errBreset, 0x8020, [], [⟨0, 0, .wo, .operator⟩],
    fun _ _ => 0, none, 0⟩,
  ⟨.errBresetStatus, 0x8028, [], [⟨63, 32, .ro, .host⟩, ⟨9, 8, .ro, .host⟩, ⟨0, 0, .ro, .host⟩],
    fun _ _ => 0, none, allBits⟩,
  ⟨.errDumpBase, 0x8030, [], [⟨55, 12, .rw, .operator⟩],
    fun _ _ => 0, none, 0⟩,
  ⟨.errDumpCfg, 0x8038, [], [⟨9, 9, .rw, .operator⟩, ⟨8, 8, .rw, .operator⟩, ⟨6, 0, .rw, .operator⟩],
    fun _ _ => 0, none, 0⟩,
  ⟨.errDumpStatus, 0x8040, [], [⟨63, 0, .w1c, .operator⟩],
    fun _ _ => 0, none, 0⟩,
  ⟨.errDumpSkip, 0x8048, [], [⟨63, 0, .ro, .host⟩],
    fun _ _ => 0, none, 0⟩,
  ⟨.errSampleEn, 0x8050, [], [⟨63, 0, .rw, .operator⟩],
    fun _ _ => 0, none, 0⟩,
  ⟨.errSample, 0x8060, [(0x8, fun _ => 4)], [⟨38, 32, .rw, .operator⟩, ⟨27, 12, .rw, .operator⟩],
    fun _ _ => 0, none, 0⟩,
  ⟨.errHostport, 0x8080, [], [⟨39, 32, .ro, .operator⟩, ⟨31, 16, .ro, .operator⟩, ⟨4, 4, .wo, .operator⟩, ⟨3, 3, .wo, .operator⟩, ⟨2, 2, .ro, .operator⟩, ⟨1, 1, .ro, .operator⟩, ⟨0, 0, .ro, .operator⟩],
    fun _ _ => 0, none, allBits⟩,
  ⟨.errCnt, 0x8200, [(0x8, fun _ => 32)], [⟨63, 32, .ro, .host⟩, ⟨31, 0, .ro, .host⟩],
    fun _ _ => 0, none, hiHalf⟩,
  ⟨.errLog, 0x9000, [(0x20, fun _ => 64), (0x8, fun _ => 4)], [⟨63, 0, .ro, .host⟩],
    fun _ _ => 0, none, allBits⟩]

/-- The ins registers (R443, R456). -/
def insRows : List RegRow := [
  ⟨.insCtrl, 0xc000, [], [⟨0, 0, .w1s, .operator⟩],
    fun _ _ => 0, none, 0⟩,
  ⟨.insStatus, 0xc008, [], [⟨63, 48, .ro, .host⟩, ⟨47, 16, .ro, .host⟩, ⟨11, 10, .ro, .host⟩, ⟨9, 8, .ro, .host⟩, ⟨5, 4, .ro, .host⟩, ⟨2, 0, .ro, .host⟩],
    fun _ _ => 0, none, allBits⟩,
  ⟨.insEvent, 0xc010, [], [⟨6, 6, .w1c, .operator⟩, ⟨5, 5, .w1c, .operator⟩, ⟨4, 4, .w1c, .operator⟩, ⟨3, 3, .w1c, .operator⟩, ⟨2, 2, .w1c, .operator⟩, ⟨1, 1, .w1c, .operator⟩, ⟨0, 0, .w1c, .operator⟩],
    fun _ _ => 0, none, 0⟩,
  ⟨.insId0, 0xc018, [], [⟨63, 0, .ro, .host⟩],
    fun _ _ => 0, none, allBits⟩,
  ⟨.insId1, 0xc020, [], [⟨63, 0, .ro, .host⟩],
    fun _ _ => 0, none, allBits⟩,
  ⟨.insSession, 0xc028, [], [⟨63, 32, .ro, .host⟩, ⟨0, 0, .ro, .host⟩],
    fun _ _ => 0, none, allBits⟩,
  ⟨.insCmdLast, 0xc030, [], [⟨63, 0, .ro, .host⟩],
    fun _ _ => 0, none, allBits⟩,
  ⟨.insCmdStatus, 0xc038, [], [⟨63, 48, .ro, .host⟩, ⟨47, 32, .ro, .host⟩, ⟨15, 8, .ro, .host⟩, ⟨0, 0, .ro, .host⟩],
    fun _ _ => 0, none, allBits⟩,
  ⟨.insCmdDoor, 0xc040, [], [⟨12, 0, .wo, .host⟩],
    fun _ _ => 0, none, allBits⟩,
  ⟨.insOproot, 0xc080, [(0x8, fun _ => 6)], [⟨63, 0, .rw, .operator⟩],
    fun _ _ => 0, none, 0⟩,
  ⟨.insMkeyCtl, 0xc100, [], [⟨39, 32, .rw, .inspector⟩, ⟨20, 20, .ro, .inspector⟩, ⟨19, 16, .ro, .inspector⟩, ⟨3, 0, .ro, .inspector⟩],
    fun _ _ => 0x0000000A00000000, none, 0⟩,
  ⟨.insMkey, 0xc108, [(0x8, fun _ => 16)], [⟨63, 62, .ro, .host⟩, ⟨47, 32, .ro, .host⟩, ⟨31, 0, .ro, .host⟩],
    fun _ _ => 0, none, 0⟩,
  ⟨.insJkeyCtl, 0xc200, [(0x8, fun _ => 16)], [⟨55, 8, .ro, .inspector⟩, ⟨4, 4, .sh, .inspector⟩, ⟨2, 2, .ro, .inspector⟩, ⟨1, 0, .ro, .inspector⟩],
    fun _ _ => 0, some (fun _ => 4), 0⟩,
  ⟨.insBoot, 0xc300, [], [⟨63, 48, .ro, .host⟩, ⟨47, 40, .ro, .host⟩, ⟨6, 4, .ro, .host⟩, ⟨3, 0, .ro, .host⟩],
    fun _ _ => 0, none, allBits⟩,
  ⟨.insStraps, 0xc308, [], [⟨63, 48, .ro, .host⟩, ⟨23, 20, .ro, .host⟩, ⟨19, 16, .ro, .host⟩, ⟨10, 8, .ro, .host⟩, ⟨4, 4, .ro, .host⟩, ⟨1, 0, .ro, .host⟩],
    fun t _ => strapsWord t, none, allBits⟩,
  ⟨.insCmdBuf, 0xd000, [(0x8, fun _ => 512)], [⟨63, 0, .wo, .host⟩],
    fun _ _ => 0, none, allBits⟩,
  ⟨.insRspBuf, 0xe000, [(0x8, fun _ => 512)], [⟨63, 0, .ro, .host⟩],
    fun _ _ => 0, none, allBits⟩]

/-- The sth registers (R443, R456). -/
def sthRows : List RegRow := [
  ⟨.sthLaneStatus, 0x10000, [(0x1000, fun t => t.clusters), (0x10, fun _ => 4)], [⟨63, 56, .ro, .host⟩, ⟨55, 50, .ro, .host⟩, ⟨47, 32, .ro, .host⟩, ⟨31, 24, .ro, .host⟩, ⟨2, 0, .ro, .host⟩],
    fun _ _ => 0, none, allBits⟩,
  ⟨.sthLanePc, 0x10008, [(0x1000, fun t => t.clusters), (0x10, fun _ => 4)], [⟨63, 0, .ro, .host⟩],
    fun _ _ => 0, none, allBits⟩,
  ⟨.sthArmFill, 0x10400, [(0x1000, fun t => t.clusters)], [⟨63, 63, .ro, .host⟩, ⟨7, 0, .sh, .host⟩],
    fun _ _ => 1, some (fun ix => 8 + ix.headD 0), allBits⟩,
  ⟨.sthArmFillX, 0x10408, [(0x1000, fun t => t.clusters)], [⟨47, 32, .sh, .host⟩, ⟨31, 16, .sh, .host⟩, ⟨15, 8, .sh, .host⟩, ⟨0, 0, .sh, .host⟩],
    fun _ _ => 0x0000138807D00A01, some (fun ix => 8 + ix.headD 0), allBits⟩,
  ⟨.sthArmRepair, 0x10440, [(0x1000, fun t => t.clusters), (0x8, fun _ => 4)], [⟨15, 15, .ro, .host⟩, ⟨14, 14, .ro, .host⟩, ⟨9, 8, .ro, .host⟩, ⟨7, 4, .ro, .host⟩, ⟨3, 0, .ro, .host⟩],
    fun _ _ => 6, none, allBits⟩,
  ⟨.sthArmBusy, 0x10480, [(0x1000, fun t => t.clusters), (0x10, fun _ => 4)], [⟨63, 0, .ro, .host⟩],
    fun _ _ => 0, none, allBits⟩,
  ⟨.sthArmFillcnt, 0x10488, [(0x1000, fun t => t.clusters), (0x10, fun _ => 4)], [⟨63, 0, .ro, .host⟩],
    fun _ _ => 0, none, allBits⟩,
  ⟨.sthScrConf, 0x10500, [(0x1000, fun t => t.clusters), (0x10, fun _ => 4)], [⟨63, 32, .ro, .host⟩, ⟨31, 0, .ro, .host⟩],
    fun _ _ => 0, none, allBits⟩,
  ⟨.sthScrEcc, 0x10508, [(0x1000, fun t => t.clusters), (0x10, fun _ => 4)], [⟨63, 32, .ro, .host⟩, ⟨31, 0, .ro, .host⟩],
    fun _ _ => 0, none, 0⟩,
  ⟨.sthScrCluster, 0x10540, [(0x1000, fun t => t.clusters)], [⟨63, 48, .ro, .host⟩, ⟨47, 32, .ro, .host⟩, ⟨31, 0, .ro, .host⟩],
    fun _ _ => 0, none, loHalf⟩]

/-- The dbg registers (R443, R456). -/
def dbgRows : List RegRow := [
  ⟨.dbgApSel, 0x18000, [(0x8, fun _ => 2)], [⟨55, 52, .rw, .operator⟩, ⟨51, 48, .rw, .operator⟩, ⟨42, 22, .rw, .operator⟩],
    fun _ _ => 0, none, 0⟩,
  ⟨.dbgStat, 0x18010, [], [⟨63, 0, .ro, .host⟩],
    fun _ _ => 0, none, 0⟩]

/-- The fab registers (R443, R456). -/
def fabRows : List RegRow := [
  ⟨.fabId, 0x20000, [], [⟨39, 36, .ro, .inspector⟩, ⟨35, 32, .ro, .inspector⟩, ⟨11, 0, .rw, .inspector⟩],
    fun t _ => if t.gangSize = 0 then 0 else t.gangMember * 2 ^ 36 + t.gangSize * 2 ^ 32, none, allBits⟩,
  ⟨.fabCtrl, 0x20008, [], [⟨1, 1, .rw, .operator⟩, ⟨0, 0, .rw, .operator⟩],
    fun _ _ => 2, none, allBits⟩,
  ⟨.fabEvent, 0x20010, [], [⟨11, 11, .w1c, .host⟩, ⟨10, 10, .w1c, .host⟩, ⟨9, 9, .w1c, .host⟩, ⟨8, 8, .w1c, .host⟩, ⟨7, 7, .w1c, .host⟩, ⟨6, 6, .w1c, .host⟩, ⟨5, 5, .w1c, .host⟩, ⟨4, 4, .w1c, .host⟩, ⟨3, 3, .w1c, .host⟩, ⟨2, 2, .w1c, .host⟩, ⟨1, 1, .w1c, .host⟩, ⟨0, 0, .w1c, .host⟩],
    fun _ _ => 0, none, allBits⟩,
  ⟨.fabRefused, 0x20018, [], [⟨63, 32, .ro, .host⟩, ⟨31, 0, .ro, .host⟩],
    fun _ _ => 0, none, allBits⟩,
  ⟨.fabLastref, 0x20020, [], [⟨63, 48, .ro, .host⟩, ⟨47, 36, .ro, .host⟩, ⟨35, 34, .ro, .host⟩],
    fun _ _ => 0, none, allBits⟩,
  ⟨.fabDrops, 0x20028, [], [⟨63, 48, .ro, .host⟩, ⟨47, 32, .ro, .host⟩, ⟨31, 16, .ro, .host⟩, ⟨15, 0, .ro, .host⟩],
    fun _ _ => 0, none, allBits⟩,
  ⟨.fabOverrun, 0x20030, [], [⟨63, 52, .ro, .host⟩, ⟨51, 44, .ro, .host⟩, ⟨31, 0, .ro, .host⟩],
    fun _ _ => 0, none, allBits⟩,
  ⟨.fabPortCfg, 0x20100, [(0x10, fun t => t.ports)], [⟨63, 32, .ro, .operator⟩, ⟨7, 6, .ro, .operator⟩, ⟨2, 1, .ro, .operator⟩, ⟨0, 0, .rw, .operator⟩],
    fun _ ix => if ix.headD 0 < 2 then 0x40 else 0x80, none, allBits⟩,
  ⟨.fabPortFlits, 0x20108, [(0x10, fun t => t.ports)], [⟨63, 32, .ro, .host⟩, ⟨31, 0, .ro, .host⟩],
    fun _ _ => 0, none, allBits⟩,
  ⟨.fabJobCfg, 0x20200, [(0x20, fun t => t.jobSlots)], [⟨63, 63, .sh, .host⟩, ⟨62, 62, .sh, .host⟩, ⟨61, 61, .sh, .host⟩, ⟨59, 56, .sh, .inspector⟩, ⟨55, 50, .sh, .host⟩, ⟨47, 40, .sh, .host⟩, ⟨39, 28, .sh, .host⟩, ⟨15, 0, .sh, .host⟩],
    fun _ _ => 0, some (fun _ => 4), allBits⟩,
  ⟨.fabJobMap, 0x20208, [(0x20, fun t => t.jobSlots)], [⟨45, 32, .sh, .host⟩, ⟨12, 0, .sh, .host⟩],
    fun _ _ => 0, some (fun _ => 4), allBits⟩,
  ⟨.fabJobStatus, 0x20210, [(0x20, fun t => t.jobSlots)], [⟨9, 8, .ro, .host⟩, ⟨7, 0, .ro, .host⟩],
    fun _ _ => 0, none, allBits⟩,
  ⟨.fabWinBase, 0x20400, [(0x10, fun _ => 64)], [⟨42, 12, .sh, .host⟩],
    fun _ _ => 0, some (fun _ => 4), allBits⟩,
  ⟨.fabWinCfg, 0x20408, [(0x10, fun _ => 64)], [⟨62, 32, .sh, .host⟩, ⟨21, 16, .sh, .host⟩, ⟨11, 8, .sh, .host⟩, ⟨3, 3, .sh, .host⟩, ⟨2, 2, .sh, .host⟩, ⟨1, 1, .sh, .host⟩, ⟨0, 0, .sh, .host⟩],
    fun _ _ => 0, some (fun _ => 4), allBits⟩,
  ⟨.fabBarCfg, 0x20800, [(0x10, fun _ => 256)], [⟨63, 40, .sh, .host⟩, ⟨39, 34, .sh, .host⟩, ⟨33, 32, .sh, .host⟩, ⟨31, 21, .sh, .host⟩, ⟨20, 17, .sh, .host⟩, ⟨16, 5, .sh, .host⟩, ⟨4, 4, .sh, .host⟩, ⟨3, 0, .sh, .host⟩],
    fun _ _ => 0x000FA08000000000, some (fun _ => 4), allBits⟩,
  ⟨.fabBarStatus, 0x20808, [(0x10, fun _ => 256)], [⟨63, 49, .ro, .host⟩, ⟨48, 48, .ro, .host⟩, ⟨47, 36, .ro, .host⟩, ⟨35, 35, .ro, .host⟩, ⟨34, 32, .ro, .host⟩, ⟨31, 0, .ro, .host⟩],
    fun _ _ => 0x0000000700000000, none, allBits⟩,
  ⟨.fabBarGctx, 0x21800, [(0x8, fun _ => 256)], [⟨6, 6, .sh, .host⟩, ⟨5, 0, .sh, .host⟩],
    fun _ _ => 0, some (fun _ => 4), allBits⟩,
  ⟨.fabBchild, 0x22000, [(0x8, fun _ => 512)], [⟨63, 0, .sh, .host⟩],
    fun _ _ => 0, some (fun _ => 4), allBits⟩,
  ⟨.fabJmap, 0x28000, [(0x8, fun t => if t.build = .c4 then 4096 else 1024)], [⟨63, 0, .sh, .host⟩],
    fun _ _ => 0, some (fun _ => 4), allBits⟩,
  ⟨.fabRt, 0x30000, [(0x1000, fun _ => 9), (0x8, fun _ => 512)], [⟨63, 0, .sh, .inspector⟩],
    fun _ _ => 0, some (fun _ => 4), allBits⟩]

/-- The kernel registers (R443, R456). -/
def kernelRows : List RegRow := [
  ⟨.ctxLease, 0x100010, [(0x1000, fun t => t.contexts)], [⟨15, 0, .sh, .host⟩],
    fun _ _ => 0, some (fun _ => 6), allBits⟩,
  ⟨.ctxLeaseCs, 0x100018, [(0x1000, fun t => t.contexts)], [⟨63, 48, .sh, .host⟩, ⟨47, 32, .sh, .host⟩, ⟨31, 16, .sh, .host⟩, ⟨15, 0, .sh, .host⟩],
    fun _ _ => 0, some (fun _ => 6), allBits⟩,
  ⟨.ctxQos, 0x100020, [(0x1000, fun t => t.contexts)], [⟨16, 16, .sh, .host⟩, ⟨15, 8, .sh, .host⟩, ⟨7, 0, .sh, .host⟩],
    fun _ _ => 0x1000, some (fun _ => 6), allBits⟩,
  ⟨.ctxCadgrant, 0x100028, [(0x1000, fun t => t.contexts)], [⟨15, 0, .rw, .host⟩],
    fun _ _ => 0, none, allBits⟩,
  ⟨.ctxIrq, 0x100030, [(0x1000, fun t => t.contexts)], [⟨47, 32, .rw, .host⟩, ⟨31, 24, .rw, .host⟩, ⟨1, 0, .rw, .host⟩],
    fun _ _ => 0x01000000, none, allBits⟩,
  ⟨.ctxAttn, 0x100038, [(0x1000, fun t => t.contexts)], [⟨63, 48, .ro, .host⟩, ⟨15, 8, .ro, .host⟩, ⟨2, 2, .w1c, .host⟩, ⟨1, 1, .w1c, .host⟩, ⟨0, 0, .w1c, .host⟩],
    fun _ _ => 0, none, allBits⟩,
  ⟨.ctxRingBase, 0x100100, [(0x1000, fun t => t.contexts), (0x10, fun _ => 4)], [⟨63, 8, .rw, .host⟩],
    fun _ _ => 0, none, allBits⟩,
  ⟨.ctxRingCfg, 0x100108, [(0x1000, fun t => t.contexts), (0x10, fun _ => 4)], [⟨47, 40, .rw, .host⟩, ⟨33, 32, .rw, .host⟩, ⟨12, 8, .rw, .host⟩, ⟨0, 0, .rw, .host⟩],
    fun _ _ => 0x0000010000000400, none, allBits⟩,
  ⟨.ctxCqBase, 0x100140, [(0x1000, fun t => t.contexts)], [⟨63, 5, .rw, .host⟩],
    fun _ _ => 0, none, allBits⟩,
  ⟨.ctxCqCfg, 0x100148, [(0x1000, fun t => t.contexts)], [⟨12, 8, .rw, .host⟩, ⟨0, 0, .rw, .host⟩],
    fun _ _ => 0x0400, none, allBits⟩,
  ⟨.ctxSubmit, 0x100150, [(0x1000, fun t => t.contexts)], [⟨16, 16, .rw, .host⟩, ⟨15, 0, .rw, .host⟩],
    fun _ _ => 0xFA, none, allBits⟩,
  ⟨.ctxKabort, 0x100158, [(0x1000, fun t => t.contexts)], [⟨33, 0, .wo, .host⟩],
    fun _ _ => 0, none, allBits⟩,
  ⟨.ctxKabortStatus, 0x100160, [(0x1000, fun t => t.contexts)], [⟨63, 30, .ro, .host⟩, ⟨8, 8, .ro, .host⟩, ⟨5, 4, .ro, .host⟩, ⟨2, 0, .ro, .host⟩],
    fun _ _ => 0, none, allBits⟩,
  ⟨.ctxFlight, 0x100180, [(0x1000, fun t => t.contexts), (0x10, fun _ => 4)], [⟨63, 63, .ro, .host⟩, ⟨62, 60, .ro, .host⟩, ⟨33, 0, .ro, .host⟩],
    fun _ _ => 0, none, allBits⟩,
  ⟨.ctxTally, 0x100188, [(0x1000, fun t => t.contexts), (0x10, fun _ => 4)], [⟨63, 0, .ro, .host⟩],
    fun _ _ => 0, none, allBits⟩,
  ⟨.ctxUndel, 0x100200, [(0x1000, fun t => t.contexts), (0x20, fun _ => 4), (0x8, fun _ => 4)], [⟨63, 0, .ro, .host⟩],
    fun _ _ => 0, none, allBits⟩,
  ⟨.ctxUndelStatus, 0x100280, [(0x1000, fun t => t.contexts)], [⟨3, 0, .w1c, .host⟩],
    fun _ _ => 0, none, allBits⟩,
  ⟨.ctxNumCtrl, 0x100300, [(0x1000, fun t => t.contexts)], [⟨32, 32, .rw, .host⟩, ⟨31, 0, .rw, .host⟩],
    fun _ _ => 0, none, allBits⟩,
  ⟨.ctxNumStatus, 0x100308, [(0x1000, fun t => t.contexts)], [⟨47, 32, .ro, .host⟩, ⟨11, 8, .ro, .host⟩, ⟨2, 2, .w1c, .host⟩, ⟨1, 1, .w1c, .host⟩, ⟨0, 0, .w1c, .host⟩],
    fun _ _ => 0, none, allBits⟩,
  ⟨.ctxNumTotal, 0x100310, [(0x1000, fun t => t.contexts)], [⟨63, 32, .ro, .host⟩, ⟨31, 0, .ro, .host⟩],
    fun _ _ => 0, none, allBits⟩,
  ⟨.ctxDigW, 0x100400, [(0x1000, fun t => t.contexts), (0x100, fun _ => 4), (0x40, fun _ => 4), (0x8, fun _ => 6)], [⟨63, 0, .ro, .host⟩],
    fun _ _ => 0, none, allBits⟩,
  ⟨.ctxDigState, 0x100430, [(0x1000, fun t => t.contexts), (0x100, fun _ => 4), (0x40, fun _ => 4)], [⟨62, 2, .ro, .host⟩, ⟨1, 1, .ro, .host⟩],
    fun _ _ => 0, none, allBits⟩,
  ⟨.ctxSegBase, 0x100800, [(0x1000, fun t => t.contexts), (0x20, fun _ => 8)], [⟨59, 12, .sh, .host⟩],
    fun _ _ => 0, some (fun _ => 6), allBits⟩,
  ⟨.ctxSegLimit, 0x100808, [(0x1000, fun t => t.contexts), (0x20, fun _ => 8)], [⟨59, 12, .sh, .host⟩, ⟨3, 3, .sh, .host⟩, ⟨2, 2, .sh, .host⟩, ⟨1, 1, .sh, .host⟩, ⟨0, 0, .sh, .host⟩],
    fun _ _ => 0, some (fun _ => 6), allBits⟩,
  ⟨.ctxSegTarget, 0x100810, [(0x1000, fun t => t.contexts), (0x20, fun _ => 8)], [⟨55, 12, .sh, .host⟩],
    fun _ _ => 0, some (fun _ => 6), allBits⟩,
  ⟨.ctxXltCfg, 0x100900, [(0x1000, fun t => t.contexts)], [⟨41, 41, .sh, .host⟩, ⟨40, 40, .sh, .host⟩, ⟨19, 0, .sh, .host⟩],
    fun _ _ => 0, some (fun _ => 6), allBits⟩,
  ⟨.ctxXltDroot, 0x100908, [(0x1000, fun t => t.contexts)], [⟨55, 12, .sh, .host⟩],
    fun _ _ => 0, some (fun _ => 6), allBits⟩,
  ⟨.ctxXltHroot, 0x100910, [(0x1000, fun t => t.contexts)], [⟨54, 12, .sh, .host⟩],
    fun _ _ => 0, some (fun _ => 6), allBits⟩,
  ⟨.ctxXltFault, 0x100918, [(0x1000, fun t => t.contexts)], [⟨63, 0, .ro, .host⟩],
    fun _ _ => 0, none, allBits⟩,
  ⟨.ctxXltFcause, 0x100920, [(0x1000, fun t => t.contexts)], [⟨47, 40, .ro, .host⟩, ⟨10, 8, .ro, .host⟩, ⟨7, 0, .ro, .host⟩],
    fun _ _ => 0, none, allBits⟩,
  ⟨.ctxXltPrq, 0x100928, [(0x1000, fun t => t.contexts)], [⟨63, 32, .ro, .host⟩, ⟨31, 0, .ro, .host⟩],
    fun _ _ => 0, none, allBits⟩]

/-- The user registers (R443, R456). -/
def userRows : List RegRow := [
  ⟨.ctxDoorbell, 0x200000, [(0x1000, fun t => t.contexts)], [⟨33, 32, .wo, .host⟩, ⟨31, 0, .wo, .host⟩],
    fun _ _ => 0, none, allBits⟩,
  ⟨.ctxAbort, 0x200008, [(0x1000, fun t => t.contexts)], [⟨33, 0, .wo, .host⟩],
    fun _ _ => 0, none, allBits⟩,
  ⟨.ctxAbortStatus, 0x200010, [(0x1000, fun t => t.contexts)], [⟨63, 30, .ro, .host⟩, ⟨8, 8, .ro, .host⟩, ⟨5, 4, .ro, .host⟩, ⟨2, 0, .ro, .host⟩],
    fun _ _ => 0, none, allBits⟩,
  ⟨.ctxUstatus, 0x200018, [(0x1000, fun t => t.contexts)], [⟨63, 48, .ro, .host⟩, ⟨19, 16, .ro, .host⟩, ⟨15, 8, .ro, .host⟩, ⟨2, 0, .ro, .host⟩],
    fun _ _ => 0, none, allBits⟩,
  ⟨.ctxHead, 0x200020, [(0x1000, fun t => t.contexts), (0x8, fun _ => 4)], [⟨63, 32, .ro, .host⟩, ⟨31, 0, .ro, .host⟩],
    fun _ _ => 0, none, allBits⟩,
  ⟨.ctxCqHead, 0x200040, [(0x1000, fun t => t.contexts)], [⟨31, 0, .rw, .host⟩],
    fun _ _ => 0, none, allBits⟩,
  ⟨.ctxCqTail, 0x200048, [(0x1000, fun t => t.contexts)], [⟨32, 32, .ro, .host⟩, ⟨31, 0, .ro, .host⟩],
    fun _ _ => 0x0000000100000000, none, allBits⟩,
  ⟨.ctxUtime, 0x200050, [(0x1000, fun t => t.contexts)], [⟨63, 0, .ro, .host⟩],
    fun _ _ => 0, none, allBits⟩,
  ⟨.ctxUcnt, 0x200060, [(0x1000, fun t => t.contexts), (0x8, fun _ => 7)], [⟨63, 0, .ro, .host⟩],
    fun _ _ => 0, none, allBits⟩,
  ⟨.ctxUenergy, 0x2000a0, [(0x1000, fun t => t.contexts)], [⟨63, 0, .ro, .host⟩],
    fun _ _ => 0, none, allBits⟩,
  ⟨.ctxUlast, 0x2000a8, [(0x1000, fun t => t.contexts)], [⟨63, 30, .ro, .host⟩, ⟨29, 8, .ro, .host⟩, ⟨7, 7, .ro, .host⟩, ⟨3, 0, .ro, .host⟩],
    fun _ _ => 0, none, allBits⟩]

namespace Reg

/-- Offset of BELL_NOW (bellNow). -/
def bellNow : Nat := 0x0
/-- Offset of BELL_CTRL (bellCtrl). -/
def bellCtrl : Nat := 0x8
/-- Offset of BELL_STATUS (bellStatus). -/
def bellStatus : Nat := 0x10
/-- Offset of BELL_SERVO (bellServo). -/
def bellServo : Nat := 0x18
/-- Offset of BELL_SERVO_X (bellServoX). -/
def bellServoX : Nat := 0x20
/-- Offset of BELL_PPS (bellPps). -/
def bellPps : Nat := 0x28
/-- Offset of BELL_TOD (bellTod). -/
def bellTod : Nat := 0x30
/-- Offset of BELL_OFFSET (bellOffset). -/
def bellOffset : Nat := 0x38
/-- Offset of BELL_FREQ (bellFreq). -/
def bellFreq : Nat := 0x40
/-- Offset of BELL_STEP (bellStep). -/
def bellStep : Nat := 0x48
/-- Offset of BELL_EVENT (bellEvent). -/
def bellEvent : Nat := 0x50
/-- Offset of BELL_LINKn (bellLink). -/
def bellLink (i : Nat) : Nat := 0x80 + 0x8 * i
/-- Offset of BELL_CADn_PERIOD (bellCadPeriod). -/
def bellCadPeriod (i : Nat) : Nat := 0x100 + 0x10 * i
/-- Offset of BELL_CADn_PERIOD (bellCadOrigin). -/
def bellCadOrigin (i : Nat) : Nat := 0x108 + 0x10 * i
/-- Offset of CG_OPEN (cgOpen). -/
def cgOpen (i : Nat) : Nat := 0x1000 + 0x40 * i
/-- Offset of CG_ARM (cgArm). -/
def cgArm (i : Nat) : Nat := 0x1008 + 0x40 * i
/-- Offset of CG_CANCEL (cgCancel). -/
def cgCancel (i : Nat) : Nat := 0x1010 + 0x40 * i
/-- Offset of CG_STATUS (cgStatus). -/
def cgStatus (i : Nat) : Nat := 0x1018 + 0x40 * i
/-- Offset of CG_ACKED (cgAcked). -/
def cgAcked (i : Nat) : Nat := 0x1020 + 0x40 * i
/-- Offset of CG_JOB (cgJob). -/
def cgJob (i : Nat) : Nat := 0x1028 + 0x40 * i
/-- Offset of CG_JOB_STATUS (cgJobStatus). -/
def cgJobStatus (i : Nat) : Nat := 0x1030 + 0x40 * i
/-- Offset of CRI_CTRL (criCtrl). -/
def criCtrl : Nat := 0x2000
/-- Offset of CRI_STATUS (criStatus). -/
def criStatus : Nat := 0x2008
/-- Offset of CRI_EVENT (criEvent). -/
def criEvent : Nat := 0x2010
/-- Offset of CRI_LATE (criLate). -/
def criLate : Nat := 0x2018
/-- Offset of BAR_TXN (barTxn). -/
def barTxn : Nat := 0x3000
/-- Offset of BAR_TXN_X (barTxnX). -/
def barTxnX : Nat := 0x3008
/-- Offset of BAR_EVENT (barEvent). -/
def barEvent : Nat := 0x3010
/-- Offset of BAR_POOL (barPool). -/
def barPool : Nat := 0x3018
/-- Offset of BAR_STATUSb (barStatus). -/
def barStatus (i : Nat) : Nat := 0x3100 + 0x10 * i
/-- Offset of BAR_BYTESb (barBytes). -/
def barBytes (i : Nat) : Nat := 0x3108 + 0x10 * i
/-- Offset of BAR_REPLAYb (barReplay). -/
def barReplay (i : Nat) : Nat := 0x3300 + 0x8 * i
/-- Offset of XLT_CTRL (xltCtrl). -/
def xltCtrl : Nat := 0x4000
/-- Offset of XLT_FMT (xltFmt). -/
def xltFmt : Nat := 0x4008
/-- Offset of XLT_FMT_X0 (xltFmtX0). -/
def xltFmtX0 : Nat := 0x4010
/-- Offset of XLT_FMT_X1 (xltFmtX1). -/
def xltFmtX1 : Nat := 0x4018
/-- Offset of XLT_PRI (xltPri). -/
def xltPri : Nat := 0x4020
/-- Offset of XLT_EVENT (xltEvent). -/
def xltEvent : Nat := 0x4028
/-- Offset of XLT_INV (xltInv). -/
def xltInv : Nat := 0x4030
/-- Offset of XLT_DINV_ADDR (xltDinvAddr). -/
def xltDinvAddr : Nat := 0x4040
/-- Offset of XLT_DINV_CTL (xltDinvCtl). -/
def xltDinvCtl : Nat := 0x4048
/-- Offset of XLT_DINV_STATUS (xltDinvStatus). -/
def xltDinvStatus : Nat := 0x4050
/-- Offset of XLT_TCc_HIT (xltTcHit). -/
def xltTcHit (i : Nat) : Nat := 0x4080 + 0x10 * i
/-- Offset of XLT_TCc_HIT (xltTcMiss). -/
def xltTcMiss (i : Nat) : Nat := 0x4088 + 0x10 * i
/-- Offset of MEM_MAP (memMap). -/
def memMap : Nat := 0x5000
/-- Offset of MEM_CTRL (memCtrl). -/
def memCtrl : Nat := 0x5008
/-- Offset of MEM_POLICY (memPolicy). -/
def memPolicy : Nat := 0x5010
/-- Offset of MEM_POLICY_X (memPolicyX). -/
def memPolicyX : Nat := 0x5018
/-- Offset of MEM_EVENT (memEvent). -/
def memEvent : Nat := 0x5020
/-- Offset of MEM_CLEAR_ADDR (memClearAddr). -/
def memClearAddr : Nat := 0x5028
/-- Offset of MEM_CLEAR_CTL (memClearCtl). -/
def memClearCtl : Nat := 0x5030
/-- Offset of MEM_CLEAR_STATUS (memClearStatus). -/
def memClearStatus : Nat := 0x5038
/-- Offset of MEM_INJECT (memInject). -/
def memInject : Nat := 0x5040
/-- Offset of MEM_HPA (memHpa). -/
def memHpa : Nat := 0x5048
/-- Offset of MEM_CHn_STATUS (memChStatus). -/
def memChStatus (i : Nat) : Nat := 0x5100 + 0x10 * i
/-- Offset of MEM_CHn_ERR (memChErr). -/
def memChErr (i : Nat) : Nat := 0x5108 + 0x10 * i
/-- Offset of MEM_CHn_ACT (memChAct). -/
def memChAct (i : Nat) : Nat := 0x5200 + 0x8 * i
/-- Offset of PWR_OPP (pwrOpp). -/
def pwrOpp : Nat := 0x6000
/-- Offset of PWR_STATUS (pwrStatus). -/
def pwrStatus : Nat := 0x6008
/-- Offset of PWR_CAP (pwrCap). -/
def pwrCap : Nat := 0x6010
/-- Offset of PWR_POLICY (pwrPolicy). -/
def pwrPolicy : Nat := 0x6018
/-- Offset of PWR_POLICY_X (pwrPolicyX). -/
def pwrPolicyX : Nat := 0x6020
/-- Offset of PWR_THERM (pwrTherm). -/
def pwrTherm : Nat := 0x6028
/-- Offset of PWR_TEMP (pwrTemp). -/
def pwrTemp : Nat := 0x6030
/-- Offset of PWR_DROOP (pwrDroop). -/
def pwrDroop : Nat := 0x6038
/-- Offset of PWR_DROOP_X (pwrDroopX). -/
def pwrDroopX : Nat := 0x6040
/-- Offset of PWR_DROOP_CNT (pwrDroopCnt). -/
def pwrDroopCnt : Nat := 0x6048
/-- Offset of PWR_EVENT (pwrEvent). -/
def pwrEvent : Nat := 0x6050
/-- Offset of PWR_REST (pwrRest). -/
def pwrRest : Nat := 0x6058
/-- Offset of PWR_REST_STATUS (pwrRestStatus). -/
def pwrRestStatus : Nat := 0x6060
/-- Offset of PWR_INSWDT (pwrInswdt). -/
def pwrInswdt : Nat := 0x6068
/-- Offset of PWR_TEST (pwrTest). -/
def pwrTest : Nat := 0x6070
/-- Offset of PWR_THRT (pwrThrt). -/
def pwrThrt : Nat := 0x6078
/-- Offset of PWR_RAILr_CFG (pwrRailCfg). -/
def pwrRailCfg (i : Nat) : Nat := 0x6100 + 0x10 * i
/-- Offset of PWR_RAILr_READ (pwrRailRead). -/
def pwrRailRead (i : Nat) : Nat := 0x6108 + 0x10 * i
/-- Offset of PWR_LEDGER_EST (pwrLedgerEst). -/
def pwrLedgerEst : Nat := 0x6200
/-- Offset of PWR_LEDGER_EST (pwrLedgerMeas). -/
def pwrLedgerMeas : Nat := 0x6208
/-- Offset of PWR_LEDGER_SCALE (pwrLedgerScale). -/
def pwrLedgerScale : Nat := 0x6210
/-- Offset of PWR_LEDGER_IDLE (pwrLedgerIdle). -/
def pwrLedgerIdle : Nat := 0x6218
/-- Offset of PWR_COEFk (pwrCoef). -/
def pwrCoef (i : Nat) : Nat := 0x6300 + 0x8 * i
/-- Offset of PWR_COEFk (pwrCoefLeak). -/
def pwrCoefLeak (i : Nat) : Nat := 0x6380 + 0x8 * i
/-- Offset of PWR_DLOGi_T (pwrDlogT). -/
def pwrDlogT (i : Nat) : Nat := 0x6400 + 0x10 * i
/-- Offset of PWR_DLOGi_T (pwrDlogD). -/
def pwrDlogD (i : Nat) : Nat := 0x6408 + 0x10 * i
/-- Offset of CTX_CMD (ctxCmd). -/
def ctxCmd : Nat := 0x7000
/-- Offset of CTX_CMD_STATUS (ctxCmdStatus). -/
def ctxCmdStatus : Nat := 0x7008
/-- Offset of CTX_KIRQ (ctxKirq). -/
def ctxKirq : Nat := 0x7010
/-- Offset of CTX_MGMT (ctxMgmt). -/
def ctxMgmt : Nat := 0x7018
/-- Offset of CTX_MGMT_EN (ctxMgmtEn). -/
def ctxMgmtEn : Nat := 0x7020
/-- Offset of CTX_SUMMARYl (ctxSummary). -/
def ctxSummary (i : Nat) : Nat := 0x7040 + 0x8 * i
/-- Offset of CTX_TILESr (ctxTiles). -/
def ctxTiles (i : Nat) : Nat := 0x7060 + 0x8 * i
/-- Offset of CTX_QOS_SLOT (ctxQosSlot). -/
def ctxQosSlot : Nat := 0x7080
/-- Offset of CTX_QOS_TABLEi (ctxQosTable). -/
def ctxQosTable (i : Nat) : Nat := 0x7088 + 0x8 * i
/-- Offset of ERR_CTRL (errCtrl). -/
def errCtrl : Nat := 0x8000
/-- Offset of ERR_LOG_WRITTEN (errLogWritten). -/
def errLogWritten : Nat := 0x8008
/-- Offset of ERR_LOG_CONSUMED (errLogConsumed). -/
def errLogConsumed : Nat := 0x8010
/-- Offset of ERR_INJECT (errInject). -/
def errInject : Nat := 0x8018
/-- Offset of ERR_BRESET (errBreset). -/
def errBreset : Nat := 0x8020
/-- Offset of ERR_BRESET_STATUS (errBresetStatus). -/
def errBresetStatus : Nat := 0x8028
/-- Offset of ERR_DUMP_BASE (errDumpBase). -/
def errDumpBase : Nat := 0x8030
/-- Offset of ERR_DUMP_CFG (errDumpCfg). -/
def errDumpCfg : Nat := 0x8038
/-- Offset of ERR_DUMP_STATUS (errDumpStatus). -/
def errDumpStatus : Nat := 0x8040
/-- Offset of ERR_DUMP_SKIP (errDumpSkip). -/
def errDumpSkip : Nat := 0x8048
/-- Offset of ERR_SAMPLE_EN (errSampleEn). -/
def errSampleEn : Nat := 0x8050
/-- Offset of ERR_SAMPLEk (errSample). -/
def errSample (i : Nat) : Nat := 0x8060 + 0x8 * i
/-- Offset of ERR_HOSTPORT (errHostport). -/
def errHostport : Nat := 0x8080
/-- Offset of ERR_CNTd (errCnt). -/
def errCnt (i : Nat) : Nat := 0x8200 + 0x8 * i
/-- Offset of ERR_LOGi_Wj (errLog). -/
def errLog (i : Nat) (j : Nat) : Nat := 0x9000 + 0x20 * i + 0x8 * j
/-- Offset of INS_CTRL (insCtrl). -/
def insCtrl : Nat := 0xc000
/-- Offset of INS_STATUS (insStatus). -/
def insStatus : Nat := 0xc008
/-- Offset of INS_EVENT (insEvent). -/
def insEvent : Nat := 0xc010
/-- Offset of INS_ID0 (insId0). -/
def insId0 : Nat := 0xc018
/-- Offset of INS_ID0 (insId1). -/
def insId1 : Nat := 0xc020
/-- Offset of INS_SESSION (insSession). -/
def insSession : Nat := 0xc028
/-- Offset of INS_CMD_LAST (insCmdLast). -/
def insCmdLast : Nat := 0xc030
/-- Offset of INS_CMD_STATUS (insCmdStatus). -/
def insCmdStatus : Nat := 0xc038
/-- Offset of INS_CMD_DOOR (insCmdDoor). -/
def insCmdDoor : Nat := 0xc040
/-- Offset of INS_OPROOTi (insOproot). -/
def insOproot (i : Nat) : Nat := 0xc080 + 0x8 * i
/-- Offset of INS_MKEY_CTL (insMkeyCtl). -/
def insMkeyCtl : Nat := 0xc100
/-- Offset of INS_MKEYk (insMkey). -/
def insMkey (i : Nat) : Nat := 0xc108 + 0x8 * i
/-- Offset of INS_JKEYk_CTL (insJkeyCtl). -/
def insJkeyCtl (i : Nat) : Nat := 0xc200 + 0x8 * i
/-- Offset of INS_BOOT (insBoot). -/
def insBoot : Nat := 0xc300
/-- Offset of INS_STRAPS (insStraps). -/
def insStraps : Nat := 0xc308
/-- Offset of INS_CMD_BUF (insCmdBuf). -/
def insCmdBuf (i : Nat) : Nat := 0xd000 + 0x8 * i
/-- Offset of INS_RSP_BUF (insRspBuf). -/
def insRspBuf (i : Nat) : Nat := 0xe000 + 0x8 * i
/-- Offset of STH_LANEn_STATUS (sthLaneStatus). -/
def sthLaneStatus (i : Nat) (j : Nat) : Nat := 0x10000 + 0x1000 * i + 0x10 * j
/-- Offset of STH_LANEn_PC (sthLanePc). -/
def sthLanePc (i : Nat) (j : Nat) : Nat := 0x10008 + 0x1000 * i + 0x10 * j
/-- Offset of STH_ARM_FILL (sthArmFill). -/
def sthArmFill (i : Nat) : Nat := 0x10400 + 0x1000 * i
/-- Offset of STH_ARM_FILL_X (sthArmFillX). -/
def sthArmFillX (i : Nat) : Nat := 0x10408 + 0x1000 * i
/-- Offset of STH_ARM_REPAIRt (sthArmRepair). -/
def sthArmRepair (i : Nat) (j : Nat) : Nat := 0x10440 + 0x1000 * i + 0x8 * j
/-- Offset of STH_ARM_BUSYt (sthArmBusy). -/
def sthArmBusy (i : Nat) (j : Nat) : Nat := 0x10480 + 0x1000 * i + 0x10 * j
/-- Offset of STH_ARM_FILLCNTt (sthArmFillcnt). -/
def sthArmFillcnt (i : Nat) (j : Nat) : Nat := 0x10488 + 0x1000 * i + 0x10 * j
/-- Offset of STH_SCR_CONFt (sthScrConf). -/
def sthScrConf (i : Nat) (j : Nat) : Nat := 0x10500 + 0x1000 * i + 0x10 * j
/-- Offset of STH_SCR_ECCt (sthScrEcc). -/
def sthScrEcc (i : Nat) (j : Nat) : Nat := 0x10508 + 0x1000 * i + 0x10 * j
/-- Offset of STH_SCR_CLUSTER (sthScrCluster). -/
def sthScrCluster (i : Nat) : Nat := 0x10540 + 0x1000 * i
/-- Offset of DBG_APa_SEL (dbgApSel). -/
def dbgApSel (i : Nat) : Nat := 0x18000 + 0x8 * i
/-- Offset of DBG_STAT (dbgStat). -/
def dbgStat : Nat := 0x18010
/-- Offset of FAB_ID (fabId). -/
def fabId : Nat := 0x20000
/-- Offset of FAB_CTRL (fabCtrl). -/
def fabCtrl : Nat := 0x20008
/-- Offset of FAB_EVENT (fabEvent). -/
def fabEvent : Nat := 0x20010
/-- Offset of FAB_REFUSED (fabRefused). -/
def fabRefused : Nat := 0x20018
/-- Offset of FAB_LASTREF (fabLastref). -/
def fabLastref : Nat := 0x20020
/-- Offset of FAB_DROPS (fabDrops). -/
def fabDrops : Nat := 0x20028
/-- Offset of FAB_OVERRUN (fabOverrun). -/
def fabOverrun : Nat := 0x20030
/-- Offset of FAB_PORTn_CFG (fabPortCfg). -/
def fabPortCfg (i : Nat) : Nat := 0x20100 + 0x10 * i
/-- Offset of FAB_PORTn_FLITS (fabPortFlits). -/
def fabPortFlits (i : Nat) : Nat := 0x20108 + 0x10 * i
/-- Offset of FAB_JOBj_CFG (fabJobCfg). -/
def fabJobCfg (i : Nat) : Nat := 0x20200 + 0x20 * i
/-- Offset of FAB_JOBj_MAP (fabJobMap). -/
def fabJobMap (i : Nat) : Nat := 0x20208 + 0x20 * i
/-- Offset of FAB_JOBj_STATUS (fabJobStatus). -/
def fabJobStatus (i : Nat) : Nat := 0x20210 + 0x20 * i
/-- Offset of FAB_WINw_BASE (fabWinBase). -/
def fabWinBase (i : Nat) : Nat := 0x20400 + 0x10 * i
/-- Offset of FAB_WINw_CFG (fabWinCfg). -/
def fabWinCfg (i : Nat) : Nat := 0x20408 + 0x10 * i
/-- Offset of FAB_BARg_CFG (fabBarCfg). -/
def fabBarCfg (i : Nat) : Nat := 0x20800 + 0x10 * i
/-- Offset of FAB_BARg_STATUS (fabBarStatus). -/
def fabBarStatus (i : Nat) : Nat := 0x20808 + 0x10 * i
/-- Offset of FAB_BARg_GCTX (fabBarGctx). -/
def fabBarGctx (i : Nat) : Nat := 0x21800 + 0x8 * i
/-- Offset of FAB_BCHILDi (fabBchild). -/
def fabBchild (i : Nat) : Nat := 0x22000 + 0x8 * i
/-- Offset of FAB_JMAPi (fabJmap). -/
def fabJmap (i : Nat) : Nat := 0x28000 + 0x8 * i
/-- Offset of FAB_RTp_i (fabRt). -/
def fabRt (i : Nat) (j : Nat) : Nat := 0x30000 + 0x1000 * i + 0x8 * j
/-- Offset of CTX_LEASE (ctxLease). -/
def ctxLease (i : Nat) : Nat := 0x100010 + 0x1000 * i
/-- Offset of CTX_LEASE_CS (ctxLeaseCs). -/
def ctxLeaseCs (i : Nat) : Nat := 0x100018 + 0x1000 * i
/-- Offset of CTX_QOS (ctxQos). -/
def ctxQos (i : Nat) : Nat := 0x100020 + 0x1000 * i
/-- Offset of CTX_CADGRANT (ctxCadgrant). -/
def ctxCadgrant (i : Nat) : Nat := 0x100028 + 0x1000 * i
/-- Offset of CTX_IRQ (ctxIrq). -/
def ctxIrq (i : Nat) : Nat := 0x100030 + 0x1000 * i
/-- Offset of CTX_ATTN (ctxAttn). -/
def ctxAttn (i : Nat) : Nat := 0x100038 + 0x1000 * i
/-- Offset of CTX_RINGr_BASE (ctxRingBase). -/
def ctxRingBase (i : Nat) (j : Nat) : Nat := 0x100100 + 0x1000 * i + 0x10 * j
/-- Offset of CTX_RINGr_CFG (ctxRingCfg). -/
def ctxRingCfg (i : Nat) (j : Nat) : Nat := 0x100108 + 0x1000 * i + 0x10 * j
/-- Offset of CTX_CQ_BASE (ctxCqBase). -/
def ctxCqBase (i : Nat) : Nat := 0x100140 + 0x1000 * i
/-- Offset of CTX_CQ_CFG (ctxCqCfg). -/
def ctxCqCfg (i : Nat) : Nat := 0x100148 + 0x1000 * i
/-- Offset of CTX_SUBMIT (ctxSubmit). -/
def ctxSubmit (i : Nat) : Nat := 0x100150 + 0x1000 * i
/-- Offset of CTX_ABORT (ctxKabort). -/
def ctxKabort (i : Nat) : Nat := 0x100158 + 0x1000 * i
/-- Offset of CTX_ABORT_STATUS (ctxKabortStatus). -/
def ctxKabortStatus (i : Nat) : Nat := 0x100160 + 0x1000 * i
/-- Offset of CTX_FLIGHTi (ctxFlight). -/
def ctxFlight (i : Nat) (j : Nat) : Nat := 0x100180 + 0x1000 * i + 0x10 * j
/-- Offset of CTX_TALLYi (ctxTally). -/
def ctxTally (i : Nat) (j : Nat) : Nat := 0x100188 + 0x1000 * i + 0x10 * j
/-- Offset of CTX_UNDELi_Wj (ctxUndel). -/
def ctxUndel (i : Nat) (j : Nat) (k : Nat) : Nat := 0x100200 + 0x1000 * i + 0x20 * j + 0x8 * k
/-- Offset of CTX_UNDEL_STATUS (ctxUndelStatus). -/
def ctxUndelStatus (i : Nat) : Nat := 0x100280 + 0x1000 * i
/-- Offset of CTX_NUM_CTRL (ctxNumCtrl). -/
def ctxNumCtrl (i : Nat) : Nat := 0x100300 + 0x1000 * i
/-- Offset of CTX_NUM_STATUS (ctxNumStatus). -/
def ctxNumStatus (i : Nat) : Nat := 0x100308 + 0x1000 * i
/-- Offset of CTX_NUM_TOTAL (ctxNumTotal). -/
def ctxNumTotal (i : Nat) : Nat := 0x100310 + 0x1000 * i
/-- Offset of CTX_DIGc_s_Wj (ctxDigW). -/
def ctxDigW (i : Nat) (j : Nat) (k : Nat) (l : Nat) : Nat := 0x100400 + 0x1000 * i + 0x100 * j + 0x40 * k + 0x8 * l
/-- Offset of CTX_DIGc_s_STATE (ctxDigState). -/
def ctxDigState (i : Nat) (j : Nat) (k : Nat) : Nat := 0x100430 + 0x1000 * i + 0x100 * j + 0x40 * k
/-- Offset of CTX_SEGn_BASE (ctxSegBase). -/
def ctxSegBase (i : Nat) (j : Nat) : Nat := 0x100800 + 0x1000 * i + 0x20 * j
/-- Offset of CTX_SEGn_LIMIT (ctxSegLimit). -/
def ctxSegLimit (i : Nat) (j : Nat) : Nat := 0x100808 + 0x1000 * i + 0x20 * j
/-- Offset of CTX_SEGn_TARGET (ctxSegTarget). -/
def ctxSegTarget (i : Nat) (j : Nat) : Nat := 0x100810 + 0x1000 * i + 0x20 * j
/-- Offset of CTX_XLT_CFG (ctxXltCfg). -/
def ctxXltCfg (i : Nat) : Nat := 0x100900 + 0x1000 * i
/-- Offset of CTX_XLT_DROOT (ctxXltDroot). -/
def ctxXltDroot (i : Nat) : Nat := 0x100908 + 0x1000 * i
/-- Offset of CTX_XLT_HROOT (ctxXltHroot). -/
def ctxXltHroot (i : Nat) : Nat := 0x100910 + 0x1000 * i
/-- Offset of CTX_XLT_FAULT (ctxXltFault). -/
def ctxXltFault (i : Nat) : Nat := 0x100918 + 0x1000 * i
/-- Offset of CTX_XLT_FCAUSE (ctxXltFcause). -/
def ctxXltFcause (i : Nat) : Nat := 0x100920 + 0x1000 * i
/-- Offset of CTX_XLT_PRQ (ctxXltPrq). -/
def ctxXltPrq (i : Nat) : Nat := 0x100928 + 0x1000 * i
/-- Offset of CTX_DOORBELL (ctxDoorbell). -/
def ctxDoorbell (i : Nat) : Nat := 0x200000 + 0x1000 * i
/-- Offset of CTX_ABORT (ctxAbort). -/
def ctxAbort (i : Nat) : Nat := 0x200008 + 0x1000 * i
/-- Offset of CTX_ABORT_STATUS (ctxAbortStatus). -/
def ctxAbortStatus (i : Nat) : Nat := 0x200010 + 0x1000 * i
/-- Offset of CTX_USTATUS (ctxUstatus). -/
def ctxUstatus (i : Nat) : Nat := 0x200018 + 0x1000 * i
/-- Offset of CTX_HEADr (ctxHead). -/
def ctxHead (i : Nat) (j : Nat) : Nat := 0x200020 + 0x1000 * i + 0x8 * j
/-- Offset of CTX_CQ_HEAD (ctxCqHead). -/
def ctxCqHead (i : Nat) : Nat := 0x200040 + 0x1000 * i
/-- Offset of CTX_CQ_TAIL (ctxCqTail). -/
def ctxCqTail (i : Nat) : Nat := 0x200048 + 0x1000 * i
/-- Offset of CTX_UTIME (ctxUtime). -/
def ctxUtime (i : Nat) : Nat := 0x200050 + 0x1000 * i
/-- Offset of CTX_UCNTj (ctxUcnt). -/
def ctxUcnt (i : Nat) (j : Nat) : Nat := 0x200060 + 0x1000 * i + 0x8 * j
/-- Offset of CTX_UENERGY (ctxUenergy). -/
def ctxUenergy (i : Nat) : Nat := 0x2000a0 + 0x1000 * i
/-- Offset of CTX_ULAST (ctxUlast). -/
def ctxUlast (i : Nat) : Nat := 0x2000a8 + 0x1000 * i

end Reg

/-- The rows whose range an offset lies in (R8, R443). -/
def rowsAt (off : Nat) : List RegRow :=
  if off < 0x1000 then bellRows else if off < 0x2000 then cgRows else if off < 0x3000 then criRows
  else if off < 0x4000 then barRows else if off < 0x5000 then xltRows else if off < 0x6000 then memRows
  else if off < 0x7000 then pwrRows else if off < 0x8000 then ctxRows else if off < 0xC000 then errRows
  else if off < 0x1_0000 then insRows else if off < 0x1_8000 then sthRows else if off < 0x2_0000 then dbgRows
  else if off < 0x4_0000 then fabRows else if off < 0x10_0000 then [] else if off < 0x20_0000 then kernelRows
  else if off < 0x100_0000 then userRows else []

/-- The instance indexes that reach a distance from a row's base, outermost stride first. -/
def matchDims (t : Straps) : Nat → List (Nat × (Straps → Nat)) → Option (List Nat)
  | d, [] => if d = 0 then some [] else none
  | d, (stride, count) :: r =>
    if d / stride < count t then (matchDims t (d % stride) r).map fun ix => (d / stride) :: ix else none

/-- A register that an offset names: its row and indexes. -/
structure RegInst where
  row : RegRow
  ix : List Nat

/-- The first row of a list that names the offset. -/
def findRow (t : Straps) (off : Nat) : List RegRow → Option RegInst
  | [] => none
  | r :: rs =>
    match (if r.base ≤ off then matchDims t (off - r.base) r.dims else none) with
    | some ix => some ⟨r, ix⟩
    | none => findRow t off rs

/-- Is the unit of the offset absent, its registers reading zero and ignoring writes without a log entry (R445, R294,
and the page-table registers of a C1)? -/
def absentQuiet (t : Straps) (off : Nat) : Bool :=
  t.build == .c1 && ((decide (0x2_0000 ≤ off) && decide (off < 0x4_0000)) ||
    off == Reg.xltFmt || off == Reg.xltFmtX0 || off == Reg.xltFmtX1 ||
    (decide (0x10_0000 ≤ off) && decide (off < 0x10_0000 + 0x1000 * t.contexts) &&
      (off % 0x1000 == 0x908 || off % 0x1000 == 0x910)))

/-- Decoding an offset of the 32 MiB space (R445): the register it names in this build, if any. -/
def decodeReg (t : Straps) (off : Nat) : Option RegInst :=
  if absentQuiet t off then none else findRow t off (rowsAt off)

/-- The value of a register after power-on reset (R456); zero where no table names the offset. -/
def regReset (t : Straps) (off : Nat) : Word :=
  match decodeReg t off with
  | some r => BitVec.ofNat 64 (r.row.reset t r.ix)
  | none => 0

/-- The mask of a register's fields of one access code. -/
def accMask (r : RegRow) (a : Acc) : Nat :=
  r.fields.foldl (fun m f => if f.acc = a then m + maskNat f.hi f.lo else m) 0

/-- Does the register have WO fields in both halves, or one SH field across them (BELL_STEP): the registers whose 32-bit
halves join (R9)? -/
def splitJoins (r : RegRow) : Bool :=
  r.name == .bellStep ||
    (r.fields.any (fun f => f.acc == .wo && decide (f.lo < 32)) &&
      r.fields.any (fun f => f.acc == .wo && decide (32 ≤ f.hi)))

end Sys2Proof.Machine
end

