-- ==== Sys2Proof/Machine/Sparse.lean ====
section
/-!
DEFINITION. Sparse data by number (registers, memory bytes, page tables): a list of pairs, keys strictly rising, no entry
equal to what an unlisted key reads as. `dflt k` is what key `k` reads as while it is not listed.
-/
namespace Sys2Proof.Machine

/-- Pairs of a key and a value. -/
abbrev Sparse (V : Type) := List (Nat × V)

/-- The value listed at key `k`, or `d`, what the key reads as while it is not listed. -/
def sparseGet {V : Type} (d : V) : Sparse V → Nat → V
  | [], _ => d
  | (a, v) :: r, k => if a = k then v else sparseGet d r k

/-- The list with no entry at key `k`, however often it lists it. -/
def sparseDrop {V : Type} : Sparse V → Nat → Sparse V
  | [], _ => []
  | (a, v) :: r, k => if a = k then sparseDrop r k else (a, v) :: sparseDrop r k

/-- The list with key `k` entered at its place, replacing an entry it had. -/
def sparsePut {V : Type} : Sparse V → Nat → V → Sparse V
  | [], k, v => [(k, v)]
  | (a, x) :: r, k, v =>
    if k < a then (k, v) :: (a, x) :: r
    else if k = a then (k, v) :: r
    else (a, x) :: sparsePut r k v

/-- A write: key `k` reads `v` afterwards; an entry equal to the default `d` is not listed. -/
def sparseSet {V : Type} [DecidableEq V] (d : V) (l : Sparse V) (k : Nat) (v : V) : Sparse V :=
  if v = d then sparseDrop l k else sparsePut l k v

/-- Every key of a range back at its default. -/
def sparseClear {V : Type} (l : Sparse V) (lo n : Nat) : Sparse V :=
  l.filter fun p => decide (p.1 < lo) || decide (lo + n ≤ p.1)

/-- Keys strictly rising. -/
def sparseSorted {V : Type} : Sparse V → Bool
  | [] => true
  | [_] => true
  | (a, _) :: (b, v) :: r => decide (a < b) && sparseSorted ((b, v) :: r)

/-- The canonical form: keys strictly rising, no entry equal to its default. -/
def sparseWf {V : Type} [DecidableEq V] (dflt : Nat → V) (l : Sparse V) : Bool :=
  sparseSorted l && l.all fun p => decide (p.2 ≠ dflt p.1)

end Sys2Proof.Machine
end

