-- ==== Sys2Proof/Machine/State.lean ====
section
/-!
DEFINITION. The state of the block as plain data: the register file, the typed state of each unit, the memories, the work in
hand, what has been sent to the surroundings, and the queue of waiting commands. Register words stand in `regs`, a sparse list
by offset whose default is the reset value of R456; a register whose value the hardware computes from a unit's state (such as
CG_STATUS or CTX_TILES) is no second copy: it is computed when it is read (Machine/RegView.lean).
-/
namespace Sys2Proof.Machine

open Sys2Proof

/-! ## Station time and commit groups -/

/-- The lock states of BELL_STATUS.state (R26). -/
inductive Lock where
  | unlocked | acquiring | locked | holdover
  deriving DecidableEq, Repr, Inhabited

/-- The Bell beside its registers (R15 to R27). -/
structure Bell where
  /-- the station-time counter, 64 bits (R15) -/
  now : Nat
  /-- the part of the rate adjustment not yet turned into a tick, in 10^-11 of a tick -/
  rateAcc : Int
  lock : Lock
  /-- consecutive measurements within 2 st while ACQUIRING (R26) -/
  good : Nat
  /-- expected PPS edges missed in a row (R20) -/
  missed : Nat
  /-- the count at which the next PPS edge is expected (R20) -/
  nextEdge : Option Nat
  /-- a phase error beyond step_limit has been measured, and the operator has not stepped the counter since (R21) -/
  awaitStep : Bool
  /-- the rate in force when acquisition began, in 0.01 ppb (R26: no rate learnt during acquisition is kept) -/
  acqAdj : Int
  /-- uptime at which HOLDOVER was entered, and est_error then (R27) -/
  holdUp : Nat
  holdEst : Nat
  /-- uptime of the last time message from the upstream port (R24) -/
  lastMsg : Nat
  /-- by port, the last at most 64 delay measurements in 1/16 st, newest first (R23) -/
  samples : List (List Int)
  /-- by port, the t1 of the exchange under way (R23) -/
  sent : List (Option Nat)
  deriving DecidableEq, Repr, Inhabited

/-- The states of a commit-group slot (CG_STATUS.state, R34). -/
inductive GState where
  | idle | opened | armed | bound | applied | aborted
  deriving DecidableEq, Repr, Inhabited

/-- One staged write (R12, R14): the offset, the bits it carries and their value. -/
structure Staged where
  off : Nat
  mask : Nat
  val : Nat
  deriving DecidableEq, Repr, Inhabited

/-- The fields of CG_JOB as they stood at the arm (R39). -/
structure GJob where
  scope : Bool
  ctx : Nat
  count : Nat
  coord : Nat
  job : Nat
  deriving DecidableEq, Repr, Inhabited

/-- One commit-group slot (R33 to R41, R43). -/
structure Group where
  st : GState
  ident : Nat
  members : Nat
  cause : Nat
  failed : Nat
  acked : Nat
  tick : Nat
  /-- station time of the arm -/
  armAt : Nat
  /-- staged writes, oldest first -/
  staged : List Staged
  /-- opened by the Inspector while it carries out a command (R398) -/
  byInspector : Bool
  job : GJob
  /-- this block has sent its STAGED -/
  sentStaged : Bool
  /-- CG_JOB_STATUS: 0 none, 1 COMMIT, 2 ABORT, 3 LOST -/
  verdict : Nat
  missing : Nat
  firstMissing : Nat
  /-- at the coordinator: the job block numbers whose STAGED it holds -/
  held : List Nat
  /-- the power controller started a voltage raise for this group at the arm (R376) -/
  raised : Bool
  deriving DecidableEq, Repr, Inhabited

/-! ## Programs: lanes and operations -/

/-- A tensor descriptor, 256 bits (R143). -/
abbrev Desc := BitVec 256

/-- The mode of ARM.MODE (R163): 0 WS, 1 IS, 2 OS; the formats of both operands; cbw. -/
structure Mode where
  kind : Nat
  fmtA : Nat
  fmtB : Nat
  cbw : Bool
  deriving DecidableEq, Repr, Inhabited

/-- The unit queue an operation stands in (R149). -/
inductive UnitId where
  | tile (t : Nat)
  | barrow (b : Nat)
  /-- the lane's LD and ST port -/
  | port
  /-- the semaphore store and the barrier engine -/
  | sync
  /-- the time unit -/
  | time
  deriving DecidableEq, Repr, Inhabited

/-- A scratch interval an operation reads or writes (R150): stores 0 to 15 are tile scratches, 16 + c cluster scratch c. -/
structure Ival where
  store : Nat
  lo : Nat
  hi : Nat
  wr : Bool
  deriving DecidableEq, Repr, Inhabited

/-- Where an operation stands: issued into its queue, started in its unit, or with every effect in force. -/
inductive OpSt where
  | queued | running | finished
  deriving DecidableEq, Repr, Inhabited

/-- An exception (R154, R187): its code, the instruction's address, the record's arg, and the fields R82 adds. -/
structure Exc where
  code : Nat
  pc : Nat
  arg : Nat
  operand : Nat
  tile : Nat
  deriving DecidableEq, Repr, Inhabited

/-- An issued operation and what it sampled at issue (R144, R149, R150). -/
structure Op where
  /-- the block-wide issue number -/
  id : Nat
  lane : LaneId
  ctx : Nat
  gen : Nat
  seq : Nat
  pc : Nat
  iw : IWord
  unit : UnitId
  st : OpSt
  dd : Desc
  da : Desc
  db : Desc
  dc : Desc
  /-- descriptors named by sc_d of dd, da, db, sampled with them (R144) -/
  scDd : Desc
  scDa : Desc
  scDb : Desc
  /-- the plane descriptors after the first (R177) -/
  planes : List Desc
  /-- scalars read at issue -/
  sc : List Word
  ivals : List Ival
  /-- the mode R164 determines for the tile at issue -/
  mode : Mode
  /-- destination register of LD, DLD, TWAIT.C, TSLOT: 0 to 31 s, 32 to 47 d -/
  dst : Option Nat
  /-- the tick a time wait releases at, and the slot number TWAIT.C returns -/
  tick : Nat
  slotNo : Nat
  /-- row quads entered, or segments, and their total -/
  done : Nat
  total : Nat
  /-- the cycle the operation started in its unit -/
  startCyc : Nat
  /-- bytes computed at the start that land at completion: (store address, byte) -/
  pendBytes : List (Nat × Byte)
  /-- a BARRIER has arrived; a WAIT stands in the store's order -/
  arrived : Bool
  /-- bank slots a vector operation has taken, in the order in which it reads them: poisoned or not, and the 256 values (R151) -/
  slotsIn : List (Bool × List (BitVec 32))
  /-- for each slot a vector operation reads, how many readers of it came before since the stream that writes it was issued (R52, R151) -/
  laps : List Nat
  /-- slots that readers issued since this stream have named, one entry for each reader and slot -/
  uses : List Nat
  deriving DecidableEq, Repr, Inhabited

/-- One active loop (R139): its k register, the address of its first and of its last word. -/
structure LoopEnt where
  k : Nat
  start : Nat
  last : Nat
  deriving DecidableEq, Repr, Inhabited

/-- STH_LANEn_STATUS.state (R216). -/
inductive LaneSt where
  | idle | issuing | blocked | gated | ending
  deriving DecidableEq, Repr, Inhabited

/-- A Stallholder lane and the program state it holds (R127 to R131, R101). -/
structure Lane where
  st : LaneSt
  /-- wait cause and argument of R216 -/
  wait : Nat
  waitArg : Nat
  ctx : Nat
  gen : Nat
  seq : Nat
  /-- s0 to s31, 64 bits each (R130) -/
  s : List Word
  /-- d0 to d15, 256 bits each -/
  d : List Desc
  /-- k0 to k3, 32 bits each -/
  k : List Nat
  /-- p0 to p7 -/
  p : List Bool
  pc : Nat
  /-- active loops, innermost first, at most 4 -/
  loops : List LoopEnt
  /-- the launch-start values of s3 and s4 (R158) -/
  s3 : Nat
  s4 : Nat
  /-- the launch's constant buffer, 192 bytes (R142) -/
  consts : List Byte
  /-- the first cycle in which the lane may issue again -/
  nextIssue : Nat
  /-- by register (0 to 31 s, 32 to 47 d, 48 to 55 p, 56 to 59 k), the cycle its pending value is usable (R148) -/
  ready : Sparse Nat
  /-- the cycle DIVU and REMU are free again -/
  divFree : Nat
  /-- launches dispatched to this lane and not yet begun, oldest first (sequence numbers) -/
  waiting : List Nat
  /-- the launch's saturation counts and NaN flag on this cluster, threshold and irq_en as sampled (R101) -/
  accSat : Nat
  convSat : Nat
  nan : Bool
  threshold : Nat
  irqEn : Bool
  calib : Bool
  /-- the operating point PACE states (R186) -/
  pace : Option Nat
  /-- issue has stopped for an exception, an abort or the Awning -/
  stopped : Bool
  /-- pages for which a page request has been served for the fetch under way (R254) -/
  served : List Nat
  deriving DecidableEq, Repr, Inhabited

/-! ## Tiles and clusters -/

/-- A stationary operand (R59, R166): element codes by N (or M) index and K index, their format as the cubes see it, the zero
point, and the block scale codes by N index and K block. -/
structure Stat where
  fmt : Nat
  zp : Nat
  codes : List (List Nat)
  scales : List (List Nat)
  deriving DecidableEq, Repr, Inhabited

/-- A row quad, a row of a 16-bit row quad, or an OS result group, on its way to its slot (R47, R53, R55): results in force at cycle
`ready`. -/
structure Flight where
  op : Nat
  /-- number of the row quad in its pass, and the slot rows that this carries -/
  quad : Nat
  rows : List Nat
  ready : Nat
  bank : Nat
  slot : Nat
  acc : Bool
  /-- 4 rows of 64 values: exact sums on the integer path, fp32 codes on the floating path -/
  isInt : Bool
  vals : List (List Int)
  /-- the slot type its mode gives to what stands in the slot (R167) -/
  slotInt : Bool
  /-- the pass's streamed operand is an MX format (R83, R84) -/
  mx : Bool
  deriving DecidableEq, Repr, Inhabited

/-- An OS chain left open (R168): bank, start, acc and formats of its last pass, and the pass's operation. -/
structure Chain where
  bank : Nat
  start : Nat
  acc : Bool
  fmtA : Nat
  fmtB : Nat
  op : Nat
  deriving DecidableEq, Repr, Inhabited

/-- A feeder gap (R68): the cycle and the uptime it began at, whether it is known and to which tick, the filler settings sampled, the
reference level, and the filler row quads counted so far. -/
structure Gap where
  start : Nat
  up : Nat
  known : Option Nat
  enable : Bool
  band : Nat
  limit : Nat
  ramp : Nat
  /-- the level has begun to fall (R69) -/
  falling : Bool
  /-- station time at which it began -/
  st : Nat
  /-- the array's activity over the 1 us before it began: coefficients of R387 summed -/
  ref : Nat
  sent : Nat
  deriving DecidableEq, Repr, Inhabited

/-- Rest of a tile or cluster domain (R391, R392). -/
inductive Rest where
  | awake
  | entering (since : Nat) (wakeAfter : Bool)
  | resting
  | waking (since : Nat)
  deriving DecidableEq, Repr, Inhabited

/-- A tile: Armature, Maquette, vector unit, tile scratch (R45 to R70, R86 to R89, R119). -/
structure Tile where
  /-- the leasing context -/
  lease : Option Nat
  /-- clearing under R58 (cycle it ends at the earliest) and zeroing under R115, while they last -/
  clearArr : Option Nat
  clearScr : Option Nat
  /-- the lease has ended or the context was reset while the tile rested: it zeroes after its next wake (R393) -/
  clearOnWake : Bool
  rest : Rest
  /-- the uptime since which the tile has been idle -/
  idleSince : Nat
  /-- the mode kept by the tile, and the one of the most recent ARM.MODE issued to it (R163, R164) -/
  mode : Mode
  issuedMode : Mode
  /-- entry format (a code of R73) of the book that the latest ARM.LOAD or ARM.STREAM issued to the tile expands (log entry 13) -/
  cbFmt : Nat
  chainIssued : Option Chain
  chain : Option Chain
  /-- the operand of the latest pass, and the fronts that have entered, newest first: the cycle S of each and the operand behind it; cube
  (i, j) holds the first that has reached it (R59) -/
  active : Stat
  fronts : List (Nat × Stat)
  /-- an operand that waits in the shadows (R63), and the cycle its load began and is complete -/
  shadow : Option Stat
  loadStart : Nat
  loadDone : Nat
  loadWide : Bool
  /-- loads that have begun, newest first: the cycle L, whether of the 16-bit width, and the operand; cube (i, j)'s shadow holds the first
  that has reached it (R60) -/
  loads : List (Nat × Bool × Stat)
  /-- the two OS accumulator sets: 64 by 64 values, and the one in use -/
  sets : List (List (List Int))
  curSet : Nat
  setsInt : Bool
  /-- first entry of the latest pass, last entry, and the mode and class of that pass (R60 to R62) -/
  passStart : Nat
  passFloor : Nat
  lastEntry : Nat
  passMode : Mode
  /-- the path, integer or floating, that the pass sampled with its first row quad (R49, R90) -/
  passInt : Bool
  /-- array events of the last 1 us: uptime, event class of R387, number (R68) -/
  recent : List (Nat × Nat × Nat)
  /-- the physical row that the repair map bypasses (R64): STH_ARM_REPAIRt.faulty_row cannot hold row 16 -/
  faulty : Option Nat
  flights : List Flight
  /-- the eight accumulator banks: value at bank * 32768 + slot * 256 + row * 64 + column (R50) -/
  banks : Sparse (BitVec 32)
  /-- poisoned slots, bank * 128 + slot (R84) -/
  poison : List Nat
  /-- by book: valid, sorted (R88) -/
  books : List (Bool × Bool)
  /-- by table slot: valid (R119) -/
  tables : List Bool
  /-- book and table slots written and not yet validated (R88, R119) -/
  bookDirty : List Nat
  tableDirty : List Nat
  gap : Option Gap
  /-- temperature of the last reading of each of the three sensors, 1/16 degree; none excluded (R383) -/
  temps : List (Option Int)
  /-- sum and number of the readings not excluded in the Ledger's window (R388) -/
  winTemp : Int × Nat
  /-- voltage by time (mV × ticks) over the Ledger's window for which the domain was not in Rest (R388): under the lease in force, with no lease,
  and under leases that have ended -/
  leakOwn : Nat
  leakFree : Nat
  leakLost : Nat
  deriving DecidableEq, Repr, Inhabited

/-- A line of the instruction cache (R129). -/
structure ILine where
  addr : Nat
  ctx : Nat
  gen : Nat
  bytes : List Byte
  deriving DecidableEq, Repr, Inhabited

/-- A cluster: instruction cache, rest, ranges being zeroed (R115, R129, R391). -/
structure Cluster where
  icache : List ILine
  rest : Rest
  /-- ranges still being zeroed: first MiB, MiB, the cycle it ends at the earliest -/
  zeroing : List (Nat × Nat × Nat)
  /-- voltage by time (mV × ticks) over the Ledger's window for which the domain was not in Rest (R388) -/
  leak : Nat
  deriving DecidableEq, Repr, Inhabited

/-! ## Contexts and launches -/

/-- The context states of CTX_USTATUS.state (R317). -/
inductive CtxSt where
  | free | active | stopped | faulted | teardown
  deriving DecidableEq, Repr, Inhabited

/-- The decision of a launch (R200, R201, R203). -/
structure Decision where
  status : Nat
  where_ : Nat
  arg : Nat
  operand : Nat
  tile : Nat
  cluster : Nat
  deriving DecidableEq, Repr, Inhabited

/-- A launch's stage (CTX_FLIGHTi.stage): waiting for a lane, running, stopping. -/
inductive Stage where
  | waiting | running | stopping
  deriving DecidableEq, Repr, Inhabited

/-- An exception report on its way to the sequencer (R155, R156): its tick, its cluster's ordinal on its member with 16 times the member's number
(R291), and its operation number. -/
structure ExcRep where
  time : Nat
  cluster : Nat
  opNo : Nat
  exc : Exc
  deriving DecidableEq, Repr, Inhabited

/-- A launch record as fetched (R193 to R195). -/
structure Rec where
  count : Nat
  /-- the record has arrived and its header is checked -/
  here : Bool
  entry : Nat
  consts : List Byte
  irq : Bool
  keep : Bool
  watch : Nat
  /-- not-before tick T, and whether it has been released -/
  nb : Option Nat
  released : Bool
  /-- at its release it was by T, fetched in time and eligible, on idle lanes (R198) -/
  onTime : Bool
  fetchedAt : Nat
  /-- a header failure, or a record fetch that failed, or an abort, to be decided in dispatch order -/
  bad : Option Decision
  /-- the fetch was repeated once (R346) -/
  retried : Bool
  deriving DecidableEq, Repr, Inhabited

/-- A submission ring (R189, R191). -/
structure Ring where
  tail : Nat
  head : Nat
  decided : Nat
  pending : Bool
  scanning : Bool
  /-- records fetched, or being fetched, and not yet dispatched, oldest first -/
  recs : List Rec
  /-- launches this ring has used of its turn in the round (R196) -/
  used : Nat
  /-- the ring is held by a fetch fault being served (R208, R256) -/
  held : Bool
  /-- pages for which a page request has been served for the fetch under way (R254) -/
  served : List Nat
  /-- an unrecoverable fault on the fetch of the entry at a count: the count and the faulting address (R208) -/
  failed : Option (Nat × Nat)
  deriving DecidableEq, Repr, Inhabited

/-- A dispatched or decided launch whose record is not yet written, in dispatch order (R196 to R203). -/
structure Launch where
  ring : Nat
  seq : Nat
  gen : Nat
  entry : Nat
  consts : List Byte
  irq : Bool
  keep : Bool
  nb : Option Nat
  /-- fetched in time and eligible by T (R198) -/
  inTime : Bool
  stage : Stage
  dispatched : Bool
  /-- CTX_NUM_CTRL as sampled at the dispatch (R101) -/
  numCtrl : Word
  /-- clusters running it, and those that have ended their share -/
  clusters : List Nat
  /-- in a gang, clusters of the other members that run it: all of them, and those of members before this one (R128, R291); at the lead, the
  members that have still to end it; at a member, that the lead dispatched it -/
  gangMore : Nat
  gangBefore : Nat
  gangLeft : List Nat
  /-- running and throttled time at the members that have ended (R459) -/
  gangShares : List (Nat × Nat)
  fromLead : Bool
  ended : List Nat
  excs : List ExcRep
  decision : Option Decision
  tally : Nat
  /-- the watch: window (us), uptime of the last change seen, Tally then, and whether it has fired for it (R210) -/
  window : Nat
  watchAt : Nat
  watchTally : Nat
  fired : Bool
  accSat : Nat
  convSat : Nat
  nan : Bool
  calib : Bool
  /-- counts of the window by event class (R387), each already weighted by the voltage squared: (pJ / 6400) -/
  events : List Nat
  /-- energy attributed in completed windows (pJ, exact) and its flag (R389) -/
  energy : Rat
  unrec : Bool
  /-- running time and throttled time (st) (R336) -/
  runSt : Nat
  thrSt : Nat
  /-- the counts of R335: row quads, vector operations, barrow bytes, lines read, lines written, request flits -/
  work : List Nat
  /-- the completion record's write faulted once (R206) -/
  retried : Bool
  /-- its figures are in CTX_ULAST and CTX_UENERGY (R336) -/
  accounted : Bool
  deriving DecidableEq, Repr, Inhabited

/-- A WAIT standing in the semaphore store (R182). -/
structure SemWait where
  sem : Nat
  value : Nat
  keep : Bool
  op : Nat
  deriving DecidableEq, Repr, Inhabited

/-- A SHA-384 digest slot (R179, R234, R235). -/
structure Digest where
  /-- bytes absorbed since init, oldest first; the chaining state is a function of them -/
  bytes : List Byte
  length : Nat
  fin : Bool
  deriving DecidableEq, Repr, Inhabited

/-- A context reset under way (R355). -/
structure CtxReset where
  cause : Nat
  destroy : Bool
  /-- begun by CTX_CMD -/
  command : Bool
  oldGen : Nat
  began : Nat
  /-- engines that have acknowledged the Awning (engine mask of R258, with bit 32 + t for tile t, 48 + c for lanes) -/
  acks : List Nat
  /-- 0 purge, 1 sampling, 2 zeroing -/
  phase : Nat
  /-- the captured unit state (R363), as bytes -/
  capture : List Byte
  /-- the lease as it stood at the Awning: tiles; cluster, first MiB and MiB of each range -/
  tiles : List Nat
  ranges : List (Nat × Nat × Nat)
  /-- the words of its RESET record -/
  words : List Word
  deriving DecidableEq, Repr, Inhabited

/-- Where the completion write path of a context stands (R199, R206): nothing under way; waiting for a translation; for a page request; for the
check of a part line of attached memory (R310); failed for good. -/
inductive CqSt where
  | idle | walk | held | sent | failed
  deriving DecidableEq, Repr, Inhabited

/-- A context slot (R317 to R320). -/
structure Ctx where
  st : CtxSt
  gen : Nat
  rings : List Ring
  /-- records written to the completion ring, reserved entries, phase of the next record (R199) -/
  written : Nat
  reserved : Nat
  phase : Bool
  launches : List Launch
  /-- abort marks: sequence number and decision (R204) -/
  marks : List (Nat × Decision)
  /-- records that were dropped after their launch had been decided: the decision stands when they are fetched again (R203, R206, R208) -/
  kept : List (Nat × Decision)
  /-- pending abort requests of CTX_ABORT and CTX_KABORT -/
  abortT : Option Nat
  abortK : Option Nat
  /-- sem0 to sem63, 32 bits each (R130) -/
  sems : List Nat
  semWaits : List SemWait
  /-- SIGs and WAITs that reached the store in the latest cycle one did: semaphore, cycle, cluster, operation (R182) -/
  semReach : List (Nat × Nat × Nat × Nat)
  /-- by cluster and slot, 4 * c + s -/
  digests : List Digest
  /-- uptime at which held left 0 (R331) -/
  modFrom : Option Nat
  /-- uptime of the last retirement of each generation (R359) -/
  retired : Sparse Nat
  rst : Option CtxReset
  /-- link bucket tokens, the uptime at which the last were added, and by barrow the tokens that flits of a waiting request have taken (R329) -/
  tokens : Nat
  tokenAt : Nat
  paid : List (Nat × Nat)
  /-- debug reads of the lease since CREATE (R406) -/
  debugReads : Nat
  /-- the cycle of the last calibration event, and of the last write that cleared CTX_NUM_STATUS.calib (R103) -/
  calibSet : Option Nat
  calibClr : Option Nat
  /-- filler row quads of the window that no running launch takes, weighted as Launch.events (R70, R388) -/
  fillEvents : Nat
  /-- energy of ended launches (pJ, exact; R336) -/
  energy : Rat
  /-- by priority, the ring whose turn it is in the round (R196) -/
  turns : List Nat
  cq : CqSt
  deriving DecidableEq, Repr, Inhabited

/-! ## Barrows -/

/-- A page frame of a queued descriptor (R220). -/
structure Frame where
  page : Nat
  size : Nat
  phys : Nat
  r : Bool
  w : Bool
  atomic : Bool
  /-- the destination's side -/
  dest : Bool
  valid : Bool
  stale : Bool
  /-- a frame that is not valid has asked for its page -/
  asked : Bool
  /-- its requests go untranslated with the PASID (R251) -/
  ut : Bool
  deriving DecidableEq, Repr, Inhabited

/-- A piece of a segment: a run of bytes at a device virtual address, within one page. `pa` is its physical address while the
translation it was formed with holds, `sent` says that its request has been issued, and `bytes` are its bytes: those read, or
those to be written. -/
structure Piece where
  va : Nat
  len : Nat
  pa : Option Nat
  ut : Bool
  sent : Bool
  bytes : Option (List Byte)
  deriving DecidableEq, Repr, Inhabited

/-- A segment in flight (R222): the pieces it gathers, those it writes, the writes sent that await an acknowledgement, whether the
bytes to be written are formed, and the clamps counted for it. -/
structure Seg where
  k : Nat
  src : List Piece
  dst : List Piece
  waits : Nat
  formed : Bool
  clamps : Nat
  /-- it has failed: it sends nothing more, and leaves its operation once the requests it has sent are answered (R228) -/
  dead : Bool
  deriving DecidableEq, Repr, Inhabited

/-- A queued descriptor (R219 to R223). -/
structure QDesc where
  op : Nat
  ctx : Nat
  gen : Nat
  lane : LaneId
  seq : Nat
  frames : List Frame
  total : Nat
  /-- segments complete in prefix order, and those complete beyond the prefix -/
  done : Nat
  bitmap : List Nat
  /-- the next segment to issue -/
  next : Nat
  segs : List Seg
  running : Bool
  /-- the operation stands at a faulting page (R224) -/
  fault : Option Nat
  /-- pages for which a page request has been served in this operation, and whether it was for a write (R254) -/
  served : List (Nat × Bool)
  /-- the operation ends with this exception once the issued segments have their answers -/
  failing : Option Exc
  /-- its segment translation was withdrawn and is checked again before the next segment (R244) -/
  recheck : Bool
  /-- BAR.DIGEST: the slot as it stood before the operation, the segments absorbed, and the bytes of complete segments beyond
  them (R234) -/
  before : Option Digest
  absorbed : Nat
  ahead : List (Nat × List Byte)
  deriving DecidableEq, Repr, Inhabited

/-- BAR_STATUSb.state (R238). -/
inductive BarSt where
  | idle | moving | stalledFault | stalledBudget | retranslating | purging
  deriving DecidableEq, Repr, Inhabited

/-- A barrow (R217, R218). -/
structure Barrow where
  st : BarSt
  /-- queued and running descriptors, oldest first -/
  q : List QDesc
  deriving DecidableEq, Repr, Inhabited

/-! ## Requests, translation, the fabric and memory -/

/-- Who issued a request: an engine-mask bit of R258. -/
inductive Dest where
  /-- piece `idx` of segment `seg` of operation `op` on barrow `b` -/
  | seg (b op seg idx : Nat)
  /-- acknowledgement of a destination write of a segment -/
  | ackSeg (b op seg : Nat)
  /-- an instruction line of a lane -/
  | fetch (l : LaneId) (addr : Nat)
  /-- a launch record -/
  | record (ctx ring count : Nat)
  /-- the write of a completion record -/
  | cq (ctx : Nat)
  /-- a READ served for a peer: where its DATA goes -/
  | peer (port job src jgen gctx tag : Nat)
  /-- a debug window read -/
  | debug (off : Nat)
  deriving DecidableEq, Repr, Inhabited

/-- The path of an outstanding request. -/
inductive Path where
  | host
  | attached (ch : Nat)
  | link (port job : Nat)
  deriving DecidableEq, Repr, Inhabited

/-- An outstanding request: a transaction of R236, or a read tag of R358. -/
structure Req where
  tag : Nat
  path : Path
  dest : Dest
  engine : Nat
  ctx : Nat
  gen : Nat
  seq : Nat
  va : Nat
  pa : Nat
  len : Nat
  write : Bool
  sentUp : Nat
  /-- job block number of the peer, for a remote request (R228) -/
  peer : Nat
  /-- the bytes an attached read was accepted over (R301) -/
  bytes : List Byte
  /-- lines of an attached request not yet returned or checked -/
  left : Nat
  /-- the response is discarded when it arrives (R261, R351) -/
  dropped : Bool
  /-- sent to the host untranslated, with the PASID (R251) -/
  ut : Bool
  /-- an armed LINK_TIMEOUT injection discards its response (R344) -/
  lost : Bool := false
  /-- abandoned under R261 -/
  abandoned : Bool := false
  deriving DecidableEq, Repr, Inhabited

/-- A translation-cache entry (R252, R253): which cache it stands in (0 to 15 lane partitions 4 * cluster + lane, 28 the Crier's,
29 the Inspector's, 30 the debug channel's), its tags, its page and its right bits. -/
structure TlbEnt where
  cache : Nat
  ctx : Nat
  gen : Nat
  page : Nat
  size : Nat
  phys : Nat
  r : Bool
  w : Bool
  atomic : Bool
  /-- answered with U: its requests go untranslated with the PASID (R251) -/
  untrans : Bool
  deriving DecidableEq, Repr, Inhabited

/-- A translation under way: an ATS request or a walk (R250). -/
structure XReq where
  id : Nat
  engine : Nat
  cache : Nat
  ctx : Nat
  gen : Nat
  /-- device virtual page address, tag included -/
  page : Nat
  write : Bool
  atomic : Bool
  walk : Bool
  hostWalk : Bool
  priv : Bool
  /-- its result is discarded whatever it holds -/
  stale : Bool
  /-- ranges withdrawn since it was sent: a result that overlaps one is discarded (R263) -/
  after : List (Nat × Nat)
  /-- a walk that is in a walker (R250) -/
  running : Bool
  /-- formed and not yet sent (R429) -/
  held : Bool
  deriving DecidableEq, Repr, Inhabited

/-- An outstanding page request (R255). -/
structure PageReq where
  index : Nat
  ctx : Nat
  gen : Nat
  page : Nat
  write : Bool
  sentUp : Nat
  /-- timed out: the index stays in use until the response arrives -/
  dead : Bool
  /-- waits for a free allocation -/
  waiting : Bool
  deriving DecidableEq, Repr, Inhabited

/-- A withdrawal under way (R259): the ATS tag, or none for DRAIN_INVALIDATE and for a change of the translation settings (R266), which
`drain` tells apart; its contexts, range, engines still to acknowledge. -/
structure Withdraw where
  id : Nat
  itag : Option Nat
  drain : Bool
  ctxs : List Nat
  first : Nat
  pages : Nat
  engines : Nat
  arrived : Nat
  /-- requests issued through the old translation, by tag (R260) -/
  tags : List Nat
  /-- at the lead of a gang: members whose Invalidate Completion is still to come (R291) -/
  members : List Nat
  deriving DecidableEq, Repr, Inhabited

/-- A message admitted at ingress and not yet carried out: the port and head fields it came with. -/
structure Delivered where
  port : Nat
  job : Nat
  srcFab : Nat
  enc : Bool
  phase : Nat
  at_ : Nat
  msg : Msg
  deriving DecidableEq, Repr, Inhabited

/-- A head that waits at a port's output (R270, R272): for which job slot, whether this block originates it, and the head in clear. -/
structure QHead where
  slot : Option Nat
  own : Bool
  head : Head
  deriving DecidableEq, Repr, Inhabited

/-- One port of the link complex beside its registers (R267, R268, R272): replays without an acknowledgement, the heads that wait, the time in
1/100 tick until which a flit is on the port, flits sent while a request waits, and of a board port the next sequence word and the heads kept
for a replay with their sequence words. -/
structure Port where
  replays : Nat
  queue : List QHead
  busy : Nat
  passed : Nat
  seqNo : Nat
  buf : List (Nat × Head)
  /-- an injected LINK_CRC error stands in a flit of the buffer (R344) -/
  spoiled : Bool
  deriving DecidableEq, Repr, Inhabited

/-- A host transaction that the lead of a gang has issued for another member (R291): its kind in R421, the lead's own tag, the member and the
member's tag. -/
structure Relay where
  kind : Nat
  tag : Nat
  member : Nat
  theirs : Nat
  deriving DecidableEq, Repr, Inhabited

/-- One phase of a job key slot (R416): an opaque key number, its count, accepted for receipt until. -/
structure KeyPhase where
  key : Option Nat
  count : Nat
  until_ : Option Nat
  deriving DecidableEq, Repr, Inhabited

/-- The open epoch of a barrier group (R284), by group: what has arrived so far. -/
structure BarGroup where
  group : Nat
  /-- operations of this block's lanes that wait on it -/
  ops : List Nat
  /-- the block has arrived, and its ARRIVE aggregates -/
  own : Option ArriveInfo
  /-- children that have arrived: job block and aggregate -/
  kids : List (Nat × ArriveInfo)
  /-- by child, uptime of its last MISSING and the number it named (R287) -/
  kidMissing : List (Nat × Nat × Nat)
  sent : Bool
  /-- confirmed: release tick -/
  release : Option Nat
  openedUp : Nat
  lastStraggler : Nat
  lastMissing : Nat
  deriving DecidableEq, Repr, Inhabited

/-- A read or write waiting in a channel's queues (R301). -/
structure MReq where
  /-- the requests it serves: one, or those of a merged partial write -/
  tags : List Nat
  line : Nat
  write : Bool
  ctx : Nat
  accepted : Nat
  /-- a write of part of the line (R310) -/
  part : Bool
  /-- its place in the order of acceptance (R301) -/
  ord : Nat
  /-- a read that is answered from a whole line that waits to be written (R301) -/
  fwd : Bool
  /-- of a write: the line as it stood, and the bytes written to it by their place in the line, those of merged writes last (R301, R310) -/
  old : List Byte
  puts : List (Nat × Byte)
  deriving DecidableEq, Repr, Inhabited

/-- A line being read: its request, the key slot it holds a reference on, whether its MAC line is read with it (R308), whether its MAC did not
match when it was chosen, the detector that had it read once more (R309, R311), and whether its range was cleared since (R313). -/
structure Fly where
  req : MReq
  slot : Nat
  again : Option Nat
  macRead : Bool
  bad : Bool
  cleared : Bool
  deriving DecidableEq, Repr, Inhabited

/-- A refresh that is due: bank, deadline, neighbour refresh or not and then of which row, and the uptime it fell due (R304, R305). -/
structure Refresh where
  bank : Nat
  deadline : Nat
  neighbour : Bool
  row : Nat
  due : Nat
  deriving DecidableEq, Repr, Inhabited

/-- A channel controller (R301 to R306). -/
structure Chan where
  reads : List MReq
  writes : List MReq
  toWrite : Bool
  /-- open rows by bank -/
  rows : List (Option Nat)
  /-- uptime of the last hit, by bank -/
  hits : List Nat
  refresh : List Refresh
  /-- reads chosen and not yet returned -/
  inflight : List Fly
  updateUntil : Nat
  trainStart : Option Nat
  /-- what training came to, whatever MEM_MAP leaves out: a code of MEM_CHn_STATUS.state (R296, R306) -/
  phy : Nat
  /-- uptime at which each bank's next refresh falls due (R304) -/
  dues : List Nat
  /-- MAC lines and key-page-table lines held, by channel address, each with its dirty mark (R308) -/
  macCache : List (Nat × Bool)
  tabCache : List (Nat × Bool)
  deriving DecidableEq, Repr, Inhabited

/-- A range clear under way (R313): its first byte, its length, when it began, and the requests that were accepted before it. -/
structure ClearJob where
  first : Nat
  len : Nat
  began : Nat
  tags : List Nat
  deriving DecidableEq, Repr, Inhabited

/-- The memory controllers beside their registers: key pages (page of the channel's data addresses to slot + 128 when written,
keyed by channel * 2^32 + page), MAC failures and pending injections by line (R309, R311, R344), keys by slot (R413). -/
structure MemCtl where
  chans : List Chan
  pages : Sparse Nat
  badMac : List Nat
  clear : Option ClearJob
  /-- by slot: 0 EMPTY, 1 CURRENT, 2 DRAINING -/
  slots : List Nat
  /-- by slot: the number of the keys installed in it (R413) -/
  slotKeys : List Nat
  rotations : Nat
  /-- the last request beyond the data region: its context, 64 for none, and its address (R298) -/
  rangeAt : Option (Nat × Nat)
  deriving DecidableEq, Repr, Inhabited

/-! ## Faults, power, the Inspector, ports -/

/-- An armed injection point (R352). -/
structure Inject where
  det : Nat
  place : Nat
  ctx : Nat
  kind : Nat
  param : Nat
  deriving DecidableEq, Repr, Inhabited

/-- An operating-point transition under way (R375): target, and its stage 0 waiting for the voltage, 1 waiting for the PLL, 2 locked and
waiting for its tick or for the end of a stretch (R376, R394). -/
structure Transition where
  target : Nat
  stage : Nat
  began : Nat
  /-- a group keeps the switch until its tick (R376) -/
  atTick : Option Nat
  deriving DecidableEq, Repr, Inhabited

/-- A stretch under way (R379, R380). -/
structure Stretch where
  startTick : Nat
  startUp : Nat
  tile : Nat
  minMv : Nat
  /-- uptime of the last reading below the warning level -/
  lastLow : Nat
  deriving DecidableEq, Repr, Inhabited

/-- The power controller and the Ledger (R371 to R396). -/
structure Power where
  /-- the OPP the clock runs at, and the OPP R374 decides -/
  clk : Nat
  run : Nat
  capCeil : Nat
  thermCeil : Nat
  alertCeil : Nat
  /-- by job identifier, the pace of the job's last CONFIRM, 0 to 5 (R289) -/
  paces : List (Nat × Nat)
  /-- the cap in force since the last control period (R382) -/
  cap : Nat
  trans : Option Transition
  stretch : Option Stretch
  shutdown : Bool
  memThr : Bool
  linkThr : Bool
  /-- while they are over budget: lines per us of a quad, and request flits per us; what the current microsecond has had, by quad and for the
  links: the microsecond and the count (R381) -/
  memRate : Nat
  linkRate : Nat
  memStarts : List (Nat × Nat)
  linkStarts : Nat × Nat
  /-- consecutive control periods for which the faster point has fitted (R381) -/
  fitted : Nat
  /-- consecutive milliseconds below throttle_c - hyst_c, and since the alert was released -/
  coolMs : Nat
  alertFreeMs : Nat
  /-- STATUS_WORD is still to be read for an alert (R385) -/
  statusDue : Bool
  /-- counts of the control period by event class, weighted as Launch.events, and the uptime it began at (R381) -/
  msEvents : List Nat
  msUp : Nat
  /-- uptime at which the Ledger's window began -/
  windowUp : Nat
  /-- over the window: voltage by time (mV × ticks) of the front-end, and time (ticks) by quads and by link groups that are on (R388) -/
  frontMv : Nat
  quadT : Nat
  linkT : Nat
  /-- leakage of the window (pJ) that launches which have ended took: by context that of its lease, at 64 that of every other domain -/
  leakOut : List (Nat × Rat)
  /-- exact totals behind PWR_LEDGER_EST, PWR_LEDGER_MEAS and PWR_LEDGER_IDLE, in pJ -/
  ledgerEst : Rat
  ledgerMeas : Rat
  ledgerIdle : Rat
  /-- the scale of the last completed window -/
  scale : Rat
  /-- measured energy in the window (pJ), and the estimate of launches that ended in it (R389) -/
  winMeas : Rat
  endedEst : Rat
  /-- voltage of the compute rail as last written -/
  voltMv : Nat
  deriving DecidableEq, Repr, Inhabited

/-- A command the Inspector has received: its opcode, its frame, its bytes before the tag, and the source and identifier of the management
message it came in (R408, R409). -/
structure QCmd where
  op : Nat
  frame : CmdFrame
  bytes : List Byte
  msg : Option (Nat × Nat)
  deriving DecidableEq, Repr, Inhabited

/-- The last accepted command and the response the Inspector keeps for it (R409). -/
structure LastCmd where
  cmd : QCmd
  status : Nat
  /-- result bytes -/
  result : List Byte
  /-- 0 done, 1 in progress, 2 abandoned -/
  state : Nat
  deriving DecidableEq, Repr, Inhabited

/-- A partial management message (R418). -/
structure Partial where
  src : Nat
  ident : Nat
  kind : Nat
  count : Nat
  first : Nat
  frags : List (Nat × List Byte)
  deriving DecidableEq, Repr, Inhabited

/-- The Inspector (R397 to R419). -/
structure Inspector where
  /-- 0 BOOTING, 1 RUNNING, 2 RESTARTING, 3 HALTED -/
  st : Nat
  watchFrom : Nat
  wdOn : Bool
  restartFrom : Nat
  session : Option Nat
  /-- the export master secret of the operator session, from which cmd_key, rsp_key and wrap_key come (R407) -/
  secret : List Byte
  /-- the SPDM connection: version, capabilities and algorithms negotiated, a key exchange under way, its session -/
  spdmVer : Bool
  spdmCap : Bool
  spdmAlg : Bool
  kex : Option Nat
  keyEpoch : Nat
  last : Option LastCmd
  jobKeyLoads : Nat
  partials : List Partial
  /-- completed management messages waiting for the Inspector -/
  messages : List Partial
  /-- what INS_CMD_DOOR has submitted and the Inspector has not yet seen -/
  door : Option (List Byte)
  /-- commands received and not yet taken, oldest first, at most 8 -/
  queue : List QCmd
  svn : Nat
  lastCheck : Nat
  deriving DecidableEq, Repr, Inhabited

/-- The ports' pins and the host port (R420 to R434). -/
structure Pins where
  pwrGood : Bool
  bme : Bool
  linkDown : Bool
  frozen : Bool
  /-- native behaviour: host-bound requests are held by a fatal condition until a release (R428, log entry 31) -/
  fatalHold : Bool
  alertIn : Bool
  regsReady : Bool
  testMode : Bool
  /-- the wrapper instruction in force (R440) -/
  wir : Nat
  /-- 1 the block is held in power-on reset by the test port (R441) -/
  testHold : Bool
  deriving DecidableEq, Repr, Inhabited

/-- A message or transaction the block has sent to its surroundings, oldest first in `out`. -/
inductive Out where
  /-- a head flit and its data flits on a port, each with the sequence word and CRC-32 of a board port (R268) -/
  | flit (port : Nat) (link : List (Nat × BitVec 32)) (h : Head)
  /-- a host-port read -/
  | mrd (tag addr len : Nat)
  /-- a host-port write -/
  | mwr (addr : Nat) (bytes : List Byte)
  /-- an untranslated host read or write with a PASID (R251) -/
  | utRead (tag pasid addr len : Nat)
  | utWrite (pasid addr : Nat) (bytes : List Byte)
  | atsReq (id pasid page : Nat) (noWrite : Bool)
  | pageReq (index pasid page : Nat) (write : Bool)
  | invCpl (itag : Nat)
  | flashRd (addr len : Nat)
  | regCpl (off : Nat) (v : Word)
  /-- an access relayed to another gang member over the ring (R291, R444) -/
  | relayWr (member off : Nat) (mark : Bool) (f : WForm)
  | relayRd (member off : Nat)
  /-- a transaction of the host port relayed to another gang member: a request (5) or a response (6) of R418 -/
  | ring (member kind : Nat) (bytes : List Byte)
  /-- what the lead of a gang tells another member of a context's launches, and what a member tells the lead: a launch's end on its clusters, or
  an exception; the contexts that lease its tiles when it resets alone; a Function Level Reset to every member (R291, R292). R291 gives these
  no message format. -/
  | gangTell (member ctx : Nat) (m : GangMsg)
  | gangReport (ctx seq : Nat) (e : GangExc)
  | gangEnd (ctx seq : Nat) (f : GangFig)
  | gangLost (ctxs : List Nat)
  | gangFlr (member : Nat)
  /-- a pulse on sb_out with words 0 and 1 of the record: 0 correctable, 1 non-fatal, 2 fatal (R426) -/
  | errPulse (cls : Nat) (w0 w1 : Word)
  | pmbus (rail cmd value : Nat)
  /-- a stage of a command's response (R408): opcode, status, counter, stage, result -/
  | response (op status counter stage : Nat) (result : List Byte)
  | spdm (code : Nat) (data : List Nat)
  /-- a member's SPDM response through its DOE mailbox at the endpoint (R404) -/
  | doe (member : Nat) (bytes : List Byte)
  | wrapper (data : List Nat)
  /-- a DFI update request, a refresh command -/
  | dfi (ch kind bank : Nat)
  /-- a row activated and precharged for a neighbour refresh (R305) -/
  | dfiAct (ch bank row : Nat)
  /-- a line read from a channel, and one written to it, at a channel address (R297) -/
  | dfiRd (ch ca : Nat)
  | dfiWr (ch ca : Nat) (bytes : List Byte)
  deriving DecidableEq, Repr, Inhabited

/-! ## The state, its faults and refusals -/

/-- The whole block. -/
structure State where
  /-- the build and the straps in force (R435) -/
  straps : Straps
  /-- register words by offset; an unlisted offset reads its reset value (R456) -/
  regs : Sparse Word
  /-- lower halves held for registers whose halves join (R9), by offset -/
  latches : Sparse (Option Nat)
  /-- the upper half latched by a 32-bit read of BELL_NOW (R17) -/
  nowLatch : Option Nat
  /-- ticks of 0.25 ns since power-good, whatever steps station time takes -/
  up : Nat
  /-- cycles of the arithmetic clock since power-good, in 1/120 cycle -/
  cycAcc : Nat
  /-- the MODEL'S OWN counter of free values drawn -/
  free : Nat
  bell : Bell
  groups : List Group
  ctxs : List Ctx
  lanes : List Lane
  tiles : List Tile
  clusters : List Cluster
  /-- every issued operation not yet complete, in issue order -/
  ops : List Op
  nextOp : Nat
  barrows : List Barrow
  reqs : List Req
  nextTag : Nat
  /-- dump writes to host memory that the port holds, oldest first (R429) -/
  dumpHeld : List (Nat × List Byte)
  tlb : List TlbEnt
  xreqs : List XReq
  nextX : Nat
  pageReqs : List PageReq
  withdraws : List Withdraw
  nextWd : Nat
  ports : List Port
  /-- heads for this block's own fabric number (R274) -/
  loop : List Head
  /-- gang: how much of `out` has been looked at for the ring, host transactions of other members that wait, and the reads, translation and page
  requests of other members that the lead has issued as its own (R291) -/
  relayNext : Nat
  relayHeld : List (Nat × List Byte)
  relays : List Relay
  inbox : List Delivered
  keys : List (KeyPhase × KeyPhase)
  barGroups : List BarGroup
  mem : MemCtl
  /-- attached memory, scratch, Maquette windows and table memory by local address; an unlisted byte reads 0 -/
  cells : List Host.Cell
  inject : Option Inject
  /-- a block soft reset is under way since this uptime (R367) -/
  breset : Option Nat
  power : Power
  insp : Inspector
  pins : Pins
  /-- uptime at which start-up began and ended (INS_BOOT.elapsed_ms) -/
  bootUp : Option Nat
  /-- the contexts whose records were fetched last: of the timed ones, and of the others (R197) -/
  turnTimed : Nat
  turnOther : Nat
  /-- debug reads of a resting tile's scratch, waiting for it to be ready (R454): register offset and local address -/
  debugHeld : List (Nat × Nat)
  /-- the barrow that next takes freed pool transactions (R236) -/
  grantTurn : Nat
  out : List Out
  /-- commands waiting, first in first out -/
  pending : List Instr
  deriving DecidableEq, Repr, Inhabited

/-- Why the block stops: never. Every command of the table has an effect that the spec gives, so the type is empty. -/
inductive Fault where
  deriving DecidableEq, Repr

/-- Why the model refuses a command. -/
inductive Refusal where
  /-- raised by exec for a command whose meaning the model does not have yet; safe -/
  | notModelled (mnemonic : String)
  deriving DecidableEq, Repr

/-! ## Power-on reset -/

def Bell.reset : Bell :=
  { now := 0, rateAcc := 0, lock := .unlocked, good := 0, missed := 0, nextEdge := none, awaitStep := false, acqAdj := 0, holdUp := 0,
    holdEst := 0, lastMsg := 0, samples := List.replicate 8 [], sent := List.replicate 8 none }

def Group.reset : Group :=
  { st := .idle, ident := 0, members := 0, cause := 0, failed := 0, acked := 0, tick := 0, armAt := 0, staged := [],
    byInspector := false, job := ⟨false, 0, 0, 0, 0⟩, sentStaged := false, verdict := 0, missing := 0, firstMissing := 0,
    held := [], raised := false }

def Lane.reset : Lane :=
  { st := .idle, wait := 0, waitArg := 0, ctx := 0, gen := 0, seq := 0, s := List.replicate 32 0, d := List.replicate 16 0,
    k := List.replicate 4 0, p := true :: List.replicate 7 false, pc := 0, loops := [], s3 := 0, s4 := 0,
    consts := List.replicate 192 0, nextIssue := 0, ready := [], divFree := 0, waiting := [], accSat := 0, convSat := 0,
    nan := false, threshold := 0, irqEn := false, calib := false, pace := none, stopped := false, served := [] }

/-- The mode when a lease begins: WS with int8 for both operands (R163). -/
def Mode.initial : Mode := ⟨0, 0, 0, false⟩

def Stat.zero : Stat := ⟨0, 0, [], []⟩

def Tile.reset : Tile :=
  { lease := none, clearArr := none, clearScr := none, clearOnWake := false, rest := .awake, idleSince := 0,
    mode := Mode.initial, issuedMode := Mode.initial, cbFmt := 0, chainIssued := none, chain := none, active := Stat.zero,
    fronts := [], shadow := none, loads := [], passInt := true, recent := [], faulty := none, loadWide := false, loadStart := 0, loadDone := 0, sets := [[], []], curSet := 0, setsInt := true, passStart := 0, passFloor := 0,
    lastEntry := 0, passMode := Mode.initial, flights := [], banks := [], poison := [],
    books := List.replicate 16 (false, false), tables := List.replicate 8 false, gap := none, bookDirty := [], tableDirty := [],
    temps := List.replicate 3 none, winTemp := (0, 0), leakOwn := 0, leakFree := 0, leakLost := 0 }

def Cluster.reset : Cluster := { icache := [], rest := .awake, zeroing := [], leak := 0 }

def Ring.reset : Ring :=
  { tail := 0, head := 0, decided := 0, pending := false, scanning := false, recs := [], used := 0, held := false, served := [],
    failed := none }

def Digest.empty : Digest := ⟨[], 0, false⟩

def Ctx.initial : Ctx :=
  { st := .free, gen := 0, rings := List.replicate 4 Ring.reset, written := 0, reserved := 0, phase := true, launches := [],
    marks := [], kept := [], abortT := none, abortK := none, sems := List.replicate 64 0, semWaits := [], semReach := [],
    digests := List.replicate 16 Digest.empty, modFrom := none, retired := [], rst := none, tokens := 16, tokenAt := 0, paid := [], debugReads := 0, calibSet := none, calibClr := none, fillEvents := 0,
    energy := 0, turns := List.replicate 4 0, cq := .idle }

def Barrow.reset : Barrow := ⟨.idle, []⟩

def Port.reset : Port := { replays := 0, queue := [], busy := 0, passed := 0, seqNo := 0, buf := [], spoiled := false }

def KeyPhase.empty : KeyPhase := ⟨none, 0, none⟩

def Chan.reset : Chan :=
  { reads := [], writes := [], toWrite := false, rows := List.replicate 16 none, hits := List.replicate 16 0, refresh := [],
    inflight := [], updateUntil := 0, trainStart := none, phy := 0, dues := List.replicate 16 0, macCache := [], tabCache := [] }

def MemCtl.reset : MemCtl :=
  { chans := List.replicate 16 Chan.reset, pages := [], badMac := [], clear := none,
    slots := List.replicate 16 0, slotKeys := List.replicate 16 0, rotations := 0, rangeAt := none }

def Power.reset (t : Straps) : Power :=
  { clk := 0, run := 0, capCeil := 0, thermCeil := 0, alertCeil := 0, paces := [], cap := capReset t,
    trans := none, stretch := none, shutdown := false, memThr := false, linkThr := false, memRate := 0, linkRate := 0, memStarts := List.replicate 4 (0, 0), linkStarts := (0, 0),
    fitted := 0, coolMs := 0, alertFreeMs := 0, statusDue := false, msEvents := List.replicate 13 0, msUp := 0,
    windowUp := 0, frontMv := 0, quadT := 0, linkT := 0, leakOut := [], ledgerEst := 0, ledgerMeas := 0, ledgerIdle := 0, scale := 1, winMeas := 0, endedEst := 0, voltMv := 800 }

def Inspector.reset : Inspector :=
  { st := 0, watchFrom := 0, wdOn := false, restartFrom := 0, session := none, secret := [], spdmVer := false, spdmCap := false,
    spdmAlg := false, kex := none, keyEpoch := 0, last := none, jobKeyLoads := 0, partials := [], messages := [], door := none, queue := [],
    svn := 0, lastCheck := 0 }

def Pins.reset : Pins :=
  { pwrGood := false, bme := false, linkDown := false, frozen := false, fatalHold := false,
    alertIn := false, regsReady := false, testMode := false, wir := 0, testHold := false }

/-- The block after power-on reset with straps `t`: nothing of what was there before is left (R434). -/
def State.powerOn (t : Straps) : State :=
  { straps := t, regs := [], latches := [], nowLatch := none, up := 0, cycAcc := 0, free := 0, bell := Bell.reset,
    groups := List.replicate 4 Group.reset, ctxs := List.replicate 64 Ctx.initial, lanes := List.replicate 16 Lane.reset,
    tiles := List.replicate 16 Tile.reset, clusters := List.replicate 4 Cluster.reset, ops := [], nextOp := 0,
    barrows := List.replicate 24 Barrow.reset, reqs := [], nextTag := 0, dumpHeld := [], tlb := [], xreqs := [], nextX := 0, pageReqs := [],
    withdraws := [], nextWd := 0, ports := List.replicate 8 Port.reset, loop := [], relayNext := 0, relayHeld := [], relays := [], inbox := [],
    keys := List.replicate 16 (KeyPhase.empty, KeyPhase.empty), barGroups := [], mem := MemCtl.reset, cells := [],
    inject := none, breset := none, power := Power.reset t, insp := Inspector.reset, pins := Pins.reset, bootUp := none,
    turnTimed := 0, turnOther := 0, debugHeld := [], grantTurn := 0, out := [], pending := [] }

/-- The straps of State.reset: a C4 that is not ganged, native behaviour after errors. DESIGN CHOICE, log entry 2: the build
and the straps are the integrator's; every operation reads them from the state, and START_UP samples others. -/
def Straps.initial : Straps := ⟨.c4, 0, 0, 0, 950, false⟩

/-- The machine right after power-on reset. -/
def State.reset : State := State.powerOn Straps.initial

end Sys2Proof.Machine
end

