-- ==== Sys2Proof/Machine/HostBytes.lean ====
section
/-!
DEFINITION. The bytes of a transaction of the host port (R421): one header of 32 bytes and its data.
-/
namespace Sys2Proof.Machine

open Sys2Proof

/-- A transaction: kind, status, tag, the pasid word, address, length and the fields of an ATS or PRI message, whose places are not given. -/
structure HostTx where
  kind : Nat
  status : Nat := 0
  tag : Nat := 0
  pasid : Nat := 0
  addr : Nat := 0
  len : Nat := 1
  fields : List Nat := []
  data : List Byte := []
  deriving DecidableEq, Repr, Inhabited

/-- The twelve bytes of the fields: of a register access, byte 0 is the operator mark (R447). -/
def HostTx.fieldBytes (t : HostTx) : List Byte :=
  if t.kind == 0x12 || t.kind == 0x13 then leBytes 1 (t.fields.getD 0 0) ++ padTo 11 (Config.hostFields t.kind (t.fields.drop 1))
  else padTo 12 (Config.hostFields t.kind t.fields)
def readFields (kind : Nat) (bs : List Byte) : List Nat :=
  if kind == 0x12 || kind == 0x13 then leNat (bs.take 1) % 2 :: Config.hostRead kind (bs.drop 1) else Config.hostRead kind bs

def HostTx.bytes (t : HostTx) : List Byte :=
  leBytes 1 t.kind ++ leBytes 1 t.status ++ leBytes 2 t.tag ++ leBytes 4 t.pasid ++ leBytes 8 t.addr ++ leBytes 2 (t.len - 1) ++ leBytes 2 0 ++
    t.fieldBytes ++ t.data

/-- A transaction read from its bytes. -/
def HostTx.read (l : List Byte) : HostTx :=
  let at_ := fun (o n : Nat) => leNat ((l.drop o).take n)
  { kind := at_ 0 1, status := at_ 1 1, tag := at_ 2 2, pasid := at_ 4 4, addr := at_ 8 8, len := at_ 0x10 2 + 1,
    fields := readFields (at_ 0 1) ((l.drop 0x14).take 12), data := l.drop 0x20 }

/-- The PASID word of a request with a PASID. -/
def pasidWord (pasid : Nat) (noWrite : Bool) : Nat := 2 ^ 31 + (if noWrite then 2 ^ 30 else 0) + pasid % 2 ^ 20

/-- The form of a register write as a field. -/
def formFields (mark : Bool) : WForm → List Nat × List Byte
  | .full v => ([if mark then 1 else 0, 0], leBytes 8 v.toNat)
  | .lo v => ([if mark then 1 else 0, 1], leBytes 4 v.toNat)
  | .hi v => ([if mark then 1 else 0, 2], leBytes 4 v.toNat)
  | .bad => ([if mark then 1 else 0, 3], [])
def formOf (fields : List Nat) (data : List Byte) : WForm :=
  match nth fields 1 with
  | 0 => .full (BitVec.ofNat 64 (leNat data))
  | 1 => .lo (BitVec.ofNat 32 (leNat data))
  | 2 => .hi (BitVec.ofNat 32 (leNat data))
  | _ => .bad

/-- What a block sends on its host port, as a transaction. -/
def Out.hostTx : Out → Option HostTx
  | .mrd tag a n => some { kind := 0x01, tag := tag % 4096, addr := a, len := n }
  | .utRead tag p a n => some { kind := 0x01, tag := tag % 4096, pasid := pasidWord p false, addr := a, len := n }
  | .mwr a bs => some { kind := 0x02, addr := a, len := bs.length, data := bs }
  | .utWrite p a bs => some { kind := 0x02, pasid := pasidWord p false, addr := a, len := bs.length, data := bs }
  | .atsReq id p page nw => some { kind := 0x03, tag := id % 4096, pasid := pasidWord p nw, addr := page }
  | .pageReq ix p page wr => some { kind := 0x04, tag := ix, pasid := pasidWord p false, addr := page, fields := [if wr then 1 else 0] }
  | .invCpl t => some { kind := 0x05, tag := t }
  | .flashRd a n => some { kind := 0x06, addr := a, len := n }
  | .regCpl off v => some { kind := 0x07, addr := off, len := 8, data := leBytes 8 v.toNat }
  | _ => none

end Sys2Proof.Machine
end

