-- ==== Sys2Proof/Machine/Ops.lean ====
section
/-!
DEFINITION. The named operations over registers, memory, units, time, free values, outputs and the error log that every
meaning is written with. Error records follow R348 to R351, severities R343 and R347, management events R340.
-/
namespace Sys2Proof.Machine

open Sys2Proof

/-! ## Registers -/

/-- The word a register holds (before any view the hardware computes): its reset value while it is not listed. -/
def State.reg (s : State) (off : Nat) : Word := sparseGet (regReset s.straps off) s.regs off

/-- The register's word replaced. -/
def State.setReg (s : State) (off : Nat) (v : Word) : State :=
  { s with regs := sparseSet (regReset s.straps off) s.regs off v }

/-- Field `hi:lo` of a register, as a number. -/
def State.fld (s : State) (off hi lo : Nat) : Nat := bits (s.reg off) hi lo

/-- Field `hi:lo` of a register replaced. -/
def State.setFld (s : State) (off hi lo v : Nat) : State := s.setReg off (setBits (s.reg off) hi lo v)

/-- One bit of a register. -/
def State.flag (s : State) (off i : Nat) : Bool := bit (s.reg off) i

/-- The bits of a mask set in a register (an event register: hardware sets win, R11). -/
def State.setBitsIn (s : State) (off mask : Nat) : State :=
  s.setReg off (s.reg off ||| BitVec.ofNat 64 mask)

/-- A counter field raised by `n`, stopping at its largest value. -/
def State.incSat (s : State) (off hi lo n : Nat) : State :=
  s.setFld off hi lo (sat (hi + 1 - lo) (s.fld off hi lo + n))

/-- A counter field raised by `n`, wrapping. -/
def State.incWrap (s : State) (off hi lo n : Nat) : State := s.setFld off hi lo (s.fld off hi lo + n)

/-- A range of registers back at their reset values. -/
def State.clearRegs (s : State) (lo n : Nat) : State := { s with regs := sparseClear s.regs lo n }

/-! ## Units -/

def State.ctx (s : State) (i : Nat) : Ctx := nth s.ctxs i
def State.updCtx (s : State) (i : Nat) (f : Ctx → Ctx) : State := { s with ctxs := upd s.ctxs i f }
def laneIx (l : LaneId) : Nat := 4 * l.cl + l.n
def State.lane (s : State) (l : LaneId) : Lane := nth s.lanes (laneIx l)
def State.updLane (s : State) (l : LaneId) (f : Lane → Lane) : State := { s with lanes := upd s.lanes (laneIx l) f }
def State.tile (s : State) (t : Nat) : Tile := nth s.tiles t
def State.updTile (s : State) (t : Nat) (f : Tile → Tile) : State := { s with tiles := upd s.tiles t f }
def State.cluster (s : State) (c : Nat) : Cluster := nth s.clusters c
def State.updCluster (s : State) (c : Nat) (f : Cluster → Cluster) : State := { s with clusters := upd s.clusters c f }
def State.barrow (s : State) (b : Nat) : Barrow := nth s.barrows b
def State.updBarrow (s : State) (b : Nat) (f : Barrow → Barrow) : State := { s with barrows := upd s.barrows b f }
def State.group (s : State) (i : Nat) : Group := nth s.groups i
def State.updGroup (s : State) (i : Nat) (f : Group → Group) : State := { s with groups := upd s.groups i f }
def State.chan (s : State) (n : Nat) : Chan := nth s.mem.chans n
def State.updMem (s : State) (f : MemCtl → MemCtl) : State := { s with mem := f s.mem }
def State.updChan (s : State) (n : Nat) (f : Chan → Chan) : State := s.updMem fun m => { m with chans := upd m.chans n f }
def State.updPower (s : State) (f : Power → Power) : State := { s with power := f s.power }
def State.updInsp (s : State) (f : Inspector → Inspector) : State := { s with insp := f s.insp }
def State.updBell (s : State) (f : Bell → Bell) : State := { s with bell := f s.bell }
def State.updPins (s : State) (f : Pins → Pins) : State := { s with pins := f s.pins }
def Ctx.updRing (c : Ctx) (r : Nat) (f : Ring → Ring) : Ctx := { c with rings := upd c.rings r f }
def State.ring (s : State) (i r : Nat) : Ring := nth (s.ctx i).rings r

/-- The operation with an issue number, if it is unfinished. -/
def State.op? (s : State) (id : Nat) : Option Op := s.ops.find? (fun o => o.id == id)
def State.updOp (s : State) (id : Nat) (f : Op → Op) : State :=
  { s with ops := s.ops.map fun o => if o.id == id then f o else o }
def State.dropOp (s : State) (id : Nat) : State := { s with ops := s.ops.filter fun o => o.id != id }

/-- The launch of a context with a sequence number, while its record is not written. -/
def Ctx.launch? (c : Ctx) (seq : Nat) : Option Launch := c.launches.find? (fun l => l.seq == seq)
def Ctx.updLaunch (c : Ctx) (seq : Nat) (f : Launch → Launch) : Ctx :=
  { c with launches := c.launches.map fun l => if l.seq == seq then f l else l }
def State.updLaunch (s : State) (i seq : Nat) (f : Launch → Launch) : State := s.updCtx i fun c => c.updLaunch seq f

/-- A message or transaction sent to the surroundings. -/
def State.emit (s : State) (o : Out) : State := { s with out := s.out ++ [o] }

/-- Host-bound requests are held (R428, R429). -/
def State.hostHeld (s : State) : Bool := !s.pins.bme || s.pins.linkDown || s.pins.frozen || s.pins.fatalHold

/-- A free value: the next of the stream, and the state with the stream advanced. -/
def State.draw (s : State) : Nat × State := (Config.freeValue s.free, { s with free := s.free + 1 })

/-! ## Time -/

/-- Is the block powered and out of test (R434, R441)? -/
def State.live (s : State) : Bool := s.pins.pwrGood && !s.pins.testHold

/-- Is the block a member of a gang (R290)? Its contexts are then gang contexts (DEDUCED, log entry 17). -/
def State.ganged (s : State) : Bool := decide (2 ≤ s.straps.gangSize)
/-- Members of the gang, 1 when the block is not ganged, and this block's number; member 0 is the lead. -/
def State.gangN (s : State) : Nat := if s.ganged then s.straps.gangSize else 1
def State.gangM (s : State) : Nat := if s.ganged then s.straps.gangMember else 0

/-- Clock of an operating point in 0.1 GHz (R373). -/
def oppFreq (x : Nat) : Nat := [20, 18, 16, 14, 11, 8].getD x 8
/-- Voltage of an operating point in 10 mV (R373). -/
def oppVolt (x : Nat) : Nat := [80, 75, 70, 66, 60, 55].getD x 55

/-- The cycle of the arithmetic clock. -/
def State.cyc (s : State) : Nat := s.cycAcc / 120

/-- 1 microsecond and 1 millisecond in ticks. -/
def usT : Nat := 4000
def msT : Nat := 4000000

/-- The rate adjustment in force, BELL_FREQ.adj, signed, in 0.01 ppb. -/
def State.rateAdj (s : State) : Int := signed 32 (s.fld Reg.bellFreq 31 0)

/-- The fastest point that the lanes running a launch state with PACE, or OPP0 (R336). -/
def State.asked (s : State) (c seq : Nat) : Nat :=
  let ps := (s.lanes.filter fun l => l.st != .idle && l.ctx == c && l.seq == seq).filterMap fun l => l.pace
  ps.foldl min (ps.headD 0)

/-- Running time of the launches that run, and the part of it below the point they asked for (R336). -/
def State.tickCtx (s : State) (i : Nat) (c : Ctx) : Ctx :=
  if c.launches.isEmpty then c
  else
    { c with launches := c.launches.map fun l =>
        if l.stage == .waiting || l.accounted then l
        else { l with runSt := l.runSt + 1, thrSt := if s.asked i l.seq < s.power.clk then l.thrSt + 1 else l.thrSt } }

/-- Memory-controller quads (half-quads of two channels in a C1) with a channel in use (R314, R371, R372). -/
def State.quadsOn (s : State) : Nat :=
  let t := s.straps
  let n := if t.build = .c1 then 2 else 4
  ((List.range ((t.channels + n - 1) / n)).filter fun q => decide (s.fld Reg.memMap 47 32 / 2 ^ (n * q) % 2 ^ n ≠ 0)).length

/-- Link groups with an enabled port: group g is package port g and board ports 2 + 3g to 4 + 3g (R371, R372). -/
def State.linkGroupsOn (s : State) : Nat :=
  ((List.range 2).filter fun g => [g, 2 + 3 * g, 3 + 3 * g, 4 + 3 * g].any fun p =>
    decide (p < s.straps.ports) && s.flag (Reg.fabPortCfg p) 0).length

/-- The leakage of the domains that are not in Rest goes on (R388). -/
def Tile.tickLeak (mv : Nat) (x : Tile) : Tile :=
  if x.rest == .resting then x
  else if x.lease.isSome then { x with leakOwn := x.leakOwn + mv }
  else { x with leakFree := x.leakFree + mv }
def Cluster.tickLeak (mv : Nat) (x : Cluster) : Cluster := if x.rest == .resting then x else { x with leak := x.leak + mv }
def Power.tickLeak (quads links : Nat) (p : Power) : Power :=
  { p with frontMv := p.frontMv + p.voltMv, quadT := p.quadT + quads, linkT := p.linkT + links }
/-- A lease of the tile ends: what it leaked under it is no context's any more. -/
def Tile.endLease (x : Tile) : Tile := { x with lease := none, leakOwn := 0, leakLost := x.leakLost + x.leakOwn }

/-- One tick of 0.25 ns: uptime, station time at the adjusted rate (R15, R19), the arithmetic clock, stretched to 1.5 periods while a
stretch is in force (R379), the leakage of the Ledger's window (R388), and the running time of launches (R336). DESIGN CHOICE, log entry 3: this is what step does on an empty
queue. -/
def State.tick (s : State) : State :=
  let acc := s.bell.rateAcc + s.rateAdj
  let one : Int := 100000000000
  let extra : Int := if one ≤ acc then 1 else if acc ≤ -one then -1 else 0
  let now := ((s.bell.now : Int) + 1 + extra).toNat % 2 ^ 64
  let f := oppFreq s.power.clk
  { s with
    up := s.up + 1
    bell := { s.bell with now := now, rateAcc := acc - extra * one }
    cycAcc := s.cycAcc + (if s.power.stretch.isSome then 2 * f else 3 * f)
    tiles := s.tiles.map (Tile.tickLeak s.power.voltMv)
    clusters := s.clusters.map (Cluster.tickLeak s.power.voltMv)
    power := s.power.tickLeak s.quadsOn s.linkGroupsOn
    ctxs := s.ctxs.mapIdx s.tickCtx }

/-! ## Memory -/

/-- First local addresses of the areas of R105. -/
def scratchBase : Nat := 0x40000000000
def clusterBase : Nat := 0x40004000000
def maquetteBase : Nat := 0x40008000000
def tableBase : Nat := 0x40008100000
def tileSize : Nat := 0x400000
def clusterSize : Nat := 0x1000000

/-- What a local address names (R7, R105). -/
inductive Place where
  | attached
  | tile (t off : Nat)
  | cluster (c off : Nat)
  | maquette (t off : Nat)
  | table (t off : Nat)
  | none
  deriving DecidableEq, Repr, Inhabited

/-- The decoding of a local address (R7, R105); areas of tiles and clusters the build lacks are not decoded. -/
def placeOf (t : Straps) (a : Nat) : Place :=
  if a < scratchBase then .attached
  else if a < scratchBase + t.tiles * tileSize then .tile ((a - scratchBase) / tileSize) ((a - scratchBase) % tileSize)
  else if clusterBase ≤ a ∧ a < clusterBase + t.clusters * clusterSize then
    .cluster ((a - clusterBase) / clusterSize) ((a - clusterBase) % clusterSize)
  else if maquetteBase ≤ a ∧ a < maquetteBase + t.tiles * 0x4000 then
    .maquette ((a - maquetteBase) / 0x4000) ((a - maquetteBase) % 0x4000)
  else if tableBase ≤ a ∧ a < tableBase + t.tiles * 0x10000 then
    .table ((a - tableBase) / 0x10000) ((a - tableBase) % 0x10000)
  else .none

/-- Local address of the first byte of a tile's scratch, a cluster's scratch, a book slot, a table slot. -/
def tileAddr (t : Nat) : Nat := scratchBase + t * tileSize
def clusterAddr (c : Nat) : Nat := clusterBase + c * clusterSize
/-- The physical address of a local address of this block (R6). -/
def ownPhys (a : Nat) : Nat := 0xFFF * 2 ^ 43 + a
def bookAddr (t n : Nat) : Nat := maquetteBase + t * 0x4000 + n * 0x400
def tableAddr (t n : Nat) : Nat := tableBase + t * 0x10000 + n * 0x2000

/-- The byte at a local address. An unlisted byte reads 0: the zero of R309 for attached memory that has not been written,
and DESIGN CHOICE (log entry 4) for scratch before its first zeroing. -/
def State.rd (s : State) (a : Nat) : Byte := sparseGet 0 s.cells a

/-- `n` bytes from a local address upwards. -/
def State.rdBytes (s : State) (a n : Nat) : List Byte := (List.range n).map fun i => s.rd (a + i)

/-- One byte written. -/
def State.wr (s : State) (a : Nat) (b : Byte) : State := { s with cells := sparseSet 0 s.cells a b }

/-- Bytes written from an address upwards. -/
def State.wrBytes (s : State) (a : Nat) : List Byte → State
  | [] => s
  | b :: r => (s.wr a b).wrBytes (a + 1) r

/-- Bytes written each at its own address. -/
def State.wrList (s : State) : List (Nat × Byte) → State
  | [] => s
  | (a, b) :: r => (s.wr a b).wrList r

/-- A little-endian number of `n` bytes. -/
def State.rdNat (s : State) (a n : Nat) : Nat := leNat (s.rdBytes a n)

/-- A range of memory zeroed. -/
def State.zeroMem (s : State) (lo n : Nat) : State := { s with cells := sparseClear s.cells lo n }

/-- Memory's canonical form: addresses strictly rising, no listed byte equal to what an unlisted one reads as. -/
def Memory.wf (m : List Host.Cell) : Bool := sparseWf (fun _ => (0 : Byte)) m

/-! ## Events -/

/-- BELL_EVENT bits set, with CTX_MGMT.bell (R340). -/
def State.bellEvent (s : State) (mask : Nat) : State := (s.setBitsIn Reg.bellEvent mask).setBitsIn Reg.ctxMgmt (2 ^ 5)
/-- MEM_EVENT bits set, with CTX_MGMT.mem (R340). -/
def State.memEvent (s : State) (mask : Nat) : State := (s.setBitsIn Reg.memEvent mask).setBitsIn Reg.ctxMgmt (2 ^ 6)
def State.criEvent (s : State) (mask : Nat) : State := s.setBitsIn Reg.criEvent mask
def State.barEvent (s : State) (mask : Nat) : State := s.setBitsIn Reg.barEvent mask
def State.xltEvent (s : State) (mask : Nat) : State := s.setBitsIn Reg.xltEvent mask
def State.pwrEvent (s : State) (mask : Nat) : State := s.setBitsIn Reg.pwrEvent mask
def State.insEvent (s : State) (mask : Nat) : State := s.setBitsIn Reg.insEvent mask
/-- FAB_EVENT bits set; overrun and job_overrun (bits 6 and 7) set CTX_MGMT.fabric (R289). A C1 has no FAB_ register. -/
def State.fabEvent (s : State) (mask : Nat) : State :=
  if s.straps.build = .c1 then s
  else
    let s := s.setBitsIn Reg.fabEvent mask
    if maskHas mask 6 || maskHas mask 7 then s.setBitsIn Reg.ctxMgmt (2 ^ 3) else s
def State.mgmt (s : State) (i : Nat) : State := s.setBitsIn Reg.ctxMgmt (2 ^ i)

/-- Error attention of a context with its reason in err_cause (R330). -/
def State.errAttn (s : State) (i cause : Nat) : State :=
  (s.setBitsIn (Reg.ctxAttn i) 2).setFld (Reg.ctxAttn i) 15 8 cause

/-! ## The error log -/

/-- What a detection puts into its record (R349). -/
structure Report where
  det : Nat
  sev : Nat
  place : Nat
  /-- context and generation of the work concerned -/
  ctx : Option (Nat × Nat) := none
  injected : Bool := false
  arg : Nat := 0
  addr : Nat := 0
  addrKind : Nat := 0
  seq : Option Nat := none
  cause : Nat := 0
  peer : Option Nat := none
  lane : Nat := 0
  deriving DecidableEq, Repr, Inhabited

/-- The four words of a record with number `n` at station time `now` (R349). -/
def Report.words (r : Report) (n now : Nat) : List Word :=
  let (cv, c, g) := match r.ctx with | some (c, g) => (1, c, g) | none => (0, 0, 0)
  let (sv, q) := match r.seq with | some q => (1, q) | none => (0, 0)
  let (pv, p) := match r.peer with | some p => (1, p) | none => (0, 0)
  [ word (r.det % 256 * 2 ^ 56 + r.sev % 4 * 2 ^ 54 + cv * 2 ^ 53 + (if r.injected then 2 ^ 52 else 0) + c % 64 * 2 ^ 46 +
      g % 256 * 2 ^ 38 + r.place % 64 * 2 ^ 32 + r.arg % 2 ^ 16 * 2 ^ 16 + n % 2 ^ 16),
    word r.addr,
    word now,
    word (q % 2 ^ 34 * 2 ^ 30 + r.cause % 256 * 2 ^ 22 + p % 2 ^ 12 * 2 ^ 10 + pv * 2 ^ 9 + r.addrKind % 8 * 2 ^ 6 +
      r.lane % 4 * 2 ^ 4 + sv * 8) ]

/-- The four words of log entry `i` written. -/
def State.putLog (s : State) (i : Nat) : Nat → List Word → State
  | _, [] => s
  | j, w :: r => (s.setReg (Reg.errLog i j) w).putLog i (j + 1) r

/-- A record is due (R348): it is written into entry n mod 64 while the log has room; a FATAL record replaces the newest
entry of a full log; any other record of a full log is counted in lost. -/
def State.record (s : State) (r : Report) : State :=
  let written := s.fld Reg.errLogWritten 31 0
  let consumed := s.fld Reg.errLogConsumed 31 0
  let full := since32 written consumed == 64
  let ws := fun n => r.words n s.bell.now
  let s1 :=
    if !full then (s.putLog (written % 64) 0 (ws written)).incWrap Reg.errLogWritten 31 0 1
    else if r.sev == 3 then s.putLog (since32 written 1 % 64) 0 (ws (since32 written 1))
    else s.incSat Reg.errLogWritten 63 32 1
  if r.sev == 0 then s1 else s1.mgmt 4

/-- The class an error of a severity is sent to the endpoint as (R347), with words 0 and 1 of its record (R426). -/
def State.errPulse (s : State) (r : Report) : State :=
  let n := s.fld Reg.errLogWritten 31 0
  let w := r.words n s.bell.now
  let p := fun c => s.emit (.errPulse c (nth w 0) (nth w 1))
  match r.sev with
  | 0 => if s.flag Reg.errCtrl 1 then p 0 else s
  | 2 => p 1
  | 3 => p 2
  | _ => s

/-- A detection (R343 to R348): counted by severity in ERR_CNTd, sent to the endpoint, and recorded; a CORRECTED one only
while ERR_CTRL.log_corr is 1. -/
def State.detect (s : State) (r : Report) : State :=
  let s := s.errPulse r
  let s := if r.sev == 0 then s.incSat (Reg.errCnt r.det) 31 0 1 else s.incSat (Reg.errCnt r.det) 63 32 1
  if r.sev == 0 && !s.flag Reg.errCtrl 0 then s else s.record r

/-- A register access error (R9, R12, R344 code 0x14): CORRECTED, place 55, with the register offset. -/
def State.regError (s : State) (off : Nat) : State :=
  s.detect { det := 0x14, sev := 0, place := 55, addr := off, addrKind := 4 }

/-- Does the armed injection point name this detector and place (R352, R461)? -/
def State.injHits (s : State) (det place : Nat) : Bool :=
  match s.inject with
  | some j => j.det == det && j.place == place
  | none => false

/-- The injection has fired: armed reads 0 (R352). -/
def State.disarm (s : State) : State := { s with inject := none }.setFld Reg.errInject 41 41 0

end Sys2Proof.Machine
end

