-- ==== Sys2Proof/Machine/Link.lean ====
section
/-!
DEFINITION. Sending over the Swivar link (R267 to R275, R282): routes, heads and the messages they pack, job keys, drops, the outputs of the
ports and their replay buffers. Heads that wait leave with the tick of the clock (log entries 3, 5).
-/
namespace Sys2Proof.Machine

open Sys2Proof

/-- A head with one message (R269, R270); `sent`, bits 39:8 of station time, is that of its departure. -/
def State.headOf (s : State) (job dst : Nat) (m : Msg) : Head :=
  { dst := dst, src := s.fld Reg.fabId 11 0, vc := vcOf m.body, enc := false, hop := 0, phase := 0, job := job,
    sent := 0, ivSrc := 0, ivCount := 0, msgs := [m], slots := 1, dataFlits := if hasData m.body then 1 else 0, sealed := [], tag := 0 }

/-- Is the port UP, the link complex enabled and present (R268, R294)? -/
def State.portUp (s : State) (p : Nat) : Bool :=
  decide (p < s.straps.ports) && s.fld (Reg.fabPortCfg p) 2 1 == 2 && s.flag Reg.fabCtrl 0

/-- A head dropped, counted in its field of FAB_DROPS with its event (R273): 1 no route, 2 stale, 3 hop, 4 auth. -/
def State.dropHead (s : State) (why : Nat) : State :=
  let hi := 79 - 16 * why
  (s.incSat Reg.fabDrops hi (hi - 15) 1).fabEvent (2 ^ why)

/-- A head waits at a port's output: one that this block originates, for a job slot when it has one, or one that it forwards. A head for a port
that is not UP is dropped as though it had no route (R268; for a port that is not FAILED either, log entry 5). -/
def State.sendPort (s : State) (p : Nat) (own : Bool) (slot : Option Nat) (h : Head) : State :=
  if s.portUp p then { s with ports := upd s.ports p fun x => { x with queue := x.queue ++ [⟨slot, own, h⟩] } } else s.dropHead 1

/-- Heads dropped as though they had no route (R268). -/
def State.dropHeads (s : State) : List QHead → State
  | [] => s
  | _ :: r => (s.dropHead 1).dropHeads r

/-- Entry of routing table `p` (8 the origin table) for a destination: an output port (R274). -/
def State.route (s : State) (p dst : Nat) : Option Nat :=
  let e := s.fld (Reg.fabRt p (dst / 8)) (8 * (dst % 8) + 7) (8 * (dst % 8))
  if 128 ≤ e then some (e % 8) else none

/-- Job key phases (R416). -/
def State.keyPhase (s : State) (k p : Nat) : KeyPhase :=
  let e := s.keys.getD k (KeyPhase.empty, KeyPhase.empty)
  if p == 0 then e.1 else e.2
def State.updKey (s : State) (k p : Nat) (f : KeyPhase → KeyPhase) : State :=
  { s with keys := upd s.keys k fun e => if p == 0 then (f e.1, e.2) else (e.1, f e.2) }
/-- Phase in force of a job key slot: INS_JKEYk_CTL.phase. -/
def State.keyInForce (s : State) (k : Nat) : Nat := s.fld (Reg.insJkeyCtl k) 4 4

/-- The head encrypted for job slot `j` when its enc_req is 1 (R282): the count of the phase in force is used and rises by 1;
at 2^48 INS_EVENT.key_wear is set (R416). -/
def State.encrypt (s : State) (j : Nat) (h : Head) : Head × State :=
  if s.flag (Reg.fabJobCfg j) 62 then
    let k := s.fld (Reg.fabJobCfg j) 59 56
    let p := s.keyInForce k
    let kp := s.keyPhase k p
    let key := kp.key.getD 0
    let h' := { h with enc := true, phase := p, ivSrc := h.src, ivCount := kp.count }
    let body := Config.gcmSeal key (headIv h') (plainBytes h.msgs)
    let h' := { h' with msgs := [], sealed := body, tag := Config.gcmTag key (headIv h') (headAad h') body }
    let s := s.updKey k p fun x => { x with count := x.count + 1 }
    (h', if kp.count + 1 == 2 ^ 48 then s.insEvent (2 ^ 5) else s)
  else (h, s)

/-- A message sent to a fabric number: it waits at the output that the origin table gives (R274, R275), and is delivered here when it is this
block's own (R274); dropped as a no-route drop without a valid route (R273). Nothing is originated while FAB_CTRL.enable is 0 or in a C1. -/
def State.originate (s : State) (slot : Option Nat) (job dst : Nat) (m : Msg) : State :=
  if s.straps.build = .c1 || !s.flag Reg.fabCtrl 0 then s
  else
    let h := s.headOf job dst m
    if dst == h.src then { s with loop := s.loop ++ [{ h with enc := slot.any fun j => s.flag (Reg.fabJobCfg j) 62 }] }
    else
      match s.route 8 dst with
      | some p => s.sendPort p true slot h
      | none => s.dropHead 1

/-! ## Departure (R267, R268, R270, R272) -/

/-- Time of one flit on a port, in 1/100 tick (R267). -/
def flitTime (p : Nat) : Nat := if p < 2 then 400 else 2048

/-- The head that leaves next (R272): barrier-and-time, management, response, request; a request that waits leaves once in every 16 flits, and none
leaves while it waits for a pacing token (R381). -/
def Port.next (x : Port) (requests : Bool) : Option QHead :=
  let first := fun v => x.queue.find? fun q => q.head.vc == v && (requests || v != 0)
  match [2, 3, 1, 0].findSome? first, first 0 with
  | some q, some r => some (if 15 < x.passed + flitsOf q.head then r else q)
  | q, _ => q

/-- Messages that one head can carry together (R270): originated here, for one destination, channel, job and job slot. -/
def QHead.joins (q r : QHead) : Bool :=
  q.own && r.own && q.slot == r.slot && q.head.dst == r.head.dst && q.head.vc == r.head.vc && q.head.job == r.head.job

/-- A queue without some of its heads. -/
def without (l : List QHead) : List QHead → List QHead
  | [] => l
  | q :: r => without (l.erase q) r

/-- The timestamps that a time message takes as it leaves (R23). -/
def stampTime (now : Nat) (m : Msg) : Msg :=
  match m.body with
  | .timeReq _ => { m with body := .timeReq now }
  | .timeResp a b _ => { m with body := .timeResp a b now }
  | _ => m

/-- The last heads sent that fit into a replay buffer of 64 flits (R268). -/
def keep64 (l : List (Nat × Head)) : List (Nat × Head) :=
  match l with
  | [] => []
  | x :: r => if (l.map fun e => flitsOf e.2).sum ≤ 64 then x :: r else keep64 r

/-- A head put on a port: its flits are counted, and on a board port numbered and kept for a replay; an armed LINK_CRC injection spoils the CRC
of the first (R344). -/
def State.onPort (s : State) (p : Nat) (h : Head) : State :=
  let n := flitsOf h
  let x := nth s.ports p
  let link := if p < 2 then [] else (List.range n).map fun i => (x.seqNo + i, Config.flitCrc (x.seqNo + i) (nth (headFlits h) i))
  let inj := decide (2 ≤ p) && s.injHits 0x0A 49 && s.inject.any fun (j : Inject) => j.param == p
  let link := if inj then (link.take 1).map (fun e => (e.1, e.2 ^^^ 1)) ++ link.drop 1 else link
  let s := if inj then s.disarm else s
  let s := (s.incWrap (Reg.fabPortFlits p) 31 0 n).emit (.flit p link h)
  { s with ports := upd s.ports p fun x => { x with
      busy := max x.busy (100 * s.up) + n * flitTime p
      seqNo := x.seqNo + n
      buf := if p < 2 then [] else keep64 (x.buf ++ [(x.seqNo, h)])
      spoiled := x.spoiled || inj } }

/-- A head leaves a port, with the messages already waiting that it can carry, four in all (R270). -/
def State.depart (s : State) (p : Nat) (q : QHead) : State :=
  let x := nth s.ports p
  let l := if q.own then (x.queue.filter q.joins).take 4 else [q]
  let h := if q.own then { headWith q.head (l.map fun r => r.head.msgs.map (stampTime s.bell.now)).flatten with sent := s.bell.now / 256 % 2 ^ 32 } else q.head
  let timed := h.msgs.any fun m => match m.body with | .timeReq _ => true | _ => false
  let s := if timed then s.updBell fun b => { b with sent := put b.sent p (some s.bell.now) } else s
  let (h, s) := match q.slot with
    | some j => s.encrypt j h
    | none => (h, s)
  let s : State := { s with ports := upd s.ports p fun x => { x with
    queue := without x.queue l
    passed := if q.head.vc == 0 then 0 else if x.queue.any (fun r => r.head.vc == 0) then x.passed + flitsOf h else 0 } }
  let s := if h.vc == 0 then s.updPower fun p => { p with linkStarts := if p.linkStarts.1 == s.up / usT then (p.linkStarts.1, p.linkStarts.2 + flitsOf h) else (s.up / usT, flitsOf h) } else s
  s.onPort p h

/-- Is there a pacing token for a request flit in this microsecond (R381)? -/
def State.linkRoom (s : State) : Bool :=
  !s.power.linkThr || s.power.linkStarts.1 != s.up / usT || decide (s.power.linkStarts.2 < s.power.linkRate)

/-- Every port that is free sends its next head. -/
def State.portsTick (s : State) : List Nat → State
  | [] => s
  | p :: r =>
    let x := nth s.ports p
    (if s.portUp p && decide (x.busy ≤ 100 * s.up) then
      match x.next s.linkRoom with
      | some q => s.depart p q
      | none => s
    else s).portsTick r

/-- The flits of the replay buffer are sent again (R268). -/
def State.resend (s : State) (p : Nat) : List (Nat × Head) → State
  | [] => s
  | (n, h) :: r =>
    let link := (List.range (flitsOf h)).map fun i => (n + i, Config.flitCrc (n + i) (nth (headFlits h) i))
    { (s.emit (.flit p link h)) with ports := upd s.ports p fun x => { x with busy := max x.busy (100 * s.up) + flitsOf h * flitTime p } }.resend p r

/-- Job map entry of block `b` in job slot `j`: its fabric number, if the entry is valid and `b` below N (R275). -/
def State.jobMap (s : State) (j b : Nat) : Option Nat :=
  let e := s.fld (Reg.fabJobMap j) 45 32 + b
  let n := s.fld (Reg.fabJobMap j) 12 0
  let v := s.fld (Reg.fabJmap (e / 4)) (16 * (e % 4) + 15) (16 * (e % 4))
  if b < n && decide (2 ^ 15 ≤ v) then some (v % 2 ^ 12) else none

/-- FAB_JOBj_STATUS.state: 0 FREE, 1 LIVE, 2 RETIRED (R277). -/
def State.jobState (s : State) (j : Nat) : Nat := s.fld (Reg.fabJobStatus j) 9 8

/-- The job slot that carries a job identifier, valid, if any. -/
def State.slotOfJob (s : State) (job : Nat) : Option Nat :=
  (List.range s.straps.jobSlots).find? fun j => s.flag (Reg.fabJobCfg j) 63 && s.fld (Reg.fabJobCfg j) 15 0 == job

/-- The LIVE job slot bound to a context, if any (R275); the gang job's slot is bound to none (R277). -/
def State.slotOfCtx (s : State) (c : Nat) : Option Nat :=
  (List.range s.straps.jobSlots).find? fun j =>
    s.flag (Reg.fabJobCfg j) 63 && s.jobState j == 1 && s.fld (Reg.fabJobCfg j) 15 0 != 0xFFFF &&
      s.fld (Reg.fabJobCfg j) 55 50 == c

/-- A message of job slot `j` to job block `b` (R275); nothing is sent where the map has no valid entry. -/
def State.sendJob (s : State) (j b : Nat) (gctx tag : Nat) (body : MsgBody) : State :=
  match s.jobMap j b with
  | some f =>
    let cfg := s.reg (Reg.fabJobCfg j)
    s.originate (some j) (bits cfg 15 0) f { src := bits cfg 39 28, jgen := bits cfg 47 40, gctx := gctx, tag := tag, body := body }
  | none => s

end Sys2Proof.Machine
end

