-- ==== Sys2Proof/Machine/Bell.lean ====
section
/-!
DEFINITION. Station time (R15 to R32): discipline from the time port and over links, lock states, cadences and slots.
-/
namespace Sys2Proof.Machine

open Sys2Proof

/-! ## Lock states -/

/-- BELL_CTRL.src: 0 FREE, 1 PORT, 2 LINK. -/
def State.bellSrc (s : State) : Nat := s.fld Reg.bellCtrl 1 0

/-- The state changed, with lock_gained or lock_lost (R42). -/
def State.setLock (s : State) (l : Lock) : State :=
  let was := s.bell.lock
  let s := s.updBell fun b => { b with lock := l }
  if was != .locked && l == .locked then s.bellEvent 2
  else if was == .locked && l != .locked then s.bellEvent 1
  else s

/-- The rate in force, in 0.01 ppb. -/
def State.setRate (s : State) (r : Int) : State := s.setFld Reg.bellFreq 31 0 (unsignedOf 32 r)

/-- The reference is lost (R20, R24, R26): LOCKED goes to HOLDOVER and keeps the last rate (R27), ACQUIRING to UNLOCKED with no
rate learnt during acquisition. -/
def State.lostReference (s : State) : State :=
  match s.bell.lock with
  | .locked =>
    (s.setLock .holdover).updBell fun b => { b with holdUp := s.up, holdEst := s.fld Reg.bellStatus 63 32 }
  | .acquiring => (s.setRate s.bell.acqAdj).setLock .unlocked
  | _ => s

/-- est_error in HOLDOVER: the value at entry grown by osc_ppb since then (R27); the held value otherwise. -/
def State.estError (s : State) : Nat :=
  match s.bell.lock with
  | .holdover => sat 32 (s.bell.holdEst + (s.up - s.bell.holdUp) * s.fld Reg.bellCtrl 47 32 / 1000000000)
  | _ => s.fld Reg.bellStatus 63 32

/-- holdover_ms: time in HOLDOVER. R42 does not say what it reads in the other states: the model reads 0 (DESIGN CHOICE, log entry
58). -/
def State.holdoverMs (s : State) : Nat :=
  match s.bell.lock with
  | .holdover => sat 16 ((s.up - s.bell.holdUp) / msT)
  | _ => 0

/-- Does the block count as locked for job-scope groups (R27, R39)? -/
def State.jobLocked (s : State) : Bool :=
  match s.bell.lock with
  | .locked => true
  | .holdover => decide (s.estError ≤ s.fld Reg.bellCtrl 63 48)
  | _ => false

/-- The servo's new rate: what its gains give is the servo's own, a free value, never further than slew_ppm from nominal
(R19). -/
def State.servo (s : State) : State :=
  let lim : Int := s.fld Reg.bellServoX 39 32 * 100000
  let (v, s) := s.draw
  s.setRate (clampInt (-lim) lim (signed 32 v))

/-- A phase error measured (R19, R21, R26): beyond step_limit the Bell moves to UNLOCKED and keeps its rate until the operator steps the
counter; otherwise the servo adjusts the rate, est_error takes the servo's estimate (free), and 16 consecutive measurements within 2 st
give the lock. -/
def State.measured (s : State) (err : Int) : State :=
  let s := s.setReg Reg.bellOffset (wordOfInt err)
  if s.fld Reg.bellServoX 63 40 < err.natAbs then
    let s := if s.bell.lock == .acquiring then s.setRate s.bell.acqAdj else s
    ((s.setLock .unlocked).updBell fun b => { b with awaitStep := true }).bellEvent 16
  else if s.bell.awaitStep then s
  else
    let s := match s.bell.lock with
      | .unlocked | .holdover =>
        (s.setLock .acquiring).updBell fun b => { b with good := 0, acqAdj := s.rateAdj }
      | _ => s
    let s := s.servo
    let (v, s) := s.draw
    let s := s.setFld Reg.bellStatus 63 32 v
    let g := if err.natAbs ≤ 2 then s.bell.good + 1 else 0
    let s := s.updBell fun b => { b with good := g }
    if s.bell.lock == .acquiring && decide (16 ≤ g) then s.setLock .locked else s

/-! ## The time port -/

/-- Seconds of the counter at a whole second: the nearest (DEDUCED, log entry 6). -/
def nearestSecond (t : Nat) : Nat := (t + 2000000000) / 4000000000

/-- PPS_EDGE (R19, R20, R432): an edge with a time of day beside it, `valid` being tp_tod_valid. -/
def ppsEdgeS (seconds nanos : Nat) (valid : Bool) (s : State) : State :=
  if s.bellSrc != 1 then s
  else
    let c := s.bell.now
    let outside := match s.bell.nextEdge with
      | some e => decide (c + 4000 < e) || decide (e + 4000 < c)
      | none => false
    if outside then s.bellEvent 4
    else
      let s := s.updBell fun b => { b with missed := 0, nextEdge := some (c + 4000000000) }
      if !valid || nearestSecond c != seconds then s.bellEvent 8
      else
        let ref : Int := seconds * 4000000000 + nanos * 4
        ((s.setReg Reg.bellPps (word c)).setReg Reg.bellTod (word (seconds % 2 ^ 48))).measured (ref - c)

def execPpsEdge (seconds nanos : Nat) (valid : Bool) (s : State) : Host.Outcome State Fault Refusal :=
  .next (ppsEdgeS seconds nanos valid s)

/-- PPS_MISSING (R20): the window of the expected edge has passed. -/
def ppsMissingS (s : State) : State :=
  match s.bell.nextEdge with
  | some e =>
    if s.bellSrc == 1 && decide (e + 4000 < s.bell.now) then
      let s := (s.bellEvent 4).updBell fun b => { b with missed := b.missed + 1, nextEdge := some (e + 4000000000) }
      if 2 ≤ s.bell.missed then s.lostReference else s
    else s
  | none => s

def execPpsMissing (s : State) : Host.Outcome State Fault Refusal := .next (ppsMissingS s)

/-! ## Links -/

/-- A time message for the neighbour on a port: link-local, never routed (R271); its timestamp is that of its departure (R23). -/
def State.sendTime (s : State) (p : Nat) (b : MsgBody) : State :=
  s.sendPort p true none (s.headOf 0 0 { src := 0, jgen := 0, gctx := 0, tag := 0, body := b })

/-- The exchange started on each of a list of ports (R23). -/
def State.startExchange (s : State) : List Nat → State
  | [] => s
  | p :: r =>
    let t := s.bell.now
    ((s.updBell fun b => { b with sent := put b.sent p (some t) }).sendTime p (.timeReq t)).startExchange r

/-- TIME_EXCHANGE (R23): on every port of serve_mask that is UP. -/
def timeExchangeS (s : State) : State :=
  s.startExchange ((maskBits 8 (s.fld Reg.bellCtrl 23 16)).filter s.portUp)

def execTimeExchange (s : State) : Host.Outcome State Fault Refusal := .next (timeExchangeS s)

/-- A received message taken from the inbox, and the state without it. -/
def State.take (s : State) (k : Nat) : Option (Delivered × State) :=
  match s.inbox[k]? with
  | some d => some (d, { s with inbox := s.inbox.eraseIdx k })
  | none => none

/-- Is a port the upstream port (R23)? -/
def State.isUpstream (s : State) (p : Nat) : Bool := s.bellSrc == 2 && s.fld Reg.bellCtrl 11 8 == p

/-- The one-way delay of the link to the upstream block, in 1/16 st: that of BELL_LINKn where this block has measured it by exchanges of
its own; otherwise the delay that the upstream block measured, which no message of R271 carries: a free value (DEDUCED, log entry 7). -/
def State.upstreamDelay (s : State) (p : Nat) : Nat × State :=
  if (nth s.bell.samples p).isEmpty then
    let (v, s) := s.draw
    (v % 2 ^ 32, s)
  else (s.fld (Reg.bellLink p) 31 0, s)

/-- Upstream time `t` was sent by the upstream port's peer and arrived at `at_`: the Bell disciplines to it plus the one-way delay
(R23). -/
def State.upstreamTime (s : State) (p t at_ : Nat) : State :=
  if s.isUpstream p then
    let (dn, s) := s.upstreamDelay p
    let d : Int := dn
    (s.updBell fun b => { b with lastMsg := s.up }).measured ((16 * (t : Int) + d - 16 * (at_ : Int) + 8) / 16)
  else s

/-- TIME_REQ (R23): timestamped t2 at its arrival and answered with t1, t2 and t3. -/
def timeReqS (k : Nat) (s : State) : State :=
  match s.take k with
  | some (d, s') =>
    match d.msg.body with
    | .timeReq t1 => (s'.sendTime d.port (.timeResp t1 d.at_ s.bell.now)).upstreamTime d.port t1 d.at_
    | _ => s
  | none => s

def execTimeReq (k : Nat) (s : State) : Host.Outcome State Fault Refusal := .next (timeReqS k s)

/-- The mean of a list of measurements. -/
def meanOf (l : List Int) : Int := if l.isEmpty then 0 else l.sum / l.length

/-- TIME_RESP (R23): ((t2 - t1) + (t4 - t3)) / 2 plus asym, in 1/16 st, averaged over the last 64. While fewer than 64 exchanges have
taken place, over those there are (DESIGN CHOICE, log entry 7). -/
def timeRespS (k : Nat) (s : State) : State :=
  match s.take k with
  | some (d, s') =>
    match d.msg.body with
    | .timeResp t1 t2 t3 =>
      let p := d.port
      if s.bell.sent.getD p none == some t1 then
        let m : Int := (((t2 : Int) - t1) + ((d.at_ : Int) - t3)) * 8 + signed 16 (s.fld (Reg.bellLink p) 63 48)
        let l := (m :: nth s.bell.samples p).take 64
        let s1 := s'.updBell fun b => { b with samples := put b.samples p l, sent := put b.sent p none }
        (s1.setFld (Reg.bellLink p) 31 0 (unsignedOf 32 (meanOf l))).upstreamTime p t3 d.at_
      else s'
    | _ => s
  | none => s

def execTimeResp (k : Nat) (s : State) : Host.Outcome State Fault Refusal := .next (timeRespS k s)

/-- LINK_TIME_LOST (R24): 1 ms without a time message from the upstream port. -/
def linkTimeLostS (s : State) : State :=
  if s.bellSrc == 2 && decide (s.bell.lastMsg + msT ≤ s.up) then
    ((s.updBell fun b => { b with lastMsg := s.up }).bellEvent 64).lostReference
  else s

def execLinkTimeLost (s : State) : Host.Outcome State Fault Refusal := .next (linkTimeLostS s)

/-- HOLDOVER_LIMIT (R27). -/
def holdoverLimitS (s : State) : State :=
  if s.bell.lock == .holdover && decide (s.fld Reg.bellCtrl 63 48 < s.estError) then s.bellEvent 32 else s

def execHoldoverLimit (s : State) : Host.Outcome State Fault Refusal := .next (holdoverLimitS s)

/-- BELL_NOW_READ (R17): a lower-half read latches the upper half for the next upper-half read. An access of another width or
alignment returns zero and is logged (R9). Tenants have no page that shows BELL_NOW (R448). A frozen port answers all ones (R428). -/
def bellNowReadS (part : RForm) (s : State) : State :=
  if !s.live || !s.pins.regsReady then s
  else if s.pins.frozen then s.emit (.regCpl Reg.bellNow (word allBits))
  else
    match part with
    | .full => s.emit (.regCpl Reg.bellNow (word s.bell.now))
    | .lo => { s with nowLatch := some (s.bell.now / 2 ^ 32) }.emit (.regCpl Reg.bellNow (word (s.bell.now % 2 ^ 32)))
    | .hi =>
      let v := s.nowLatch.getD (s.bell.now / 2 ^ 32)
      { s with nowLatch := none }.emit (.regCpl Reg.bellNow (word (v * 2 ^ 32)))
    | .bad => (s.regError Reg.bellNow).emit (.regCpl Reg.bellNow 0)

def execBellNowRead (part : RForm) (s : State) : Host.Outcome State Fault Refusal := .next (bellNowReadS part s)

/-- BELL_CTRL written (R19, R23, R26): src FREE gives UNLOCKED at the nominal rate; a new reference starts without an expected
edge and with its time limit from now. The rules leave open what a change between PORT and LINK, or to the reserved 3, does to the
state: the model keeps the lock state; and whether a new link_port alone restarts the 1 ms of R24: it does not (DESIGN CHOICE, log
entry 58). -/
def State.wroteBellCtrl (s : State) (old : Nat) : State :=
  if s.bellSrc == old then s
  else
    let s := s.updBell fun b => { b with nextEdge := none, missed := 0, lastMsg := s.up }
    if s.bellSrc == 0 then (s.setRate 0).setLock .unlocked else s

/-! ## Cadences -/

/-- The period of cadence `c` in 1/2^32 st, none when it is disabled (R30). -/
def State.cadPeriod (s : State) (c : Nat) : Option Nat :=
  let p := (s.reg (Reg.bellCadPeriod c)).toNat
  if 4000 ≤ p / 2 ^ 32 ∧ p / 2 ^ 32 ≤ 4294967295 then some p else none

/-- s(n) = O + floor(n P) (R30). -/
def slotStart (o p n : Nat) : Nat := o + n * p / 2 ^ 32

/-- The smallest n with s(n) + f at or after `t` (R31). -/
def nextSlot (o p f t : Nat) : Nat :=
  let d := t - (o + f)
  let n := d * 2 ^ 32 / p
  if t ≤ slotStart o p n + f then n else n + 1

/-- The largest n with s(n) at or before `t`; none before O (R30). -/
def slotAt (o p t : Nat) : Option Nat :=
  if t < o then none
  else
    let n := (t - o) * 2 ^ 32 / p
    some (if slotStart o p (n + 1) ≤ t then n + 1 else n)

/-- Is cadence `c` granted to context `i` (R325)? -/
def State.cadGranted (s : State) (i c : Nat) : Bool := s.flag (Reg.ctxCadgrant i) c

end Sys2Proof.Machine
end

