-- ==== Sys2Proof/Machine/Profiles.lean ====
section
/-!
DEFINITION. BASIC and EXPERT register groups (R13): the profile tables of R22, R71, R237, R246, R316 and R396, and what writing
either group does.
-/
namespace Sys2Proof.Machine

open Sys2Proof

/-- A word of fields: pairs of a low bit and a value. -/
def fields (l : List (Nat × Nat)) : Nat := (l.map fun p => p.2 * 2 ^ p.1).sum

/-- BELL_SERVO_X of a profile (R22). -/
def servoX (code : Nat) : Option Nat :=
  let f := fun kp ki slew lim => some (fields [(40, lim), (32, slew), (16, kp), (0, ki)])
  match code with
  | 0 => f 16384 4096 200 40000
  | 1 => f 8192 1024 50 4000
  | 2 => f 2048 128 10 4000
  | _ => none

/-- STH_ARM_FILL_X of a profile (R71). -/
def fillX (code : Nat) : Option Nat :=
  let f := fun en lim band ramp => some (fields [(32, ramp), (16, lim), (8, band), (0, en)])
  match code with
  | 0 => f 0 2000 10 5000
  | 1 => f 1 2000 10 5000
  | 2 => f 1 20000 10 5000
  | _ => none

/-- BAR_TXN_X of a profile (R237). -/
def txnX (t : Straps) (code : Nat) : Option Nat :=
  let res := match t.build with | .c1 => 512 | _ => 1024
  let f := fun fl cap => some (fields [(32, cap), (16, fl), (0, res)])
  match code with
  | 0 => f 256 2048
  | 1 => f 128 4096
  | 2 => let e := match t.build with | .c4 => 640 | _ => 1280; f e e
  | _ => none

/-- XLT_FMT_X0 of a profile (R246): both put the control bits in the same places. -/
def fmtX0 (code : Nat) : Option Nat :=
  if code ≤ 1 then some (fields [(50, 53), (44, 12), (38, 5), (32, 4), (26, 6), (20, 3), (14, 1), (8, 2), (2, 0)]) else none

/-- XLT_FMT_X1 of a profile (R246). -/
def fmtX1 (code : Nat) : Option Nat :=
  if code ≤ 1 then some (fields [(16, 7), (8, 4 + code), (4, 9), (0, 0)]) else none

/-- MEM_POLICY_X of a profile (R316). -/
def policyMemX (code : Nat) : Option Nat :=
  let f := fun age hi lo idle nrr act => some (fields [(48, age), (40, hi), (32, lo), (8, idle), (4, act), (0, nrr)])
  match code with
  | 0 => f 2000 48 16 100 9 0
  | 1 => f 1000 56 32 50 9 0
  | 2 => f 2000 48 16 100 7 1
  | _ => none

/-- PWR_POLICY_X of a profile (R396): every field is derived (R13); fixed_dw and margin_pct, for which R396's table gives no value, are
free values (DESIGN CHOICE, log entry 8). -/
def policyPwrX (code : Nat) : Option Nat :=
  let f := fun c m l => some (fields
    [(48, Config.policyFixedDw code % 2 ^ 16), (32, Config.policyMarginPct code % 2 ^ 8), (16, c), (8, m), (0, l)])
  match code with
  | 0 => f 85 8 7
  | 1 => f 90 5 5
  | 2 => f 76 8 16
  | _ => none

/-- PWR_DROOP_X of a profile (R396). -/
def droopX (code : Nat) : Option Nat :=
  let f := fun w h st => some (fields [(16, st), (8, h), (0, w)])
  match code with
  | 0 => f 5 1 1000
  | 1 => f 3 1 1000
  | 2 => f 8 2 2000
  | _ => none

/-- The EXPERT registers of a BASIC register with their derived words (R13); none for a code that names no profile. -/
def State.derive (s : State) (r : RegName) (ix : List Nat) (code : Nat) : Option (List (Nat × Nat)) :=
  match r with
  | .bellServo => (servoX code).map fun v => [(Reg.bellServoX, v)]
  | .sthArmFill => (fillX code).map fun v => [(Reg.sthArmFillX (nth ix 0), v)]
  | .barTxn => (txnX s.straps code).map fun v => [(Reg.barTxnX, v)]
  | .xltFmt => do pure [(Reg.xltFmtX0, ← fmtX0 code), (Reg.xltFmtX1, ← fmtX1 code)]
  | .memPolicy => (policyMemX code).map fun v => [(Reg.memPolicyX, v)]
  | .pwrPolicy => (policyPwrX code).map fun v => [(Reg.pwrPolicyX, v)]
  | .pwrDroop => (droopX code).map fun v => [(Reg.pwrDroopX, v)]
  | _ => none

/-- The BASIC register of an EXPERT register (R13). -/
def basicOf (r : RegName) (ix : List Nat) : Option Nat :=
  match r with
  | .bellServoX => some Reg.bellServo
  | .sthArmFillX => some (Reg.sthArmFill (nth ix 0))
  | .barTxnX => some Reg.barTxn
  | .xltFmtX0 | .xltFmtX1 => some Reg.xltFmt
  | .memPolicyX => some Reg.memPolicy
  | .pwrPolicyX => some Reg.pwrPolicy
  | .pwrDroopX => some Reg.pwrDroop
  | _ => none

/-- Registers set to words. -/
def State.setRegs (s : State) : List (Nat × Nat) → State
  | [] => s
  | (o, v) :: r => (s.setReg o (word v)).setRegs r

/-- The expert flag set, the setting reading CUSTOM (R13). -/
def State.markExpert (s : State) (basic : Nat) : State := (s.setFld basic 63 63 1).setFld basic 7 0 0xFF

/-- A BASIC code taken: CUSTOM and codes without a profile change nothing (R13). -/
def State.applyBasic (s : State) (off : Nat) (r : RegName) (ix : List Nat) (code : Nat) : State :=
  match s.derive r ix code with
  | some l => ((s.setRegs l).setFld off 63 63 0).setFld off 7 0 code
  | none => s

/-- A word put into a register under a mask of bits, then the BASIC and EXPERT groups kept in step (R13). -/
def State.putField (s : State) (off mask val : Nat) : State :=
  let old := (s.reg off).toNat
  let new := maskOr (maskDiff old mask) (maskAnd val mask)
  match decodeReg s.straps off with
  | some i =>
    match s.derive i.row.name i.ix 0 with
    | some _ => if maskAnd mask 255 = 0 then s else s.applyBasic off i.row.name i.ix (new % 256)
    | none =>
      let s := s.setReg off (word new)
      match basicOf i.row.name i.ix with
      | some b => s.markExpert b
      | none => s
  | none => s

end Sys2Proof.Machine
end

