-- ==== Sys2Proof/Machine/Lease.lean ====
section
/-!
DEFINITION. Leases and the addresses they give (R4 to R7, R105, R106, R114, R323), and the words that several readers compute from
the state of lanes and launches (R213, R216).
-/
namespace Sys2Proof.Machine

open Sys2Proof

/-- Tiles a context leases, ascending; the clusters where it holds one (R106). -/
def State.leaseTiles (s : State) (c : Nat) : List Nat :=
  (List.range 16).filter fun t => (s.tile t).lease == some c
def State.leaseClusters (s : State) (c : Nat) : List Nat :=
  (List.range 4).filter fun k => (s.leaseTiles c).any fun t => t / 4 == k
/-- Lease ordinals of a tile and of a cluster (R106). -/
def State.tileOrd (s : State) (c t : Nat) : Nat := ((s.leaseTiles c).filter fun x => decide (x < t)).length
def State.clusterOrd (s : State) (c k : Nat) : Nat := ((s.leaseClusters c).filter fun x => decide (x < k)).length

/-- First byte and bytes of the range in cluster `k` of a CTX_LEASE_CS word (R341). -/
def csRange (w : Word) (k : Nat) : Nat × Nat :=
  let f := bits w (16 * k + 15) (16 * k)
  (f % 16 * 0x100000, f / 16 % 32 * 0x100000)
def State.clusterRange (s : State) (c k : Nat) : Nat × Nat := csRange (s.reg (Reg.ctxLeaseCs c)) k

/-- Tag of a device virtual address (R4). -/
def vaTag (a : Nat) : Nat := a / 2 ^ 60
/-- Is the tag a space, with the zero bits of R5? -/
def tagOk (a : Nat) : Bool :=
  match vaTag a with
  | 1 => a / 2 ^ 57 % 8 == 0
  | 2 | 3 => true
  | _ => false

/-- The local address of a tag-0x3 offset under a context's lease (R106); none faults with SCRATCH-RANGE. -/
def State.leaseAddr (s : State) (c off : Nat) : Option Nat :=
  if off < 0x4000000 then (s.leaseTiles c)[off / tileSize]?.map fun t => tileAddr t + off % tileSize
  else if off < 0x8000000 then
    match (s.leaseClusters c)[(off - 0x4000000) / clusterSize]? with
    | some k =>
      let (b, n) := s.clusterRange c k
      if (off - 0x4000000) % clusterSize < n then some (clusterAddr k + b + (off - 0x4000000) % clusterSize) else none
    | none => none
  else if off < 0x8040000 then (s.leaseTiles c)[(off - 0x8000000) / 0x4000]?.map fun t => bookAddr t 0 + off % 0x4000
  else if off < 0x8100000 then none
  else if off < 0x8200000 then (s.leaseTiles c)[(off - 0x8100000) / 0x10000]?.map fun t => tableAddr t 0 + off % 0x10000
  else none

/-- The store a local address lies in: 0 to 15 tile scratch, 16 + k cluster scratch, 32 + t Maquette, 48 + t tables (R150). -/
def storeOf (t : Straps) (a : Nat) : Option (Nat × Nat) :=
  match placeOf t a with
  | .tile x o => some (x, o)
  | .cluster k o => some (16 + k, o)
  | .maquette x o => some (32 + x, o)
  | .table x o => some (48 + x, o)
  | _ => none

/-- Does a local address lie in the lease's own area (R114)? -/
def State.inLease (s : State) (c a : Nat) : Bool :=
  match placeOf s.straps a with
  | .tile t _ | .maquette t _ | .table t _ => (s.tile t).lease == some c
  | .cluster k o =>
    let (b, n) := s.clusterRange c k
    (s.leaseClusters c).contains k && decide (b ≤ o) && decide (o < b + n)
  | _ => false

/-- Does a local address lie in the scratch, books or tables of a domain (R392)? -/
def inDom (t : Straps) (d : RestDom) (a : Nat) : Bool :=
  match placeOf t a, d with
  | .tile x _, .tile y | .maquette x _, .tile y | .table x _, .tile y => x == y
  | .cluster x _, .cluster y => x == y
  | _, _ => false

/-- The debug reads that waited for a domain complete (R454). -/
def State.debugAnswer (s : State) (d : RestDom) : State :=
  { s with out := s.out ++ ((s.debugHeld.filter fun p => inDom s.straps d p.2).map fun p => Out.regCpl p.1 (word (s.rdNat p.2 8)))
           debugHeld := s.debugHeld.filter fun p => !inDom s.straps d p.2 }

/-- Codes of lane and context states (R216, R214). -/
def laneStCode : LaneSt → Nat
  | .idle => 0 | .issuing => 1 | .blocked => 2 | .gated => 3 | .ending => 4
def ctxStCode : CtxSt → Nat
  | .free => 0 | .active => 1 | .stopped => 2 | .faulted => 3 | .teardown => 4
def stageCode : Stage → Nat
  | .waiting => 0 | .running => 1 | .stopping => 2

/-- WAIT, TWAIT, TWAIT.C, BARRIER and FENCE are gates (R161). -/
def Op.isGate (o : Op) : Bool :=
  (bits o.iw.w 63 58 == 0xB && bits o.iw.w 57 52 != 0) || (bits o.iw.w 63 58 == 0xC && decide (bits o.iw.w 57 52 ≤ 1))

/-- The wait cause and argument of the unit an operation stands in (R216); `none` for a unit the table does not name. -/
def State.opWait (s : State) (c : Nat) (o : Op) : Option (Nat × Nat) :=
  let op := bits o.iw.w 57 52
  match o.unit with
  | .tile t => some (if bits o.iw.w 63 58 == 8 then 4 else 5, s.tileOrd c t)
  | .barrow b => some (6, b)
  | .port => none
  | .sync => if op == 3 then some (8, bits o.iw.w 46 39) else if op == 2 then none else some (7, bits o.iw.w 46 41)
  | .time => if op == 0 then some (9, 0xFFFF) else if op == 1 then some (9, bits o.iw.w 36 33) else none

/-- What a lane that is not held at issue waits on: a gate that has started, else its oldest unfinished operation. -/
def State.laneWaits (s : State) (c : Nat) (os : List Op) : Option (Nat × Nat) :=
  match (os.filter fun o => o.isGate && o.st == .running).findSome? (s.opWait c) with
  | some r => some r
  | none => os.head?.bind (s.opWait c)

/-- Does an operation at the head of its queue wait for a conflicting interval alone (R150)? -/
def intervalHeld (os : List Op) : Bool :=
  os.any fun o => o.st == .queued && (os.all fun p => !(decide (p.id < o.id) && p.st == .queued && p.unit == o.unit)) &&
    os.any fun p => decide (p.id < o.id) && p.ivals.any fun a => o.ivals.any fun b =>
      a.store == b.store && (a.wr || b.wr) && decide (a.lo ≤ b.hi) && decide (b.lo ≤ a.hi)

/-- State, wait cause and argument that a lane reports (R216): one that waits at issue says why; one at END waits for its operations; one not
held at issue is GATED while an operation of it is a gate, and reports what that waits on; else a scratch interval that holds an operation
at the head of its queue (DEDUCED, log entry 25). -/
def State.laneReport (s : State) (l : LaneId) : Nat × Nat × Nat :=
  let x := s.lane l
  let os := s.ops.filter fun o => o.lane == l
  match x.st with
  | .idle => (0, 0, 0)
  | .blocked => (2, x.wait, x.waitArg)
  | .ending => (4, 12, 0)
  | st =>
    if os.any Op.isGate then (3, (s.laneWaits x.ctx os).getD (0, 0))
    else if intervalHeld os then (laneStCode st, 10, 0)
    else (laneStCode st, x.wait, x.waitArg)

/-- The stalled unit that a hang record names for a lane (R211, R429): what the lane reports, and for one at END the unit that it waits for, if
the table has one (DEDUCED, log entry 25). -/
def State.stalledUnit (s : State) (l : LaneId) : Nat × Nat :=
  let (st, w) := s.laneReport l
  if st == 4 then (s.laneWaits (s.lane l).ctx (s.ops.filter fun o => o.lane == l)).getD w else w

/-- STH_LANEn_STATUS (R216). -/
def State.laneWord (s : State) (l : LaneId) : Nat :=
  let x := s.lane l
  let (st, c, a) := s.laneReport l
  fields [(56, x.gen % 256), (50, x.ctx % 64), (32, a % 2 ^ 16), (24, c % 256), (0, st)]

/-- The launches dispatched and not yet ended, in dispatch order (CTX_FLIGHTi, R213): those whose record is not written. -/
def Ctx.flights (c : Ctx) : List Launch := c.launches.filter fun l => l.dispatched
def Ctx.flightWord (c : Ctx) (i : Nat) : Nat :=
  match c.flights[i]? with
  | some l => fields [(63, 1), (60, stageCode l.stage), (0, l.seq % 2 ^ 34)]
  | none => 0
def Ctx.tallyWord (c : Ctx) (i : Nat) : Nat :=
  match c.flights[i]? with
  | some l => l.tally % 2 ^ 64
  | none => 0

end Sys2Proof.Machine
end

