-- ==== Sys2Proof/Machine/PowerBase.lean ====
section
/-!
DEFINITION. The operating point (R373 to R376): what decides it, and the order in which a change moves the rail and the clock.
-/
namespace Sys2Proof.Machine

open Sys2Proof

/-- A resting domain starts to wake; one that is entering Rest wakes after its entry (R392). -/
def Rest.wake (up : Nat) : Rest → Rest
  | .resting => .waking up
  | .entering t _ => .entering t true
  | x => x

/-- want (R374): the fastest point that PACE states among the lanes running launches, else PWR_OPP.dflt. -/
def State.oppWant (s : State) : Nat :=
  let ps := (s.lanes.filter fun l => l.st != .idle).filterMap fun l => l.pace
  match ps with
  | [] => s.fld Reg.pwrOpp 10 8
  | p :: r => r.foldl min p

/-- req := max(want, limit). -/
def State.oppReq (s : State) : Nat := max s.oppWant (s.fld Reg.pwrOpp 2 0)

/-- Does a LIVE job slot with pace_en 1 carry the job (R374)? -/
def State.paceLive (s : State) (job : Nat) : Bool :=
  (List.range s.straps.jobSlots).any fun j => s.flag (Reg.fabJobCfg j) 63 && s.flag (Reg.fabJobCfg j) 61 && s.jobState j == 1 &&
    s.fld (Reg.fabJobCfg j) 15 0 == job

/-- The pace ceiling (R374, R289): the slowest pace of the jobs that have one. -/
def State.paceCeil (s : State) : Option Nat :=
  (s.power.paces.filter fun p => s.paceLive p.1).foldl (fun m p => some (max (m.getD 0) p.2)) none

/-- The pace ceiling, none as 0. -/
def State.paceOpp (s : State) : Nat := s.paceCeil.getD 0

/-- run (R374). -/
def State.oppRun (s : State) : Nat :=
  let p := s.power
  max s.oppReq (max p.capCeil (max p.thermCeil (max p.alertCeil s.paceOpp)))

/-- Throttled (R374, R289): the cap, thermal or alert ceiling holds run above req. -/
def State.throttled (s : State) : Bool :=
  let p := s.power
  decide (s.oppReq < max p.capCeil (max p.thermCeil p.alertCeil))

/-- VOUT_COMMAND to every rail of the compute role, in mV (R375, R377). -/
def State.writeVolt (s : State) (opp : Nat) : List Nat → State
  | [] => s
  | r :: rs =>
    (if s.fld (Reg.pwrRailCfg r) 9 8 == 1 then s.emit (.pmbus r 0x21 (10 * oppVolt opp)) else s).writeVolt opp rs

def State.setVolt (s : State) (opp : Nat) : State :=
  (s.writeVolt opp [0, 1, 2, 3]).updPower fun p => { p with voltMv := 10 * oppVolt opp }

/-- A transition to an operating point begins (R375): a raise writes the voltage and waits for it, a lowering only waits for its
PLL; a voltage raised for a point that is not wanted any more returns. `at_` keeps the switch for a tick (R376). -/
def State.startTransition (s : State) (target : Nat) (at_ : Option Nat) : State :=
  if target == s.power.clk then
    (if s.power.voltMv == 10 * oppVolt target then s else s.setVolt target).updPower fun p => { p with trans := none }
  else if target < s.power.clk then
    (s.setVolt target).updPower fun p => { p with trans := some ⟨target, 0, s.up, at_⟩ }
  else s.updPower fun p => { p with trans := some ⟨target, 1, s.up, at_⟩ }

/-- run decided again (R374); a change starts its transition. -/
def State.redecide (s : State) : State :=
  let r := s.oppRun
  if r == s.power.run then s
  else (s.updPower fun p => { p with run := r }).startTransition r none

/-- The clock switches to the transition's target; a lowering then writes the lower voltage (R375). -/
def State.switchClock (s : State) : State :=
  match s.power.trans with
  | some t =>
    let low := s.power.clk < t.target
    let s := s.updPower fun p => { p with clk := t.target, trans := none }
    if low then s.setVolt t.target else s
  | none => s

end Sys2Proof.Machine
end

