-- ==== Sys2Proof/Machine/Device.lean ====
section
/-!
DEFINITION. The attached memory as the controllers keep it: the data region and its map to channels, banks and rows (R296 to R300), key pages
(R309), the ciphertext and MAC of a line and where they lie in a channel (R297, R307, R308), the caches of MAC lines and key-page-table lines,
activates and their draw for a neighbour refresh (R305), and the writing of a line and of a page for the first time (R308 to R310).
-/
namespace Sys2Proof.Machine

open Sys2Proof

/-! ## The data region -/

/-- Channels in use, and their number C (R296). -/
def State.memMask (s : State) : Nat := s.fld Reg.memMap 47 32
def State.memCount (s : State) : Nat := (maskBits 16 s.memMask).length
/-- Capacity of a channel in bytes; code 3 is reserved and never enabled. -/
def State.chanCap (s : State) : Nat := 2 ^ (30 + s.fld Reg.memMap 17 16)
/-- D (R298). -/
def State.dataBytes (s : State) : Nat := s.memCount * (7 * s.chanCap / 8)
/-- Is attached memory in service (R306)? -/
def State.memOn (s : State) : Bool := s.flag Reg.memCtrl 0

/-- Whole binary logarithm of a power of two below 2^17. -/
def log2Of (n : Nat) : Nat := ((List.range 17).find? fun k => decide (n ≤ 2 ^ k)).getD 0

/-- Channel and channel address of a local attached address (R299). -/
def State.chanOf (s : State) (a : Nat) : Nat × Nat :=
  let g := s.fld Reg.memMap 12 8
  let n := s.memCount
  let c := log2Of n
  let u := a / 2 ^ g
  let l := (if s.flag Reg.memMap 0 then Nat.xor (Nat.xor u (u / 2 ^ c)) (u / 2 ^ (2 * c)) else u) % n
  (nth (maskBits 16 s.memMask) l, u / n * 2 ^ g + a % 2 ^ g)

/-- The local address of a byte of a channel (the inverse of R299). -/
def State.localOf (s : State) (ch ca : Nat) : Option Nat :=
  let g := s.fld Reg.memMap 12 8
  let t := ca / 2 ^ g
  ((List.range s.memCount).find? fun i => (s.chanOf ((t * s.memCount + i) * 2 ^ g)).1 == ch).map fun i =>
    (t * s.memCount + i) * 2 ^ g + ca % 2 ^ g

/-- Bank (group × 4 + bank) and row of a channel address (R300). -/
def bankRow (ca : Nat) : Nat × Nat :=
  let row := ca / 2 ^ 15
  (4 * Nat.xor (ca / 2 ^ 11 % 4) (row / 4 % 4) + Nat.xor (ca / 2 ^ 13 % 4) (row % 4), row)

/-- Rows of a bank: 2 KiB each, 16 banks (R300). -/
def State.bankRows (s : State) : Nat := s.chanCap / 2 ^ 15

/-- The key of a channel's key page in the page table (R297, R309). -/
def pageKey (ch ca : Nat) : Nat := ch * 2 ^ 32 + ca / 4096
def State.pageOf (s : State) (a : Nat) : Nat :=
  let (ch, ca) := s.chanOf a
  pageKey ch ca
/-- The key-page entry: the slot when the page is written. -/
def State.pageSlot (s : State) (key : Nat) : Option Nat :=
  let e := sparseGet 0 s.mem.pages key
  if e == 0 then none else some (e % 16)
/-- The slot that is CURRENT (R413), 0 before the Inspector has installed one. -/
def State.curSlot (s : State) : Nat := (firstIdx (· == 1) s.mem.slots).getD 0
/-- A page marked written under the slot that is current (R309). -/
def State.markPage (s : State) (key : Nat) : State :=
  s.updMem fun m => { m with pages := sparseSet 0 m.pages key (128 + s.curSlot) }

/-- A local attached address outside the data region, or memory that is not in service (R298, R438). -/
def State.memRange (s : State) (a n : Nat) : Bool := !s.memOn || decide (s.dataBytes < a + n)
/-- What that does (R298): MEM_EVENT.range, and the cause MEM_RANGE recorded with the context and the address (log entry 69). -/
def State.memOut (s : State) (c a : Nat) : State := (s.memEvent 4).updMem fun m => { m with rangeAt := some (c, a) }

/-- MEM_INJECT armed with a kind on a line (R344). -/
def State.memInj (s : State) (kind line : Nat) : Bool :=
  s.fld Reg.memInject 63 62 == kind && s.fld Reg.memInject 42 6 == line
def State.memDisarm (s : State) : State := s.setReg Reg.memInject 0

/-! ## What a channel holds (R297, R307, R308) -/

/-- Channel addresses of the MACs, of the key-page table, of a data address's MAC line and of its page's line of the table (R297). -/
def State.macBase (s : State) : Nat := 7 * s.chanCap / 8
def State.tabBase (s : State) : Nat := s.macBase + 7 * s.chanCap / 64
def State.macLine (s : State) (ca : Nat) : Nat := (s.macBase + 8 * (ca / 64)) / 64 * 64
def State.tabLine (s : State) (ca : Nat) : Nat := (s.tabBase + ca / 4096) / 64 * 64

/-- The tweak of a line (R307). -/
def tweakOf (ch ca : Nat) : Nat := ch * 2 ^ 32 + ca / 64

/-- The 64 bytes of a data line as its channel holds them in clear: a write that waits or reads its line first is not yet in them. -/
def State.standing (s : State) (ch line : Nat) : List Byte :=
  let x := s.chan ch
  match (x.inflight.map fun f => f.req).find? fun q => q.write && q.line == line with
  | some q => q.old
  | none => match x.writes.find? fun q => q.line == line with
    | some q => q.old
    | none => s.rdBytes (64 * line) 64

/-- What a channel still holds where nothing has been written since its page was marked unwritten: not stated. -/
def oldBytes (ch ca : Nat) : List Byte := (List.range 64).map fun i => Config.oldByte ch (ca + i)

/-- A data line as it is stored: AES-256-XTS under the key pair of its page's slot (R307). -/
def State.cipherLine (s : State) (ch ca : Nat) : List Byte :=
  match s.pageSlot (pageKey ch ca), s.localOf ch ca with
  | some sl, some a => Config.xtsLine (nth s.mem.slotKeys sl) (tweakOf ch ca) (s.standing ch (a / 64))
  | _, _ => oldBytes ch ca

/-- The MAC stored for a data line: AES-256-CMAC under the MAC key of the same slot, over the tweak and the ciphertext (R308); bit 0 of it
is inverted where an injection has spoiled it. -/
def State.storedMac (s : State) (ch ca : Nat) : Nat :=
  match s.pageSlot (pageKey ch ca), s.localOf ch ca with
  | some sl, some a =>
    let m := (Config.lineMac (nth s.mem.slotKeys sl) (tweakOf ch ca) (s.cipherLine ch ca)).toNat
    if s.mem.badMac.contains (a / 64) then Nat.xor m 1 else m
  | _, _ => leNat ((oldBytes ch (s.macLine ca)).drop (8 * (ca / 64 % 8)) |>.take 8)

/-- A line of 64 bytes of a channel, its caches included (R297). -/
def State.devLine (s : State) (ch ca : Nat) : List Byte :=
  if ca < s.macBase then s.cipherLine ch ca
  else if ca < s.tabBase then ((List.range 8).map fun i => leBytes 8 (s.storedMac ch (64 * ((ca - s.macBase) / 8 + i)))).flatten
  else
    (List.range 64).map fun i =>
      let p := ca - s.tabBase + i
      if p < s.macBase / 4096 then BitVec.ofNat 8 (sparseGet 0 s.mem.pages (ch * 2 ^ 32 + p)) else Config.oldByte ch (ca + i)

/-! ## Rows, activates and the device's lines (R300, R305, R308) -/

/-- An activate is counted and draws for a neighbour refresh of its bank, due within 2 microseconds (R305). -/
def State.activate (s : State) (ch bank row : Nat) : State :=
  let s := s.incWrap (Reg.memChAct ch) 39 0 1
  let n := s.fld Reg.memPolicyX 3 0
  let (v, s) := s.draw
  if n != 0 && v % 2 ^ n == 0 then
    s.updChan ch fun x => { x with refresh := x.refresh ++ [⟨bank, s.up + 8000, true, row, s.up⟩] }
  else s

/-- The row of a channel address is opened unless it is open. -/
def State.openLine (s : State) (ch ca : Nat) : State :=
  let (b, row) := bankRow ca
  let hit := nth (s.chan ch).rows b == some row
  let s := s.updChan ch fun x => { x with rows := put x.rows b (some row), hits := put x.hits b s.up }
  if hit then s else s.activate ch b row

/-- A line read from a channel, and one written to it, at their rows. -/
def State.devRd (s : State) (ch ca : Nat) : State := (s.openLine ch ca).emit (.dfiRd ch ca)
def State.devWr (s : State) (ch ca : Nat) : State := (s.openLine ch ca).emit (.dfiWr ch ca (s.devLine ch ca))

def State.devRds (s : State) (ch : Nat) : List Nat → State
  | [] => s
  | a :: r => (s.devRd ch a).devRds ch r
def State.devWrs (s : State) (ch : Nat) : List Nat → State
  | [] => s
  | a :: r => (s.devWr ch a).devWrs ch r

/-- The caches of a channel: 64 key-page-table lines, 512 MAC lines (R308), each with its dirty mark. -/
def Chan.cache (x : Chan) (tab : Bool) : List (Nat × Bool) := if tab then x.tabCache else x.macCache
def State.setCache (s : State) (ch : Nat) (tab : Bool) (l : List (Nat × Bool)) : State :=
  s.updChan ch fun x => if tab then { x with tabCache := l } else { x with macCache := l }

/-- A full cache evicts a line, which one is free; a dirty one is written back (R308). -/
def State.evict (s : State) (ch : Nat) (tab : Bool) : State :=
  let l := (s.chan ch).cache tab
  if l.length < (if tab then 64 else 512) then s
  else
    let (v, s) := s.draw
    let e := nth l (v % l.length)
    let s := s.setCache ch tab (l.eraseIdx (v % l.length))
    if e.2 then s.devWr ch e.1 else s

/-- A MAC line or a line of the key-page table is used, and changed with `wr`: is it read from the channel, and the state then. -/
def State.touch (s : State) (ch : Nat) (tab : Bool) (ca : Nat) (wr : Bool) : Bool × State :=
  let l := (s.chan ch).cache tab
  if l.any fun e => e.1 == ca then (false, s.setCache ch tab (l.map fun e => if e.1 == ca then (e.1, e.2 || wr) else e))
  else
    let s := (s.evict ch tab).devRd ch ca
    (true, s.setCache ch tab ((s.chan ch).cache tab ++ [(ca, wr)]))

/-! ## Lines and pages written (R308 to R310, R344) -/

/-- A data line is written with a new MAC, which an armed injection spoils. -/
def State.putLine (s : State) (ch ca line : Nat) : State :=
  let inj := s.memInj 1 line
  let s := if inj then s.memDisarm else s
  let s := s.updMem fun m => { m with badMac := (if inj then [line] else []) ++ m.badMac.filter (· != line) }
  ((s.devWr ch ca).touch ch false (s.macLine ca) true).2

/-- The MAC lines of a page's 64 data lines. -/
def State.touchMacs (s : State) (ch : Nat) : List Nat → State
  | [] => s
  | a :: r => (s.touch ch false (s.macLine a) true).2.touchMacs ch r

/-- A page's data lines by channel address. -/
def pageLines (ca : Nat) : List Nat := (List.range 64).map fun i => ca / 4096 * 4096 + 64 * i

/-- The first write of a page (R309): its 64 lines are written as encrypted zeros with their MACs, and its entry is set. -/
def State.initPage (s : State) (ch ca : Nat) : State :=
  let s := s.markPage (pageKey ch ca)
  let ls := (pageLines ca).filterMap fun a => (s.localOf ch a).map (· / 64)
  let s := s.updMem fun m => { m with badMac := m.badMac.filter fun l => !ls.contains l }
  let s := (s.devWrs ch (pageLines ca)).touchMacs ch ((List.range 8).map fun i => ca / 4096 * 4096 + 512 * i)
  (s.touch ch true (s.tabLine ca) true).2

/-! ## Physical addresses without a job (R242, R460) -/

/-- The local attached address of a host physical address that MEM_HPA serves locally (R460). -/
def State.hpaOf (s : State) (h : Nat) : Option Nat :=
  let base := s.fld Reg.memHpa 54 12 * 4096
  if s.flag Reg.memHpa 0 && decide (base ≤ h) && decide (h < base + s.dataBytes) then some (h - base) else none

/-- Whole lines written to attached memory by the debug channel, past the queues; beyond the data region nothing is written (R298). -/
def State.dumpLines (s : State) (line : Nat) : List Byte → Nat → State
  | _, 0 => s
  | bs, n + 1 =>
    let a := 64 * line
    let s :=
      if s.memRange a 64 then s.memOut 64 a
      else
        let (ch, ca) := s.chanOf a
        if (s.chan ch).writes.any fun q => q.line == line then
          (s.updChan ch fun x => { x with writes := x.writes.map fun q =>
            if q.line == line then { q with part := false, puts := (bs.take 64).mapIdx fun i b => (i, b) } else q }).wrBytes a (bs.take 64)
        else
          let s := if (s.pageSlot (pageKey ch ca)).isNone then s.initPage ch ca else s
          (s.wrBytes a (bs.take 64)).putLine ch ca line
    s.dumpLines (line + 1) (bs.drop 64) n

end Sys2Proof.Machine
end

