-- ==== Sys2Proof/Machine/Reset.lean ====
section
/-!
DEFINITION. Sampling before a reset (R362 to R364) and the beginning of a block soft reset (R41, R367 to R369, R395, R415).
-/
namespace Sys2Proof.Machine

open Sys2Proof

/-! ## The capture and the sample -/

/-- `n` free bytes: contents whose layout the manual does not give. -/
def State.drawBytes (s : State) : Nat → List Byte × State
  | 0 => ([], s)
  | n + 1 =>
    let (v, s) := s.draw
    let (r, s) := s.drawBytes n
    (BitVec.ofNat 8 v :: r, s)

/-- The 1,024 bytes of a lane in the per-cluster layout of R363; the layout of its 64 bytes of loop stack is not given, so they are free. -/
def State.laneImage (s : State) (x : LaneId) : List Byte × State :=
  let l := s.lane x
  let (f, s) := s.drawBytes 64
  (padTo 1024 ((l.s.map fun v => leBytes 8 v.toNat).flatten ++ (l.d.map fun v => leBytes 32 v.toNat).flatten ++
    leBytes 8 l.pc ++ (l.k.map (leBytes 4)).flatten ++ leBytes 8 (maskOf ((List.range 8).filter fun i => nth l.p i)) ++ f ++
    leBytes 8 (s.laneWord x)), s)

/-- The part of the capture that a cluster's lane of the context fills (R363). -/
def State.captureLane (s : State) (c k : Nat) : List Byte × State :=
  match (List.range 4).find? fun n => (s.lane ⟨k, n⟩).st != .idle && (s.lane ⟨k, n⟩).ctx == c with
  | some n => s.laneImage ⟨k, n⟩
  | none => (List.replicate 1024 0, s)

def State.captureLanes (s : State) (c : Nat) : List Nat → List Byte × State
  | [] => ([], s)
  | k :: r =>
    let (a, s) := s.captureLane c k
    let (b, s) := s.captureLanes c r
    (a ++ b, s)

/-- A queued descriptor in the layout of R221 (512 bytes); the bits of its frames have no stated layout, so they are free. -/
def Frame.bytes (f : Frame) : List Byte :=
  leBytes 8 (f.page / 4096 * 4096 + (Config.frameTags f.size f.dest).toNat) ++
    leBytes 8 (f.phys / 4096 * 4096 + (Config.frameFlags f.r f.w f.atomic f.stale f.valid).toNat)

def State.descImage (s : State) (q : QDesc) : List Byte × State :=
  match s.op? q.op with
  | some o =>
    let f := ((List.range 16).map fun i => Frame.bytes (nth q.frames i)).flatten
    let bm := maskOf (q.bitmap.map fun k => k - q.done)
    (padTo 0x180 (leBytes 8 o.iw.w.toNat ++
      leBytes 8 (fields [(56, q.gen % 256), (50, q.ctx % 64), (48, q.lane.n % 4), (0, q.seq % 2 ^ 34)]) ++
      leBytes 8 q.total ++ leBytes 8 q.done ++ leBytes 4 0 ++ padTo 28 (o.sc.map fun v => leBytes 8 v.toNat).flatten ++
      leBytes 32 o.dd.toNat ++ leBytes 32 o.da.toNat ++ f) ++
      padTo 0x40 (o.planes.map fun d => leBytes 32 d.toNat).flatten ++ padTo 0x40 (leBytes 32 bm), s)
  | none => (List.replicate 512 0, s)

def State.descImages (s : State) : List QDesc → List Byte × State
  | [] => ([], s)
  | q :: r =>
    let (a, s) := s.descImage q
    let (b, s) := s.descImages r
    (a ++ b, s)

/-- Queued descriptors of a context, by barrow. -/
def State.ctxQueue (s : State) (c : Nat) : List QDesc := (s.barrows.map fun b => b.q.filter fun q => q.ctx == c).flatten

/-- The unit state as it stands at the Awning: bytes 0x100 to 0x3FFF of a dump slot (R363). -/
def State.capture (s : State) (c : Nat) : List Byte × State :=
  let x := s.ctx c
  let (ls, s) := s.captureLanes c (s.leaseClusters c)
  let (ds, s) := s.descImages ((s.ctxQueue c).take 20)
  let fl := (((List.range 4).map x.flightWord ++ (List.range 4).map x.tallyWord).map (leBytes 8)).flatten
  (padTo 0x100 ((x.sems.map (leBytes 4)).flatten) ++ padTo 0x1000 ls ++ padTo 0x200 fl ++ padTo 0x2C00 ds, s)

/-- Pages of the sample: tag-0x3 offsets, at most 64, in order of k (R362). -/
def State.samplePages (s : State) : List Nat :=
  (((List.range 4).map fun k =>
    let w := s.reg (Reg.errSample k)
    (List.range (bits w 38 32)).map fun i => bits w 27 12 * 4096 + i * 4096).flatten)

/-- The sample's bytes and whether a page was clipped: beyond 64 pages, outside the lease, or of a resting tile (R393). -/
def State.sample (s : State) (c : Nat) : List Byte × Bool :=
  let ps := s.samplePages
  let rd := fun off => match s.leaseAddr c off with
    | some a =>
      match placeOf s.straps a with
      | .tile t _ => if (s.tile t).rest == .awake then some (s.rdBytes a 4096) else none
      | _ => some (s.rdBytes a 4096)
    | none => none
  let got := (ps.filterMap rd).take 64
  (got.flatten, decide (got.length < ps.length))

/-- Host writes of at most 256 bytes each (R421). -/
def hostPieces (h : Nat) (bs : List Byte) : List (Nat × List Byte) :=
  (List.range ((bs.length + 255) / 256)).map fun i => (h + 256 * i, (bs.drop (256 * i)).take 256)

/-- Posted host writes go out, or are held in their order (R429). -/
def State.hostWrites (s : State) (l : List (Nat × List Byte)) : State :=
  if s.hostHeld then { s with dumpHeld := s.dumpHeld ++ l } else { s with out := s.out ++ l.map fun (p : Nat × List Byte) => Out.mwr p.1 p.2 }

/-- Bytes written to a physical address by the debug channel: host memory through the host port, unless MEM_HPA serves the place locally
(R460); else the local address. -/
def State.physWrite (s : State) (pa : Nat) (bs : List Byte) : State :=
  let own := fun a => if a < scratchBase then s.dumpLines (a / 64) bs ((bs.length + 63) / 64) else s.wrBytes a bs
  if pa / 2 ^ 55 % 2 = 1 then
    match s.hpaOf (pa % 2 ^ 55) with
    | some a => own a
    | none => s.hostWrites (hostPieces (pa % 2 ^ 55) bs)
  else own (pa % 2 ^ 43)

/-- Does a write of `n` bytes at a physical address fail (R298, R364)? One to host memory is posted. -/
def State.physFails (s : State) (pa n : Nat) : Bool :=
  let own := fun a => decide (a < scratchBase) && s.memRange a n
  if pa / 2 ^ 55 % 2 = 1 then (s.hpaOf (pa % 2 ^ 55)).any own else own (pa % 2 ^ 43)

/-- One dump slot written (R363): header, RESET record, capture, `n` bytes of the sample; its bit in ERR_DUMP_STATUS is set. With
no free slot, or sampling disabled, or when a write fails, the reset is counted in ERR_DUMP_SKIP instead (R364). -/
def State.writeDump (s : State) (c : Nat) (r : CtxReset) (rec : List Word) (complete : Bool) (cut : Option Nat) : State :=
  let full := (s.reg Reg.errDumpStatus).toNat
  match (List.range (min 64 (s.fld Reg.errDumpCfg 6 0))).find? fun i => !maskHas full i, s.flag Reg.errDumpCfg 8 with
  | some i, true =>
    let base := s.fld Reg.errDumpBase 55 12 * 4096 + 0x44000 * i
    let (smp, clip) := s.sample c
    let smp := match cut with | some n => smp.take (n % (smp.length + 1)) | none => smp
    let many := (s.ctxQueue c).length
    let flags := (if complete then 1 else 0) + (if clip then 2 else 0) + (if 20 < many then 4 else 0)
    let head := [BitVec.ofNat 8 1, BitVec.ofNat 8 c, BitVec.ofNat 8 r.oldGen, BitVec.ofNat 8 r.cause, BitVec.ofNat 8 flags, 0, 0, 0] ++
      leBytes 8 r.began ++ leBytes 8 (s.reg (Reg.ctxLease c)).toNat ++ leBytes 8 (s.reg (Reg.ctxLeaseCs c)).toNat ++
      leBytes 4 smp.length ++ leBytes 4 (min 20 many) ++ List.replicate 24 0
    let img := padTo 0x40 head ++ padTo 0xC0 (rec.map fun w => leBytes 8 w.toNat).flatten ++ r.capture ++ smp
    let s1 := s.physWrite base img
    if s.physFails base img.length then s1.incWrap Reg.errDumpSkip 63 0 1 else s1.setBitsIn Reg.errDumpStatus (2 ^ i)
  | _, _ => s.incWrap Reg.errDumpSkip 63 0 1

/-- The RESET record (R354, R349). -/
def resetReport (c gen cause : Nat) : Report :=
  { det := 0x20, sev := 1, place := 63, ctx := some (c, gen), cause := cause }

/-! ## The beginning of a block soft reset -/

/-- Registers a block soft reset keeps (R369, R395, R415), counters from power-good included. -/
def keptAtReset (n : RegName) : Bool :=
  match n with
  | .bellNow | .bellCtrl | .bellStatus | .bellServo | .bellServoX | .bellPps | .bellTod | .bellOffset | .bellFreq | .bellStep
  | .bellEvent | .bellLink | .bellCadPeriod | .bellCadOrigin
  | .fabId | .fabCtrl | .fabPortCfg | .fabRt | .fabRefused | .fabDrops | .fabPortFlits
  | .memMap | .memCtrl | .memPolicy | .memPolicyX | .memHpa | .memChStatus | .memChErr | .memChAct
  | .sthArmRepair | .sthArmBusy | .sthArmFillcnt | .sthScrConf | .sthScrEcc | .sthScrCluster
  | .barBytes | .barReplay | .xltFmt | .xltFmtX0 | .xltFmtX1 | .xltInv | .xltTcHit | .xltTcMiss
  | .pwrCap | .pwrTherm | .pwrRailCfg | .pwrRailRead | .pwrTemp | .pwrCoef | .pwrCoefLeak | .pwrInswdt | .pwrDroopCnt | .pwrDlogT
  | .pwrDlogD | .pwrThrt | .pwrLedgerEst | .pwrLedgerMeas | .pwrLedgerScale | .pwrLedgerIdle
  | .insCtrl | .insStatus | .insId0 | .insId1 | .insSession | .insCmdLast | .insOproot | .insMkeyCtl | .insBoot | .insStraps
  | .dbgStat
  | .errCtrl | .errLogWritten | .errLogConsumed | .errInject | .errBreset | .errBresetStatus | .errDumpBase | .errDumpCfg
  | .errDumpStatus | .errDumpSkip | .errSampleEn | .errSample | .errHostport | .errCnt | .errLog => true
  | _ => false

def keepOff (t : Straps) (off : Nat) : Bool :=
  match decodeReg t off with
  | some i => keptAtReset i.row.name
  | none => false

/-- A context's Awning at a block soft reset (R368, R292): every generation advances once; a context that is not FREE writes its
RESET record with cause BLOCK, and its sample when ERR_DUMP_CFG.on_block is 1. -/
def State.blockAwning (s : State) (c : Nat) : State :=
  let x := s.ctx c
  let s :=
    if x.st == .free then s
    else
      let rep := resetReport c x.gen 5
      let rec_ := rep.words (s.fld Reg.errLogWritten 31 0) s.bell.now
      let s := s.record rep
      if s.flag Reg.errDumpCfg 9 && s.flag Reg.errSampleEn c then
        let (cap, s) := s.capture c
        s.writeDump c ⟨5, false, false, x.gen, s.bell.now, [], 1, cap, [], [], rec_⟩ rec_ true none
      else s
  s.updCtx c fun x => { Ctx.initial with
    st := if x.st == .free then .free else .teardown,
    gen := (x.gen + 1) % 256,
    retired := sparseSet 0 x.retired x.gen (s.up + 1),
    debugReads := x.debugReads }

def State.blockAwnings (s : State) : List Nat → State
  | [] => s
  | c :: r => (s.blockAwning c).blockAwnings r

/-- What is left of a tile: its domain, which wakes from Rest (R394), and its sensors. -/
def Tile.afterReset (up : Nat) (t : Tile) : Tile := 
  { Tile.reset with rest := t.rest.wake up, winTemp := t.winTemp, temps := t.temps, idleSince := t.idleSince, leakFree := t.leakFree,
                    leakLost := t.leakLost + t.leakOwn }

/-- The error attention of contexts that are not FREE stands until they are, on its line (R333). -/
def State.keepErrors (s : State) : List (Nat × Word × Word) → State
  | [] => s
  | (c, a, i) :: r =>
    (if (s.ctx c).st == .teardown && bit a 1 then (s.setReg (Reg.ctxAttn c) a).setReg (Reg.ctxIrq c) i else s).keepErrors r

/-- A block soft reset begins with a cause of R367; one that is under way absorbs it. -/
def State.beginBlockReset (s : State) (cause : Nat) : State :=
  if s.breset.isSome then s
  else
    let s := s.record { det := 0x21, sev := 2, place := 63, cause := cause }
    let s := s.incSat Reg.errBresetStatus 63 32 1
    let s := (s.setFld Reg.errBresetStatus 9 8 cause).setFld Reg.errBresetStatus 0 0 1
    let s := if s.gangM != 0 && cause != 1 then
        s.emit (.gangLost ((List.range s.straps.contexts).filter fun c => (s.ctx c).st != .free && !(s.leaseTiles c).isEmpty))
      else s
    let s := s.blockAwnings (List.range s.straps.contexts)
    let sweep := s.fld Reg.insMkeyCtl 39 32
    let attn := (List.range s.straps.contexts).map fun c => (c, s.reg (Reg.ctxAttn c) &&& word (maskNat 15 8 + 2), s.reg (Reg.ctxIrq c))
    let s : State := { s with
      regs := s.regs.filter fun p => keepOff s.straps p.1
      latches := []
      breset := some s.up
      groups := List.replicate 4 Group.reset
      lanes := List.replicate 16 Lane.reset
      tiles := s.tiles.map (Tile.afterReset s.up)
      clusters := s.clusters.map fun c => { Cluster.reset with rest := c.rest.wake s.up, leak := c.leak }
      ops := []
      barrows := List.replicate 24 Barrow.reset
      reqs := (s.reqs.filter fun r => r.path == .host).map fun r => { r with dropped := true }
      tlb := []
      xreqs := (s.xreqs.filter fun x => !x.held && !x.walk).map fun x => { x with stale := true }
      debugHeld := []
      pageReqs := (s.pageReqs.filter fun p => !p.waiting).map fun p => { p with dead := true }
      withdraws := s.withdraws.map fun w => { w with engines := 0, tags := [] }
      ports := s.ports.map fun x => { x with queue := x.queue.filter fun q => !q.own }
      loop := []
      relayHeld := []
      relays := []
      inbox := []
      keys := List.replicate 16 (KeyPhase.empty, KeyPhase.empty)
      barGroups := []
      mem := { s.mem with chans := s.mem.chans.map fun c =>
                            { Chan.reset with rows := c.rows, hits := c.hits, refresh := c.refresh, updateUntil := c.updateUntil,
                                              trainStart := c.trainStart, phy := c.phy, dues := c.dues },
                          pages := [], badMac := [], clear := none, slots := List.replicate 16 0, slotKeys := List.replicate 16 0 }
      cells := []
      turnTimed := 0
      turnOther := 0
      power := { s.power with paces := [] } }
    ((s.setFld Reg.insMkeyCtl 39 32 sweep).keepErrors attn).redecide

/-- Host-bound requests are held after a fatal condition or a lost link (R428): with the strap the port freezes, with its cause. -/
def State.holdHost (s : State) (cause : Nat) : State :=
  if s.straps.freezeMode then
    if s.pins.frozen then s
    else (s.updPins fun p => { p with frozen := true }).setFld Reg.errHostport 39 32 cause
  else if cause == 3 then s
  else s.updPins fun p => { p with fatalHold := true }

/-- A FATAL detection (R347): recorded, sent as a fatal error, and, with fatal_reset 1, followed by a block soft reset; otherwise
CRI_CTRL.enable is cleared. -/
def State.fatal (s : State) (r : Report) : State :=
  let s := (s.detect { r with sev := 3 }).holdHost 1
  if s.flag Reg.errCtrl 2 then s.beginBlockReset 3 else s.setFld Reg.criCtrl 0 0 0

/-- The next parity-checked word of a unit's control state is read: an armed CTRL injection there fires (R344, R352). -/
def State.ctrlWord (s : State) (place : Nat) : State :=
  if s.injHits 0x12 place then s.disarm.fatal { det := 0x12, sev := 3, place := place, injected := true } else s

end Sys2Proof.Machine
end

