-- ==== Sys2Proof/Machine/Numbers.lean ====
section
/-!
DEFINITION. Formats, exact values, the one rounding rule and its clamps (Numbers, R73 to R78, R90 to R99). An exact value is a
rational with the sign of a zero, or NaN; every rounding point of the manual calls `convert`.
-/
namespace Sys2Proof.Machine

open Sys2Proof

/-! ## Format codes (R73) -/

/-- Element width in bits; none for a reserved code. -/
def fmtBits (f : Nat) : Option Nat :=
  match f with
  | 0 | 1 | 3 | 4 | 5 | 6 | 10 | 14 => some 8
  | 2 | 9 | 13 => some 4
  | 7 | 8 => some 6
  | 11 | 12 => some 16
  | 16 | 17 => some 32
  | _ => none

/-- Width, 8 where the code is reserved (such a descriptor is refused before its width matters). -/
def fmtW (f : Nat) : Nat := (fmtBits f).getD 8

/-- The block-scaled formats (R78). -/
def isMx (f : Nat) : Bool := f == 5 || f == 6 || f == 7 || f == 8 || f == 9 || f == 10

/-- The codebook formats. -/
def isCb (f : Nat) : Bool := f == 13 || f == 14

/-- int8, uint8 and int4: the integer formats of R90. -/
def isIntFmt (f : Nat) : Bool := f == 0 || f == 1 || f == 2

/-- Formats packed below a byte boundary (R74). -/
def isPacked (f : Nat) : Bool := f == 2 || f == 7 || f == 8 || f == 9 || f == 13

/-- Width classes: 4, 8 or 16 bits (R73). A CB code's class comes from its book: 16 when `cbw` says bf16 entries. -/
def widthClass (f : Nat) (cbw : Bool) : Nat :=
  if f == 2 || f == 9 then 4
  else if f == 11 || f == 12 then 16
  else if isCb f then (if cbw then 16 else 8)
  else 8

/-! ## Exact values -/

/-- An exact value: `num q neg` has sign `neg` when `q` is zero. -/
inductive Val where
  | num (q : Rat) (neg : Bool)
  | nan
  deriving DecidableEq, Repr, Inhabited

def Val.zero : Val := .num 0 false
def Val.ofInt (v : Int) : Val := .num v false
def Val.ofRat (q : Rat) : Val := .num q false
def Val.isNan : Val → Bool
  | .nan => true
  | _ => false
/-- Is the value negative, a negative zero included? -/
def Val.isNeg : Val → Bool
  | .num q n => decide (q < 0) || (decide (q = 0) && n)
  | .nan => false
def Val.rat : Val → Rat
  | .num q _ => q
  | .nan => 0

/-- Exact addition; a sum of zeros is -0 only when every term is (R76). -/
def Val.add : Val → Val → Val
  | .num a m, .num b n => .num (a + b) (decide (a = 0) && decide (b = 0) && m && n)
  | _, _ => .nan

/-- Exact multiplication with the sign rule of IEEE 754. -/
def Val.mul (x y : Val) : Val :=
  match x, y with
  | .num a _, .num b _ => .num (a * b) (x.isNeg != y.isNeg)
  | _, _ => .nan

def Val.neg : Val → Val
  | .num a n => .num (-a) (!n)
  | .nan => .nan

/-- Multiplication by a power of two. -/
def pow2 (e : Int) : Rat := if 0 ≤ e then ((2 ^ e.toNat : Nat) : Rat) else 1 / ((2 ^ (-e).toNat : Nat) : Rat)

def Val.scale (x : Val) (e : Int) : Val :=
  match x with
  | .num q n => .num (q * pow2 e) n
  | .nan => .nan

/-- Absolute value of a rational. -/
def ratAbs (q : Rat) : Rat := if q < 0 then -q else q

/-- floor(log2 q) of a positive rational. -/
def floorLog2 (q : Rat) : Int :=
  let e : Int := (Nat.log2 q.num.natAbs : Int) - Nat.log2 q.den
  if q < pow2 e then e - 1 else e

/-- The nearest integer, a half to the even one. -/
def roundEven (q : Rat) : Int :=
  let f := q.floor
  let d := q - f
  if d < 1 / 2 then f else if 1 / 2 < d then f + 1 else if f % 2 = 0 then f else f + 1

/-! ## Floating layouts (R75) -/

/-- Exponent bits, mantissa bits, bias, code of the largest finite value, canonical NaN code, infinity exponent with mantissa 0. -/
structure FloatFmt where
  e : Nat
  m : Nat
  bias : Nat
  maxCode : Nat
  nan : Option Nat
  inf : Bool
  deriving DecidableEq, Repr

/-- The layout of a floating format's elements. -/
def floatFmt (f : Nat) : Option FloatFmt :=
  match f with
  | 3 | 5 => some ⟨4, 3, 7, 0x7E, some 0x7F, false⟩
  | 4 | 6 => some ⟨5, 2, 15, 0x7B, some 0x7E, true⟩
  | 7 => some ⟨3, 2, 3, 0x1F, none, false⟩
  | 8 => some ⟨2, 3, 1, 0x1F, none, false⟩
  | 9 => some ⟨2, 1, 1, 0x7, none, false⟩
  | 11 => some ⟨8, 7, 127, 0x7F7F, some 0x7FC0, true⟩
  | 12 => some ⟨5, 10, 15, 0x7BFF, some 0x7E00, true⟩
  | 17 => some ⟨8, 23, 127, 0x7F7FFFFF, some 0x7FC00000, true⟩
  | _ => none

/-- Value of a finite magnitude code (R76). -/
def FloatFmt.mag (t : FloatFmt) (c : Nat) : Rat :=
  let x := c / 2 ^ t.m
  let y := c % 2 ^ t.m
  if x = 0 then (y : Rat) * pow2 (1 - (t.bias : Int) - t.m)
  else ((2 ^ t.m + y : Nat) : Rat) * pow2 ((x : Int) - t.bias - t.m)

/-- The value a floating code stands for, and whether it was an infinity read as the largest finite value (R77). -/
def FloatFmt.read (t : FloatFmt) (code : Nat) : Val × Bool :=
  let sg := code / 2 ^ (t.e + t.m) % 2 == 1
  let c := code % 2 ^ (t.e + t.m)
  let x := c / 2 ^ t.m
  let y := c % 2 ^ t.m
  let sign := fun (q : Rat) => Val.num (if sg then -q else q) sg
  if t.inf && x == 2 ^ t.e - 1 then
    if y == 0 then (sign (t.mag t.maxCode), true) else (.nan, false)
  else if t.nan.isSome && !t.inf && c == 2 ^ (t.e + t.m) - 1 then (.nan, false)
  else (sign (t.mag c), false)

/-- A conversion's result: the code, a counted clamp, a NaN stored as a number (R94, R95). -/
structure Conv where
  code : Nat
  sat : Bool
  nan : Bool
  deriving DecidableEq, Repr, Inhabited

/-- Code of a magnitude that lies on the grid and is finite. -/
def FloatFmt.encode (t : FloatFmt) (q : Rat) : Nat :=
  let emin : Int := 1 - (t.bias : Int)
  if q < pow2 emin then (q / pow2 (emin - t.m)).floor.toNat
  else
    let e := floorLog2 q
    (e + t.bias).toNat * 2 ^ t.m + ((q / pow2 (e - t.m)).floor.toNat - 2 ^ t.m)

/-- A magnitude rounded to the unbounded grid (R94). -/
def FloatFmt.round (t : FloatFmt) (q : Rat) : Rat :=
  if q = 0 then 0
  else
    let e := max (floorLog2 q) (1 - (t.bias : Int))
    let u := pow2 (e - t.m)
    (roundEven (q / u) : Rat) * u

/-- R94 and R95 for a floating target. -/
def FloatFmt.convert (t : FloatFmt) (v : Val) : Conv :=
  match v with
  | .nan =>
    match t.nan with
    | some c => ⟨c, false, false⟩
    | none => ⟨t.maxCode, false, true⟩
  | .num q _ =>
    let r := t.round (ratAbs q)
    let sg := if v.isNeg then 2 ^ (t.e + t.m) else 0
    if t.mag t.maxCode < r then ⟨sg + t.maxCode, true, false⟩ else ⟨sg + t.encode r, false, false⟩

/-- Range of an integer format's stored integers; MXINT8's element code has int8's. -/
def intRange (f : Nat) : Int × Int :=
  match f with
  | 1 => (0, 255)
  | 2 => (-8, 7)
  | 16 => (-2147483648, 2147483647)
  | _ => (-128, 127)

/-- R94 and R95 for an integer target: `v` is in the scale of the stored integer (zero point included for uint8). -/
def convertInt (f : Nat) (v : Val) : Conv :=
  let (lo, hi) := intRange f
  let w := fmtW f
  match v with
  | .nan => ⟨unsignedOf w hi, false, true⟩
  | .num q _ =>
    let r := roundEven q
    ⟨unsignedOf w (clampInt lo hi r), decide (r < lo) || decide (hi < r), false⟩

/-- R94 and R95: the one conversion. For MXINT8 the element value is its code times 2^-6 (R78). -/
def convert (f : Nat) (v : Val) : Conv :=
  match floatFmt f with
  | some t => t.convert v
  | none => if f == 10 then convertInt f (v.scale 6) else convertInt f v

/-- The value an element code stands for, without zero point and block scale, and whether an infinity was clamped. -/
def readElem (f code : Nat) : Val × Bool :=
  match floatFmt f with
  | some t => t.read code
  | none =>
    match f with
    | 0 => (.ofInt (signed 8 code), false)
    | 1 => (.ofInt (code % 256), false)
    | 2 => (.ofInt (signed 4 code), false)
    | 10 => ((Val.ofInt (signed 8 code)).scale (-6), false)
    | 16 => (.ofInt (signed 32 code), false)
    | _ => (.ofInt code, false)

/-- The element's value under its block scale code: 0xFF makes it NaN (R78). -/
def underScale (v : Val) (x : Nat) : Val := if x == 255 then .nan else v.scale ((x : Int) - 127)

/-- round_fp32 (R92): the rounded value as a code with its counted clamp. -/
def roundFp32 (v : Val) : Conv := convert 17 v

/-- The value of an fp32 code that the block wrote (never an infinity). -/
def fp32 (code : Nat) : Val := (readElem 17 code).1

/-! ## Comparisons -/

/-- x < y as numbers; false with a NaN; -0 equals +0. -/
def Val.lt (x y : Val) : Bool :=
  match x, y with
  | .num a _, .num b _ => decide (a < b)
  | _, _ => false
def Val.eqv (x y : Val) : Bool :=
  match x, y with
  | .num a _, .num b _ => decide (a = b)
  | _, _ => false

/-- The predicate codes of VEC.CMP (R170): EQ, NE, LT, LE, GT, GE; a comparison with NaN is false except NE. -/
def cmpVal (cc : Nat) (x y : Val) : Bool :=
  match cc with
  | 0 => x.eqv y
  | 1 => !x.eqv y
  | 2 => x.lt y
  | 3 => x.lt y || x.eqv y
  | 4 => y.lt x
  | _ => y.lt x || x.eqv y

/-- Min and max of R170: NaN if either is NaN, the first of equal values. -/
def minVal (x y : Val) : Val := if x.isNan || y.isNan then .nan else if y.lt x then y else x
def maxVal (x y : Val) : Val := if x.isNan || y.isNan then .nan else if x.lt y then y else x

/-- emax of R98 by element format. -/
def mxEmax (f : Nat) : Int :=
  match f with
  | 5 => 8 | 6 => 15 | 7 => 4 | 8 => 2 | 9 => 2 | _ => 0

/-- The scale exponent X that R98 chooses for a block of values. -/
def mxScale (f : Nat) (vs : List Val) : Int :=
  let amax := vs.foldl (fun m v => match v with | .num q _ => max m (ratAbs q) | .nan => m) 0
  if amax = 0 then -127 else clampInt (-127) 127 (floorLog2 amax - mxEmax f)

end Sys2Proof.Machine
end

