-- ==== Sys2Proof/Machine/Operands.lean ====
section
/-!
DEFINITION. Operands of a TZI 3 instruction: the fields of the word (R132, R157), which words are ILLEGAL (R134), registers
(R131), and tensor descriptors (R143 to R146, R80).
-/
namespace Sys2Proof.Machine

open Sys2Proof

/-! ## The instruction word (R132) -/

def iCls (i : IWord) : Nat := bits i.w 63 58
def iOp (i : IWord) : Nat := bits i.w 57 52
def iGneg (i : IWord) : Bool := bit i.w 51
def iGp (i : IWord) : Nat := bits i.w 50 48
def iLong (i : IWord) : Bool := bit i.w 47
def iFa (i : IWord) : Nat := bits i.w 46 42
def iRa (i : IWord) : Nat := bits i.w 41 37
def iRb (i : IWord) : Nat := bits i.w 36 32
/-- imm as a 32-bit field. -/
def iImm (i : IWord) : Nat := bits i.w 31 0
/-- imm sign-extended, or imm64 in a long form. -/
def iVal (i : IWord) : Word := if iLong i then i.imm64 else (BitVec.ofNat 32 (iImm i)).signExtend 64
/-- Bytes of the instruction: 8, or 16 in a long form. -/
def iSize (i : IWord) : Nat := if iLong i then 16 else 8

/-! Layouts T, B and S (R157). -/

def tTiles (i : IWord) : Nat := bits i.w 46 43
def tTl (i : IWord) : Bool := bit i.w 42
def tDd (i : IWord) : Nat := bits i.w 41 38
def tDa (i : IWord) : Nat := bits i.w 37 34
def tDb (i : IWord) : Nat := bits i.w 33 30
def tDc (i : IWord) : Nat := bits i.w 29 26
def tRs (i : IWord) : Nat := bits i.w 25 21
def tCtl (i : IWord) (hi lo : Nat) : Nat := bits i.w hi lo
def bBw (i : IWord) : Nat := bits i.w 46 44
def bDd (i : IWord) : Nat := bits i.w 43 40
def bDa (i : IWord) : Nat := bits i.w 39 36
def bRs (i : IWord) : Nat := bits i.w 35 31
def bSig (i : IWord) : Bool := bit i.w 30
def bSem (i : IWord) : Nat := bits i.w 29 24
def sSem (i : IWord) : Nat := bits i.w 46 41
def sFlag (i : IWord) : Bool := bit i.w 40
def sRa (i : IWord) : Nat := bits i.w 39 35
def sGroup (i : IWord) : Nat := bits i.w 46 39
def sLocal (i : IWord) : Bool := bit i.w 38
def sBarRa (i : IWord) : Nat := bits i.w 37 33
def sCad (i : IWord) : Nat := bits i.w 36 33

/-! ## Which words are ILLEGAL (R134) -/

/-- What a register field names. -/
inductive FieldKind where
  | zero | s | d | k | p
  deriving DecidableEq, Repr, Inhabited

/-- The fields an operation of classes 0x01 to 0x07 and 0x0D uses: fa, ra, rb, the imm bits that may be set, a long form. -/
structure FormSpec where
  fa : FieldKind
  ra : FieldKind
  rb : FieldKind
  imm : Nat
  long : Bool
  deriving DecidableEq, Repr

/-- R133, R136 to R147. -/
def formSpec (cls op : Nat) : Option FormSpec :=
  let all := 2 ^ 32 - 1
  match cls with
  | 1 => if op ≤ 0x10 then some ⟨.s, .s, .s, all, true⟩ else none
  | 2 =>
    if op ≤ 9 then some ⟨.p, .s, .s, all, true⟩
    else if op = 0xA then some ⟨.s, .s, .s, 7, true⟩
    else if op ≤ 0xE then some ⟨.p, .p, .p, 0, false⟩
    else none
  | 3 =>
    match op with
    | 0 => some ⟨.zero, .zero, .zero, all, false⟩
    | 1 => some ⟨.s, .zero, .zero, all, false⟩
    | 2 => some ⟨.zero, .s, .zero, all, false⟩
    | 3 => some ⟨.s, .s, .zero, all, false⟩
    | _ => none
  | 4 =>
    match op with
    | 0 => some ⟨.k, .s, .zero, all, false⟩
    | 1 => some ⟨.s, .zero, .k, 0, false⟩
    | _ => none
  | 5 => if op ≤ 6 ∨ (8 ≤ op ∧ op ≤ 0xB) then some ⟨.s, .s, .zero, all, false⟩ else none
  | 6 => if op ≤ 2 then some ⟨.s, .s, .zero, all, false⟩ else none
  | 7 =>
    if op ≤ 2 then some ⟨.d, .s, .zero, all, false⟩
    else if op = 3 then some ⟨.d, .zero, .d, 0, false⟩
    else if op = 4 ∨ op = 5 then some ⟨.d, .s, .zero, 3, false⟩
    else if 0x10 ≤ op ∧ op ≤ 0x1C then some ⟨.d, .s, .zero, all, true⟩
    else if 0x20 ≤ op ∧ op ≤ 0x2C then some ⟨.s, .zero, .d, 0, false⟩
    else none
  | 0xD =>
    match op with
    | 0 | 1 => some ⟨.zero, .zero, .zero, 0, false⟩
    | 2 => some ⟨.zero, .zero, .zero, 0xFFFF, false⟩
    | _ => none
  | _ => none

def fieldOk (kind : FieldKind) (v : Nat) : Bool :=
  match kind with
  | .zero => v == 0
  | .s => true
  | .d => decide (v < 16)
  | .k => decide (v < 4)
  | .p => decide (v < 8)

def formOk (f : FormSpec) (i : IWord) : Bool :=
  fieldOk f.fa (iFa i) && fieldOk f.ra (iRa i) && fieldOk f.rb (iRb i) &&
    (if iLong i then f.long && iImm i == 0 && (f.imm == 2 ^ 32 - 1 || decide (i.imm64.toNat ≤ f.imm))
     else maskDiff (iImm i) f.imm == 0)

/-- The fields a VEC operation uses, in the order dd, da, db, dc, rs, and the bits of ctl it may set (R170 to R174). -/
def vecUses (op : Nat) : Option (Bool × Bool × Bool × Bool × Bool × Nat) :=
  match op with
  | 0x00 | 0x01 | 0x02 | 0x04 | 0x05 => some (true, true, true, false, false, 0)
  | 0x03 | 0x07 => some (true, true, true, true, false, 0)
  | 0x06 => some (true, true, true, false, false, 7)
  | 0x08 => some (true, true, false, false, true, 0x1F0000)
  | 0x09 | 0x12 | 0x14 | 0x28 | 0x29 => some (true, true, false, false, false, 0)
  | 0x10 | 0x11 => some (true, false, true, false, true, 0x1F8000)
  | 0x13 => some (false, true, true, false, false, 0)
  | 0x18 => some (true, true, false, false, false, 7)
  | 0x20 | 0x21 => some (true, true, false, false, false, 0x1FFFFE)
  | 0x2A => some (true, true, false, true, false, 0xFF)
  | 0x30 => some (true, true, true, false, true, 0xF)
  | 0x31 | 0x32 | 0x33 => some (true, true, true, false, false, 0)
  | _ => none

def usedOr0 (u : Bool) (v : Nat) : Bool := u || v == 0

/-- A VEC word is well formed (R157, R170, R172). -/
def vecOk (i : IWord) : Bool :=
  match vecUses (iOp i) with
  | none => false
  | some (dd, da, db, dc, rs, m) =>
    usedOr0 dd (tDd i) && usedOr0 da (tDa i) && usedOr0 db (tDb i) && usedOr0 dc (tDc i) && usedOr0 rs (tRs i) &&
      maskDiff (tCtl i 20 0) m == 0 && !iLong i &&
      (match iOp i with
       | 0x06 => decide (tCtl i 2 0 < 6)
       | 0x08 => if bit i.w 20 then tDa i == 0 else tRs i == 0 && tCtl i 19 16 == 0
       | 0x10 | 0x11 => bit i.w 20
       | 0x30 => decide (tRs i ≤ 29)
       | _ => true)

/-- Planes of a BAR.CROP frame code (R177). -/
def cropPlanes (frame : Nat) : Nat := match frame with | 0 => 2 | 1 => 3 | 2 => 3 | _ => 1

/-- Well-formed words of classes 0x08 to 0x0C (R157, R162, R172 to R186). -/
def layoutOk (i : IWord) : Bool :=
  match iCls i with
  | 0x8 =>
    !iLong i &&
    (match iOp i with
     | 0 => !tTl i && tDd i == 0 && tDa i == 0 && tDb i == 0 && tDc i == 0 && tRs i == 0 && tCtl i 20 19 != 3 && tCtl i 7 0 == 0
     | 1 => tDd i == 0 && tDb i == 0 && tDc i == 0 && tRs i == 0 && tCtl i 20 0 == 0
     | 2 => tDd i == 0 && tDc i == 0 && tCtl i 15 0 == 0
     | 3 => !tTl i && tDd i == 0 && tDa i == 0 && tDb i == 0 && tDc i == 0 && tRs i == 0 && tCtl i 20 0 == 0
     | _ => false)
  | 0x9 => vecOk i
  | 0xA =>
    !iLong i && bBw i != 7 && (bSig i || bSem i == 0) &&
    (match iOp i with
     | 0 => bRs i == 0 && bits i.w 23 0 == 0
     | 1 => decide (bits i.w 23 22 ≤ 1) && decide (bits i.w 21 19 ≤ 3) && bits i.w 18 0 == 0 &&
              decide (bDa i + cropPlanes (bits i.w 21 19) ≤ 16)
     | 2 => bRs i == 0 && bits i.w 23 22 != 3 && bits i.w 21 0 == 0
     | 3 => bRs i == 0 && bits i.w 19 0 == 0
     | _ => false)
  | 0xB =>
    !iLong i &&
    (match iOp i with
     | 0 | 1 => bits i.w 34 32 == 0
     | 2 => bits i.w 46 0 == 0
     | 3 => bits i.w 32 0 == 0 && (!sLocal i || sGroup i == 0)
     | _ => false)
  | 0xC =>
    (!iLong i || (decide (iOp i ≤ 1) && iImm i == 0)) &&
    (match iOp i with
     | 0 => bits i.w 46 42 == 0 && bits i.w 36 32 == 0
     | 1 => bits i.w 32 32 == 0
     | 2 => bits i.w 41 37 == 0 && bits i.w 32 0 == 0
     | 3 => bits i.w 46 3 == 0 && bits i.w 2 0 != 6
     | _ => false)
  | _ => false

/-- Is the word legal (R134)? -/
def legal (i : IWord) : Bool :=
  match formSpec (iCls i) (iOp i) with
  | some f => formOk f i
  | none => layoutOk i

/-- Does a class and operation name an instruction at all (R133, R134)? -/
def assigned (cls op : Nat) : Bool :=
  (formSpec cls op).isSome ||
    (match cls with
     | 0x8 | 0xA | 0xB | 0xC => decide (op ≤ 3)
     | 0x9 => (vecUses op).isSome
     | _ => false)

/-! ## Registers (R130, R131) -/

/-- Scalar register: s0 reads 0. -/
def Lane.sv (l : Lane) (r : Nat) : Word := if r = 0 then 0 else nth l.s r
/-- Predicate register: p0 reads 1. -/
def Lane.pv (l : Lane) (r : Nat) : Bool := if r = 0 then true else nth l.p r
def Lane.dv (l : Lane) (r : Nat) : Desc := nth l.d r
def Lane.kv (l : Lane) (r : Nat) : Nat := nth l.k r
/-- Writes to s0 and p0 are discarded (R131). -/
def Lane.setS (l : Lane) (r : Nat) (v : Word) : Lane := if r = 0 then l else { l with s := put l.s r v }
def Lane.setP (l : Lane) (r : Nat) (v : Bool) : Lane := if r = 0 then l else { l with p := put l.p r v }
def Lane.setD (l : Lane) (r : Nat) (v : Desc) : Lane := { l with d := put l.d r v }
def Lane.setK (l : Lane) (r : Nat) (v : Nat) : Lane := { l with k := put l.k r (v % 2 ^ 32) }

/-- Numbers of registers in the scoreboard's list: s, d, p, k. -/
def rS (r : Nat) : Nat := r
def rD (r : Nat) : Nat := 32 + r
def rP (r : Nat) : Nat := 48 + r
def rK (r : Nat) : Nat := 56 + r

def kindReg (kind : FieldKind) (v : Nat) : List Nat :=
  match kind with
  | .zero => []
  | .s => [rS v]
  | .d => [rD v]
  | .k => [rK v]
  | .p => [rP v]

/-! ## Descriptors (R143) -/

def dBits (d : Desc) (hi lo : Nat) : Nat := d.toNat / 2 ^ lo % 2 ^ (hi + 1 - lo)
def dSet (d : Desc) (hi lo v : Nat) : Desc :=
  BitVec.ofNat 256 (d.toNat - dBits d hi lo * 2 ^ lo + v % 2 ^ (hi + 1 - lo) * 2 ^ lo)
def dBase (d : Desc) : Nat := dBits d 63 0
def dExt (d : Desc) (a : Nat) : Nat :=
  (match a with | 0 => dBits d 87 64 | 1 => dBits d 103 88 | 2 => dBits d 119 104 | _ => dBits d 143 128) + 1
def dStr0 (d : Desc) : Nat := dBits d 127 120
/-- Byte strides of axes 1 to 3, signed 30 bits. -/
def dStr (d : Desc) (a : Nat) : Int :=
  signed 30 (match a with | 1 => dBits d 173 144 | 2 => dBits d 221 192 | _ => dBits d 251 222)
def dZp (d : Desc) : Nat := dBits d 181 174
def dFmt (d : Desc) : Nat := dBits d 186 182
def dCb (d : Desc) : Nat := dBits d 190 187
def dScEn (d : Desc) : Bool := dBits d 191 191 == 1
def dScD (d : Desc) : Nat := dBits d 255 252
def dSetBase (d : Desc) (v : Nat) : Desc := dSet d 63 0 v
/-- Elements of the tensor beyond axis 0: rows in the order i1, i2, i3. -/
def dRows (d : Desc) : Nat := dExt d 1 * dExt d 2 * dExt d 3
def dCount (d : Desc) : Nat := dExt d 0 * dRows d

/-- Signed bit position, relative to the base byte, of an element (R144). -/
def elemBit (d : Desc) (i0 i1 i2 i3 : Nat) : Int :=
  ((i0 * dStr0 d * fmtW (dFmt d) : Nat) : Int) + 8 * ((i1 : Int) * dStr d 1 + (i2 : Int) * dStr d 2 + (i3 : Int) * dStr d 3)

/-- Row `r` of axes 1 to 3, i1 fastest (R165). -/
def rowIx (d : Desc) (r : Nat) : Nat × Nat × Nat :=
  (r % dExt d 1, r / dExt d 1 % dExt d 2, r / (dExt d 1 * dExt d 2))

/-- Element number `n` in the order i0 fastest, as indices. -/
def elemIx (d : Desc) (n : Nat) : Nat × Nat × Nat × Nat :=
  let (a, b, c) := rowIx d (n / dExt d 0)
  (n % dExt d 0, a, b, c)

/-- First and last byte, relative to the base, that the tensor spans (R150). -/
def dSpan (d : Desc) : Int × Int :=
  let last := ((((dExt d 0 - 1) * dStr0 d + 1) * fmtW (dFmt d) + 7) / 8 : Nat) - (1 : Int)
  let ax := fun a => (((dExt d a - 1 : Nat) : Int)) * dStr d a
  let neg := min 0 (ax 1) + min 0 (ax 2) + min 0 (ax 3)
  let pos := max 0 (ax 1) + max 0 (ax 2) + max 0 (ax 3)
  (neg, last + pos)

/-- Does the byte range stay within 64 bits (R146)? -/
def spanOk (d : Desc) : Bool :=
  let (lo, hi) := dSpan d
  decide (0 ≤ (dBase d : Int) + lo) && decide ((dBase d : Int) + hi < (2 ^ 64 : Nat))

/-- Blocks of an MX tensor, and the block of an element (R80). -/
def dBlocks (d : Desc) : Nat := dExt d 0 / 32 * dRows d
def blockOf (d : Desc) (i0 i1 i2 i3 : Nat) : Nat := i0 / 32 + dExt d 0 / 32 * (i1 + dExt d 1 * (i2 + dExt d 2 * i3))

/-- Exception codes (R154, R187). -/
def xILLEGAL : Nat := 0x01
def xMISALIGNEDPC : Nat := 0x02
def xFETCHFAULT : Nat := 0x03
def xINVALIDADDRESS : Nat := 0x04
def xSCRATCHRANGE : Nat := 0x05
def xMISALIGNED : Nat := 0x06
def xCONSTRANGE : Nat := 0x07
def xDESCINVALID : Nat := 0x08
def xFORMATINVALID : Nat := 0x09
def xLOOPINVALID : Nat := 0x0A
def xTRAP : Nat := 0x0B
def xSCALEMISALIGN : Nat := 0x0C
def xPOISONEDSLOT : Nat := 0x0D
def xCODEBOOKUNSORTED : Nat := 0x0E
def xTABLEINVALID : Nat := 0x0F
def xTRANSLATIONFAULT : Nat := 0x10
def xDATAERROR : Nat := 0x11
def xTIMEINVALID : Nat := 0x12
def xOPERANDPLACE : Nat := 0x13
def xSHAPEINVALID : Nat := 0x14
def xSEMOVERFLOW : Nat := 0x15
def xBARRIERINVALID : Nat := 0x16
def xCROPINVALID : Nat := 0x17
def xREMOTEREFUSED : Nat := 0x18
def xDIGESTINVALID : Nat := 0x19

/-- The packing rule of R74 and R144, and the MX rules of R78. -/
def packingOk (d : Desc) : Bool :=
  let f := dFmt d
  (!isPacked f || dStr0 d == 1) &&
    (!(f == 2 || f == 9 || f == 13) || dExt d 0 % 2 == 0) &&
    (!isMx f || (dExt d 0 % 32 == 0 && dScEn d))

/-- The checks of the whole descriptor at its consumer (R146): the exception it raises, if any. `moves` is for BAR.MOVE and
BAR.DIGEST, which copy stored bytes of every code that is not reserved (R73) and read no scale stream. -/
def descCheck (d : Desc) : Option Nat :=
  if (fmtBits (dFmt d)).isNone then some xFORMATINVALID
  else if !packingOk d then some xFORMATINVALID
  else if dScEn d && !isMx (dFmt d) then some xDESCINVALID
  else if dZp d != 0 && dFmt d != 1 then some xDESCINVALID
  else if !spanOk d then some xDESCINVALID
  else none

end Sys2Proof.Machine
end

