-- ==== Sys2Proof/Machine/VectorUnit.lean ====
section
/-!
DEFINITION. What the vector unit computes (R117 to R124, R96 to R99, R170 to R174) as functions of the state: each operation's output
bytes, its clamps, its NaN flag and the exception it meets. Tables (R119, R120) and books (R87 to R89) are read here too.
-/
namespace Sys2Proof.Machine

open Sys2Proof

/-! ## Sources -/

/-- A tensor operand resolved on the block: its descriptor, local address of its base, local address of its scale stream. -/
structure Src where
  d : Desc
  a : Nat
  sc : Nat
  deriving DecidableEq, Repr, Inhabited

/-- Local address of a tag-0x3 base under a context's lease. -/
def State.localBase (s : State) (c : Nat) (d : Desc) : Nat := (s.leaseAddr c (dBase d % 2 ^ 60)).getD 0

def State.src (s : State) (c : Nat) (d scd : Desc) : Src := ⟨d, s.localBase c d, s.localBase c scd⟩

/-- `w` bits from bit position `p` of memory (R74). -/
def State.rdBits (s : State) (p w : Nat) : Nat := s.rdNat (p / 8) 5 / 2 ^ (p % 8) % 2 ^ w

/-- The stored code of an element (R144). -/
def State.elemCode (s : State) (x : Src) (i0 i1 i2 i3 : Nat) : Nat :=
  s.rdBits (8 * (x.a : Int) + elemBit x.d i0 i1 i2 i3).toNat (fmtW (dFmt x.d))

/-- Word `b` of a scale stream (R80), and its scale code. -/
def State.scaleWord (s : State) (x : Src) (b : Nat) : Nat := s.rdNat (x.sc + 2 * b) 2
def State.scaleCode (s : State) (x : Src) (b : Nat) : Nat := s.scaleWord x b % 256

/-- The value a code of a format stands for: the zero point of uint8 subtracted (R93), the block scale applied (R78). -/
def codeVal (f zp code scale : Nat) : Val :=
  let v := (readElem f code).1
  if f == 1 then v.add (.ofInt (-(zp : Int))) else if isMx f then underScale v scale else v

/-- The value of an element; an extent of 1 is broadcast (R171). -/
def State.elemVal (s : State) (x : Src) (i0 i1 i2 i3 : Nat) : Val :=
  let b := fun a i => if dExt x.d a = 1 then 0 else i
  let (i0, i1, i2, i3) := (b 0 i0, b 1 i1, b 2 i2, b 3 i3)
  codeVal (dFmt x.d) (dZp x.d) (s.elemCode x i0 i1 i2 i3)
    (if isMx (dFmt x.d) then s.scaleCode x (blockOf x.d i0 i1 i2 i3) else 127)

/-- Infinities among the elements of a source that satisfy `p`, each read as the largest finite value and counted once (R77). -/
def State.infs (s : State) (x : Src) (p : Nat → Bool) : Nat :=
  ((List.range (dCount x.d)).filter fun n =>
    let (i0, i1, i2, i3) := elemIx x.d n
    p n && (readElem (dFmt x.d) (s.elemCode x i0 i1 i2 i3)).2).length

/-- The lowest block whose scale word carries another tag (R81, R82); `flip` inverts bit 8 of the first word checked (R344). -/
def State.badTag (s : State) (x : Src) (flip : Bool) : Option Nat :=
  if isMx (dFmt x.d) then
    (List.range (dBlocks x.d)).find? fun b =>
      let w := s.scaleWord x b / 256 % 16
      let w := if flip && b == 0 then (if w % 2 = 0 then w + 1 else w - 1) else w
      w != b % 16
  else none

/-! ## Output -/

/-- The code of a value in the format of a destination, with the zero point of uint8 (R94, R95). -/
def convTo (d : Desc) (v : Val) : Conv :=
  convert (dFmt d) (if dFmt d == 1 then v.add (.ofInt (dZp d)) else v)

/-- Elements that share their bytes in a format: two of 4 bits, four of 6 bits, else one (R74). -/
def packUnit (f : Nat) : Nat := if fmtW f == 6 then 4 else if fmtW f == 4 then 2 else 1

/-- A list cut into runs of `u`. -/
def runsOf {α : Type} (u : Nat) (l : List α) : List (List α) := (List.range ((l.length + u - 1) / u)).map fun i => (l.drop (u * i)).take u

/-- One element of a result, or the elements that share its bytes: bytes each at its address, the number of elements, the clamps counted
for them, and whether a NaN was stored as a number. -/
structure VPiece where
  bytes : List (Nat × Byte)
  n : Nat
  sat : Nat
  nan : Bool
  deriving DecidableEq, Repr, Inhabited

/-- What a vector operation does: its results in the order in which they are written, the infinities its sources hold (R77), and the
exception it meets with its argument. -/
structure VOut where
  pieces : List VPiece
  infs : Nat
  err : Option (Nat × Nat)
  deriving DecidableEq, Repr, Inhabited

def VOut.empty : VOut := ⟨[], 0, none⟩

/-- Bytes in the order they are written, counted clamps, a NaN stored as a number. -/
def VOut.bytes (o : VOut) : List (Nat × Byte) := (o.pieces.map fun p => p.bytes).flatten
def VOut.sat (o : VOut) : Nat := (o.pieces.map fun p => p.sat).sum + o.infs
def VOut.nan (o : VOut) : Bool := o.pieces.any fun p => p.nan

/-- The first `n` elements of a result. -/
def takeElems : Nat → List VPiece → List VPiece
  | _, [] => []
  | n, p :: r => if p.n ≤ n then p :: takeElems (n - p.n) r else []

/-- Row `r` of a tensor at local address `a`, each conversion with the clamps of the steps before it: packed formats as one little-endian
string (R74), others element by element (R144). -/
def rowPieces (a : Nat) (d : Desc) (r : Nat) (cs : List (Conv × Nat)) : List VPiece :=
  let (i1, i2, i3) := rowIx d r
  let w := fmtW (dFmt d)
  let u := packUnit (dFmt d)
  let base := (8 * (a : Int) + elemBit d 0 i1 i2 i3).toNat / 8
  (runsOf u cs).mapIdx fun i l =>
    let code := l.foldr (fun c acc => c.1.code + 2 ^ w * acc) 0
    let at_ := base + (if u == 1 then i * dStr0 d * (w / 8) else i * (u * w / 8))
    { bytes := (leBytes ((l.length * w + 7) / 8) code).mapIdx fun j b => (at_ + j, b), n := l.length,
      sat := (l.map fun c => c.2 + if c.1.sat then 1 else 0).sum, nan := l.any fun c => c.1.nan }

/-- A row of conversions written at row `r` of a destination. -/
def VOut.row (o : VOut) (a : Nat) (d : Desc) (r : Nat) (cs : List (Conv × Nat)) : VOut := { o with pieces := o.pieces ++ rowPieces a d r cs }

/-- Rows of values with the clamps of the steps that formed them, converted and written. -/
def VOut.vals (o : VOut) (a : Nat) (d : Desc) (r : Nat) (vs : List (Val × Nat)) : VOut :=
  o.row a d r (vs.map fun v => (convTo d v.1, v.2))

/-- The tensor whose element at (i0, i1, i2, i3) is `f` of the indices. -/
def fillTensor (a : Nat) (d : Desc) (f : Nat → Nat → Nat → Nat → Val × Nat) : VOut :=
  (List.range (dRows d)).foldl (fun o r =>
    let (i1, i2, i3) := rowIx d r
    o.vals a d r ((List.range (dExt d 0)).map fun i0 => f i0 i1 i2 i3)) VOut.empty

/-! ## Steps (R117, R118) -/

/-- A floating step: the exact value rounded to fp32, with its clamp. -/
def rStep (v : Val) : Val × Nat :=
  let c := roundFp32 v
  (fp32 c.code, if c.sat then 1 else 0)

/-- A step on the integer path is exact, and no integer is -0 (R76); on the floating path it rounds. -/
def stepOf (int : Bool) (v : Val) : Val × Nat := if int then (match v with | .num q _ => .ofRat q | .nan => .nan, 0) else rStep v

/-- A step with the clamps of its inputs. -/
def stepW (int : Bool) (n : Nat) (v : Val) : Val × Nat :=
  let (r, k) := stepOf int v
  (r, n + k)

/-- One level of the tree: neighbours added, the lower one first. -/
def treeLevel (int : Bool) : List (Val × Nat) → List (Val × Nat)
  | x :: y :: r => stepW int (x.2 + y.2) (x.1.add y.1) :: treeLevel int r
  | l => l

def treeLevels (int : Bool) : Nat → List (Val × Nat) → List (Val × Nat)
  | 0, l => l
  | n + 1, l => treeLevels int n (treeLevel int l)

/-- Elements l, l + 128, … of a list. -/
def laneElems (vs : List Val) (l : Nat) : List Val :=
  (List.range ((vs.length + 127) / 128)).filterMap fun k => vs[l + 128 * k]?

/-- The reduction of R118. Integer reductions are exact. -/
def reduce (int : Bool) (vs : List Val) : Val × Nat :=
  if int then (vs.foldl Val.add .zero, 0)
  else
    let lanes := (List.range 128).map fun l =>
      (laneElems vs l).foldl (fun acc v => stepW false acc.2 (acc.1.add v)) (Val.zero, 0)
    (treeLevels false 7 lanes).headD (.zero, 0)

/-- Formats that the vector unit computes on as integers: the narrow ones and int32. -/
def vecInt (f : Nat) : Bool := isIntFmt f || f == 16

/-! ## Books (R87 to R89) -/

/-- Entry format of a book (a code of R73), its count and its entries' codes. -/
def State.bookFmt (s : State) (t n : Nat) : Nat :=
  match (s.rd (bookAddr t n + 1)).toNat with | 0 => 0 | 1 => 3 | _ => 11
def State.bookCount (s : State) (t n : Nat) : Nat := if s.rd (bookAddr t n) = 0 then 16 else 256
def State.bookEntry (s : State) (t n i : Nat) : Nat :=
  let w := fmtW (s.bookFmt t n) / 8
  s.rdNat (bookAddr t n + 0x10 + i * w) w
def State.bookVal (s : State) (t n i : Nat) : Val := (readElem (s.bookFmt t n) (s.bookEntry t n i)).1

/-- Valid: reserved bytes zero, count and entry_format in the table (R88). -/
def State.bookValid (s : State) (t n : Nat) : Bool :=
  let a := bookAddr t n
  decide ((s.rd a).toNat ≤ 1) && decide ((s.rd (a + 1)).toNat ≤ 2) && (s.rdBytes (a + 2) 14).all (· == 0)

/-- Strictly ascending; a NaN entry or both zeros make it unsorted (R88). -/
def State.bookSorted (s : State) (t n : Nat) : Bool :=
  (List.range (s.bookCount t n - 1)).all fun i => (s.bookVal t n i).lt (s.bookVal t n (i + 1))

/-- R99: the index of a value in a sorted book, whether it was clamped, and the NaN rule. -/
def encodeBook (es : List Val) (v : Val) : Conv :=
  let n := es.length
  match v with
  | .nan => ⟨n - 1, false, true⟩
  | .num q _ =>
    let e := fun i => (nth es i).rat
    if q < e 0 then
      let k := ((e 0 - q) / (e 1 - e 0) + 1 / 2).floor
      ⟨0, decide (1 ≤ k), false⟩
    else if e (n - 1) < q then
      let k := -(1 / 2 - (q - e (n - 1)) / (e (n - 1) - e (n - 2))).floor
      ⟨n - 1, decide (1 ≤ k), false⟩
    else
      let i := ((List.range n).filter fun i => decide (e i ≤ q)).length - 1
      if i + 1 < n ∧ e (i + 1) - q < q - e i then ⟨i + 1, false, false⟩ else ⟨i, false, false⟩

/-! ## Tables (R119, R120) -/

structure Table where
  kind : Nat
  fmt : Nat
  n : Nat
  x0 : Nat
  log2h : Int
  deriving DecidableEq, Repr, Inhabited

def State.table (s : State) (t n : Nat) : Table :=
  let a := tableAddr t n
  ⟨s.rdNat a 1, s.rdNat (a + 1) 1, s.rdNat (a + 2) 2, s.rdNat (a + 4) 4, signed 8 (s.rdNat (a + 8) 1)⟩

/-- The image's validity (R119). -/
def State.tableValid (s : State) (t n : Nat) : Bool :=
  let b := s.table t n
  let a := tableAddr t n
  let fmtOk := (fmtBits b.fmt).isSome && !isMx b.fmt && !isCb b.fmt
  let zero := (s.rdBytes (a + 9) 23).all (· == 0)
  fmtOk && zero &&
    (match b.kind with
     | 0 => b.n == 256 && b.x0 == 0 && b.log2h == 0
     | 1 =>
       decide (1 ≤ b.n) && decide (b.n ≤ 1024) && decide (-64 ≤ b.log2h) && decide (b.log2h ≤ 63) &&
         b.x0 / 2 ^ 23 % 256 != 255 &&
         decide (ratAbs ((fp32 b.x0).rat + (b.n : Rat) * pow2 b.log2h) ≤ (fp32 0x7F7FFFFF).rat)
     | _ => false)

/-- Entry `i` of a DIRECT8 table, packed formats as packed bytes. -/
def State.tableCode (s : State) (t n i : Nat) : Nat :=
  let w := fmtW (s.table t n).fmt
  s.rdBits (8 * (tableAddr t n + 0x20) + i * w) w
/-- y(i) of an INTERP table. -/
def State.tableY (s : State) (t n i : Nat) : Val := (readElem 17 (s.rdNat (tableAddr t n + 0x20 + 4 * i) 4)).1

/-- INTERP (R120): the result rounded once to fp32, before its conversion to out_format, with the clamps met on the way. -/
def State.interp (s : State) (t n : Nat) (x : Val) : Val × Nat :=
  let b := s.table t n
  let (x, k) := rStep x
  match x with
  | .nan => (.nan, k)
  | .num q _ =>
    let x0 := (fp32 b.x0).rat
    let h := pow2 b.log2h
    if q < x0 then (s.tableY t n 0, k)
    else if x0 + (b.n : Rat) * h ≤ q then (s.tableY t n b.n, k)
    else
      let u := (q - x0) / h
      let i := u.floor.toNat
      let f := u - (i : Rat)
      let y0 := s.tableY t n i
      let y1 := s.tableY t n (i + 1)
      stepW false k (y0.add ((Val.ofRat f).mul (y1.add y0.neg)))

/-- The code a table gives in its out_format. An INTERP result for uint8 carries the zero point of a uint8 destination (log
entry 15). -/
def State.tableConv (s : State) (t n zp : Nat) (r : Val × Nat) : Conv × Nat :=
  let b := s.table t n
  let c := convert b.fmt (if b.fmt == 1 then r.1.add (.ofInt zp) else r.1)
  (c, r.2)

/-- A code with an infinity replaced by the largest finite value of its sign (R77). -/
def finiteCode (f c : Nat) : Nat :=
  match floatFmt f with
  | some t => if (t.read c).2 then c / 2 ^ (t.e + t.m) * 2 ^ (t.e + t.m) + t.maxCode else c
  | none => c

/-- VEC.TAB of one element: its conversion to dd's format, and the clamps before it. A DIRECT8 entry stands as it is (R120), but for an
infinity code, which the block never writes (R77): there the largest finite value, not counted (DESIGN CHOICE, log entry 46). -/
def State.tabElem (s : State) (t n : Nat) (x : Src) (dd : Desc) (i0 i1 i2 i3 : Nat) : Conv × Nat :=
  let b := s.table t n
  let zp := if dFmt dd == 1 then dZp dd else 0
  let again := fun (c : Conv) (k : Nat) =>
    if b.fmt == dFmt dd then (c, k)
    else
      let c2 := convTo dd (readElem b.fmt c.code).1
      ({ c2 with nan := c2.nan || c.nan }, k + (if c.sat then 1 else 0))
  if b.kind == 0 then
    let ix := fun a i => if dExt x.d a = 1 then 0 else i
    again ⟨finiteCode b.fmt (s.tableCode t n (s.elemCode x (ix 0 i0) (ix 1 i1) (ix 2 i2) (ix 3 i3))), false, false⟩ 0
  else
    let (c, k) := s.tableConv t n zp (s.interp t n (s.elemVal x i0 i1 i2 i3))
    again c k

/-! ## Ranking (R122) -/

/-- Is `y` ranked above `x` in descending order: larger, or a number where x is NaN? -/
def above (y x : Val) : Bool := x.lt y || (x.isNan && !y.isNan)
/-- Index of the first element no other ranks above. -/
def argBest (better : Val → Val → Bool) (vs : List Val) : Nat :=
  (vs.foldl (fun (st : Nat × Nat × Option Val) v =>
    let (i, best, bv) := st
    match bv with
    | none => (i + 1, i, some v)
    | some b => if better v b then (i + 1, i, some v) else (i + 1, best, some b)) (0, 0, none)).2.1

def argMax (vs : List Val) : Nat := argBest above vs
/-- ARGMIN (R170): NaN ranks above every number. -/
def argMin (vs : List Val) : Nat := argBest (fun y x => y.lt x || (x.isNan && !y.isNan)) vs

/-- The k best indices in descending order of value, equal values in ascending order of index. -/
def topK : Nat → List (Nat × Val) → List (Nat × Val)
  | 0, _ => []
  | k + 1, l =>
    match l[argMax (l.map fun p => p.2)]? with
    | some p => p :: topK k (l.filter fun q => q.1 != p.1)
    | none => []

/-! ## Bank slots (R50, R167) -/

/-- The 32 bits of a bank slot's row and column. -/
def State.bankBits (s : State) (t m slot row col : Nat) : BitVec 32 :=
  sparseGet 0 (s.tile t).banks (m * 32768 + slot * 256 + row * 64 + col)

/-- Their value as the slot type, and whether an infinity code was read (R77). -/
def slotVal (int : Bool) (b : BitVec 32) : Val × Bool := if int then (.ofInt b.toInt, false) else readElem 17 b.toNat

/-- Is a mode's slot type int32 (R90, R167)? A CB code of fmtB stands resolved to its entry format. -/
def Mode.slotInt (m : Mode) : Bool := isIntFmt m.fmtA && isIntFmt m.fmtB

/-- A record of R172: four words and its bytes. -/
def State.record16 (s : State) (a c : Nat) : Nat := s.rdNat (a + 16 * c) 16

/-- Fields of a record. -/
def recW (r i : Nat) : Nat := r / 2 ^ (32 * i) % 2 ^ 32
def recLo (r : Nat) : Nat := r / 2 ^ 96 % 2 ^ 16
def recHi (r : Nat) : Nat := r / 2 ^ 112 % 2 ^ 16
def recShift (r : Nat) : Nat := r / 2 ^ 64 % 256
/-- z_out: byte 9 of an RQI record, byte 8 of an RQF record. -/
def recZ (rqf : Bool) (r : Nat) : Nat := if rqf then r / 2 ^ 64 % 256 else r / 2 ^ 72 % 256

/-- Is a record refused when it is read (R172)? -/
def badRecord (rqf bnd : Bool) (f r : Nat) : Bool :=
  (!rqf && (recW r 1 == 0 || decide (63 < recShift r))) || (f != 1 && recZ rqf r != 0) ||
    (bnd &&
      (let lo := recLo r
       let hi := recHi r
       let vl := (readElem f lo).1
       let vh := (readElem f hi).1
       decide (2 ^ fmtW f ≤ lo) || decide (2 ^ fmtW f ≤ hi) || vl.isNan || vh.isNan || vh.lt vl))

/-- The optional bounds on a code, by the values the codes stand for, not counted (R96, R172); a bound that is an infinity code is written
as the largest finite value (R77). -/
def bounded (bnd : Bool) (f r : Nat) (c : Conv) : Conv :=
  if !bnd then c
  else
    let v := (readElem f c.code).1
    let c1 := if v.lt (readElem f (recLo r)).1 then { c with code := finiteCode f (recLo r) } else c
    if (readElem f (recHi r)).1.lt (readElem f c1.code).1 then { c1 with code := finiteCode f (recHi r) } else c1

/-- R96. The product is exact. R96 allows mult up to 2^31 - 1 and R172 refuses only 0: of a larger one the low 31 bits are used (DESIGN
CHOICE, log entry 46). -/
def rqi (bnd : Bool) (f r : Nat) (acc : Val) : Conv × Nat :=
  let t := (acc.rat + (signed 32 (recW r 0) : Rat)) * (recW r 1 % 2 ^ 31 : Nat)
  let v := t / (2 ^ recShift r : Nat) + (recZ false r : Rat)
  (bounded bnd f r (convert f (.ofRat v)), 0)

/-- R97. Whether an infinity in a record, in an entry of an INTERP table or of a book, or in a BOXDEC parameter is an input element that
R77 counts is left open: it is read as the largest finite value and not counted (DESIGN CHOICE, log entry 46). -/
def rqf (bnd : Bool) (f r : Nat) (acc : Val) : Conv × Nat :=
  let (u, k1) := rStep (acc.mul (readElem 17 (recW r 0)).1)
  let (u, k2) := rStep (u.add (readElem 17 (recW r 1)).1)
  let v := if f == 1 then u.add (.ofInt (recZ true r)) else u
  (bounded bnd f r (convert f v), k1 + k2)

/-- One row group of a bank-sourced operation: its slot as the operation took it, its rows in dd, or the exception its reading raises.
`kind` is the operation. -/
def State.bankGroup (s : State) (o : Op) (a recs j : Nat) (out : VOut) : VOut :=
  let dd := o.dd
  let slot := nth o.slotsIn j
  let chrow := bit o.iw.w 16
  let bnd := bit o.iw.w 15
  let k := iOp o.iw
  let rows := (List.range 4).filter fun r => decide (4 * j + r < dRows dd)
  let chan := fun r i => if chrow then 4 * j + r else i
  let bad := k != 8 && rows.any fun r => (List.range (dExt dd 0)).any fun i =>
    badRecord (k == 0x11) bnd (dFmt dd) (s.record16 recs (chan r i))
  if slot.1 then { out with err := some (xPOISONEDSLOT, 0) }
  else if bad then { out with err := some (xSHAPEINVALID, 0) }
  else
    rows.foldl (fun out r =>
      out.row a dd (4 * j + r) ((List.range (dExt dd 0)).map fun i =>
        let (v, inf) := slotVal o.mode.slotInt (nth slot.2 (64 * r + i))
        let n := if inf then 1 else 0
        let rec_ := s.record16 recs (chan r i)
        match k with
        | 8 => (convTo dd v, n)
        | 0x10 => let (c, x) := rqi bnd (dFmt dd) rec_ v; (c, n + x)
        | _ => let (c, x) := rqf bnd (dFmt dd) rec_ v; (c, n + x))) out

/-- Row groups in order, as far as the first exception; `n` groups. -/
def State.bankGroups (s : State) (o : Op) (a recs n : Nat) : VOut :=
  (List.range n).foldl (fun out j => if out.err.isSome then out else s.bankGroup o a recs j out) VOut.empty

/-! ## The operations -/

/-- Does an operation read bank slots? -/
def bankSrc (i : IWord) : Bool := iCls i == 9 && (iOp i == 0x10 || iOp i == 0x11 || (iOp i == 8 && bit i.w 20))

/-- Slots a bank-sourced operation reads (R151). -/
def Op.readSlots (o : Op) : List Nat :=
  if bankSrc o.iw then
    (List.range (min 128 ((dRows o.dd + 3) / 4))).map fun j =>
      tCtl o.iw 19 17 * 128 + ((nth o.sc 0).toNat % 128 + j) % 128
  else []

/-- VEC.QMX of one block (R98): element conversions and the scale word. -/
def qmxBlock (f b : Nat) (vs : List (Val × Nat)) : List Conv × Nat × Nat :=
  let x := mxScale f (vs.map fun v => v.1)
  let cs := vs.map fun v => convert f (v.1.scale (-x))
  (cs, (x + 127).toNat + 256 * (b % 16), (vs.map fun v => v.2).sum)

/-- IoU of two boxes (R124), each step rounding. -/
def iou (p q : List Val) : Val × Nat :=
  let g := fun (l : List Val) i => l.getD i .zero
  let sub := fun x y => rStep (x.add (Val.neg y))
  let side := fun lo hi =>
    let (d, n) := sub (minVal (g p hi) (g q hi)) (maxVal (g p lo) (g q lo))
    (maxVal .zero d, n)
  let (iw, n1) := side 0 2
  let (ih, n2) := side 1 3
  let (i, n3) := rStep (iw.mul ih)
  let area := fun l =>
    let (w, a) := sub (g l 2) (g l 0)
    let (h, b) := sub (g l 3) (g l 1)
    stepW false (a + b) (w.mul h)
  let (pa, n4) := area p
  let (qa, n5) := area q
  let (t, n6) := rStep (pa.add qa)
  let (u, n7) := sub t i
  let n := n1 + n2 + n3 + n4 + n5 + n6 + n7
  match u, i with
  | .num a _, .num b m =>
    if a ≤ 0 then (.zero, n) else stepW false n (.num (b / a) m)
  | .num a _, .nan => if a ≤ 0 then (.zero, n) else (.nan, n)
  | .nan, _ => (.nan, n)

/-- Box decoding (R123) of one box: the four corners. -/
def State.boxdec (s : State) (t n : Nat) (ws : List Word) (clamp : Bool) (dl an : List Val) : List (Val × Nat) :=
  let g := fun (l : List Val) i => l.getD i .zero
  let par := fun i hi => (readElem 17 (if hi then bits (nth ws i) 63 32 else bits (nth ws i) 31 0)).1
  let tab := fun x =>
    let (r, k) := s.interp t n x
    let c := (s.tableConv t n 0 (r, 0)).1
    ((readElem (s.table t n).fmt c.code).1, k + (if c.sat then 1 else 0))
  let centre := fun a d sc sz =>
    let (x, k1) := rStep ((g dl d).mul sc)
    let (x, k2) := rStep (x.mul (g an sz))
    let (x, k3) := rStep ((g an a).add x)
    (x, k1 + k2 + k3)
  let size := fun d sc sz =>
    let (x, k1) := rStep ((g dl d).mul sc)
    let (y, k2) := tab x
    let (z, k3) := rStep ((g an sz).mul y)
    (z, k1 + k2 + k3)
  let (cx, n1) := centre 0 0 (par 0 false) 2
  let (cy, n2) := centre 1 1 (par 0 true) 3
  let (w, n3) := size 2 (par 1 false) 2
  let (h, n4) := size 3 (par 1 true) 3
  let half := fun x => rStep (x.mul (.ofRat (1 / 2)))
  let (hw, n5) := half w
  let (hh, n6) := half h
  let lim := fun x hi => if clamp then minVal (maxVal x .zero) (par 2 hi) else x
  let out := fun c d neg k hi =>
    let (v, j) := rStep (c.add (if neg then Val.neg d else d))
    (lim v hi, k + j)
  [out cx hw true (n1 + n3 + n5) false, out cy hh true (n2 + n4 + n6) true, out cx hw false 0 false, out cy hh false 0 true]

/-- Does the table's conversion of a width or a height meet a NaN that its out_format lacks (R95)? -/
def State.boxNan (s : State) (t n : Nat) (ws : List Word) (dl : List Val) : Bool :=
  let one := fun i hi =>
    let w := (readElem 17 (if hi then bits (nth ws 1) 63 32 else bits (nth ws 1) 31 0)).1
    (s.tableConv t n 0 (s.interp t n (rStep ((dl.getD i .zero).mul w)).1)).1.nan
  one 2 false || one 3 true

/-- Window geometry of a pooling operation (R174): width, height, strides, paddings. -/
structure Win where
  wx : Nat
  wy : Nat
  sx : Nat
  sy : Nat
  px : Nat
  py : Nat

def winOf (i : IWord) : Win :=
  ⟨tCtl i 20 17 + 1, tCtl i 16 13 + 1, tCtl i 12 10 + 1, tCtl i 9 7 + 1, tCtl i 6 4, tCtl i 3 1⟩

/-- A window position along one axis, if it lies inside. -/
def inAxis (o st pad k ext : Nat) : Option Nat :=
  if pad ≤ o * st + k ∧ o * st + k - pad < ext then some (o * st + k - pad) else none

/-- Window values in raster order; a position outside is 0 (R121). -/
def State.window (s : State) (x : Src) (w : Win) (c ox oy i3 : Nat) : List Val :=
  ((List.range w.wy).map fun ky => (List.range w.wx).map fun kx =>
    match inAxis ox w.sx w.px kx (dExt x.d 1), inAxis oy w.sy w.py ky (dExt x.d 2) with
    | some i1, some i2 => s.elemVal x c i1 i2 i3
    | _, _ => .zero).flatten

/-- Is an element of a pooled source read by some window? -/
def pooled (w : Win) (dd : Desc) (x : Src) (n : Nat) : Bool :=
  let (_, i1, i2, _) := elemIx x.d n
  ((List.range (dExt dd 1)).any fun ox => (List.range w.wx).any fun k => inAxis ox w.sx w.px k (dExt x.d 1) == some i1) &&
    ((List.range (dExt dd 2)).any fun oy => (List.range w.wy).any fun k => inAxis oy w.sy w.py k (dExt x.d 2) == some i2)

/-- Maximum of a window: NaN if any is, the first of equal elements (R121). -/
def winMax : List Val → Val
  | [] => .zero
  | v :: r => r.foldl maxVal v

/-- The sources of an operation, by its descriptors in use. -/
def State.vecSrcs (s : State) (o : Op) : List Src :=
  let a := s.src o.ctx o.da o.scDa
  let b := s.src o.ctx o.db o.scDb
  let c := s.src o.ctx o.dc (nth o.planes 0)
  if bankSrc o.iw then []
  else
    match iOp o.iw with
    | 3 | 7 => [a, b, c]
    | 0 | 1 | 2 | 4 | 5 | 6 | 0x30 | 0x31 | 0x32 | 0x33 => [a, b]
    | 0x13 => [b]
    | _ => [a]

/-- The values of column `i` of a D × n source. -/
def State.column (s : State) (x : Src) (i : Nat) : List Val := (List.range (dExt x.d 0)).map fun k => s.elemVal x k i 0 0

/-- The values along axis 0. -/
def State.line (s : State) (x : Src) (i1 i2 i3 : Nat) : List Val :=
  (List.range (dExt x.d 0)).map fun k => s.elemVal x k i1 i2 i3

/-- What the operation writes, the scale check of its sources and their infinities apart. `t` is its tile. -/
def State.vecBody (s : State) (t : Nat) (o : Op) : VOut :=
  let a := s.src o.ctx o.da o.scDa
  let b := s.src o.ctx o.db o.scDb
  let c := s.src o.ctx o.dc (nth o.planes 0)
  let dd := o.dd
  let d := s.src o.ctx dd o.scDd
  let int := (s.vecSrcs o).all fun x => vecInt (dFmt x.d)
  let fill := fillTensor d.a dd
  let ew2 := fun (f : Val → Val → Val) => fill fun i0 i1 i2 i3 => stepOf int (f (s.elemVal a i0 i1 i2 i3) (s.elemVal b i0 i1 i2 i3))
  let pick := fun (f : Val → Val → Val) => fill fun i0 i1 i2 i3 => (f (s.elemVal a i0 i1 i2 i3) (s.elemVal b i0 i1 i2 i3), 0)
  if bankSrc o.iw then s.bankGroups o d.a b.a (min ((dRows dd + 3) / 4) o.slotsIn.length)
  else
    match iOp o.iw with
    | 0 => ew2 Val.add
    | 1 => ew2 fun x y => x.add y.neg
    | 2 => ew2 Val.mul
    | 3 => fill fun i0 i1 i2 i3 =>
        stepOf int (((s.elemVal a i0 i1 i2 i3).mul (s.elemVal b i0 i1 i2 i3)).add (s.elemVal c i0 i1 i2 i3))
    | 4 => pick minVal
    | 5 => pick maxVal
    | 6 => pick fun x y => if cmpVal (tCtl o.iw 2 0) x y then .ofInt 1 else .zero
    | 7 => fill fun i0 i1 i2 i3 =>
        (if (s.elemVal c i0 i1 i2 i3).eqv .zero then s.elemVal b i0 i1 i2 i3 else s.elemVal a i0 i1 i2 i3, 0)
    | 8 => fill fun i0 i1 i2 i3 => (s.elemVal a i0 i1 i2 i3, 0)
    | 9 => fill fun _ i1 i2 i3 => reduce int (s.line a i1 i2 i3)
    | 0x12 =>
      (List.range (dRows dd)).foldl (fun out r =>
        let (i1, i2, i3) := rowIx dd r
        let bs := (List.range (dExt dd 0 / 32)).map fun g =>
          let blk := blockOf dd (32 * g) i1 i2 i3
          (blk, qmxBlock (dFmt dd) blk ((List.range 32).map fun k => stepOf false (s.elemVal a (32 * g + k) i1 i2 i3)))
        let ps := rowPieces d.a dd r (bs.map fun x => x.2.1.map fun c => (c, 0)).flatten
        let k := 32 / packUnit (dFmt dd)
        { out with pieces := out.pieces ++ ps.mapIdx fun i p =>
            if i % k == 0 then
              let x := nth bs (i / k)
              { p with bytes := p.bytes ++ (leBytes 2 x.2.2.1).mapIdx fun j y => (d.sc + 2 * x.1 + j, y), sat := p.sat + x.2.2.2 }
            else p }) VOut.empty
    | 0x13 =>
      { VOut.empty with pieces := (List.range (dCount o.db)).map fun n =>
          let (i0, i1, i2, i3) := elemIx o.db n
          ⟨(leBytes 2 (n % 16 * 256 + s.elemCode b i0 i1 i2 i3)).mapIdx fun j y => (a.sc + 2 * n + j, y), 1, 0, false⟩ }
    | 0x14 =>
      let es := (List.range (s.bookCount t (dCb dd))).map (s.bookVal t (dCb dd))
      (List.range (dRows dd)).foldl (fun out r =>
        let (i1, i2, i3) := rowIx dd r
        out.row d.a dd r ((List.range (dExt dd 0)).map fun i0 => (encodeBook es (s.elemVal a i0 i1 i2 i3), 0))) VOut.empty
    | 0x18 =>
      (List.range (dRows dd)).foldl (fun out r =>
        let (i1, i2, i3) := rowIx dd r
        out.row d.a dd r ((List.range (dExt dd 0)).map fun i0 => s.tabElem t (tCtl o.iw 2 0) a dd i0 i1 i2 i3)) VOut.empty
    | 0x20 => fill fun i0 i1 i2 i3 => (winMax (s.window a (winOf o.iw) i0 i1 i2 i3), 0)
    | 0x21 => fill fun i0 i1 i2 i3 => reduce int (s.window a (winOf o.iw) i0 i1 i2 i3)
    | 0x28 => fill fun _ i1 i2 i3 => (.ofInt (argMax (s.line a i1 i2 i3)), 0)
    | 0x29 => fill fun _ i1 i2 i3 => (.ofInt (argMin (s.line a i1 i2 i3)), 0)
    | 0x2A =>
      (List.range (dRows dd)).foldl (fun out r =>
        let (i1, i2, i3) := rowIx dd r
        let ps := topK (dExt dd 0) ((s.line a i1 i2 i3).mapIdx fun i v => (i, v))
        (out.vals d.a dd r (ps.map fun p => (p.2, 0))).vals c.a o.dc r (ps.map fun p => (Val.ofInt p.1, 0))) VOut.empty
    | 0x30 =>
      (List.range (dExt dd 1)).foldl (fun out r =>
        let n := s.boxNan t (tCtl o.iw 2 0) o.sc (s.column a r)
        let ps := rowPieces d.a dd r ((s.boxdec t (tCtl o.iw 2 0) o.sc (tCtl o.iw 3 3 == 1) (s.column a r) (s.column b r)).map fun v =>
          (convTo dd v.1, v.2))
        { out with pieces := out.pieces ++ ps.mapIdx fun i p => { p with nan := p.nan || (i == 0 && n) } }) VOut.empty
    | 0x31 => fill fun j i _ _ =>
        let ps := ((s.column a i).zip (s.column b j)).map fun p => stepOf int (p.1.mul p.2)
        let (v, n) := reduce int (ps.map fun p => p.1)
        (v, n + (ps.map fun p => p.2).sum)
    | 0x32 => fill fun j i _ _ =>
        let ps := ((s.column a i).zip (s.column b j)).map fun p =>
          let (e, n) := stepOf int (p.1.add p.2.neg)
          stepW int n (e.mul e)
        let (v, n) := reduce int (ps.map fun p => p.1)
        (v, n + (ps.map fun p => p.2).sum)
    | 0x33 => fill fun j i _ _ => iou (s.column a i) (s.column b j)
    | _ => VOut.empty

/-- Does the operation read the codes of its source alone: VEC.TAB with a DIRECT8 table (R120)? -/
def State.codesOnly (s : State) (t : Nat) (o : Op) : Bool := iOp o.iw == 0x18 && (s.table t (tCtl o.iw 2 0)).kind == 0

/-- Output elements of an element group (R155): those that the unit forms in one cycle at the rates of R116 (DEDUCED, log entry 49). -/
def vecGroup (o : Op) : Nat :=
  let per := fun n => max 1 (128 / n)
  match iOp o.iw with
  | 0x20 | 0x21 => per ((winOf o.iw).wx * (winOf o.iw).wy)
  | 9 | 0x28 | 0x29 | 0x31 | 0x32 => per (dExt o.da 0)
  | 0x2A => per (dExt o.da 0) * (2 * dExt o.dd 0)
  | 0x33 => 32
  | _ => 128

/-- The whole operation: the tags of its MX sources first (R81, R82; a DIRECT8 table reads codes alone, R120), then its results, with
the infinities its sources hold. -/
def State.vecRun (s : State) (t : Nat) (o : Op) (flip : Bool) : VOut :=
  let xs := if s.codesOnly t o then [] else s.vecSrcs o
  let bad := ((xs.filter fun x => isMx (dFmt x.d)).mapIdx fun i x => s.badTag x (flip && i == 0)).filterMap id
  match bad with
  | b :: r => { VOut.empty with err := some (xSCALEMISALIGN, r.foldl min b) }
  | [] =>
    let out := s.vecBody t o
    let seen := fun x n => if iOp o.iw == 0x20 || iOp o.iw == 0x21 then pooled (winOf o.iw) o.dd x n else true
    { out with infs := (xs.map fun x => s.infs x (seen x)).sum }

end Sys2Proof.Machine
end

