-- ==== Sys2Proof/Machine/Issue.lean ====
section
/-!
DEFINITION. Issue on a lane: when an instruction issues (R127, R129, R134, R135, R149), how the pc moves (R138 to R140), how an
exception stops a launch (R154 to R156), and how an operation enters its queue (R149, R150, R152).
-/
namespace Sys2Proof.Machine

open Sys2Proof

/-! ## Stopping a launch (R155) -/

/-- Is the operation one of a launch's? -/
def Op.of (o : Op) (c seq : Nat) : Bool := o.ctx == c && o.seq == seq

/-! ### Slots and their writers (R151) -/

/-- Row quads of a stream whose results are in force. -/
def State.inForce (s : State) (t : Nat) (p : Op) : Nat :=
  p.done - (((s.tile t).flights.filter fun f => f.op == p.id).map fun f => f.quad).eraseDups.length

/-- Has an unfinished ARM operation of tile `t` still to put slot `key` (bank * 128 + slot) in force? A pass with an MX streamed operand
releases its slots only with its last row quad (R83). -/
def State.willWrite (s : State) (t : Nat) (p : Op) (key : Nat) : Bool :=
  let bank := tCtl p.iw 20 18
  let rel := (key % 128 + 128 - p.slotNo % 128) % 128
  match iOp p.iw with
  | 2 =>
    key / 128 == bank &&
      (if p.mode.kind == 2 then
         !bit p.iw.w 16 && decide (rel < 16) &&
           (decide (p.done < p.total) || (s.tile t).flights.any fun f => f.op == p.id && f.slot == key % 128)
       else
         let lo := if isMx (dFmt p.da) then 0 else s.inForce t p
         decide (rel + (lo - rel + 127) / 128 * 128 < p.total))
  | 3 => decide (p.total = 1) && key / 128 == p.slotNo / 128 && decide (rel < 16)
  | _ => false

/-- The WS or IS stream that is the last issued before operation `id` to name slot `key`, while it is unfinished. -/
def State.writerOf (s : State) (t id key : Nat) : Option Op :=
  (s.ops.filter fun p => p.unit == .tile t && iCls p.iw == 8 && iOp p.iw == 2 && p.mode.kind != 2 && decide (p.id < id) &&
    key / 128 == tCtl p.iw 20 18 && decide ((key % 128 + 128 - p.slotNo % 128) % 128 < p.total)).getLast?

/-- How many readers issued since its stream have named a slot before operation `id`: the lap of the stream round the bank whose result that
operation takes (R52, R151; DESIGN CHOICE, log entry 67). -/
def State.lapOf (s : State) (t id key : Nat) : Nat :=
  match s.writerOf t id key with
  | some p => (p.uses.filter (· == key)).length
  | none => 0

/-- A reader has been issued: the streams that write its slots know of it. -/
def State.noteUses (s : State) (t id : Nat) : List Nat → State
  | [] => s
  | k :: r =>
    (match s.writerOf t id k with
     | some p => s.updOp p.id fun p => { p with uses := p.uses ++ [k] }
     | none => s).noteUses t id r

/-- Does an earlier writer still hold back slot `key` from a reader that takes lap `lap` of it (R151)? A stream gives the slot of lap n once
its row quad of that lap, or of its last lap where it makes fewer, is in force; but one with an MX streamed operand gives its slots with its
last row quad (R83), and of two writers the later decides. -/
def State.slotPending (s : State) (t : Nat) (o : Op) (key lap : Nat) : Bool :=
  let ws := s.ops.filter fun p => p.unit == .tile t && iCls p.iw == 8 && decide (p.id < o.id) && s.willWrite t p key
  match ws.getLast? with
  | none => false
  | some p =>
    if iOp p.iw == 2 && p.mode.kind != 2 && !isMx (dFmt p.da) && ws.length == 1 then
      let rel := (key % 128 + 128 - p.slotNo % 128) % 128
      decide (s.inForce t p ≤ rel + 128 * min lap ((p.total - 1 - rel) / 128))
    else true

/-- A reader takes its slots in order, as far as their writers have put their results in force (R151). -/
def State.takeSlots (s : State) (t : Nat) (o : Op) : Op :=
  let more := ((o.readSlots.zip o.laps).drop o.slotsIn.length).takeWhile fun p => !s.slotPending t o p.1 p.2
  { o with slotsIn := o.slotsIn ++ more.map fun p =>
      ((s.tile t).poison.contains p.1, (List.range 256).map fun i => s.bankBits t (p.1 / 128) (p.1 % 128) (i / 64) (i % 64)) }

/-- Every reader that runs on a tile takes what it can. -/
def State.takeAll (s : State) (t : Nat) : State :=
  { s with ops := s.ops.map fun o => if o.unit == .tile t && o.st == .running && bankSrc o.iw then s.takeSlots t o else o }

/-! ### Saturation counts (R100, R101) -/

/-- Counts of a lane's launch raised; the NaN flag is sticky. -/
def State.countSat (s : State) (l : LaneId) (acc conv : Nat) (nan : Bool) : State :=
  s.updLane l fun x => { x with accSat := sat 32 (x.accSat + acc), convSat := sat 32 (x.convSat + conv), nan := x.nan || nan }

/-- A NaN stored as a number sets the context's sticky flag at once (R95). -/
def State.stickyNan (s : State) (c : Nat) (nan : Bool) : State := if nan then s.setBitsIn (Reg.ctxNumStatus c) 2 else s

/-- A vector operation stops after the element group in progress (R155): whole element groups, of those its slots give, are in force, with
their clamps and their NaN flag counted; how many, and how many of the infinities of its sources it has read, is free (log entry 49). -/
def State.landPrefix (s : State) (t : Nat) (o : Op) : State :=
  let (v, s) := s.draw
  let (w, s) := s.draw
  let out := s.vecRun t (s.takeSlots t o) false
  let g := vecGroup o
  let n := (out.pieces.map fun p => p.n).sum
  let ps : VOut := ⟨takeElems (v % ((n + g - 1) / g + 1) * g) out.pieces, w % (out.infs + 1), none⟩
  ((s.wrList ps.bytes).countSat o.lane 0 ps.sat ps.nan).stickyNan o.ctx ps.nan

/-- A barrow's state (R238); one that purges a reset context's work does so until it acknowledges the Awning (R226). -/
def State.setBarSt (s : State) (b : Nat) (st : BarSt) : State :=
  s.updBarrow b fun x => if x.st == .purging then x else { x with st := st }

/-- The state of a barrow that has finished an operation. -/
def State.restBarrow (s : State) (b : Nat) : State :=
  if (s.barrow b).q.any fun q => q.running then s else s.setBarSt b .idle

/-- The mark of a barrow operation that stops without an exception of its own. -/
def stopMark : Exc := ⟨0, 0, 0, 0, 0⟩

/-- One operation stopped under step 2 of R155: queued ones are discarded, waits are discarded, an Armature pass admits no further
row quad, a vector operation stops after its element group, a barrow after the segments already issued. -/
def State.stopOp (s : State) (o : Op) : State :=
  let unq := fun (s : State) => match o.unit with
    | .barrow b => s.updBarrow b fun x => { x with q := x.q.filter fun q => !(q.op == o.id && !q.running) }
    | _ => s
  match o.st, o.unit with
  | .finished, _ => s
  | .queued, _ => unq (s.dropOp o.id)
  | .running, .sync =>
    if iOp o.iw == 0 then s
    else
      let s := s.updCtx o.ctx fun c => { c with semWaits := c.semWaits.filter fun w => w.op != o.id }
      let s : State := { s with barGroups := s.barGroups.map fun g => { g with ops := g.ops.filter (· != o.id) } }
      s.dropOp o.id
  | .running, .time => s.dropOp o.id
  | .running, .tile t =>
    if iCls o.iw == 9 then (s.landPrefix t o).dropOp o.id
    else if iOp o.iw == 2 then
      if o.mode.kind == 2 && decide (o.done < o.total) then s.dropOp o.id
      else if o.done == 0 then s.dropOp o.id
      else s.updOp o.id fun x => { x with total := x.done }
    else if iOp o.iw == 0 || (iOp o.iw == 1 && o.done == 0) then s.dropOp o.id
    else s
  | .running, .port => s
  | .running, .barrow b =>
    if (s.barrow b).q.any fun q => q.op == o.id && q.segs.isEmpty then
      ((s.updBarrow b fun x => { x with q := x.q.filter fun q => q.op != o.id }).dropOp o.id).restBarrow b
    else
      s.updBarrow b fun x => { x with q := x.q.map fun q => if q.op == o.id && q.failing.isNone then { q with failing := some stopMark } else q }

def State.stopOps (s : State) : List Op → State
  | [] => s
  | o :: r => (s.stopOp o).stopOps r

/-- What the lead of a gang tells each of a list of members. -/
def State.tell (s : State) (c : Nat) (m : GangMsg) : List Nat → State
  | [] => s
  | k :: r => (s.emit (.gangTell k c m)).tell c m r

/-- Every lane that runs the launch stops issuing, and each unit stops the launch's work (R155), on every member of a gang (R291). -/
def State.stopLaunch (s : State) (c seq : Nat) : State :=
  let s : State := match (s.ctx c).launch? seq with
    | some l => if l.stage == Stage.stopping then s else s.tell c (.stop seq) l.gangLeft
    | none => s
  let s : State := { s with lanes := s.lanes.map fun l =>
    if l.st != .idle && l.ctx == c && l.seq == seq then { l with stopped := true } else l }
  let s := s.updLaunch c seq fun l => { l with stage := .stopping }
  s.stopOps (s.ops.filter fun o => o.of c seq)

/-- An exception of an undecided launch: reported with its tick, its cluster's ordinal and its place in program order (R156), and the
launch stops. One that no launch is left for is no launch's (R156). -/
def State.raiseAt (s : State) (c seq cl opNo : Nat) (e : Exc) : State :=
  match (s.ctx c).launch? seq with
  | some l =>
    if l.decision.isSome then s.stopLaunch c seq
    else
      (s.updLaunch c seq fun l => { l with excs := l.excs ++ [⟨s.bell.now, 16 * s.gangM + s.clusterOrd c cl, opNo, e⟩] }).stopLaunch c seq
  | none => s

/-- An exception found at issue (R155): precise, at the lane's pc. -/
def State.raise (s : State) (l : LaneId) (code arg : Nat) : State :=
  let ln := s.lane l
  s.raiseAt ln.ctx ln.seq l.cl s.nextOp ⟨code, ln.pc, arg, 0, 0⟩

/-- An exception found during execution of an operation (R155). -/
def State.raiseOp (s : State) (o : Op) (code arg operand tile : Nat) : State :=
  s.raiseAt o.ctx o.seq o.lane.cl o.id ⟨code, o.pc, arg, operand, tile⟩

/-! ## The lane -/

/-- May the lane issue in this cycle (R127)? Its cluster is awake, a launch runs on it, neither END nor a stop has ended issue. -/
def State.laneOpen (s : State) (l : LaneId) : Bool :=
  let ln := s.lane l
  (s.cluster l.cl).rest == .awake && ln.st != .idle && ln.st != .ending && !ln.stopped && decide (ln.nextIssue ≤ s.cyc)

/-- The cache line that holds an address for the lane's context and generation (R129). -/
def State.codeLine (s : State) (l : LaneId) (a : Nat) : Option ILine :=
  let ln := s.lane l
  (s.cluster l.cl).icache.find? fun x => x.addr == a / 64 * 64 && x.ctx == ln.ctx && x.gen == ln.gen

/-- The 64-bit code word at an address, when its line is in the cache. -/
def State.codeWord (s : State) (l : LaneId) (a : Nat) : Option Word :=
  (s.codeLine l a).map fun x => word (leNat ((x.bytes.drop (a % 64)).take 8))

/-- Is the instruction the one the cache holds at the lane's pc? -/
def State.codeIs (s : State) (l : LaneId) (i : IWord) : Bool :=
  let pc := (s.lane l).pc
  s.codeWord l pc == some i.w && (!iLong i || s.codeWord l ((pc + 8) % 2 ^ 64) == some i.imm64)

/-- The lane waits: its state and cause (R216); nothing issues. -/
def State.waitLane (s : State) (l : LaneId) (cause arg : Nat) : State :=
  s.updLane l fun x => { x with st := .blocked, wait := cause, waitArg := arg }

/-- Does a register have no pending write (R148, R149)? -/
def State.regReady (s : State) (l : LaneId) (r : Nat) : Bool :=
  decide (sparseGet 0 (s.lane l).ready r ≤ s.cyc) &&
    s.ops.all fun o => !(o.lane == l && o.dst == some r)

/-- The result of register `r` is usable `lat` cycles after this one (R148). -/
def State.pendReg (s : State) (l : LaneId) (r lat : Nat) : State :=
  s.updLane l fun x => { x with ready := sparseSet 0 x.ready r (s.cyc + lat) }

/-- A loop count lowered by one, in 32 bits (R139). -/
def lessOne (v : Nat) : Nat := if v = 0 then 2 ^ 32 - 1 else (v - 1) % 2 ^ 32

/-- The loop test after an instruction whose final word stands at `last` (R139). -/
def Lane.loopTest (ln : Lane) (last : Nat) : List LoopEnt → Lane
  | [] => { ln with loops := [] }
  | e :: r =>
    if e.last = last then
      let c := lessOne (ln.kv e.k)
      let ln := ln.setK e.k c
      if c = 0 then ln.loopTest last r else { ln with pc := e.start, loops := e :: r }
    else { ln with loops := e :: r }

/-- An event of the Ledger for a launch (R387, R388): counted in class `k`, weighted by the square of the compute voltage when the
class is of the compute rail (0 to 9, in (10 mV)^2, so a class-k event stands for coefficient × weight / 6400 pJ). -/
def State.energyEvent (s : State) (c seq k n : Nat) : State :=
  let w := if k ≤ 9 then (s.power.voltMv / 10) * (s.power.voltMv / 10) else 6400
  (s.updLaunch c seq fun l => { l with events := upd l.events k (· + n * w) }).updPower fun p =>
    { p with msEvents := upd p.msEvents k (· + n * w) }

/-- The issue cycle is spent: the next issue comes `cost` cycles later. -/
def State.spend (s : State) (l : LaneId) (cost : Nat) : State :=
  (s.energyEvent (s.lane l).ctx (s.lane l).seq 9 1).updLane l fun x =>
    { x with st := .issuing, wait := 0, waitArg := 0, nextIssue := s.cyc + cost }

/-- Past the instruction, with the loop test at its final word. -/
def State.advance (s : State) (l : LaneId) (i : IWord) : State :=
  let last := ((s.lane l).pc + iSize i - 8) % 2 ^ 64
  (s.updLane l fun x => { x with pc := (x.pc + iSize i) % 2 ^ 64 }.loopTest last x.loops).spend l 1

/-- The guard of R135. -/
def State.guard (s : State) (l : LaneId) (i : IWord) : Bool := (s.lane l).pv (iGp i) != iGneg i

/-- Parity of an instruction-cache line fails at a hit, by injection (R344 code 0x05): corrected, the line is fetched again. -/
def State.badLine (s : State) (l : LaneId) : State :=
  let ln := s.lane l
  let a := ln.pc / 64 * 64
  let s := s.disarm.detect { det := 0x05, sev := 0, place := 40 + l.cl, injected := true, ctx := some (ln.ctx, ln.gen) }
  (s.updCluster l.cl fun c => { c with icache := c.icache.filter fun x => !(x.addr == a && x.ctx == ln.ctx && x.gen == ln.gen) }).waitLane l 1 0

/-- Issue of an instruction of class `cls` and operation `op` whose operands stand in the registers `regs`: R129 (the word is
fetched), R138 (a misaligned pc), R134 (ILLEGAL), R135 (the guard), R149 (pending writes), then its own effect. An instruction of
another class and operation is another command's. -/
def State.issue (s : State) (l : LaneId) (i : IWord) (cls op : Nat) (regs : List Nat) (body : State → State) : State :=
  if !s.laneOpen l then s
  else if s.injHits 0x12 (40 + l.cl) then s.ctrlWord (40 + l.cl)
  else if (s.lane l).pc % 8 ≠ 0 then s.raise l xMISALIGNEDPC 0
  else if (s.codeLine l (s.lane l).pc).isNone then s.waitLane l 1 0
  else if s.injHits 0x05 (40 + l.cl) then s.badLine l
  else if bit ((s.codeWord l (s.lane l).pc).getD 0) 47 && (s.codeLine l (((s.lane l).pc + 8) % 2 ^ 64)).isNone then s.waitLane l 1 0
  else if !s.codeIs l i then s
  else if !assigned (iCls i) (iOp i) then s.raise l xILLEGAL 0
  else if iCls i ≠ cls ∨ iOp i ≠ op then s
  else if !legal i then s.raise l xILLEGAL 0
  else if !s.regReady l (rP (iGp i)) then s.waitLane l 2 0
  else if !s.guard l i then s.advance l i
  else if !regs.all (s.regReady l) then s.waitLane l 2 0
  else body s

/-- Registers of an instruction of classes 0x01 to 0x07 (R149). -/
def formRegs (i : IWord) : List Nat :=
  match formSpec (iCls i) (iOp i) with
  | some f => kindReg f.fa (iFa i) ++ kindReg f.ra (iRa i) ++ kindReg f.rb (iRb i)
  | none => []

/-! ## Operations -/

/-- Unfinished operations of a lane; operations waiting or running in a unit's queue. -/
def State.laneOps (s : State) (l : LaneId) : List Op := s.ops.filter fun o => o.lane == l
def State.queueLen (s : State) (u : UnitId) (l : LaneId) : Nat :=
  (s.ops.filter fun o => o.unit == u && o.st == .queued &&
    (match u with | .port | .sync | .time => o.lane == l | _ => true)).length

/-- wait_arg of a full queue (R216). -/
def State.queueArg (s : State) (c : Nat) : UnitId → Nat
  | .tile t => s.tileOrd c t
  | .barrow b => 16 + b
  | _ => 0

/-- A fresh operation of the lane's current instruction. -/
def State.newOp (s : State) (l : LaneId) (i : IWord) (u : UnitId) : Op :=
  let ln := s.lane l
  { id := s.nextOp, lane := l, ctx := ln.ctx, gen := ln.gen, seq := ln.seq, pc := ln.pc, iw := i, unit := u, st := .queued,
    dd := 0, da := 0, db := 0, dc := 0, scDd := 0, scDa := 0, scDb := 0, planes := [], sc := [], ivals := [],
    mode := Mode.initial, dst := none, tick := 0, slotNo := 0, done := 0, total := 0, startCyc := s.cyc, pendBytes := [],
    arrived := false, slotsIn := [], laps := [], uses := [] }

/-- The operation enters its queue, with a number of its own. -/
def State.addOp (s : State) (o : Op) : State := { s with ops := s.ops ++ [{ o with id := s.nextOp }], nextOp := s.nextOp + 1 }
def State.addOps (s : State) : List Op → State
  | [] => s
  | o :: r => (s.addOp o).addOps r

/-- Operations issued: each queue must have room (8, R149) and the lane fewer than 64 unfinished (R152); else the lane waits. -/
def State.issueOps (s : State) (l : LaneId) (i : IWord) (os : List Op) : State :=
  match os.find? fun o => decide (8 ≤ s.queueLen o.unit l) with
  | some o => s.waitLane l 3 (s.queueArg o.ctx o.unit)
  | none =>
    if 64 < (s.laneOps l).length + os.length then s.waitLane l 11 0
    else (s.addOps os).advance l i

end Sys2Proof.Machine
end

