-- ==== Sys2Proof/Machine/Filler.lean ====
section
/-!
DEFINITION. Feeder gaps and the filler engine (R67 to R70): the reference level, how much filler a gap takes, and to whom its energy
goes. The rules fix the level the filler holds and a band around it, not the number of row quads: of the numbers that keep within the
band one is free (DESIGN CHOICE, log entry 16).
-/
namespace Sys2Proof.Machine

open Sys2Proof

/-- Coefficient of an event class (R387). -/
def State.coef (s : State) (k : Nat) : Nat := s.fld (Reg.pwrCoef k) 31 0

/-- An array event of a tile enters the activity of the last 1 us. -/
def State.noteActivity (s : State) (t k n : Nat) : State :=
  s.updTile t fun x => { x with recent := (x.recent.filter fun e => decide (s.up < e.1 + usT)) ++ [(s.up, k, n)] }

/-- The array's activity over the last 1 us, as the power controller's counts give it (R68). -/
def State.activity (s : State) (t : Nat) : Nat :=
  (((s.tile t).recent.filter fun e => decide (s.up < e.1 + usT)).map fun e => e.2.2 * s.coef e.2.1).sum

/-- The level that falls from 1 at the rate 1 / r, summed over its first x ticks. -/
def fallArea (r x : Rat) : Rat := if x ≤ r then x - x * x / (2 * r) else r / 2

/-- A gap's level against the reference, summed over the first `e` ticks of the gap (R69), and how long it was above zero. `g` is the
length planned for a known gap; limit and ramp are in ticks. -/
def gapArea (known : Option Rat) (limit ramp e : Rat) : Rat × Rat :=
  match known with
  | some g =>
    if g < limit then (e, e)
    else
      let h := g / 2
      if e ≤ h then (fallArea ramp e, min e ramp)
      else if e ≤ g then (2 * fallArea ramp h - fallArea ramp (g - e), min h ramp + (min h ramp - min (g - e) ramp))
      else (2 * fallArea ramp h + (e - g), 2 * min h ramp + (e - g))
  | none => if e ≤ limit then (e, e) else (limit + fallArea ramp (e - limit), min e (limit + ramp))

/-- The least and the greatest number of filler row quads that a gap can have taken by now: none with enable 0; else those that keep the
array's activity within band_pct of the reference level while the level is above zero, at most one for each feeder cycle. -/
def State.fillerBounds (s : State) (g : Gap) : Nat × Nat :=
  let cycles := s.cyc - g.start
  let c := s.coef 2
  if !g.enable || cycles == 0 then (0, 0)
  else if c == 0 then (0, cycles)
  else
    let plan := g.known.map fun t => ((t - g.st : Nat) : Rat)
    let (area, time) := gapArea plan (4 * g.limit : Nat) (4 * g.ramp : Nat) ((s.up - g.up : Nat) : Rat)
    let unit : Rat := (g.ref : Rat) / ((usT : Rat) * c)
    let tol := time * g.band / 100
    let hi := min cycles ((area + tol) * unit).floor.toNat
    (min hi ((area - tol) * unit).ceil.toNat, hi)

/-- `n` filler row quads are counted (R67): in STH_ARM_FILLCNTt and in the Ledger as event class 2, whose energy goes to the lease holder
(R70): to its launch that runs on the tile's cluster, else to another that runs, else to the context itself. -/
def State.fillers (s : State) (t n : Nat) : State :=
  let s := s.incWrap (Reg.sthArmFillcnt (t / 4) (t % 4)) 63 0 n
  match (s.tile t).lease with
  | some c =>
    let here := (s.lanes.drop (t / 4 * 4)).take 4 |>.find? fun l => l.st != .idle && l.ctx == c
    let any_ := s.lanes.find? fun l => l.st != .idle && l.ctx == c
    match here.orElse fun _ => any_ with
    | some l => s.energyEvent c l.seq 2 n
    | none =>
      let w := n * ((s.power.voltMv / 10) * (s.power.voltMv / 10))
      (s.updCtx c fun x => { x with fillEvents := x.fillEvents + w }).updPower fun p => { p with msEvents := upd p.msEvents 2 (· + w) }
  | none => s

/-- A gap's filler is counted as far as it has come. -/
def State.settleGap (s : State) (t : Nat) : State :=
  match (s.tile t).gap with
  | some g =>
    let (lo, hi) := s.fillerBounds g
    if hi ≤ g.sent then s
    else
      let (v, s) := s.draw
      let n := max lo g.sent + v % (hi + 1 - max lo g.sent)
      (s.updTile t fun x => { x with gap := some { g with sent := n } }).fillers t (n - g.sent)
  | none => s

/-- A gap ends at the next real entry (R68). Its filler row quads count as activity of the last 1 us as far as the gap lies in it. -/
def State.endGap (s : State) (t : Nat) : State :=
  match (s.tile t).gap with
  | none => s
  | some g =>
    let s := s.settleGap t
    let n := match (s.tile t).gap with | some x => x.sent | none => 0
    let len := s.up - g.up
    let s := s.updTile t fun x => { x with gap := none }
    if n == 0 then s else s.noteActivity t 2 (n * min usT len / max 1 len)

/-- Does an operation wait on station time alone, on a tick that is fixed: TWAIT, TWAIT.C, an aligned barrier that is confirmed (R68)? -/
def Op.timeWait (o : Op) : Bool :=
  (iCls o.iw == 0xC && decide (iOp o.iw ≤ 1)) || (iCls o.iw == 0xB && iOp o.iw == 3 && decide (0 < o.tick))

/-- The tick that the next array operation of a tile waits on, when it waits on station time alone (R68): every gate and every conflict that
holds it and what stands before it in the tile's queue is a time wait. With no operation of the lessee's lane, the start of the next launch
in line with a not-before time. -/
def State.knownTick (s : State) (t : Nat) : Option Nat :=
  match (s.tile t).lease with
  | none => none
  | some c =>
    match s.ops.find? fun o => o.unit == .tile t && iCls o.iw == 8 && o.st == .queued with
    | some o =>
      let line := s.ops.filter fun p => p.unit == .tile t && p.st == .queued && decide (p.id ≤ o.id)
      let held := s.ops.filter fun p => !(line.any fun q => q.id == p.id) && line.any fun q =>
        p.lane == q.lane && p.seq == q.seq && p.ctx == q.ctx && decide (p.id < q.id) &&
          (p.isGate || p.ivals.any fun a => q.ivals.any fun b => a.store == b.store && (a.wr || b.wr) && decide (a.lo ≤ b.hi) && decide (b.lo ≤ a.hi))
      if !held.isEmpty && held.all Op.timeWait then some (held.foldl (fun m o => max m o.tick) 0) else none
    | none =>
      if (List.range 4).any fun n => (s.lane ⟨t / 4, n⟩).st != .idle && (s.lane ⟨t / 4, n⟩).ctx == c then none
      else
        match (s.ctx c).launches.find? fun l => l.dispatched && l.decision.isNone && l.stage == .waiting with
        | some l => l.nb.map (· + 1024)
        | none => none

/-- A new gap of tile `t` with the filler settings as they stand (R70). -/
def State.newGap (s : State) (t : Nat) : Gap :=
  let r := s.reg (Reg.sthArmFillX (t / 4))
  { start := s.cyc, known := s.knownTick t, enable := bit r 0, band := bits r 15 8, limit := bits r 31 16, ramp := bits r 47 32,
    falling := false, up := s.up, st := s.bell.now, ref := s.activity t, sent := 0 }

end Sys2Proof.Machine
end

