-- ==== Sys2Proof/Machine/Scratch.lean ====
section
/-!
DEFINITION. Scratch as operations see it: the checks on a word that is read (R113, R344, R345), interval conflicts and gates
(R150, R161), the Tally (R209), and the classes of address a descriptor base can name (R105, R106, R159).
-/
namespace Sys2Proof.Machine

open Sys2Proof

/-- Does a read of `n` bytes from a local address touch the store an armed SCR_TILE or SCR_CLUSTER injection names? -/
def State.scrHit (s : State) (a : Nat) : Option (Nat × Nat) :=
  match placeOf s.straps a with
  | .tile t _ => if s.injHits 0x01 t then some (0x01, t) else none
  | .cluster k _ => if s.injHits 0x02 (40 + k) then some (0x02, 40 + k) else none
  | _ => none

/-- ECC counts of a scratch (R125): corrected or uncorrected. -/
def State.countEcc (s : State) (a : Nat) (bad : Bool) : State :=
  match placeOf s.straps a with
  | .tile t _ =>
    if bad then s.incWrap (Reg.sthScrEcc (t / 4) (t % 4)) 63 32 1 else s.incWrap (Reg.sthScrEcc (t / 4) (t % 4)) 31 0 1
  | .cluster k _ => if bad then s.incSat (Reg.sthScrCluster k) 63 48 1 else s.incSat (Reg.sthScrCluster k) 47 32 1
  | _ => s

/-- The SECDED check of the next word read (R113): answers whether the word may be consumed. A single-bit error is corrected and
counted; a double-bit error is recorded with the context and the address. -/
def State.checkScr (s : State) (ctx : Option (Nat × Nat)) (seq : Option Nat) (a : Nat) : Bool × State :=
  match s.scrHit a, s.inject with
  | some (det, place), some j =>
    let bad := j.kind == 2
    let s := (s.disarm.countEcc a bad).detect
      { det := det, sev := if bad then 1 else 0, place := place, ctx := ctx, injected := true, addr := ownPhys a, addrKind := 2,
        seq := if bad then seq else none }
    (!bad, s)
  | _, _ => (true, s)

/-- The check for an operation: an uncorrectable word fails it with DATA-ERROR at the address (R345, R201). -/
def State.readFor (s : State) (o : Op) (a : Nat) : Bool × State :=
  let (ok, s) := s.checkScr (some (o.ctx, o.gen)) (some o.seq) a
  if ok then (true, s) else (false, s.raiseOp o xDATAERROR (ownPhys a) 0 0)

/-- Words read and checked one after another (R113); a failure ends the operation. -/
def State.readAll (s : State) (o : Op) : List Nat → Bool × State
  | [] => (true, s)
  | a :: r =>
    let (ok, s) := s.readFor o a
    if ok then s.readAll o r else (false, s)

/-- Do two intervals conflict (R150)? -/
def Ival.conflicts (a b : Ival) : Bool :=
  a.store == b.store && (a.wr || b.wr) && decide (a.lo ≤ b.hi) && decide (b.lo ≤ a.hi)

/-- Earlier unfinished operations of the same lane and launch. -/
def State.earlier (s : State) (o : Op) : List Op :=
  s.ops.filter fun p => p.lane == o.lane && p.seq == o.seq && p.ctx == o.ctx && decide (p.id < o.id)

/-- Is an operation ahead in the same queue still waiting to start (R150)? -/
def State.queueBlocked (s : State) (o : Op) : Bool :=
  s.ops.any fun p => p.unit == o.unit && decide (p.id < o.id) && p.st == .queued &&
    (match o.unit with | .port | .sync | .time => p.lane == o.lane | _ => true)

/-- The common conditions of a start: queue order, intervals, gates (R150, R161). -/
def State.mayStart (s : State) (o : Op) : Bool :=
  o.st == .queued && !s.queueBlocked o &&
    (s.earlier o).all fun p => !p.isGate && !(p.ivals.any fun a => o.ivals.any a.conflicts)

/-- The operation begins in its unit. -/
def State.startOp (s : State) (o : Op) : State := s.updOp o.id fun x => { x with st := .running, startCyc := s.cyc }

/-- The Tally advances by `n` (R209). -/
def State.tallyUp (s : State) (c seq n : Nat) : State := s.updLaunch c seq fun l => { l with tally := (l.tally + n) % 2 ^ 64 }

/-- A count of R335 for a launch: 0 row quads, 1 vector operations, 2 barrow bytes, 3 lines read, 4 lines written, 5 request flits. -/
def State.workUp (s : State) (c seq k n : Nat) : State :=
  s.updLaunch c seq fun l => { l with work := upd l.work k (· + n) }

/-- An operation completes (R160): it leaves the scoreboard and the Tally advances. -/
def State.finishOp (s : State) (o : Op) : State := (s.dropOp o.id).tallyUp o.ctx o.seq 1

end Sys2Proof.Machine
end

