-- ==== Sys2Proof/Machine/Armature.lean ====
section
/-!
DEFINITION. The Armature (R45 to R72, R81 to R93, R166 to R169): operands, the cube step, slot writes, row quads, shadow loads,
chains, gaps and the clearing of a tile.
-/
namespace Sys2Proof.Machine

open Sys2Proof

/-! ## Shapes of a pass (R47) -/

/-- Width class of a pass: a 4-bit operand paired with an 8-bit one is widened. -/
def Mode.cls (m : Mode) : Nat :=
  let a := widthClass m.fmtA false
  let b := widthClass m.fmtB m.cbw
  if a == 16 || b == 16 then 16 else if a == 4 && b == 4 then 4 else 8

/-- K-elements per cube and cycle, cycles per row quad, and the floor F of R61. -/
def Mode.kq (m : Mode) : Nat := if m.cls == 4 then 8 else 4
def Mode.cyc (m : Mode) : Nat := if m.cls == 16 then 4 else 1
def Mode.floor (m : Mode) : Nat := if m.kind != 2 && m.cls == 16 then 32 else 16
/-- K-elements of a stationary operand. -/
def Mode.kMax (m : Mode) : Nat := if m.cls == 4 then 128 else 64

/-- The format an operand has as the cubes see it: a CB tensor's is its book's entry format (R86). -/
def State.effFmt (s : State) (t : Nat) (d : Desc) : Nat := if isCb (dFmt d) then s.bookFmt t (dCb d) else dFmt d

/-! ## Operands -/

/-- Code of an operand's element after the Maquette. -/
def State.armCode (s : State) (t : Nat) (x : Src) (k r : Nat) : Nat :=
  let (i1, i2, i3) := rowIx x.d r
  let c := s.elemCode x k i1 i2 i3
  if isCb (dFmt x.d) then s.bookEntry t (dCb x.d) c else c

/-- Scale code of an operand's element, 127 for a format that is not MX (R92). -/
def State.armScale (s : State) (x : Src) (k r : Nat) : Nat :=
  let (i1, i2, i3) := rowIx x.d r
  if isMx (dFmt x.d) then s.scaleCode x (blockOf x.d k i1 i2 i3) else 127

/-- The value of element (k, r) of a streamed operand; beyond its extents a zero (R165). -/
def State.armVal (s : State) (t : Nat) (x : Src) (k r : Nat) : Val :=
  if k < dExt x.d 0 ∧ r < dRows x.d then codeVal (s.effFmt t x.d) (dZp x.d) (s.armCode t x k r) (s.armScale x k r) else .zero

/-- Infinities among the elements a row quad or a load reads (R77): columns `ks` of rows `rs`. -/
def State.armInfs (s : State) (t : Nat) (x : Src) (ks rs : List Nat) : Nat :=
  (rs.map fun r => (ks.filter fun k =>
    decide (k < dExt x.d 0) && decide (r < dRows x.d) && (readElem (s.effFmt t x.d) (s.armCode t x k r)).2).length).sum

/-- The value of element (k, n) of the stationary operand. -/
def Stat.val (a : Stat) (k n : Nat) : Val :=
  match a.codes[n]? with
  | some row =>
    match row[k]? with
    | some c => codeVal a.fmt a.zp c ((nth a.scales n).getD (k / 32) 127)
    | none => .zero
  | none => .zero

/-- The stationary operand an ARM.LOAD reads (R165, R166). -/
def State.statOf (s : State) (t : Nat) (x : Src) : Stat :=
  let rows := List.range (dExt x.d 1)
  { fmt := s.effFmt t x.d, zp := dZp x.d,
    codes := rows.map fun n => (List.range (dExt x.d 0)).map fun k => s.armCode t x k n,
    scales := rows.map fun n => (List.range ((dExt x.d 0 + 31) / 32)).map fun g => s.armScale x (32 * g) n }

/-- The stationary operand a pass meets: after R58 zeros of the format its mode names (R166). -/
def Stat.under (a : Stat) (m : Mode) : Stat := if a.codes.isEmpty then { a with fmt := if m.kind == 0 then m.fmtB else m.fmtA } else a

/-! ## Sums (R65, R90 to R93) -/

/-- A clamp at ±(2^47 − 1) (R91), with its count. -/
def clamp48 (v : Int) : Int × Nat :=
  let m : Int := 2 ^ 47 - 1
  (clampInt (-m) m v, if v < -m ∨ m < v then 1 else 0)

/-- Products of one cube's K-elements added to its partial sum: exactly on the integer path, rounded once on the floating path. -/
def cubeStep (int : Bool) (p : Val × Nat) (ps : List (Val × Val)) : Val × Nat :=
  stepW int p.2 (ps.foldl (fun acc x => acc.add (x.1.mul x.2)) p.1)

/-- The sum over logical cube rows 0 to 15 for one output (R65). -/
def cubeColumn (int : Bool) (kq : Nat) (a b : Nat → Val) : Val × Nat :=
  (List.range 16).foldl (fun p i => cubeStep int p ((List.range kq).map fun j => (a (kq * i + j), b (kq * i + j)))) (.zero, 0)

/-- A result as a flight carries it: the clamped exact sum, or the fp32 code. -/
def packResult (int : Bool) (r : Val × Nat) : Int × Nat :=
  if int then
    let (v, n) := clamp48 r.1.rat.floor
    (v, r.2 + n)
  else ((roundFp32 r.1).code, r.2)

def unpackResult (int : Bool) (v : Int) : Val := if int then .ofInt v else fp32 v.toNat

/-- A slot's new value (R91, R92): what stood there is read as the slot type of the reader's mode (R167). -/
def slotWrite (int slotInt acc : Bool) (old : BitVec 32) (r : Int) : Conv :=
  let v := unpackResult int r
  let o := if acc then (slotVal slotInt old).1 else .zero
  if int then
    if acc && slotInt then
      let (x, n) := clamp48 (o.rat.floor + v.rat.floor)
      let c := convertInt 16 (.ofInt x)
      { c with sat := c.sat || decide (0 < n) }
    else convertInt 16 (if acc then o.add v else v)
  else if acc then roundFp32 (o.add v)
  else ⟨r.toNat, false, false⟩

/-- An infinity that an accumulating pass reads from an fp32 slot is a conversion saturation (R77). -/
def slotInf (slotInt acc : Bool) (old : BitVec 32) : Bool := acc && (slotVal slotInt old).2

/-! ## Row quads -/

/-- Is it an ARM operation of tile `t` with this op code? -/
def Op.isArm (o : Op) (t op : Nat) : Bool := o.unit == .tile t && iCls o.iw == 8 && iOp o.iw == op

/-- The stream whose row quads are entering: the first that has not entered them all. -/
def State.streamOf (s : State) (t : Nat) : Option Op :=
  s.ops.find? fun o => o.isArm t 2 && o.st == .running && decide (o.done < o.total)

/-- An ARM.LOAD issued before `o` that has not begun. -/
def State.loadAhead (s : State) (t : Nat) (o : Op) : Bool :=
  s.ops.any fun p => p.isArm t 1 && decide (p.id < o.id) && p.done == 0

/-- Is slot `key` held against row quad `q` of stream `o` by a reader that has not taken it (R52, R151): one issued before the stream, or
one that takes it from an earlier lap of the stream? -/
def State.slotHeld (s : State) (t : Nat) (o : Op) (q key : Nat) : Bool :=
  s.ops.any fun p => p.unit == .tile t && ((p.readSlots.zip p.laps).drop p.slotsIn.length).any fun k => k.1 == key &&
    (decide (p.id < o.id) ||
      (o.mode.kind != 2 && decide (k.2 < q / 128) && (s.writerOf t p.id key).any fun (w : Op) => w.id == o.id))

/-- Slots row quad `q` of a stream is bound for: its own in WS and IS, all sixteen with the last row quad of an OS pass that is not
continued (R50, R55). -/
def Op.quadSlots (o : Op) (q : Nat) : List Nat :=
  let bank := o.slotNo / 128 * 128
  if o.mode.kind == 2 then
    if q + 1 == o.total && !bit o.iw.w 16 then (List.range 16).map fun g => bank + (o.slotNo + g) % 128 else []
  else [bank + (o.slotNo + q) % 128]

/-- May the stream's next row quad enter in this cycle: spacing (R56, R61, R62), the shadow's gate (R59, R60), loads ahead (R166), the
droop hold (R57), slots (R52) and the droop-free start of a pass? -/
def State.mayEnter (s : State) (t : Nat) (o : Op) : Bool :=
  let x := s.tile t
  let m := o.mode
  let first := decide (x.lastEntry + x.passMode.cyc ≤ s.cyc) && decide (x.passFloor ≤ s.cyc) &&
    (decide (x.lastEntry + 40 ≤ s.cyc) || (x.passMode.kind == m.kind && x.passMode.cls == m.cls)) &&
    (x.shadow.isNone || m.kind == 2 || decide (x.loadStart + (if x.loadWide then 17 else 1) ≤ s.cyc)) &&
    !s.loadAhead t o && s.power.stretch.isNone
  (if o.done == 0 then first else decide (x.lastEntry + m.cyc ≤ s.cyc)) &&
    (o.quadSlots o.done).all fun k => !s.slotHeld t o o.done k

/-- Tag mismatches that row quad `q` meets in an operand (R81): the lowest failing block, `flip` inverting bit 8 of the first scale word
it checks (R344). -/
def State.quadTag (s : State) (o : Op) (x : Src) (q : Nat) (flip : Bool) : Option Nat :=
  if !isMx (dFmt x.d) then none
  else
    let kb := dExt x.d 0 / 32
    let rows := if o.mode.kind == 2 then List.range (dRows x.d)
      else (List.range 4).map (4 * q + ·) |>.filter fun r => decide (r < dRows x.d)
    let cols := if o.mode.kind == 2 then [q * o.mode.kq / 32] else List.range kb
    let bs := (rows.map fun r => cols.map fun g => g + kb * r).flatten
    let bad := (bs.mapIdx fun i b =>
      let w := s.scaleWord x b / 256 % 16
      let w := if flip && i == 0 then (if w % 2 = 0 then w + 1 else w - 1) else w
      (b, w != b % 16)).filter fun y => y.2
    match bad.map fun y => y.1 with
    | [] => none
    | b :: r => some (r.foldl min b)

/-- The result of row quad `q` in WS or IS: 4 streamed rows by 64 stationary columns (R48, R50), with the clamps it met. -/
def State.quadResult (s : State) (t : Nat) (o : Op) (x : Src) (a : Stat) (int : Bool) (q : Nat) : List (List Int) × Nat :=
  let rows := (List.range 4).map fun r => (List.range 64).map fun n =>
    packResult int (cubeColumn int o.mode.kq (fun k => s.armVal t x k (4 * q + r)) (fun k => a.val k n))
  (rows.map fun r => r.map fun v => v.1, (rows.map fun r => (r.map fun v => v.2).sum).sum)

/-- The accumulator set after row quad `q` of an OS pass (R55, R65): each cube's accumulator takes one step. -/
def State.osAccumulate (s : State) (t : Nat) (o : Op) (x y : Src) (int : Bool) (set : List (List Int)) (q : Nat) : List (List Int) × Nat :=
  let ks := (List.range o.mode.kq).map (q * o.mode.kq + ·)
  let rows := (List.range 64).map fun m => (List.range 64).map fun n =>
    packResult int (cubeStep int (unpackResult int ((nth set m).getD n 0), 0) (ks.map fun k => (s.armVal t x k m, s.armVal t y k n)))
  (rows.map fun r => r.map fun v => v.1, (rows.map fun r => (r.map fun v => v.2).sum).sum)

/-- The current OS set and its replacement. -/
def Tile.set (x : Tile) : List (List Int) := nth x.sets x.curSet
def Tile.setSet (x : Tile) (v : List (List Int)) : Tile := { x with sets := put x.sets x.curSet v }

/-- The 16 flights that write a set (R55), group g in force at `base` + g; the other set serves the next pass. -/
def Tile.closeSet (x : Tile) (op bank start : Nat) (acc int slotInt : Bool) (base : Nat) : Tile :=
  let fl := (List.range 16).map fun g =>
    ({ op := op, quad := g, rows := [0, 1, 2, 3], ready := base + g, bank := bank, slot := (start + g) % 128, acc := acc, isInt := int,
       vals := (List.range 4).map (fun r => nth x.set (4 * g + r)), slotInt := slotInt, mx := false } : Flight)
  { x with flights := x.flights ++ fl, sets := put x.sets (1 - x.curSet) [], curSet := 1 - x.curSet, chain := none }

/-- A scale tag fails for a streamed operand (R82, R83, R84): the row quad does not enter, the pass's row quads in the array are discarded,
the slots it had updated are poisoned, an OS chain's set is cleared, and the launch fails. -/
def State.streamMisalign (s : State) (t : Nat) (o : Op) (b : Nat) : State :=
  let done := (List.range (s.inForce t o)).map fun q => o.slotNo / 128 * 128 + (o.slotNo + q) % 128
  let s := s.updTile t fun x =>
    { (if o.mode.kind == 2 then { x.setSet [] with chain := none } else { x with poison := x.poison ++ done.filter fun k => !x.poison.contains k }) with
      flights := x.flights.filter fun f => f.op != o.id }
  (s.dropOp o.id).raiseOp o xSCALEMISALIGN b 2 (s.tileOrd o.ctx t)

/-- An injected detection that reports through the completion record alone: a SCALE_TAG injection is spent (R344, R352). -/
def State.takeTagFlip (s : State) (t : Nat) : Bool × State := if s.injHits 0x0E t then (true, s.disarm) else (false, s)

/-- Parity of a book or table entry, by injection (R344 code 0x04): the operation that reads the book or table at `a` ends with DATA-ERROR. -/
def State.tableError (s : State) (t : Nat) (o : Op) (a : Nat) : Bool × State :=
  if s.injHits 0x04 t then
    (true, (s.disarm.detect { det := 0x04, sev := 1, place := t, ctx := some (o.ctx, o.gen), injected := true, seq := some o.seq,
                               addr := ownPhys a, addrKind := 2 }).raiseOp o xDATAERROR (ownPhys a) 0 0)
  else (false, s)

/-- Parity of a slot value, by injection (R344 code 0x03). -/
def State.bankError (s : State) (t : Nat) (o : Op) (key : Nat) : Bool × State :=
  if s.injHits 0x03 t then
    (true, (s.disarm.detect { det := 0x03, sev := 1, place := t, ctx := some (o.ctx, o.gen), injected := true, seq := some o.seq,
                               addr := key, addrKind := 3 }).raiseOp o xDATAERROR key 0 0)
  else (false, s)

/-- The pass's first row quad (R49, R59, R61): the shadow's operand comes into force behind the chisel front that enters now, and the floor
for the next pass is set; an OS pass that opens no chain starts from an empty set. Four fronts are more than the grid holds at a time. -/
def Tile.beginPass (x : Tile) (o : Op) (cyc : Nat) (int : Bool) : Tile :=
  let x := { x with passStart := cyc, passFloor := cyc + max (o.total * o.mode.cyc) o.mode.floor, passMode := o.mode, passInt := int }
  if o.mode.kind == 2 then (if x.chain.isSome then x else { x.setSet [] with setsInt := int })
  else match x.shadow with
    | some a => { x with active := a, fronts := ((cyc, a) :: x.fronts).take 4, shadow := none }
    | none => x

/-- The extra cycle of a logical cube row at or below the faulty row (R53, R64). -/
def Tile.delta (x : Tile) (i : Nat) : Nat := match x.faulty with | some r => if r ≤ i then 1 else 0 | none => 0

/-- The operand in cube (i, j)'s active register in cycle `c`: that of the last front that has reached it (R59). -/
def Tile.cubeActive (x : Tile) (c i j : Nat) : Stat :=
  match x.fronts.find? fun f => decide (f.1 + 1 + i + j + x.delta i ≤ c) with | some f => f.2 | none => Stat.zero

/-- The operand in cube (i, j)'s shadow in cycle `c`: that of the last load that has reached it (R60). -/
def Tile.cubeShadow (x : Tile) (c i j : Nat) : Stat :=
  match x.loads.find? fun f => decide (f.1 + (if f.2.1 then 2 + 2 * i else 1 + i) + j + x.delta i ≤ c) with | some f => f.2.2 | none => Stat.zero

/-- The path of a pass (R90): of the operands it meets; after R58, of the formats that its mode names (R166). -/
def State.passPath (s : State) (t : Nat) (o : Op) : Bool :=
  if o.mode.kind == 2 then isIntFmt (s.effFmt t o.da) && isIntFmt (s.effFmt t o.db)
  else
    let a := (s.tile t).shadow.getD (s.tile t).active
    if a.codes.isEmpty then o.mode.slotInt else isIntFmt (s.effFmt t o.da) && isIntFmt a.fmt

/-- What a row quad of a WS or IS pass sends into the array: one flight, or in the 16-bit class one for each of its rows, row r a cycle
after row r - 1 (R47, R53). -/
def Op.quadFlights (o : Op) (cyc q : Nat) (int : Bool) (vals : List (List Int)) : List Flight :=
  let f : Flight := ⟨o.id, q, [0, 1, 2, 3], cyc + 40, o.slotNo / 128, (o.slotNo % 128 + q) % 128, bit o.iw.w 17, int, vals, o.mode.slotInt, isMx (dFmt o.da)⟩
  if o.mode.cls == 16 then (List.range 4).map fun r => { f with rows := [r], ready := cyc + 40 + r } else [f]

/-- The row quad enters: its products go into the array, or into the accumulator set. -/
def State.enterQuad (s : State) (t : Nat) (o : Op) : State :=
  let q := o.done
  let x := s.src o.ctx o.da o.scDa
  let y := s.src o.ctx o.db o.scDb
  let os := o.mode.kind == 2
  let s := s.endGap t
  let int := if q == 0 then s.passPath t o else (s.tile t).passInt
  let s := if q == 0 then s.updTile t fun z => z.beginPass o s.cyc int else s
  let ks := List.range (if os then o.mode.kq else o.mode.kMax)
  let ks := if os then ks.map (q * o.mode.kq + ·) else ks
  let rs := if os then List.range 64 else (List.range 4).map (4 * q + ·)
  let infs := s.armInfs t x ks rs + (if os then s.armInfs t y ks rs else 0)
  let last := q + 1 == o.total
  let acc := bit o.iw.w 17
  let bank := o.slotNo / 128
  let start := o.slotNo % 128
  let (sats, s) :=
    if os then
      let (set, n) := s.osAccumulate t o x y int (s.tile t).set q
      let s := s.updTile t fun z => z.setSet set
      (n, s.updTile t fun z =>
        if !last then z
        else if bit o.iw.w 16 then { z with chain := some ⟨bank, start, acc, dFmt o.da, dFmt o.db, o.id⟩ }
        else z.closeSet o.id bank start acc int o.mode.slotInt (s.cyc + 40))
    else
      let (vals, n) := s.quadResult t o x ((s.tile t).active.under o.mode) int q
      (n, s.updTile t fun z =>
        { z with flights := z.flights ++ o.quadFlights s.cyc q int vals })
  let s := s.updTile t fun z => { z with lastEntry := s.cyc }
  let s := s.updOp o.id fun p => { p with done := q + 1 }
  let s := s.incWrap (Reg.sthArmBusy (t / 4) (t % 4)) 63 0 o.mode.cyc
  let k := if o.mode.cls == 16 then 1 else 0
  let s := ((s.noteActivity t k 1).energyEvent o.ctx o.seq k 1).energyEvent o.ctx o.seq 5 4
  ((s.tallyUp o.ctx o.seq 1).workUp o.ctx o.seq 0 1).countSat o.lane sats infs false

/-- Local address of element (k, row r) of a source. -/
def Src.at_ (x : Src) (k r : Nat) : Nat :=
  let (i1, i2, i3) := rowIx x.d r
  (8 * (x.a : Int) + elemBit x.d k i1 i2 i3).toNat / 8

/-- First words that a row quad reads of an operand, its elements' and its scales' (R113, R344). -/
def Op.quadReads (o : Op) (x : Src) : List Nat :=
  let os := o.mode.kind == 2
  let k := if os then o.done * o.mode.kq else 0
  let r := if os then 0 else 4 * o.done
  let (i1, i2, i3) := rowIx x.d r
  x.at_ k r :: (if isMx (dFmt x.d) then [x.sc + 2 * blockOf x.d k i1 i2 i3] else [])

/-- ROW_QUAD_ENTRY (R56): the next row quad of the tile's stream, when it may enter; its scratch words and scales are checked first. -/
def rowQuadEntryS (t : Nat) (s : State) : State :=
  let s := s.takeAll t
  match s.streamOf t with
  | none => s
  | some o =>
    if !s.mayEnter t o then s
    else
      let x := s.src o.ctx o.da o.scDa
      let y := s.src o.ctx o.db o.scDb
      let os := o.mode.kind == 2
      let (ok, s) := s.readAll o (o.quadReads x ++ if os then o.quadReads y else [])
      if !ok then s.dropOp o.id
      else
        let (bad, s) := if isCb (dFmt o.da) || (os && isCb (dFmt o.db)) then
            s.tableError t o (bookAddr t (dCb (if isCb (dFmt o.da) then o.da else o.db))) else (false, s)
        if bad then s.dropOp o.id
        else
          let mx := isMx (dFmt o.da) || (os && isMx (dFmt o.db))
          let (flip, s) := if mx then s.takeTagFlip t else (false, s)
          let ta := s.quadTag o x o.done flip
          let tb := if os then s.quadTag o y o.done (flip && !isMx (dFmt o.da)) else none
          match ta, tb with
          | none, none => s.enterQuad t o
          | some b, none | none, some b => s.streamMisalign t o b
          | some b, some c => s.streamMisalign t o (min b c)

def execRowQuadEntry (tile : Nat) (s : State) : Host.Outcome State Fault Refusal := .next (rowQuadEntryS tile s)

/-- The values of a slot that a flight carries, by number: row times 64 plus column. -/
def Flight.cellsIn (f : Flight) : List Nat := (List.range 256).filter fun i => f.rows.contains (i / 64)

/-- A slot written by a flight, rows of 64 values (R50, R51): the values, the accumulator saturations, the infinities read, and a NaN. -/
def State.landRows (s : State) (t : Nat) (f : Flight) : List (Nat × BitVec 32) × Nat × Nat × Bool :=
  let old := fun i => s.bankBits t f.bank f.slot (i / 64) (i % 64)
  let cs := f.cellsIn.map fun i => (i, slotWrite f.isInt f.slotInt f.acc (old i) ((nth f.vals (i / 64)).getD (i % 64) 0))
  (cs.map fun c => (f.bank * 32768 + f.slot * 256 + c.1, BitVec.ofNat 32 c.2.code), (cs.filter fun c => c.2.sat).length,
    (f.cellsIn.filter fun i => slotInf f.slotInt f.acc (old i)).length, cs.any fun c => c.2.nan)

def putBanks (b : Sparse (BitVec 32)) : List (Nat × BitVec 32) → Sparse (BitVec 32)
  | [] => b
  | (k, v) :: r => putBanks (sparseSet 0 b k v) r

/-- A result comes into force: a pass that accumulates reads the slot first (R84, R344); an overwrite ends its poisoning. -/
def State.land (s : State) (t : Nat) (f : Flight) : State :=
  let key := f.bank * 128 + f.slot
  let rest := (s.tile t).flights.erase f
  let s := s.updTile t fun x => { x with flights := rest }
  match s.op? f.op with
  | none => s
  | some o =>
    if f.acc && (s.tile t).poison.contains key then s.raiseOp o xPOISONEDSLOT 0 0 0
    else
      let (bad, s) := if f.acc then s.bankError t o key else (false, s)
      if bad then s
      else
        let (cells, n, inf, nan) := s.landRows t f
        let s := s.updTile t fun x => { x with banks := putBanks x.banks cells,
                                               poison := if f.acc || !f.rows.contains 3 then x.poison else x.poison.filter (· != key) }
        ((s.countSat o.lane n inf nan).stickyNan o.ctx nan).takeAll t

/-- ROW_QUAD_RESULT (R53, R54, R55): the oldest result that is due comes into force in its slot. -/
def rowQuadResultS (t : Nat) (s : State) : State :=
  match (s.tile t).flights.find? fun f => decide (f.ready ≤ s.cyc) with
  | some f => s.land t f
  | none => s

def execRowQuadResult (tile : Nat) (s : State) : Host.Outcome State Fault Refusal := .next (rowQuadResultS tile s)

/-! ## Loads -/

/-- The load that waits for the load input: running and not begun. -/
def State.loadOf (s : State) (t : Nat) : Option Op := s.ops.find? fun o => o.isArm t 1 && o.st == .running && o.done == 0

/-- May it begin (R60, R63): no operand waits in the shadows, the passes issued before it have entered their first row quad, and the load
before it has left the load input. -/
def State.mayLoad (s : State) (t : Nat) (o : Op) : Bool :=
  let x := s.tile t
  x.shadow.isNone && (x.loads.isEmpty || decide (x.loadStart + (if x.loadWide then 32 else 16) ≤ s.cyc)) &&
    s.ops.all fun p => !(p.isArm t 2 && decide (p.id < o.id) && p.done == 0)

/-- ARM_SHADOW_LOAD (R60, R81, R166): the load begins and every cube's shadow is complete 16 or 32 cycles and the skew later. -/
def armShadowLoadS (t : Nat) (s : State) : State :=
  match s.loadOf t with
  | none => s
  | some o =>
    if !s.mayLoad t o then s
    else
      let x := s.src o.ctx o.da o.scDa
      let (ok, s) := s.readAll o (x.a :: if isMx (dFmt o.da) then [x.sc] else [])
      if !ok then s.dropOp o.id
      else
        let (bad, s) := if isCb (dFmt o.da) then s.tableError t o (bookAddr t (dCb o.da)) else (false, s)
        if bad then s.dropOp o.id
        else
          let (flip, s) := if isMx (dFmt o.da) then s.takeTagFlip t else (false, s)
          match s.badTag x flip with
          | some b => (s.dropOp o.id).raiseOp o xSCALEMISALIGN b 1 (s.tileOrd o.ctx t)
          | none =>
            let wide := o.mode.cls == 16
            let fin := s.cyc + (if wide then 47 else 31) + (s.tile t).delta 15
            let infs := s.armInfs t x (List.range (dExt x.d 0)) (List.range (dExt x.d 1))
            let a := s.statOf t x
            let s := s.updTile t fun z => { z with shadow := some a, loadStart := s.cyc, loadDone := fin, loadWide := wide,
                                                   loads := ((s.cyc, wide, a) :: z.loads).take 4 }
            let s := (s.updOp o.id fun p => { p with done := 1, tick := fin }).energyEvent o.ctx o.seq 3 16
            s.countSat o.lane 0 infs false

def execArmShadowLoad (tile : Nat) (s : State) : Host.Outcome State Fault Refusal := .next (armShadowLoadS tile s)

/-! ## Chains -/

/-- An open chain closed as though its last pass had not been continued (R168): its set is written under R55, with that pass's acc, for
operation `op`. -/
def State.closeChain (s : State) (t op : Nat) (slotInt : Bool) : State :=
  s.updTile t fun x =>
    match x.chain with
    | some c => x.closeSet op c.bank c.start c.acc x.setsInt slotInt (max s.cyc (x.lastEntry + 40))
    | none => x

/-! ## Gaps -/

/-- GAP_START (R68, R70): a feeder cycle with no real row quad in a leased tile; STH_ARM_FILL_X is sampled. -/
def gapStartS (t : Nat) (s : State) : State :=
  let x := s.tile t
  let busy := match s.streamOf t with
    | some o => s.mayEnter t o
    | none => false
  if x.lease.isNone || x.gap.isSome || x.rest != .awake || busy || decide (s.cyc < x.lastEntry + x.passMode.cyc) then s
  else
    let g := s.newGap t
    s.updTile t fun x => { x with gap := some g }

def execGapStart (tile : Nat) (s : State) : Host.Outcome State Fault Refusal := .next (gapStartS tile s)

/-- FILLER_LIMIT_EXPIRY (R69): an unknown gap has lasted limit_ns; the level begins to fall, from the limit on whenever this is told. -/
def fillerLimitExpiryS (t : Nat) (s : State) : State :=
  match (s.tile t).gap with
  | some g =>
    if g.enable && g.known.isNone && !g.falling && decide (g.up + 4 * g.limit ≤ s.up) then
      s.updTile t fun x => { x with gap := some { g with falling := true } }
    else s
  | none => s

def execFillerLimitExpiry (tile : Nat) (s : State) : Host.Outcome State Fault Refusal := .next (fillerLimitExpiryS tile s)

/-! ## Clearing and zeroing -/

/-- TILE_CLEAR_DONE (R58, R84): every stationary register, both sets, all banks and every poison mark are clear. -/
def tileClearDoneS (t : Nat) (s : State) : State :=
  match (s.tile t).clearArr with
  | some c =>
    if decide (c ≤ s.cyc) then
      s.updTile t fun x => { x with clearArr := none, active := Stat.zero, fronts := [], shadow := none, loads := [], sets := [[], []], chain := none, flights := [], idleSince := s.up,
                                    banks := [], poison := [] }
    else s
  | none => s

def execTileClearDone (tile : Nat) (s : State) : Host.Outcome State Fault Refusal := .next (tileClearDoneS tile s)

/-- LEASE_ZERO_DONE (R115): the area reads zero and can be leased again; a tile's books are invalid with their slots zero (R88). -/
def leaseZeroDoneS (area : ZeroArea) (s : State) : State :=
  match area with
  | .tile t =>
    match (s.tile t).clearScr with
    | some c =>
      if decide (c ≤ s.cyc) then
        ((((s.zeroMem (tileAddr t) tileSize).zeroMem (tableAddr t 0) 0x10000).zeroMem (bookAddr t 0) 0x4000).updTile t fun x =>
          { x with clearScr := none, idleSince := s.up, books := List.replicate 16 (false, false), tables := List.replicate 8 false, bookDirty := [], tableDirty := [] }).debugAnswer (.tile t)
      else s
    | none => s
  | .range k base size =>
    match (s.cluster k).zeroing.find? fun z => z.1 == base && z.2.1 == size with
    | some z =>
      if decide (z.2.2 ≤ s.cyc) then
        (s.zeroMem (clusterAddr k + base * 0x100000) (size * 0x100000)).updCluster k fun x => { x with zeroing := x.zeroing.erase z }
      else s
    | none => s

def execLeaseZeroDone (area : ZeroArea) (s : State) : Host.Outcome State Fault Refusal := .next (leaseZeroDoneS area s)

/-- BOOK_WRITE_VALIDATE (R88): the book is judged as its image stands when a write to its slot completes. -/
def bookWriteValidateS (t b : Nat) (s : State) : State :=
  if (s.tile t).bookDirty.contains b then
    let ok := s.bookValid t b
    s.updTile t fun x => { x with books := put x.books b (ok, ok && s.bookSorted t b), bookDirty := x.bookDirty.erase b }
  else s

def execBookWriteValidate (tile book : Nat) (s : State) : Host.Outcome State Fault Refusal := .next (bookWriteValidateS tile book s)

/-- TABLE_WRITE_VALIDATE (R119). -/
def tableWriteValidateS (t n : Nat) (s : State) : State :=
  if (s.tile t).tableDirty.contains n then
    s.updTile t fun x => { x with tables := put x.tables n (s.tableValid t n), tableDirty := x.tableDirty.erase n }
  else s

def execTableWriteValidate (tile table : Nat) (s : State) : Host.Outcome State Fault Refusal := .next (tableWriteValidateS tile table s)

/-- CALIBRATION_EVENT (R101): the counts of a launch on a cluster first reach the threshold it sampled. In the cycle of a write that clears
calib, launch and cluster keep the values of the event that set it first (R103). -/
def calibrationEventS (l : LaneId) (s : State) : State :=
  let x := s.lane l
  if x.st == .idle || x.calib || x.threshold == 0 || decide (x.accSat + x.convSat < x.threshold) then s
  else
    let off := Reg.ctxNumStatus x.ctx
    let first := !s.flag off 0
    let s := (s.updLane l fun x => { x with calib := true }).updLaunch x.ctx x.seq fun y => { y with calib := true }
    let same := (s.ctx x.ctx).calibClr == some s.cyc
    let s := s.updCtx x.ctx fun y => { y with calibSet := some s.cyc }
    let s := if first && !same then (s.setFld off 11 8 (s.clusterOrd x.ctx l.cl)).setFld off 47 32 x.seq else s
    let s := s.setBitsIn off 1
    if x.irqEn then s.setBitsIn (Reg.ctxAttn x.ctx) 4 else s

def execCalibrationEvent (l : LaneId) (s : State) : Host.Outcome State Fault Refusal := .next (calibrationEventS l s)

end Sys2Proof.Machine
end

