-- ==== Sys2Proof/Machine/Tensor.lean ====
section
/-!
DEFINITION. Issue of the ARM and VEC instructions (R157 to R174): targets, places, checks, and the operations they become.
-/
namespace Sys2Proof.Machine

open Sys2Proof

/-! ## Targets and places (R158, R159) -/

/-- Physical tiles an instruction names; a bit at or beyond S4 is SCRATCH-RANGE. -/
def State.targets (s : State) (l : LaneId) (m : Nat) : Except Nat (List Nat) :=
  let x := s.lane l
  let mine := ((s.leaseTiles x.ctx).drop x.s3).take x.s4
  if m == 0 then .ok mine
  else if 2 ^ x.s4 ≤ m then .error xSCRATCHRANGE
  else .ok ((maskBits 4 m).filterMap fun i => mine[i]?)

/-- tl (R158): the tile field of a tag-0x3 base in the tile-scratch area becomes the target's lease ordinal. -/
def tileBase (tl : Bool) (ord : Nat) (d : Desc) : Desc :=
  let b := dBase d
  if tl && b / 2 ^ 60 == 3 && b / 2 ^ 26 % 2 ^ 34 == 0 then
    dSetBase d (b - b / 2 ^ 22 % 16 * 2 ^ 22 + ord % 16 * 2 ^ 22)
  else d

/-- The interval of an ARM or VEC operand's bytes `lo` to `hi` (device virtual addresses), in the target's own tile scratch or in the
context's range of its own cluster's scratch; the exception where it lies elsewhere. -/
def State.placeIval (s : State) (c t lo hi : Nat) (wr : Bool) : Except Nat Ival :=
  if !tagOk lo then .error xINVALIDADDRESS
  else if vaTag lo ≠ 3 then .error xOPERANDPLACE
  else
    match s.leaseAddr c (lo % 2 ^ 60), s.leaseAddr c (hi % 2 ^ 60) with
    | some a, some b =>
      match storeOf s.straps a, storeOf s.straps b with
      | some (x, p), some (y, q) =>
        if x == y && (x == t || x == 16 + t / 4) then .ok ⟨x, p, q, wr⟩ else .error xOPERANDPLACE
      | _, _ => .error xOPERANDPLACE
    | _, _ => .error xSCRATCHRANGE

/-- The span of a tensor as an interval. -/
def State.tensorIval (s : State) (c t : Nat) (d : Desc) (wr : Bool) : Except Nat Ival :=
  let (lo, hi) := dSpan d
  s.placeIval c t ((dBase d : Int) + lo).toNat ((dBase d : Int) + hi).toNat wr

/-- The span of a scale stream of `n` words. -/
def State.scaleIval (s : State) (c t : Nat) (sc : Desc) (n : Nat) (wr : Bool) : Except Nat Ival :=
  s.placeIval c t (dBase sc) (dBase sc + 2 * n - 1) wr

/-- A tensor operand with its scale stream when it is an MX tensor, and with its book when it is a codebook tensor (R88). -/
def State.operandIvals (s : State) (c t : Nat) (d sc : Desc) (wr : Bool) : Except Nat (List Ival) := do
  let a ← s.tensorIval c t d wr
  let b ← if isMx (dFmt d) then (do pure [← s.scaleIval c t sc (dBlocks d) wr]) else pure []
  let bk : List Ival := if isCb (dFmt d) then [⟨32 + t, dCb d * 0x400, dCb d * 0x400 + 0x3FF, false⟩] else []
  pure (a :: b ++ bk)

/-- The mode R164 determines for a tile at issue: the most recent ARM.MODE the lane has issued to it, or the mode the tile keeps; a CB code
of fmt_b stands as the entry format of the book last named on the tile (log entry 13). -/
def State.modeAt (s : State) (t : Nat) : Mode :=
  let m := (s.tile t).issuedMode
  if isCb m.fmtB then { m with fmtB := if m.cbw then 11 else (s.tile t).cbFmt } else m

/-- A check passes, or the exception it raises. -/
def need (b : Bool) (e : Nat) : Except Nat Unit := if b then .ok () else .error e

/-- The checks of a whole descriptor (R146). -/
def needDesc (d : Desc) : Except Nat Unit := match descCheck d with | none => .ok () | some e => .error e

/-- The shared part of an ARM or VEC operation for one target. -/
def State.tileOp (s : State) (l : LaneId) (i : IWord) (t : Nat) : Op :=
  let x := s.lane l
  let ord := s.tileOrd x.ctx t
  let sub := tileBase (tTl i) ord
  let dd := sub (x.dv (tDd i))
  let da := sub (x.dv (tDa i))
  let db := sub (x.dv (tDb i))
  let dc := sub (x.dv (tDc i))
  let sc := fun d => if dScEn d then sub (x.dv (dScD d)) else 0
  let rs := tRs i
  { s.newOp l i (.tile t) with
    dd := dd, da := da, db := db, dc := dc, scDd := sc dd, scDa := sc da, scDb := sc db, planes := [sc dc],
    sc := [x.sv rs, x.sv (rs + 1), if tCtl i 3 3 == 1 then x.sv (rs + 2) else 0], mode := s.modeAt t }

/-- The operations of an instruction on its targets, each checked (R155: all before any takes effect), or the first exception. -/
def State.tileOps (s : State) (l : LaneId) (i : IWord) (check : Nat → Op → Except Nat Op) : Except Nat (List Op) := do
  let ts ← s.targets l (tTiles i)
  ts.mapM fun t => check t (s.tileOp l i t)

/-- A tensor instruction issues: its operations enter their queues, and `after` notes on each target what later instructions are judged
by; an exception found at issue stops the launch. The queues of all targets need room before a check is made. -/
def State.issueTiles (s : State) (l : LaneId) (i : IWord) (check : Nat → Op → Except Nat Op) (after : Nat → Op → State → State) : State :=
  match s.tileOps l i check with
  | .error e => s.raise l e 0
  | .ok os =>
    match os.find? fun o => decide (8 ≤ s.queueLen o.unit l) with
    | some o => s.waitLane l 3 (s.queueArg o.ctx o.unit)
    | none =>
      if 64 < (s.laneOps l).length + os.length then s.waitLane l 11 0
      else
        let noted := os.foldl (fun (p : State × Nat) o => match o.unit with
          | .tile t => (after t { o with id := p.2 } p.1, p.2 + 1)
          | _ => p) (s, s.nextOp)
        (noted.1.addOps os).advance l i

/-- Registers an ARM or VEC instruction reads (R149): its descriptors, the scale descriptors they name, its scalars. -/
def State.tensorRegs (s : State) (l : LaneId) (_i : IWord) (ds : List Nat) (ss : List Nat) : List Nat :=
  let x := s.lane l
  ds.map rD ++ (ds.filterMap fun d => if dScEn (x.dv d) then some (rD (dScD (x.dv d))) else none) ++ ss.map rS

/-! ## ARM (R162 to R169) -/

/-- May a code be named for activations: not CB, int32, fp32 or reserved (R73)? -/
def actFmt (f : Nat) : Bool := (fmtBits f).isSome && !isCb f && f != 16 && f != 17
/-- For weights: not uint8, int32, fp32 or reserved. -/
def weightFmt (f : Nat) : Bool := (fmtBits f).isSome && f != 1 && f != 16 && f != 17

/-- The pair rule of R47: one width class, or 4-bit with 8-bit. -/
def pairOk (a b : Nat) (cbw : Bool) : Bool :=
  let x := widthClass a false
  let y := widthClass b cbw
  x == y || (x != 16 && y != 16)

/-- The descriptor of an operand named with format `f` (R164): same width class; a CB tensor's book valid, of the count its code asks and
with entries that agree with cbw (R86). -/
def State.armDesc (s : State) (t : Nat) (d : Desc) (f : Nat) (cbw weight : Bool) : Except Nat Unit := do
  needDesc d
  need (if weight then weightFmt (dFmt d) else actFmt (dFmt d)) xFORMATINVALID
  if isCb (dFmt d) then
    let (valid, _) := nth (s.tile t).books (dCb d)
    need valid xFORMATINVALID
    need (s.bookCount t (dCb d) == (if dFmt d == 13 then 16 else 256)) xFORMATINVALID
    need ((s.bookFmt t (dCb d) == 11) == cbw) xFORMATINVALID
    need (widthClass (s.bookFmt t (dCb d)) false == widthClass f cbw) xFORMATINVALID
  else need (widthClass (dFmt d) false == widthClass f cbw) xFORMATINVALID

/-- Does an operation find an open chain on its tile that it does not go on with (R168)? -/
def State.chainOk (s : State) (t : Nat) : Except Nat Unit := need (s.tile t).chainIssued.isNone xSHAPEINVALID

/-- ARM.MODE (R163). -/
def armModeBody (l : LaneId) (i : IWord) (s : State) : State :=
  let m : Mode := ⟨tCtl i 20 19, tCtl i 18 14, tCtl i 13 9, bit i.w 8⟩
  s.issueTiles l i
    (fun t o => do
      need (actFmt m.fmtA && weightFmt m.fmtB && pairOk m.fmtA m.fmtB m.cbw) xFORMATINVALID
      s.chainOk t
      pure { o with mode := m })
    (fun t _ s => s.updTile t fun x => { x with issuedMode := m })

/-- ARM_MODE (R163). -/
def execArmMode (l : LaneId) (i : IWord) (s : State) : Host.Outcome State Fault Refusal :=
  .next (s.issue l i 8 0 [] (armModeBody l i))

/-- The checks of ARM.LOAD on one target (R164 to R168). -/
def State.checkLoad (s : State) (t : Nat) (o : Op) : Except Nat Op := do
  let m := (s.tile t).issuedMode
  let f := if m.kind == 0 then m.fmtB else m.fmtA
  s.chainOk t
  need (m.kind != 2) xSHAPEINVALID
  s.armDesc t o.da f m.cbw (m.kind == 0)
  need (decide (dExt o.da 0 ≤ o.mode.kMax) && decide (dExt o.da 1 ≤ 64) && dExt o.da 2 == 1 && dExt o.da 3 == 1) xSHAPEINVALID
  let iv ← s.operandIvals o.ctx t o.da o.scDa false
  pure { o with ivals := iv }

/-- The book an operand names becomes the one the tile's CB code stands for. -/
def State.noteBook (s : State) (t : Nat) (d : Desc) : State :=
  if isCb (dFmt d) then
    let f := s.bookFmt t (dCb d)
    s.updTile t fun x => { x with cbFmt := f }
  else s

/-- ARM_LOAD (R166). -/
def execArmLoad (l : LaneId) (i : IWord) (s : State) : Host.Outcome State Fault Refusal :=
  .next (s.issue l i 8 1 (s.tensorRegs l i [tDa i] []) fun s =>
    s.issueTiles l i s.checkLoad (fun t o s => s.noteBook t o.da))

/-- The checks of ARM.STREAM on one target (R83, R164, R165, R168), with the row quads it will enter and its first slot. -/
def State.checkStream (s : State) (t : Nat) (o : Op) : Except Nat Op := do
  let m := (s.tile t).issuedMode
  let i := o.iw
  let start := (nth o.sc 0).toNat % 128
  let o := { o with sc := [nth o.sc 0], slotNo := tCtl i 20 18 * 128 + start }
  if m.kind == 2 then
    match (s.tile t).chainIssued with
    | some c =>
      need (c.bank == tCtl i 20 18 && c.start == start && c.fmtA == dFmt o.da && c.fmtB == dFmt o.db) xSHAPEINVALID
    | none => pure ()
    s.armDesc t o.da m.fmtA m.cbw false
    s.armDesc t o.db m.fmtB m.cbw true
    let nq := (dExt o.da 0 + o.mode.kq - 1) / o.mode.kq
    need (decide (dExt o.da 1 ≤ 64) && dExt o.da 2 == 1 && dExt o.da 3 == 1 && dExt o.db 0 == dExt o.da 0 &&
      decide (dExt o.db 1 ≤ 64) && dExt o.db 2 == 1 && dExt o.db 3 == 1 && decide (nq ≤ 2 ^ 24)) xSHAPEINVALID
    let a ← s.operandIvals o.ctx t o.da o.scDa false
    let b ← s.operandIvals o.ctx t o.db o.scDb false
    pure { o with ivals := a ++ b, total := nq }
  else
    s.chainOk t
    need (tDb i == 0 && !bit i.w 16) xSHAPEINVALID
    s.armDesc t o.da (if m.kind == 0 then m.fmtA else m.fmtB) m.cbw (m.kind == 1)
    let nq := (dRows o.da + 3) / 4
    need (decide (dExt o.da 0 ≤ o.mode.kMax) && decide (nq ≤ 2 ^ 24)) xSHAPEINVALID
    need (!isMx (dFmt o.da) || decide (nq ≤ 128)) xFORMATINVALID
    let a ← s.operandIvals o.ctx t o.da o.scDa false
    pure { o with ivals := a, total := nq }

/-- Does an ARM.STREAM read db: on a target in OS mode, or with a db field that names one (R165)? -/
def State.streamsDb (s : State) (l : LaneId) (i : IWord) : Bool :=
  tDb i != 0 || match s.targets l (tTiles i) with | .ok ts => ts.any fun t => (s.tile t).issuedMode.kind == 2 | .error _ => false

/-- ARM_STREAM (R167). -/
def execArmStream (l : LaneId) (i : IWord) (s : State) : Host.Outcome State Fault Refusal :=
  .next (s.issue l i 8 2 (s.tensorRegs l i (if s.streamsDb l i then [tDa i, tDb i] else [tDa i]) [tRs i]) fun s =>
    s.issueTiles l i s.checkStream fun t o s =>
      let open_ := if o.mode.kind == 2 && bit i.w 16 then
          some (⟨o.slotNo / 128, o.slotNo % 128, bit i.w 17, dFmt o.da, dFmt o.db, o.id⟩ : Chain) else none
      ((s.updTile t fun x => { x with chainIssued := open_ }).noteBook t o.da).noteBook t o.db)

/-- ARM_DRAIN (R169): it closes an open chain, whose slots it then writes. -/
def execArmDrain (l : LaneId) (i : IWord) (s : State) : Host.Outcome State Fault Refusal :=
  .next (s.issue l i 8 3 [] fun s =>
    s.issueTiles l i
      (fun t o => match (s.tile t).chainIssued with
        | some c => .ok { o with total := 1, slotNo := c.bank * 128 + c.start }
        | none => .ok o)
      (fun t _ s => s.updTile t fun x => { x with chainIssued := none }))

/-! ## VEC (R170 to R174) -/

/-- Is a format allowed for a destination: never CB but for CBENC, never MX but for QMX (R170)? -/
def destOk (op f : Nat) : Bool :=
  (fmtBits f).isSome && (if op == 0x12 then isMx f else if op == 0x14 then isCb f else !isMx f && !isCb f)

/-- A source that follows dd's extents, each equal or 1 (R171). -/
def castOk (x dd : Desc) : Bool := (List.range 4).all fun a => dExt x a == dExt dd a || dExt x a == 1
/-- Equal extents on a list of axes. -/
def sameExt (x y : Desc) (axes : List Nat) : Bool := axes.all fun a => dExt x a == dExt y a

/-- The shape rules of R171, R172 and R174. -/
def vecShape (o : Op) : Bool :=
  let i := o.iw
  let dd := o.dd
  let da := o.da
  let db := o.db
  match iOp i with
  | 0 | 1 | 2 | 4 | 5 | 6 => castOk da dd && castOk db dd
  | 3 | 7 => castOk da dd && castOk db dd && castOk o.dc dd
  | 8 => if bit i.w 20 then decide (dExt dd 0 ≤ 64) && decide (dRows dd ≤ 512) else castOk da dd
  | 0x10 | 0x11 =>
    decide (dExt dd 0 ≤ 64) && decide (dRows dd ≤ 512) && !(bit i.w 15 && decide (16 < fmtW (dFmt dd)))
  | 0x18 => castOk da dd
  | 9 | 0x28 | 0x29 => dExt dd 0 == 1 && sameExt dd da [1, 2, 3]
  | 0x2A =>
    let k := tCtl i 7 0 + 1
    dExt dd 0 == k && dExt o.dc 0 == k && sameExt dd da [1, 2, 3] && sameExt o.dc da [1, 2, 3] && decide (k ≤ dExt da 0)
  | 0x12 | 0x14 => sameExt dd da [0, 1, 2, 3]
  | 0x13 => dCount db == dBlocks da
  | 0x20 | 0x21 => sameExt dd da [0, 3]
  | 0x30 => dExt da 0 == 4 && sameExt db da [0, 1] && sameExt dd da [0, 1] && [da, db, dd].all fun d => dExt d 2 == 1 && dExt d 3 == 1
  | 0x31 | 0x32 | 0x33 =>
    (iOp i != 0x33 || dExt da 0 == 4) && dExt db 0 == dExt da 0 && dExt dd 0 == dExt db 1 && dExt dd 1 == dExt da 1 &&
      [da, db, dd].all fun d => dExt d 2 == 1 && dExt d 3 == 1
  | _ => true

/-- The fixed formats of R171, R172 and R173. -/
def vecFormat (o : Op) : Bool :=
  match iOp o.iw with
  | 6 => dFmt o.dd == 0
  | 0x28 | 0x29 => dFmt o.dd == 16
  | 0x2A => dFmt o.dc == 16 && dFmt o.dd == dFmt o.da
  | 0x10 => o.mode.slotInt
  | 0x11 => !o.mode.slotInt
  | 0x13 => isMx (dFmt o.da) && dFmt o.db == 1 && dZp o.db == 0
  | _ => true

/-- Which descriptors of an operation are tensors it reads, and which it writes: (reads, writes). -/
def vecTensors (o : Op) : List (Desc × Desc) × List (Desc × Desc) :=
  let a := (o.da, o.scDa)
  let b := (o.db, o.scDb)
  let c := (o.dc, nth o.planes 0)
  let d := (o.dd, o.scDd)
  if bankSrc o.iw then ([], [d])
  else
    match iOp o.iw with
    | 3 | 7 => ([a, b, c], [d])
    | 0 | 1 | 2 | 4 | 5 | 6 | 0x30 | 0x31 | 0x32 | 0x33 => ([a, b], [d])
    | 0x13 => ([b], [])
    | 0x2A => ([a], [d, c])
    | _ => ([a], [d])

/-- The table an operation names is valid, and fits it (R119, R120, R123). -/
def State.checkTable (s : State) (t : Nat) (o : Op) : Except Nat (List Ival) := do
  let n := tCtl o.iw 2 0
  if iOp o.iw == 0x18 || iOp o.iw == 0x30 then
    need (nth (s.tile t).tables n) xTABLEINVALID
    let k := (s.table t n).kind
    if iOp o.iw == 0x30 then need (k == 1) xTABLEINVALID
    else need (k == 1 || fmtBits (dFmt o.da) == some 8) xFORMATINVALID
    pure [⟨48 + t, n * 0x2000, n * 0x2000 + 0x1FFF, false⟩]
  else pure []

/-- The book that VEC.CBENC writes indices into: valid, of the count asked, sorted (R86, R89). -/
def State.checkBook (s : State) (t : Nat) (o : Op) : Except Nat Unit := do
  if iOp o.iw == 0x14 then
    let (valid, sorted) := nth (s.tile t).books (dCb o.dd)
    need valid xFORMATINVALID
    need (s.bookCount t (dCb o.dd) == (if dFmt o.dd == 13 then 16 else 256)) xFORMATINVALID
    need sorted xCODEBOOKUNSORTED

/-- All intervals of a list of operands. -/
def State.allIvals (s : State) (c t : Nat) (wr : Bool) : List (Desc × Desc) → Except Nat (List Ival)
  | [] => pure []
  | (d, sc) :: r => do
    let a ← s.operandIvals c t d sc wr
    let b ← s.allIvals c t wr r
    pure (a ++ b)

/-- The checks of a VEC instruction on one target. -/
def State.checkVec (s : State) (t : Nat) (o : Op) : Except Nat Op := do
  let (rd, wr) := vecTensors o
  (rd ++ wr).forM fun p => needDesc p.1
  rd.forM fun p => need (!isCb (dFmt p.1)) xFORMATINVALID
  (if iOp o.iw == 0x13 then needDesc o.da else pure ())
  (if iOp o.iw == 0x10 || iOp o.iw == 0x11 then needDesc o.db else pure ())
  wr.forM fun p => need (destOk (iOp o.iw) (dFmt p.1)) xFORMATINVALID
  need (vecFormat o) xFORMATINVALID
  need (vecShape o) xSHAPEINVALID
  s.checkBook t o
  let tb ← s.checkTable t o
  let a ← s.allIvals o.ctx t false rd
  let b ← s.allIvals o.ctx t true wr
  let sc ← if iOp o.iw == 0x13 then (do pure [← s.scaleIval o.ctx t o.scDa (dBlocks o.da) true]) else pure []
  let rq ← if iOp o.iw == 0x10 || iOp o.iw == 0x11 then
      (do
        let n := if bit o.iw.w 16 then dRows o.dd else dExt o.dd 0
        pure [← s.placeIval o.ctx t (dBase o.db) (dBase o.db + 16 * n - 1) false])
    else pure []
  pure { o with ivals := tb ++ a ++ b ++ sc ++ rq, laps := o.readSlots.map (s.lapOf t o.id) }

/-- Registers of a VEC instruction (R170, R174). -/
def State.vecRegs (s : State) (l : LaneId) (i : IWord) : List Nat :=
  match vecUses (iOp i) with
  | none => []
  | some (dd, da, db, dc, _, _) =>
    let bank := bankSrc i
    let ds := (if dd then [tDd i] else []) ++ (if da && !bank then [tDa i] else []) ++ (if db then [tDb i] else []) ++ (if dc then [tDc i] else [])
    let ss := if iOp i == 0x30 then [tRs i, tRs i + 1] ++ (if tCtl i 3 3 == 1 then [tRs i + 2] else [])
      else if bank then [tRs i] else []
    s.tensorRegs l i ds ss

/-- A VEC instruction of operation `op` issues. -/
def vecS (l : LaneId) (i : IWord) (op : Nat) (s : State) : State :=
  s.issue l i 9 op (s.vecRegs l i) fun s => s.issueTiles l i s.checkVec fun t o s => s.noteUses t o.id o.readSlots

/-- VEC.ADD (R170). -/
def execVecAdd (l : LaneId) (i : IWord) (s : State) : Host.Outcome State Fault Refusal := .next (vecS l i 0 s)

/-- VEC.SUB (R170). -/
def execVecSub (l : LaneId) (i : IWord) (s : State) : Host.Outcome State Fault Refusal := .next (vecS l i 1 s)

/-- VEC.MUL (R170). -/
def execVecMul (l : LaneId) (i : IWord) (s : State) : Host.Outcome State Fault Refusal := .next (vecS l i 2 s)

/-- VEC.FMA (R170). -/
def execVecFma (l : LaneId) (i : IWord) (s : State) : Host.Outcome State Fault Refusal := .next (vecS l i 3 s)

/-- VEC.MIN (R170). -/
def execVecMin (l : LaneId) (i : IWord) (s : State) : Host.Outcome State Fault Refusal := .next (vecS l i 4 s)

/-- VEC.MAX (R170). -/
def execVecMax (l : LaneId) (i : IWord) (s : State) : Host.Outcome State Fault Refusal := .next (vecS l i 5 s)

/-- VEC.CMP (R170). -/
def execVecCmp (l : LaneId) (i : IWord) (s : State) : Host.Outcome State Fault Refusal := .next (vecS l i 6 s)

/-- VEC.SEL (R170). -/
def execVecSel (l : LaneId) (i : IWord) (s : State) : Host.Outcome State Fault Refusal := .next (vecS l i 7 s)

/-- VEC.CVT (R172). -/
def execVecCvt (l : LaneId) (i : IWord) (s : State) : Host.Outcome State Fault Refusal := .next (vecS l i 8 s)

/-- VEC.SUM (R118). -/
def execVecSum (l : LaneId) (i : IWord) (s : State) : Host.Outcome State Fault Refusal := .next (vecS l i 9 s)

/-- VEC.RQI (R96). -/
def execVecRqi (l : LaneId) (i : IWord) (s : State) : Host.Outcome State Fault Refusal := .next (vecS l i 0x10 s)

/-- VEC.RQF (R97). -/
def execVecRqf (l : LaneId) (i : IWord) (s : State) : Host.Outcome State Fault Refusal := .next (vecS l i 0x11 s)

/-- VEC.QMX (R98). -/
def execVecQmx (l : LaneId) (i : IWord) (s : State) : Host.Outcome State Fault Refusal := .next (vecS l i 0x12 s)

/-- VEC.SCTAG (R173). -/
def execVecSctag (l : LaneId) (i : IWord) (s : State) : Host.Outcome State Fault Refusal := .next (vecS l i 0x13 s)

/-- VEC.CBENC (R99). -/
def execVecCbenc (l : LaneId) (i : IWord) (s : State) : Host.Outcome State Fault Refusal := .next (vecS l i 0x14 s)

/-- VEC.TAB (R120). -/
def execVecTab (l : LaneId) (i : IWord) (s : State) : Host.Outcome State Fault Refusal := .next (vecS l i 0x18 s)

/-- VEC.POOLMAX (R121). -/
def execVecPoolmax (l : LaneId) (i : IWord) (s : State) : Host.Outcome State Fault Refusal := .next (vecS l i 0x20 s)

/-- VEC.POOLSUM (R121). -/
def execVecPoolsum (l : LaneId) (i : IWord) (s : State) : Host.Outcome State Fault Refusal := .next (vecS l i 0x21 s)

/-- VEC.ARGMAX (R122). -/
def execVecArgmax (l : LaneId) (i : IWord) (s : State) : Host.Outcome State Fault Refusal := .next (vecS l i 0x28 s)

/-- VEC.ARGMIN (R170). -/
def execVecArgmin (l : LaneId) (i : IWord) (s : State) : Host.Outcome State Fault Refusal := .next (vecS l i 0x29 s)

/-- VEC.TOPK (R122). -/
def execVecTopk (l : LaneId) (i : IWord) (s : State) : Host.Outcome State Fault Refusal := .next (vecS l i 0x2a s)

/-- VEC.BOXDEC (R123). -/
def execVecBoxdec (l : LaneId) (i : IWord) (s : State) : Host.Outcome State Fault Refusal := .next (vecS l i 0x30 s)

/-- VEC.DOT (R124). -/
def execVecDot (l : LaneId) (i : IWord) (s : State) : Host.Outcome State Fault Refusal := .next (vecS l i 0x31 s)

/-- VEC.SQDIST (R124). -/
def execVecSqdist (l : LaneId) (i : IWord) (s : State) : Host.Outcome State Fault Refusal := .next (vecS l i 0x32 s)

/-- VEC.IOU (R124). -/
def execVecIou (l : LaneId) (i : IWord) (s : State) : Host.Outcome State Fault Refusal := .next (vecS l i 0x33 s)

end Sys2Proof.Machine
end

