-- ==== Sys2Proof/Machine/MemPath.lean ====
section
/-!
DEFINITION. Where a physical address leads (R6, R7, R227, R242, R460), how a local attached address is mapped to a channel
(R298 to R300), and the acceptance of requests by the channel queues (R301, R308 to R310).
-/
namespace Sys2Proof.Machine

open Sys2Proof

/-! ## Where an address leads -/

/-- A physical address, decoded. -/
inductive Where where
  | host (h : Nat)
  /-- a local address of this block -/
  | own (a : Nat)
  /-- a local address of job block `j`, reached through a job slot -/
  | peer (slot j a : Nat)
  /-- job block `j` without a job slot that reaches it (R275) -/
  | lost (j : Nat)
  deriving DecidableEq, Repr, Inhabited

/-- The job slot that an engine of context `c` uses (R275). -/
def State.jobSlotFor (s : State) (c : Nat) : Option Nat :=
  match s.slotOfCtx c with
  | some j => some j
  | none => if s.ganged && s.flag (Reg.fabJobCfg 15) 63 && s.jobState 15 == 1 then some 15 else none

/-- A physical address under R6, R7 and R460; a block number is swapped under R6 with the job slot's own number. -/
def State.whereIs (s : State) (c pa : Nat) : Where :=
  if pa / 2 ^ 55 % 2 == 1 then
    match s.hpaOf (pa % 2 ^ 55) with
    | some a => .own a
    | none => .host (pa % 2 ^ 55)
  else
    let f := pa / 2 ^ 43 % 4096
    let a := pa % 2 ^ 43
    if f == 0xFFF then .own a
    else
      match s.jobSlotFor c with
      | some j =>
        let self := s.fld (Reg.fabJobCfg j) 39 28
        let f := if f == self then 0xFFF else f
        if (s.jobMap j f).isSome then .peer j f a else .lost f
      | none => .lost f

/-! ## Local stores -/

/-- Book and table slots written are marked for validation (R88, R119). -/
def State.markDirty (s : State) (a : Nat) : State :=
  match placeOf s.straps a with
  | .maquette t o => s.updTile t fun x => if x.bookDirty.contains (o / 0x400) then x else { x with bookDirty := x.bookDirty ++ [o / 0x400] }
  | .table t o => s.updTile t fun x => if x.tableDirty.contains (o / 0x2000) then x else { x with tableDirty := x.tableDirty ++ [o / 0x2000] }
  | _ => s

/-- A run of bytes stored at a local address, with the books and tables it touches marked. -/
def State.store (s : State) (a : Nat) (bs : List Byte) : State :=
  let s := s.wrBytes a bs
  if a < maquetteBase then s else (s.markDirty a).markDirty (a + bs.length - 1)

/-! ## Channel queues -/

/-- The 64-byte lines of a run of bytes, by number, and whether the run covers one whole. -/
def linesOf (a n : Nat) : List Nat := (List.range ((a + n - 1) / 64 - a / 64 + 1)).map (a / 64 + ·)
def wholeLine (a n l : Nat) : Bool := decide (a ≤ 64 * l) && decide (64 * l + 64 ≤ a + n)

/-- Have the channels room for a request, and is memory in service (R301, R306)? -/
def State.memRoom (s : State) (a n : Nat) (wr : Bool) : Bool :=
  let chs := (linesOf a n).map fun l => (s.chanOf (64 * l)).1
  s.memOn && chs.all fun c =>
    let x := s.chan c
    decide ((if wr then x.writes.length else x.reads.length) + (chs.filter (· == c)).length ≤ 64) &&
      s.fld (Reg.memChStatus c) 2 0 == 2

/-- Lines of a read enter the read queues. One of a whole line that waits in the write queue is answered from there (R301). -/
def State.queueReads (s : State) (tag ctx : Nat) : List Nat → State
  | [] => s
  | l :: r =>
    let (ch, _) := s.chanOf (64 * l)
    let q : MReq := { tags := [tag], line := l, write := false, ctx := ctx, accepted := s.up, part := false, ord := tag,
                      fwd := (s.chan ch).writes.any fun w => w.line == l && !w.part, old := [], puts := [] }
    (s.updChan ch fun x => { x with reads := x.reads ++ [q] }).queueReads tag ctx r

/-- The bytes of a run that fall into a line, by their place in it. -/
def putsOf (a : Nat) (bs : List Byte) (l : Nat) : List (Nat × Byte) :=
  (bs.mapIdx fun i b => (a + i, b)).filterMap fun p => if p.1 / 64 == l then some (p.1 % 64, p.2) else none

/-- Bytes put into a line. -/
def patch (old : List Byte) : List (Nat × Byte) → List Byte
  | [] => old
  | p :: r => patch (put old p.1 p.2) r

/-- Lines of a write enter the write queues or merge into an entry there (R301). -/
def State.queueWrites (s : State) (tag ctx a : Nat) (bs : List Byte) : List Nat → State
  | [] => s
  | l :: r =>
    let (ch, _) := s.chanOf (64 * l)
    let part := !wholeLine a bs.length l
    let new := putsOf a bs l
    let q : MReq := { tags := if part then [tag] else [], line := l, write := true, ctx := ctx, accepted := s.up, part := part, ord := tag,
                      fwd := false, old := s.rdBytes (64 * l) 64, puts := new }
    let s := s.updChan ch fun x =>
      if x.writes.any fun w => w.line == l then
        { x with writes := x.writes.map fun w =>
            if w.line == l then
              { w with tags := if w.part && part then w.tags ++ [tag] else w.tags, part := w.part && part, puts := w.puts ++ new }
            else w }
      else { x with writes := x.writes ++ [q] }
    s.queueWrites tag ctx a bs r

/-- Lines that a write covers in part and that do not merge into a whole line that waits (R301, R310). -/
def State.partLines (s : State) (a n : Nat) : Nat :=
  ((linesOf a n).filter fun l => !wholeLine a n l && !(s.chan (s.chanOf (64 * l)).1).writes.any fun w => w.line == l && !w.part).length

/-- A new transaction or read tag. -/
def State.addReq (s : State) (r : Req) : State := { s with reqs := s.reqs ++ [{ r with tag := s.nextTag }], nextTag := s.nextTag + 1 }
def State.req? (s : State) (tag : Nat) : Option Req := s.reqs.find? fun r => r.tag == tag
def State.dropReq (s : State) (tag : Nat) : State := { s with reqs := s.reqs.filter fun r => r.tag != tag }
def State.updReq (s : State) (tag : Nat) (f : Req → Req) : State :=
  { s with reqs := s.reqs.map fun r => if r.tag == tag then f r else r }

/-- A read accepted by the controllers: its bytes are those that stand now, behind every write accepted before (R301). -/
def State.acceptRead (s : State) (r : Req) : State :=
  let ls := linesOf r.pa r.len
  let s1 := s.queueReads s.nextTag r.ctx ls
  s1.addReq { r with bytes := s.rdBytes r.pa r.len, left := ls.length, write := false }

/-- A line of attached memory read in a page walk, past the queues (log entry 69): beyond the data region it is MEM_RANGE (R298); a MAC that does
not match is an uncorrectable error (R312); an armed link error is cleared by the second read (R311). Answers whether the read passes. -/
def State.walkLine (s : State) (c a : Nat) : Bool × State :=
  if s.memRange a 8 then (false, s.memOut c a)
  else
    let l := a / 64
    let (ch, ca) := s.chanOf (64 * l)
    if (s.chan ch).writes.any (fun w => w.line == l && !w.part) then (true, s)
    else
      let s := (s.touch ch true (s.tabLine ca) false).2
      if (s.pageSlot (pageKey ch ca)).isNone then (true, s)
      else
        let s := ((s.touch ch false (s.macLine ca) false).2).devRd ch ca
        let rep := fun (det sev : Nat) (i : Bool) =>
          ({ det := det, sev := sev, place := 44 + ch / 4, ctx := if c < 64 then some (c, (s.ctx c).gen) else none, injected := i, addr := ownPhys (64 * l),
             addrKind := 2 } : Report)
        let s := if s.memInj 2 l then (((s.memDisarm.devRd ch ca).incSat (Reg.memChErr ch) 31 16 1).memEvent 1).detect (rep 7 0 true) else s
        if s.mem.badMac.contains l then
          (false, (((s.devRd ch ca).incSat (Reg.memChErr ch) 63 48 1).memEvent 2).detect (rep 8 1 true))
        else (true, s)

/-- A write accepted by the controllers: in force from now (R160, R301). Answers whether it awaits the check of a line it writes in part
(R310; DEDUCED, log entry 18), in which case a request stands for its acknowledgement. -/
def State.acceptWrite (s : State) (r : Req) (bs : List Byte) : Bool × State :=
  let n := s.partLines r.pa r.len
  let tag := s.nextTag
  let s1 := (s.queueWrites tag r.ctx r.pa bs (linesOf r.pa r.len)).wrBytes r.pa bs
  if n == 0 then (false, { s1 with nextTag := tag + 1 }) else (true, s1.addReq { r with left := n, write := true })

end Sys2Proof.Machine
end

