-- ==== Sys2Proof/Machine/BarrowSeg.lean ====
section
/-!
DEFINITION. The segments of a barrow operation (R222): the element stream of a tensor, the bytes a segment gathers and writes, the
sampling of BAR.CROP (R229 to R231), the reduction of one element (R233), and the pages a segment touches (R220).
-/
namespace Sys2Proof.Machine

open Sys2Proof

/-! ## The element stream -/

/-- Bytes of one row of axis 0, of the whole stream, and its segments (R222). -/
def rowLen (d : Desc) : Nat := dExt d 0 * fmtW (dFmt d) / 8
def streamLen (d : Desc) : Nat := dRows d * rowLen d
def segCount (d : Desc) : Nat := (streamLen d + 255) / 256

/-- Device virtual address of byte `j` of the stream. -/
def streamVa (d : Desc) (j : Nat) : Nat :=
  let r := j / rowLen d
  let b := j % rowLen d
  let w := fmtW (dFmt d) / 8
  let off := if isPacked (dFmt d) || dStr0 d == 1 then b else b / w * (dStr0 d * w) + b % w
  let (i1, i2, i3) := rowIx d r
  ((dBase d : Int) + off + (i1 : Int) * dStr d 1 + (i2 : Int) * dStr d 2 + (i3 : Int) * dStr d 3).toNat

/-- The stream bytes of segment `k`: the first, and how many. -/
def segRange (d : Desc) (k : Nat) : Nat × Nat := (256 * k, min 256 (streamLen d - 256 * k))
def segVas (d : Desc) (k : Nat) : List Nat :=
  let (a, n) := segRange d k
  (List.range n).map fun j => streamVa d (a + j)

/-- Runs of `sz`-byte units that stand one behind another, at most 256 bytes, none crossing a 4 KiB boundary. -/
def runsBy (sz : Nat) : List Nat → List (Nat × Nat)
  | [] => []
  | a :: r =>
    match runsBy sz r with
    | (v, n) :: t => if v == a + sz && v / 4096 == a / 4096 && decide (n + sz ≤ 256) then (a, n + sz) :: t else (a, sz) :: (v, n) :: t
    | [] => [(a, sz)]

/-- Insertion into a rising list without repeats. -/
def insertAsc (v : Nat) : List Nat → List Nat
  | [] => [v]
  | a :: r => if v < a then v :: a :: r else if v = a then a :: r else a :: insertAsc v r

/-! ## Crop and resample -/

/-- Plane, axis-0 index and whether the channel is 4:2:0 chroma, for an output channel of a frame code (R177, R230). -/
def cropChan (frame c : Nat) : Nat × Nat × Bool :=
  match frame with
  | 0 => if c = 0 then (0, 0, false) else (1, c - 1, true)
  | 1 => (c, 0, decide (0 < c))
  | _ => (c, 0, false)
def cropFrame (o : Op) : Nat := bits o.iw.w 21 19
def cropPlane (o : Op) (i : Nat) : Desc := if i = 0 then o.da else nth o.planes (i - 1)

/-- Sample position of an output index along one axis (R230): region origin `a`, region size `w`, output size `n`. -/
def cropPos (a w n i : Nat) (chroma : Bool) : Rat :=
  let x : Rat := (a : Rat) + (((2 * i + 1) * w : Nat) : Rat) / ((2 * n : Nat) : Rat) - 128
  if chroma then x / 2 - 64 else x

/-- A coordinate clamped to the plane. -/
def clampIx (v : Int) (n : Nat) : Nat := (clampInt 0 ((n : Int) - 1) v).toNat

/-- Address of a pixel of a plane. -/
def pixelVa (p : Desc) (i0 : Nat) (x y : Int) : Nat :=
  ((dBase p : Int) + ((i0 * dStr0 p : Nat) : Int) + (clampIx x (dExt p 1) : Int) * dStr p 1 + (clampIx y (dExt p 2) : Int) * dStr p 2).toNat

/-- The pixels one output element samples, with their weights in 1/65536 (R231). -/
def cropTaps (o : Op) (c ox oy : Nat) : List (Nat × Nat) :=
  let (pl, i0, chroma) := cropChan (cropFrame o) c
  let p := cropPlane o pl
  let a := (nth o.sc 0).toNat
  let r := (nth o.sc 1).toNat
  let x := cropPos (a % 2 ^ 32) (r % 2 ^ 32) (dExt o.dd 1) ox chroma
  let y := cropPos (a / 2 ^ 32) (r / 2 ^ 32) (dExt o.dd 2) oy chroma
  if bits o.iw.w 23 22 = 0 then [(65536, pixelVa p i0 ((x + 128) / 256).floor ((y + 128) / 256).floor)]
  else
    let qx := x.floor
    let qy := y.floor
    let ix := qx / 256
    let iy := qy / 256
    let fx := (qx % 256).toNat
    let fy := (qy % 256).toNat
    [((256 - fx) * (256 - fy), pixelVa p i0 ix iy), (fx * (256 - fy), pixelVa p i0 (ix + 1) iy),
     ((256 - fx) * fy, pixelVa p i0 ix (iy + 1)), (fx * fy, pixelVa p i0 (ix + 1) (iy + 1))]

/-- The output elements of segment `k`, by number. -/
def cropElems (o : Op) (k : Nat) : List Nat :=
  let w := fmtW (dFmt o.dd) / 8
  let (a, n) := segRange o.dd k
  (List.range (n / w)).map (a / w + ·)
def elemTaps (o : Op) (e : Nat) : List (Nat × Nat) :=
  let (c, ox, oy, _) := elemIx o.dd e
  cropTaps o c ox oy

/-- One output element (R231): the exact weighted sum, converted once. -/
def cropElem (o : Op) (get : Nat → Byte) (e : Nat) : Conv :=
  let sum := ((elemTaps o e).map fun t => t.1 * (get t.2).toNat).sum
  let v := Val.ofRat ((sum : Rat) / 65536)
  convTo o.dd v

/-! ## What a segment gathers and writes -/

/-- Runs of the source bytes that segment `k` gathers. -/
def srcRuns (o : Op) (k : Nat) : List (Nat × Nat) :=
  if iOp o.iw == 1 then
    runsBy 1 ((((cropElems o k).map fun e => (elemTaps o e).map (·.2)).flatten).foldl (fun l v => insertAsc v l) [])
  else runsBy 1 (segVas o.da k)

/-- Bytes of a unit that is written whole: an element under BAR.REDUCE. -/
def dstUnit (o : Op) : Nat := if iOp o.iw == 2 then fmtW (dFmt o.dd) / 8 else 1

/-- Runs of the destination bytes of segment `k`, in stream order. -/
def dstRuns (o : Op) (k : Nat) : List (Nat × Nat) :=
  let u := dstUnit o
  let vs := segVas o.dd k
  runsBy u ((List.range (vs.length / u)).map fun i => nth vs (i * u))

/-- The byte that the pieces hold at an address. -/
def pieceByte (ps : List Piece) (va : Nat) : Byte :=
  match ps.find? fun p => decide (p.va ≤ va) && decide (va < p.va + p.len) with
  | some p => nth (p.bytes.getD []) (va - p.va)
  | none => 0

/-- The bytes segment `k` writes, and the clamps counted for them. -/
def segData (o : Op) (k : Nat) (ps : List Piece) : List Byte × Nat :=
  if iOp o.iw == 1 then
    let cs := (cropElems o k).map (cropElem o (pieceByte ps))
    ((cs.map fun c => leBytes (fmtW (dFmt o.dd) / 8) c.code).flatten, (cs.filter fun c => c.sat).length)
  else ((segVas o.da k).map (pieceByte ps), 0)

/-! ## Reduction -/

/-- One element reduced (R233): its new code and the clamps counted. `op` is 0 ADD, 1 MAX, 2 MIN. -/
def reduceElem (f op old new : Nat) : Nat × Nat :=
  if f == 16 then
    let a := signed 32 old
    let b := signed 32 new
    match op with
    | 0 => ((old + new) % 2 ^ 32, 0)
    | 1 => (if a < b then new else old, 0)
    | _ => (if b < a then new else old, 0)
  else
    let (a, na) := readElem f old
    let (b, nb) := readElem f new
    let infs := (if na then 1 else 0) + (if nb then 1 else 0)
    if a.isNan || b.isNan then ((convert f .nan).code, infs)
    else
      match op with
      | 0 =>
        let c := convert f (a.add b)
        (c.code, infs + if c.sat then 1 else 0)
      | 1 => if a.lt b then ((convert f b).code, infs) else ((convert f a).code, infs)
      | _ => if b.lt a then ((convert f b).code, infs) else ((convert f a).code, infs)

/-- A run of elements reduced into local scratch (R112): the clamps counted and the state. -/
def State.reduceAt (s : State) (f op : Nat) : Nat → List Byte → Nat → Nat × State
  | 0, _, _ => (0, s)
  | n + 1, bs, a =>
    let w := fmtW f / 8
    let (v, k) := reduceElem f op (s.rdNat a w) (leNat (bs.take w))
    let (k2, s) := (s.store a (leBytes w v)).reduceAt f op n (bs.drop w) (a + w)
    (k + k2, s)

/-! ## Pages -/

/-- Rights an operation needs on a side (R221): bit 0 read, bit 1 write, bit 2 atomic. -/
def needOf (o : Op) (dest : Bool) : Nat := if dest then (if iOp o.iw == 2 then 6 else 2) else 1

/-- The runs of a segment with their side, source first. -/
def segRuns (o : Op) (k : Nat) : List (Nat × Nat × Bool) :=
  (srcRuns o k).map (fun r => (r.1, r.2, false)) ++ (dstRuns o k).map fun r => (r.1, r.2, true)

/-- The 4 KiB pages of a list of runs, with their side, each once, in order. -/
def pagesOf : List (Nat × Nat × Bool) → List (Nat × Bool)
  | [] => []
  | (a, _, d) :: r =>
    let p := (a / 4096 * 4096, d)
    p :: (pagesOf r).filter (· != p)

end Sys2Proof.Machine
end

