-- ==== Sys2Proof/Machine/Translate.lean ====
section
/-!
DEFINITION. Translation (R240 to R256): segments, the translation caches, misses and their requests, page requests, and what a fault
does to each engine that waits on it.
-/
namespace Sys2Proof.Machine

open Sys2Proof

/-- The outcome of a translation: a physical address (its requests untranslated or not), an unrecoverable fault with its cause of R265
(0 for an address that is in no space or lies outside the lease), or a miss. -/
inductive Xl where
  | ok (pa : Nat) (ut : Bool)
  | fault (cause : Nat)
  | miss
  deriving DecidableEq, Repr, Inhabited

/-- Do the rights granted cover the need (bit 0 read, 1 write, 2 atomic)? -/
def rightsOk (r w a : Bool) (need : Nat) : Bool :=
  (r || !maskHas need 0) && (w || !maskHas need 1) && (a || !maskHas need 2)

/-! ## Segments (R243) -/

/-- The lowest-numbered enabled segment that matches a device-private offset. -/
def State.segOf (s : State) (c o : Nat) : Option Nat :=
  (List.range 8).find? fun n =>
    let l := s.reg (Reg.ctxSegLimit c n)
    bit l 3 && decide (s.fld (Reg.ctxSegBase c n) 59 12 * 4096 ≤ o) && decide (o ≤ bits l 59 12 * 4096 + 4095)

/-- Translation by the segments; none when no segment matches. -/
def State.segXl (s : State) (c o need : Nat) : Option Xl :=
  (s.segOf c o).map fun n =>
    let l := s.reg (Reg.ctxSegLimit c n)
    if rightsOk (bit l 0) (bit l 1) (bit l 2) need then
      .ok (s.fld (Reg.ctxSegTarget c n) 55 12 * 4096 + (o - s.fld (Reg.ctxSegBase c n) 59 12 * 4096)) false
    else .fault 2

/-! ## The caches (R252, R253) -/

/-- Partition of a lane in its cluster's cache; the channels' caches. -/
def cacheOf (l : LaneId) : Nat := laneIx l
def crierCache : Nat := 28

def TlbEnt.covers (e : TlbEnt) (cache c g va : Nat) : Bool :=
  e.cache == cache && e.ctx == c && e.gen == g && decide (e.page ≤ va) && decide (va < e.page + e.size)

/-- The first `n` entries that satisfy `p` stay, later ones go. -/
def keepFirst (p : TlbEnt → Bool) : Nat → List TlbEnt → List TlbEnt
  | _, [] => []
  | n, e :: r => if p e then (if n = 0 then keepFirst p 0 r else e :: keepFirst p (n - 1) r) else e :: keepFirst p n r

/-- Do two entries compete for one set: 64 sets of 8 in a lane's partition, the set by the page number (DESIGN CHOICE, log entry 19); 4 per
context for the Crier; 64 for each other channel? -/
def sameSet (a b : TlbEnt) : Bool :=
  a.cache == b.cache && (if a.cache < 28 then a.page / 4096 % 64 == b.page / 4096 % 64 else a.cache != crierCache || a.ctx == b.ctx)
def setSize (cache : Nat) : Nat := if cache < 28 then 8 else if cache == crierCache then 4 else 64

/-- An entry becomes the most recent of its set; the least recently used of a full set goes. -/
def State.tlbPut (s : State) (e : TlbEnt) : State :=
  let others := s.tlb.filter fun x => !(x.cache == e.cache && x.ctx == e.ctx && x.gen == e.gen && x.page == e.page)
  { s with tlb := keepFirst (sameSet e) (setSize e.cache) (e :: others) }

/-- Lookups counted per cluster (R265). -/
def State.countTc (s : State) (cache : Nat) (hit : Bool) : State :=
  if 16 ≤ cache then s
  else if hit then s.incWrap (Reg.xltTcHit (cache / 4)) 63 0 1 else s.incWrap (Reg.xltTcMiss (cache / 4)) 63 0 1

/-- Place of a cache's detector, and the channel in arg (R461). -/
def cachePlace (cache : Nat) : Nat × Nat := if cache < 16 then (40 + cache / 4, 0) else (53, cache - 28)

/-- Does the armed XLT_CACHE injection name this cache (R344)? -/
def State.cacheHit (s : State) (cache : Nat) : Bool :=
  let (p, ch) := cachePlace cache
  s.injHits 0x06 p && (decide (cache < 16) || (match s.inject with | some j => j.param == ch | none => false))

/-- A lookup: a hit with the rights needed translates; a host-shared entry that lacks one is dropped and asked for again, since its
request may have carried No Write (R241; DEDUCED, log entry 20); a device entry that lacks one faults. -/
def State.lookup (s : State) (cache c g va need : Nat) : Xl × State :=
  match s.tlb.find? fun e => e.covers cache c g va with
  | none => (.miss, s.countTc cache false)
  | some e =>
    let without : State := { s with tlb := s.tlb.filter (· != e) }
    if s.cacheHit cache then
      let (p, ch) := cachePlace cache
      (.miss, without.disarm.detect { det := 0x06, sev := 0, place := p, arg := ch, ctx := some (c, g), injected := true, addr := va })
    else
      let s := s.countTc cache true
      if rightsOk e.r e.w e.atomic need then (.ok (e.phys + (va - e.page)) e.untrans, s.tlbPut e)
      else if vaTag va == 1 then (.miss, { s with tlb := s.tlb.filter (· != e) })
      else (.fault 4, s)

/-- A device virtual address translated for a cache's user (R240). -/
def State.xlate (s : State) (cache c g va need : Nat) : Xl × State :=
  match vaTag va with
  | 1 => if tagOk va then s.lookup cache c g va need else (.fault 0, s)
  | 2 =>
    match s.segXl c (va % 2 ^ 60) need with
    | some x => (x, s)
    | none => if s.straps.build != .c1 && s.flag (Reg.ctxXltCfg c) 40 then s.lookup cache c g va need else (.fault 1, s)
  | 3 =>
    match s.leaseAddr c (va % 2 ^ 60) with
    | some a => (.ok (ownPhys a) false, s)
    | none => (.fault 0, s)
  | _ => (.fault 0, s)

/-! ## Misses (R250) -/

/-- The 4 KiB page of an address, tag included. -/
def pageVa (va : Nat) : Nat := va / 4096 * 4096

/-- An ATS Translation Request sent, or formed and held (R241, R429). -/
def State.sendAts (s : State) (x : XReq) : State :=
  if s.hostHeld then s
  else s.emit (.atsReq x.id (s.fld (Reg.ctxXltCfg x.ctx) 19 0) (x.page % 2 ^ 57) (!x.write))

/-- The walkers take the walks that wait (R250): a privileged one takes the next free walker, an ordinary one only those that are not kept for
privileged walks; each kind in order of arrival. -/
def State.takeWalkers (s : State) : Nat → State
  | 0 => s
  | n + 1 =>
    let run := s.xreqs.filter fun (x : XReq) => x.walk && x.running
    let all := s.fld Reg.xltCtrl 11 8
    let waits := s.xreqs.filter fun (x : XReq) => x.walk && !x.running
    let next := match waits.find? fun (x : XReq) => x.priv with
      | some x => some x
      | none => if (run.filter fun (x : XReq) => !x.priv).length < all - s.fld Reg.xltCtrl 7 4 then waits.head? else none
    match next with
    | some x =>
      if run.length < all then State.takeWalkers { s with xreqs := s.xreqs.map fun (y : XReq) => if y.id == x.id then { y with running := true } else y } n
      else s
    | none => s

/-- Is a page request outstanding for a page? -/
def State.pageAsked (s : State) (c g page : Nat) : Bool := s.pageReqs.any fun p => p.ctx == c && p.gen == g && p.page == page && !p.dead

/-- A miss is served: by ATS, or by a walk; one that is under way for the page and the need, or a page request that is outstanding for it,
serves this one too. Answers a cause when there is no way to serve it: every host-shared miss while XLT_CTRL.ats_en is 0 (R251). -/
def State.startX (s : State) (engine cache c g va need : Nat) : Option Nat × State :=
  let page := pageVa va
  let wr := maskHas need 1 || maskHas need 2
  let host := vaTag va == 1
  let walkHost := host && decide (28 ≤ cache) && s.straps.build != .c1 && s.flag (Reg.ctxXltCfg c) 41
  if host && !s.flag Reg.xltCtrl 0 then (some 7, s)
  else if s.xreqs.any (fun x => x.cache == cache && x.ctx == c && x.gen == g && x.page == page && (x.write || !wr)) ||
      s.pageAsked c g page then (none, s)
  else
    let x : XReq := { id := s.nextX, engine := engine, cache := cache, ctx := c, gen := g, page := page, write := wr,
                      atomic := maskHas need 2, walk := !host || walkHost, hostWalk := walkHost, priv := decide (28 ≤ cache), stale := false,
                      after := [], running := false,
                      held := (host && !walkHost) && s.hostHeld }
    let s : State := { s with xreqs := s.xreqs ++ [x], nextX := s.nextX + 1 }
    (none, if x.walk then s.takeWalkers 1 else s.sendAts x)

/-! ## Engines that wait -/

/-- What waits for a translation. -/
inductive Waiter where
  | frame (b op : Nat) (dest : Bool)
  | fetch (l : LaneId)
  | record (c r n : Nat)
  | cq (c : Nat)
  deriving DecidableEq, Repr, Inhabited

/-- Address of an entry of a submission ring, and of the completion ring (R189, R199). -/
def State.ringVa (s : State) (c r n : Nat) : Nat :=
  s.fld (Reg.ctxRingBase c r) 63 8 * 256 + 256 * (n % 2 ^ s.fld (Reg.ctxRingCfg c r) 12 8)
def State.cqVa (s : State) (c w : Nat) : Nat := s.fld (Reg.ctxCqBase c) 63 5 * 32 + 32 * (w % 2 ^ s.fld (Reg.ctxCqCfg c) 12 8)

/-- The word a lane needs next and lacks: that at its pc, else that behind the first word of a long instruction (R129, R133). -/
def State.fetchWord (s : State) (l : LaneId) : Option Nat :=
  let pc := (s.lane l).pc
  let nx := (pc + 8) % 2 ^ 64
  match s.codeWord l pc with
  | none => some pc
  | some w => if bit w 47 && (s.codeLine l nx).isNone then some nx else none

/-- The cache line of that word. -/
def State.fetchLine (s : State) (l : LaneId) : Option Nat := (s.fetchWord l).map fun a => a / 64 * 64

/-- The four-KiB page that a frame not yet valid stands for. -/
def State.allLanes (s : State) : List LaneId := (List.range (4 * s.straps.clusters)).map fun i => ⟨i / 4, i % 4⟩

/-- All that wait for a page of a context and generation; `cache` restricts them to a cache's users. -/
def State.waiters (s : State) (cache : Option Nat) (c g page : Nat) : List Waiter :=
  let ok := fun k => cache == none || cache == some k
  let fr := ((List.range s.straps.barrows).map fun b =>
    (((s.barrow b).q.filter fun q => q.ctx == c && q.gen == g && ok (cacheOf q.lane)).map fun q =>
      (q.frames.filter fun f => !f.valid && f.page == page).map fun f => Waiter.frame b q.op f.dest).flatten).flatten
  let fe := (s.allLanes.filter fun l =>
    let x := s.lane l
    ok (cacheOf l) && x.st != .idle && x.ctx == c && x.gen == g && !x.stopped &&
      (match s.fetchLine l with | some a => pageVa a == page | none => false)).map Waiter.fetch
  let x := s.ctx c
  let rc := if ok crierCache && x.gen == g then
      ((List.range 4).map fun r =>
        ((s.ring c r).recs.filter fun k => !k.here && pageVa (s.ringVa c r k.count) == page).map fun k => Waiter.record c r k.count).flatten
    else []
  let cq := if ok crierCache && x.gen == g && (x.cq == .walk || x.cq == .held) && pageVa (s.cqVa c x.written) == page then [Waiter.cq c] else []
  fr ++ fe ++ rc ++ cq

def State.qdesc? (s : State) (b op : Nat) : Option QDesc := (s.barrow b).q.find? fun q => q.op == op
def State.updQ (s : State) (b op : Nat) (f : QDesc → QDesc) : State :=
  s.updBarrow b fun x => { x with q := x.q.map fun q => if q.op == op then f q else q }

/-- Rights a waiter needs, the engine-mask bit it is (R258), and the pages for which it has had its page request. -/
def State.waitNeed (s : State) : Waiter → Nat
  | .frame _ op d => match s.op? op with | some o => needOf o d | none => 1
  | .cq _ => 2
  | _ => 1
def waitEngine : Waiter → Nat
  | .frame b _ _ => b
  | .fetch l => 24 + l.cl
  | _ => 28
def State.waitServed (s : State) (page : Nat) : Waiter → Bool
  | .frame b op d => match s.qdesc? b op with | some q => q.served.any fun p => p.1 == page && (p.2 || !d) | none => false
  | .fetch l => (s.lane l).served.contains page
  | .record c r _ => (s.ring c r).served.contains page
  | .cq c => match (s.ctx c).launches.head? with | some l => l.retried | none => false
def State.waitCache (s : State) : Waiter → Nat
  | .frame b op _ => match s.qdesc? b op with | some q => cacheOf q.lane | none => 0
  | .fetch l => cacheOf l
  | _ => crierCache

/-! ## Faults (R254) -/

/-- CTX_XLT_FAULT, CTX_XLT_FCAUSE and XLT_EVENT.fault. -/
def State.noteFault (s : State) (c va engine need cause : Nat) : State :=
  ((s.setReg (Reg.ctxXltFault c) (word va)).setReg (Reg.ctxXltFcause c) (word (fields [(40, engine), (8, need), (0, cause)]))).xltEvent 1

/-- The first byte that an operation's segments from `k` on touch in a page, among the next `n`. -/
def firstVa (o : Op) (page : Nat) (dest : Bool) : Nat → Nat → Nat
  | _, 0 => page
  | k, n + 1 =>
    match (segRuns o k).find? fun r => r.2.2 == dest && decide (page < r.1 + r.2.1) && decide (r.1 < page + 4096) with
    | some r => max page r.1
    | none => firstVa o page dest (k + 1) n

/-- Segments that have failed leave their operation when no request of theirs is outstanding (R228). -/
def State.reapSegs (s : State) (b op : Nat) : State :=
  let out := fun k => s.reqs.any fun r => !r.dropped && (match r.dest with
    | .seg b' op' k' _ | .ackSeg b' op' k' => b' == b && op' == op && k' == k
    | _ => false)
  s.updQ b op fun q => { q with segs := q.segs.filter fun g => !g.dead || out g.k }

/-- A barrow operation that is to end, once the segments already issued have their answers (R224, R228): it leaves its barrow, a digest
slot goes back to what it was (R234), and the exception is raised. -/
def State.settle (s : State) (b op : Nat) : State :=
  let s := s.reapSegs b op
  match s.qdesc? b op, s.op? op with
  | some q, some o =>
    match q.failing with
    | some e =>
      if !q.segs.isEmpty then s
      else
        let s := ((s.updBarrow b fun x => { x with q := x.q.filter fun y => y.op != op }).dropOp op).restBarrow b
        if e == stopMark then s
        else
          let s := match q.before with
            | some d => s.updCtx q.ctx fun x => { x with digests := put x.digests (4 * q.lane.cl + bits o.iw.w 23 22) d }
            | none => s
          s.raiseAt o.ctx o.seq o.lane.cl o.id e
    | none => s
  | _, _ => s

/-- A barrow operation fails with an exception. -/
def State.failOp (s : State) (b op : Nat) (code arg : Nat) : State :=
  match s.op? op with
  | some o => (s.updQ b op fun q => if q.failing.isSome then q else { q with failing := some ⟨code, o.pc, arg, 0, 0⟩ }).settle b op
  | none => s

/-- Of the entries whose fetch has failed, the one that the ring comes to first (R208). -/
def Ring.firstFailed (g : Ring) (n va : Nat) : Option (Nat × Nat) :=
  let base := match g.recs.head? with | some k => k.count | none => n
  match g.failed with
  | some (m, v) => if since32 m base ≤ since32 n base then some (m, v) else some (n, va)
  | none => some (n, va)

/-- Segments with a request that is formed and not yet accepted, and whose page cannot be translated, fail with it. -/
def State.killHeld (s : State) (b op page : Nat) (dest : Bool) : State :=
  let held := fun (p : Piece) => p.pa.isNone && !p.sent && pageVa p.va == page
  s.updQ b op fun q => { q with segs := q.segs.map fun g =>
    if (if dest then g.dst else g.src).any held then { g with dead := true } else g }

/-- An unrecoverable fault of a waiter: its operation ends with TRANSLATION-FAULT, its fetch with FETCH-FAULT, a record fetch and a
completion write are left to R208 and R206. -/
def State.waitFault (s : State) (page cause : Nat) (w : Waiter) : State :=
  let need := s.waitNeed w
  match w with
  | .frame b op d =>
    match s.op? op, s.qdesc? b op with
    | some o, some q =>
      let va := firstVa o page d q.done (min 256 (q.total - q.done))
      ((s.noteFault o.ctx va b need cause).killHeld b op page d).failOp b op xTRANSLATIONFAULT va
    | _, _ => s
  | .fetch l =>
    let x := s.lane l
    let a := (s.fetchWord l).getD x.pc
    (s.noteFault x.ctx a (24 + l.cl) need cause).raiseAt x.ctx x.seq l.cl s.nextOp ⟨xFETCHFAULT, a, 0, 0, 0⟩
  | .record c r n =>
    let va := s.ringVa c r n
    (s.noteFault c va 28 need cause).updCtx c fun x => x.updRing r fun g =>
      { g with failed := g.firstFailed n va }
  | .cq c => (s.noteFault c (s.cqVa c (s.ctx c).written) 28 need cause).updCtx c fun x => { x with cq := .failed }

/-- A Page Request for a context's page (R255): one outstanding for each context and page; it waits for a free index where
XLT_PRI.alloc are outstanding, and is held with the port. -/
def State.raisePage (s : State) (c g page : Nat) (wr : Bool) : State :=
  if s.pageReqs.any fun p => p.ctx == c && p.gen == g && p.page == page && !p.dead then s
  else
    let used := s.pageReqs.filter fun p => !p.waiting
    let ix := ((List.range 512).find? fun i => used.all fun p => p.index != i).getD 0
    let wait := decide (s.fld Reg.xltPri 9 0 ≤ used.length) || s.hostHeld
    let p : PageReq := { index := ix, ctx := c, gen := g, page := page, write := wr, sentUp := s.up, dead := false, waiting := wait }
    let s : State := { s with pageReqs := s.pageReqs ++ [p] }
    if wait then s
    else (s.incSat (Reg.ctxXltPrq c) 63 32 1).emit (.pageReq ix (s.fld (Reg.ctxXltCfg c) 19 0) (page % 2 ^ 57) wr)

/-- Waiting page requests are sent while indices are free and page requests are in use (R255, R429). -/
def State.sendPages (s : State) : List PageReq → State
  | [] => s
  | p :: r =>
    let used := s.pageReqs.filter fun p => !p.waiting
    if p.waiting && s.flag Reg.xltCtrl 1 && decide (used.length < s.fld Reg.xltPri 9 0) && !s.hostHeld then
      let ix := ((List.range 512).find? fun i => used.all fun p => p.index != i).getD 0
      let s : State := { s with pageReqs := s.pageReqs.map fun y => if y == p then { p with index := ix, waiting := false, sentUp := s.up } else y }
      ((s.incSat (Reg.ctxXltPrq p.ctx) 63 32 1).emit (.pageReq ix (s.fld (Reg.ctxXltCfg p.ctx) 19 0) (p.page % 2 ^ 57) p.write)).sendPages r
    else s.sendPages r

/-- A not-present or rights result for a waiter: a page request when R254 allows one, else its fault. `lack` says the page is present and
lacks a right. -/
def State.waitMissing (s : State) (c g page : Nat) (lack : Bool) (w : Waiter) : State :=
  let need := s.waitNeed w
  if vaTag page == 1 then
    if s.waitServed page w then s.waitFault page 0x0D w
    else if s.flag Reg.xltCtrl 1 && decide (0 < s.fld Reg.xltPri 9 0) then
      let s := s.raisePage c g page (maskHas need 1 || maskHas need 2)
      match w with
      | .record c r _ => s.updCtx c fun x => x.updRing r fun y => { y with held := true }
      | .cq c => s.updCtx c fun x => { x with cq := .held }
      | _ => s
    else s.waitFault page 0x09 w
  else s.waitFault page (if lack then 4 else 3) w

/-! ## Results -/

/-- The result of an ATS request or a walk for a page. -/
inductive XOut where
  | entry (e : TlbEnt)
  | absent
  | fault (cause : Nat)
  deriving DecidableEq, Repr, Inhabited

/-- Each waiter is served in turn. -/
def State.serveWaiters (s : State) (c g page : Nat) (out : XOut) : List Waiter → State
  | [] => s
  | w :: r =>
    let s := match out with
      | .entry e => if rightsOk e.r e.w e.atomic (s.waitNeed w) then s else s.waitMissing c g page true w
      | .absent => s.waitMissing c g page false w
      | .fault n => s.waitFault page n w
    s.serveWaiters c g page out r

/-- A result fills the cache, or fails those that wait for it; not-present results are never cached (R252). Each waiter whose need an
entry covers finds it at its next lookup. -/
def State.xlResult (s : State) (x : XReq) (out : XOut) : State :=
  let s := match out with
    | .entry e => s.tlbPut e
    | _ => s
  s.serveWaiters x.ctx x.gen x.page out (s.waiters (some x.cache) x.ctx x.gen x.page)

/-- A waiter asks again for its page. -/
def State.askAgain (s : State) (c g page : Nat) : List Waiter → State
  | [] => s
  | w :: r =>
    let (f, s) := s.startX (waitEngine w) (s.waitCache w) c g page (s.waitNeed w)
    let s := match f with
      | some n => s.waitFault page n w
      | none => s
    s.askAgain c g page r

end Sys2Proof.Machine
end

