-- ==== Sys2Proof/Machine/Barrow.lean ====
section
/-!
DEFINITION. The barrows: issue of the BAR instructions (R175 to R180, R229), queued descriptors and frames (R219 to R221), segments,
progress and replay (R222 to R228), digests (R234) and the transaction budget (R236).
-/
namespace Sys2Proof.Machine

open Sys2Proof

/-! ## Issue (R175 to R179, R219) -/

/-- The barrow an instruction names, by block index, or the exception of R175. -/
def State.pickBarrow (s : State) (l : LaneId) (i : IWord) : Except Nat Nat :=
  let x := s.lane l
  let mine := ((s.leaseTiles x.ctx).drop x.s3).take x.s4
  let bw := bBw i
  let base := 6 * l.cl
  if bw ≤ 3 then
    match mine[bw]? with
    | some t => .ok (base + t % 4)
    | none => .error xSCRATCHRANGE
  else if bw ≤ 5 then .ok (base + bw)
  else
    let load := fun b => (s.ops.filter fun o => o.unit == .barrow b).length
    let cands := mine.map (fun t => base + t % 4) ++ [base + 4, base + 5]
    .ok (cands.foldl (fun m b => if load b < load m then b else m) (cands.headD base))

/-- One interval for each store, from its lowest to its highest byte (R150). -/
def joinIval (l : List Ival) (v : Ival) : List Ival :=
  if l.any fun x => x.store == v.store then l.map fun x => if x.store == v.store then { x with lo := min x.lo v.lo, hi := max x.hi v.hi } else x
  else l ++ [v]

/-- Is a store another cluster's scratch, which the scoreboard does not track (R153)? -/
def otherCluster (cl store : Nat) : Bool := (store < 16 && store / 4 != cl) || (16 ≤ store && store < 20 && store - 16 != cl)

/-- The intervals of a tag-0x3 operand (R150), or SCRATCH-RANGE where any byte of its span lies outside the lease (R106, R114): where the span
runs over more than one store, each 4 KiB page of it counts for what it has of the span. -/
def State.barIvals (s : State) (c cl : Nat) (d : Desc) (wr : Bool) : Except Nat (List Ival) :=
  if !tagOk (dBase d) then .error xINVALIDADDRESS
  else if vaTag (dBase d) ≠ 3 then .ok []
  else
    let (a, b) := dSpan d
    let lo := ((dBase d : Int) + a).toNat
    let hi := ((dBase d : Int) + b).toNat
    let at_ := fun v => if vaTag v = 3 then (s.leaseAddr c (v % 2 ^ 60)).bind (storeOf s.straps) else none
    match at_ lo, at_ hi with
    | some (x, p), some (y, q) =>
      let tracked := fun (l : List Ival) => l.filter fun v => !otherCluster cl v.store
      if x == y then (if decide (q - p = hi - lo) then .ok (tracked [⟨x, p, q, wr⟩]) else .error xSCRATCHRANGE)
      else
        let firsts := lo :: ((List.range (hi / 4096 - lo / 4096)).map fun i => (lo / 4096 + 1 + i) * 4096)
        let pages := firsts.map fun a => (at_ a).map fun z => (⟨z.1, z.2, z.2 + (min hi (a / 4096 * 4096 + 4095) - a), wr⟩ : Ival)
        if pages.all Option.isSome then .ok (tracked ((pages.filterMap id).foldl joinIval []))
        else .error xSCRATCHRANGE
    | _, _ => .error xSCRATCHRANGE

/-- Equal extents and formats (R176). -/
def needSame (dd da : Desc) : Except Nat Unit := do
  need (sameExt dd da [0, 1, 2, 3]) xSHAPEINVALID
  need (dFmt dd == dFmt da) xFORMATINVALID

/-- The planes of BAR.CROP (R177, R229). -/
def cropCheck (o : Op) : Except Nat Unit := do
  let fr := cropFrame o
  let n := cropPlanes fr
  let ps := (List.range n).map (cropPlane o)
  need (decide (bRs o.iw ≤ 30)) xCROPINVALID
  ps.forM fun p => do
    needDesc p
    need (dFmt p == 1 && dZp p == 0) xFORMATINVALID
  needDesc o.dd
  need (dFmt o.dd == 0 || dFmt o.dd == 1 || dFmt o.dd == 11 || dFmt o.dd == 12 || dFmt o.dd == 17) xFORMATINVALID
  let r := (nth o.sc 1).toNat
  need (r % 2 ^ 32 != 0 && r / 2 ^ 32 != 0) xCROPINVALID
  let y := cropPlane o 0
  let sub := decide (fr ≤ 1)
  need (!sub || (dExt y 1 % 2 == 0 && dExt y 2 % 2 == 0)) xCROPINVALID
  need (dExt o.dd 0 == (if fr == 3 then 1 else 3)) xCROPINVALID
  (List.range n).forM fun i => do
    let p := cropPlane o i
    need (if fr == 0 && i == 1 then dExt p 0 == 2 && dStr0 p == 1 else dExt p 0 == 1) xCROPINVALID
    need (!sub || i == 0 || (2 * dExt p 1 == dExt y 1 && 2 * dExt p 2 == dExt y 2)) xCROPINVALID

/-- The checks of a BAR instruction at issue (R176, R177, R219), with the intervals it records. -/
def State.checkBar (s : State) (o : Op) : Except Nat Op := do
  if iOp o.iw == 1 then cropCheck o
  else do
    needDesc o.dd
    needDesc o.da
    needSame o.dd o.da
    need (iOp o.iw != 2 || dFmt o.dd == 16 || dFmt o.dd == 17 || dFmt o.dd == 11) xFORMATINVALID
  let d ← s.barIvals o.ctx o.lane.cl o.dd true
  let a ← s.barIvals o.ctx o.lane.cl o.da false
  let ps ← (if iOp o.iw == 1 then
      o.planes.foldlM (fun l p => do
        let x ← s.barIvals o.ctx o.lane.cl p false
        pure (l ++ x)) []
    else pure [])
  need (iOp o.iw != 2 || vaTag (dBase o.dd) != 1) xOPERANDPLACE
  pure { o with ivals := d ++ a ++ ps, total := segCount o.dd }

/-- A BAR instruction issues into its barrow's queue (R149, R175). -/
def barBody (l : LaneId) (i : IWord) (s : State) : State :=
  match s.pickBarrow l i with
  | .error e => s.raise l e 0
  | .ok b =>
    let x := s.lane l
    let o := { s.newOp l i (.barrow b) with
      dd := x.dv (bDd i), da := x.dv (bDa i),
      planes := if iOp i == 1 then (List.range (cropPlanes (bits i.w 21 19) - 1)).map fun k => x.dv (bDa i + 1 + k) else [],
      sc := if iOp i == 1 then [x.sv (bRs i), if bRs i ≤ 30 then x.sv (bRs i + 1) else 0] else [] }
    match s.checkBar o with
    | .error e => s.raise l e 0
    | .ok o => s.issueOps l i [o]

/-- Registers a BAR instruction reads (R149). -/
def barRegs (i : IWord) : List Nat :=
  let n := if iOp i == 1 then cropPlanes (bits i.w 21 19) else 1
  rD (bDd i) :: (List.range n).map (fun k => rD (bDa i + k)) ++ (if iOp i == 1 then [rS (bRs i), rS (min 31 (bRs i + 1))] else [])

/-- BAR.MOVE (R176). -/
def execBarMove (l : LaneId) (i : IWord) (s : State) : Host.Outcome State Fault Refusal :=
  .next (s.issue l i 0xA 0 (barRegs i) (barBody l i))
/-- BAR.CROP (R177). -/
def execBarCrop (l : LaneId) (i : IWord) (s : State) : Host.Outcome State Fault Refusal :=
  .next (s.issue l i 0xA 1 (barRegs i) (barBody l i))
/-- BAR.REDUCE (R176). -/
def execBarReduce (l : LaneId) (i : IWord) (s : State) : Host.Outcome State Fault Refusal :=
  .next (s.issue l i 0xA 2 (barRegs i) (barBody l i))
/-- BAR.DIGEST (R179). -/
def execBarDigest (l : LaneId) (i : IWord) (s : State) : Host.Outcome State Fault Refusal :=
  .next (s.issue l i 0xA 3 (barRegs i) (barBody l i))

/-! ## Frames (R219 to R221) -/

/-- Do device page tables translate what no segment matches (R243)? -/
def State.ptOn (s : State) (c : Nat) : Bool := s.straps.build != .c1 && s.flag (Reg.ctxXltCfg c) 40

/-- Does a page need a frame: host-shared, or device-private with no segment over it and page tables in use? -/
def State.needsFrame (s : State) (c va : Nat) : Bool :=
  match vaTag va with
  | 1 => tagOk va
  | 2 => (s.segOf c (va % 2 ^ 60)).isNone && s.ptOn c
  | _ => false

/-- The exception of a run that its strides carry to an address that is in no space (R4, R5), or in scratch outside the lease (R106). -/
def badAddr (va : Nat) : Nat := if tagOk va then xSCRATCHRANGE else xINVALIDADDRESS

def Frame.covers (f : Frame) (va : Nat) (dest : Bool) : Bool :=
  f.dest == dest && decide (f.page ≤ va) && decide (va < f.page + f.size)

/-- Segments of the next 256 that are not complete nor in flight. -/
def QDesc.ahead256 (q : QDesc) : List Nat :=
  ((List.range (min 256 (q.total - q.done))).map (q.done + ·)).filter fun k =>
    decide (q.next ≤ k) && !q.bitmap.contains k && !q.segs.any fun g => g.k == k

/-- Pages that pieces whose translation was withdrawn, and the next segments of an operation that goes on, need frames for, in walk order. -/
def State.wantPages (s : State) (q : QDesc) (o : Op) : List (Nat × Bool) :=
  let held := ((q.segs.filter fun g => !g.dead).map fun g => (g.src.filter fun p => p.pa.isNone && !p.sent).map (fun p => (p.va, p.len, false)) ++
    (g.dst.filter fun p => p.pa.isNone && !p.sent).map fun p => (p.va, p.len, true)).flatten
  let next := if q.failing.isSome then [] else (q.ahead256.map (segRuns o)).flatten
  (pagesOf (held ++ next)).filter fun p => s.needsFrame q.ctx p.1

/-- The frames for pages in walk order, at most `cap` a side: the valid one that covers a page, else the one that asks for it, else a new one,
which asks again where a stale frame held the page (R220, R225). -/
def pickFrames (cap : Nat) (old : List Frame) : List (Nat × Bool) → List Frame → List Frame
  | [], fs => fs
  | (p, d) :: r, fs =>
    if fs.any (fun f => f.covers p d) || decide (cap ≤ (fs.filter fun f => f.dest == d).length) then pickFrames cap old r fs
    else
      let f := match old.find? fun f => f.valid && f.covers p d with
        | some f => f
        | none =>
          match old.find? fun f => f.asked && f.page == p && f.dest == d with
          | some f => f
          | none => { page := p, size := 4096, phys := 0, r := false, w := false, atomic := false, dest := d, valid := false,
                      stale := old.any fun f => f.stale && f.covers p d, asked := false, ut := false }
      pickFrames cap old r (fs ++ [f])

/-- BAR.REDUCE writes scratch alone (R176): a destination found elsewhere, when it is translated, is OPERAND-PLACE. -/
def State.reducePlace (s : State) (o : Op) (pa : Nat) : Bool :=
  iOp o.iw != 2 ||
    (match s.whereIs o.ctx pa with
     | .host _ => false
     | .own a | .peer _ _ a => decide (scratchBase ≤ a)
     | .lost _ => decide (scratchBase ≤ pa % 2 ^ 43))

/-- A frame asks the cache for its page: a hit fills it, a miss is served, a fault is the operation's. One that a valid frame covers by now is
free again. -/
def State.fillFrame (s : State) (b op page : Nat) (dest : Bool) : State :=
  match s.qdesc? b op, s.op? op with
  | some q, some o =>
    if q.frames.any fun f => f.valid && f.covers page dest then
      s.updQ b op fun q => { q with frames := q.frames.filter fun f => f.valid || !(f.page == page && f.dest == dest) }
    else if q.frames.any fun f => f.page == page && f.dest == dest then
      let s := s.updQ b op fun q => { q with frames := q.frames.map fun f => if f.page == page && f.dest == dest then { f with asked := true } else f }
      let need := needOf o dest
      let (x, s) := s.lookup (cacheOf q.lane) q.ctx q.gen page need
      match x with
      | .ok _ _ =>
        match s.tlb.find? fun e => e.covers (cacheOf q.lane) q.ctx q.gen page with
        | some e =>
          let s := s.updQ b op fun q => { q with frames := q.frames.map fun f =>
            if f.page == page && f.dest == dest && !f.valid then
              { page := e.page, size := e.size, phys := e.phys, r := e.r, w := e.w, atomic := e.atomic, dest := dest, valid := true,
                stale := false, asked := false, ut := e.untrans }
            else f }
          if dest && !s.reducePlace o e.phys then s.failOp b op xOPERANDPLACE 0 else s
        | none => s
      | .fault n => s.waitFault page n (.frame b op dest)
      | .miss =>
        let (f, s) := s.startX b (cacheOf q.lane) q.ctx q.gen page need
        match f with
        | some n => s.waitFault page n (.frame b op dest)
        | none => s
    else s
  | _, _ => s

def State.fillFrames (s : State) (b op : Nat) : List Frame → State
  | [] => s
  | f :: r => (if f.valid then s else s.fillFrame b op f.page f.dest).fillFrames b op r

/-- Frames whose last segment has been issued are freed, and the next pages not yet held are translated, while a page found leaves room for
another (R220). -/
def State.refillGo (b op : Nat) : Nat → State → State
  | 0, s => s
  | n + 1, s =>
    match s.qdesc? b op, s.op? op with
    | some q, some o =>
      let want := s.wantPages q o
      let cap := if want.any (fun p => p.2) && want.any fun p => !p.2 then 8 else 16
      let fs := pickFrames cap q.frames want []
      let new := fs.filter fun f => !f.valid && !f.asked
      let s := s.updQ b op fun q => { q with frames := fs }
      if new.isEmpty then s else State.refillGo b op n (s.fillFrames b op new)
    | _, _ => s

def State.refill (s : State) (b op : Nat) : State := State.refillGo b op 17 s

/-- Frames are asked for anew after a withdrawal (R225, R244, R259). -/
def State.refillOps (s : State) : List (Nat × Nat) → State
  | [] => s
  | (b, op) :: r => (s.refill b op).refillOps r
def State.refillAll (s : State) : State :=
  s.refillOps ((List.range s.straps.barrows).map fun b => (s.barrow b).q.map fun q => (b, q.op)).flatten

/-- The segments' limits and rights, over every page of the operation's runs from segment `k` on (R219): the first fault. -/
def State.segCheck (s : State) (o : Op) : Nat → Nat → Option (Nat × Nat × Nat)
  | _, 0 => none
  | k, n + 1 =>
    let bad := (segRuns o k).findSome? fun r =>
      if vaTag r.1 == 2 then
        match s.segXl o.ctx (r.1 % 2 ^ 60) (needOf o r.2.2) with
        | some (.fault c) => some (c, r.1, needOf o r.2.2)
        | some _ => none
        | none => if s.ptOn o.ctx then none else some (1, r.1, needOf o r.2.2)
      else none
    match bad with
    | some x => some x
    | none => s.segCheck o (k + 1) n

/-- A destination of BAR.REDUCE that a segment places outside scratch. -/
def State.segPlaceBad (s : State) (o : Op) (k n : Nat) : Bool :=
  iOp o.iw == 2 && vaTag (dBase o.dd) == 2 && (List.range n).any fun i =>
    (dstRuns o (k + i)).any fun r => match s.segXl o.ctx (r.1 % 2 ^ 60) 6 with
      | some (.ok pa _) => !s.reducePlace o pa
      | _ => false

/-- The check by the segments at queue time, and again after a withdrawal (R219, R244). -/
def State.checkSegs (s : State) (b op k : Nat) : State :=
  match s.op? op, s.qdesc? b op with
  | some o, some q =>
    match s.segCheck o k (q.total - k) with
    | some (c, va, need) => (s.noteFault o.ctx va b need c).failOp b op xTRANSLATIONFAULT va
    | none => if s.segPlaceBad o k (q.total - k) then s.failOp b op xOPERANDPLACE 0 else s
  | _, _ => s

/-- DESCRIPTOR_QUEUE (R219): the descriptor is built, its segments' rights are checked, its first pages are sent for translation. -/
def descriptorQueueS (op : Nat) (s : State) : State :=
  match s.op? op with
  | some o =>
    match o.unit with
    | .barrow b =>
      if o.st != .queued || (s.qdesc? b op).isSome then s
      else
        let q : QDesc := { op := op, ctx := o.ctx, gen := o.gen, lane := o.lane, seq := o.seq, frames := [], total := o.total, done := 0,
                           bitmap := [], next := 0, segs := [], running := false, fault := none, served := [], failing := none,
                           recheck := false, before := none, absorbed := 0, ahead := [] }
        let s := s.updBarrow b fun x => { x with q := x.q ++ [q] }
        (s.checkSegs b op 0).refill b op
    | _ => s
  | none => s

def execDescriptorQueue (op : Nat) (s : State) : Host.Outcome State Fault Refusal := .next (descriptorQueueS op s)

/-! ## The budget (R236) -/

/-- Transactions a barrow holds; those it may always hold, its cap, the pool, and what is drawn from it. -/
def State.held (s : State) (b : Nat) : Nat := (s.reqs.filter fun r => r.engine == b).length
def State.txFloor (s : State) : Nat := s.fld Reg.barTxnX 31 16
def State.txCap (s : State) : Nat := s.fld Reg.barTxnX 47 32
def State.txPool (s : State) : Nat :=
  s.straps.transactions - s.fld Reg.barTxnX 15 0 - s.straps.barrows * s.txFloor
def State.poolUsed (s : State) : Nat := ((List.range s.straps.barrows).map fun b => s.held b - s.txFloor).sum

/-- Does a barrow wait for the shared pool: at its floor or above, below its cap, with an operation of a context that may draw on it? -/
def State.poolWaits (s : State) (b : Nat) : Bool :=
  (s.barrow b).st == .stalledBudget && decide (s.txFloor ≤ s.held b) && decide (s.held b < s.txCap) &&
    (s.barrow b).q.any fun q => q.running && !s.flag (Reg.ctxQos q.ctx) 16

/-- The waiting barrow that the next freed pool transaction goes to: round robin by block index. -/
def State.poolTurn (s : State) : Option Nat :=
  let n := s.straps.barrows
  ((List.range n).map fun i => (s.grantTurn + i) % n).find? s.poolWaits

/-- May barrow `b` issue one more transaction for context `c`? A strict context draws on the floor alone (R328); the pool goes to the barrow
whose turn it is, where one waits for it. -/
def State.mayIssue (s : State) (b c : Nat) : Bool :=
  decide (s.held b < s.txFloor) ||
    (!s.flag (Reg.ctxQos c) 16 && decide (s.held b < s.txCap) && decide (s.poolUsed < s.txPool) &&
      (match s.poolTurn with | some x => x == b | none => true))

/-- Barrow `b` issues a transaction: where it takes its turn at the pool, the turn passes on. -/
def State.spendTx (s : State) (b : Nat) : State :=
  if s.txFloor ≤ s.held b && s.poolTurn == some b then { s with grantTurn := (b + 1) % s.straps.barrows } else s

/-- The reserve serves the privileged channels and instruction fetch alone: has it room for one more? -/
def State.reserveRoom (s : State) : Bool :=
  decide ((s.reqs.filter fun r => decide (24 ≤ r.engine) && decide (r.engine < 31)).length < s.fld Reg.barTxnX 15 0)

/-- The flits of a request of barrow `b` take their tokens one by one from the context's link bucket (R329); answers whether the last of `n`
has its token, when the request leaves (DESIGN CHOICE, log entry 70). -/
def State.takeTokens (s : State) (c b n : Nat) : Bool × State :=
  if s.fld (Reg.ctxQos c) 7 0 == 0 then (true, s)
  else
    let x := s.ctx c
    let had := ((x.paid.find? fun p => p.1 == b).map fun p => p.2).getD 0
    let rest := x.paid.filter fun p => p.1 != b
    if n ≤ had + x.tokens then (true, s.updCtx c fun x => { x with tokens := x.tokens - (n - had), paid := rest })
    else (false, s.updCtx c fun x => { x with tokens := 0, paid := rest ++ [(b, had + x.tokens)] })

/-- A request of a context sent to job block `j` through a job slot (R275): the gang job carries the context's slot and generation. -/
def State.sendPeer (s : State) (slot c j tag : Nat) (body : MsgBody) : State :=
  if s.fld (Reg.fabJobCfg slot) 15 0 == 0xFFFF then
    match s.jobMap slot j with
    | some f =>
      s.originate (some slot) 0xFFFF f
        { src := s.fld (Reg.fabJobCfg slot) 39 28, jgen := (s.ctx c).gen, gctx := c, tag := tag % 2 ^ 16, body := body }
    | none => s
  else s.sendJob slot j 0 (tag % 2 ^ 16) body

/-- The port a request to job block `j` leaves on. -/
def State.peerPort (s : State) (slot j : Nat) : Nat := ((s.jobMap slot j).bind (s.route 8)).getD 0

/-! ## Pieces (R222, R227) -/

/-- A piece's translation: by lease, by segment, or by a valid frame. -/
def State.pieceXl (s : State) (q : QDesc) (o : Op) (va : Nat) (dest : Bool) : Xl :=
  let need := needOf o dest
  match vaTag va with
  | 3 => match s.leaseAddr o.ctx (va % 2 ^ 60) with | some a => .ok (ownPhys a) false | none => .fault 0
  | t =>
    if !tagOk va then .fault 0
    else
      let seg := if t == 2 then s.segXl o.ctx (va % 2 ^ 60) need else none
      match seg with
      | some x => x
      | none =>
        if !s.needsFrame o.ctx va then .fault 1
        else
          match q.frames.find? fun f => f.valid && !f.stale && f.covers va dest && rightsOk f.r f.w f.atomic need with
          | some f => .ok (f.phys + (va - f.page)) f.ut
          | none => .miss

/-- The pieces of a list of runs. -/
def State.formPieces (s : State) (q : QDesc) (o : Op) (dest : Bool) (rs : List (Nat × Nat)) : List Piece :=
  rs.map fun r =>
    match s.pieceXl q o r.1 dest with
    | .ok pa ut => { va := r.1, len := r.2, pa := some pa, ut := ut, sent := false, bytes := none }
    | _ => { va := r.1, len := r.2, pa := none, ut := false, sent := false, bytes := none }

def QDesc.updSeg (q : QDesc) (k : Nat) (f : Seg → Seg) : QDesc := { q with segs := q.segs.map fun g => if g.k == k then f g else g }
def State.updSeg (s : State) (b op k : Nat) (f : Seg → Seg) : State := s.updQ b op fun q => q.updSeg k f
def State.seg? (s : State) (b op k : Nat) : Option Seg := (s.qdesc? b op).bind fun q => q.segs.find? fun g => g.k == k

/-- A segment fails (R228): it sends nothing more, and its operation ends with an exception once what has been sent is answered. -/
def State.failSeg (s : State) (b op k code arg : Nat) : State := (s.updSeg b op k fun g => { g with dead := true }).failOp b op code arg

/-- Words of scratch accessed, for the Ledger (R387). -/
def State.scrEnergy (s : State) (c seq a n : Nat) : State :=
  let w := (a % 64 + n + 63) / 64
  match placeOf s.straps a with
  | .tile _ _ => s.energyEvent c seq 5 w
  | .cluster _ _ => s.energyEvent c seq 6 w
  | _ => s

/-- The bytes of a source piece have come. -/
def State.gotPiece (s : State) (b op k i : Nat) (bs : List Byte) : State :=
  s.updSeg b op k fun g => { g with src := g.src.modify i fun p => { p with sent := true, bytes := some bs } }

/-- REMOTE_REFUSED's arg: peer and answer (R201). -/
def refusedArg (j answer : Nat) : Nat := j % 2 ^ 12 + answer * 2 ^ 12

/-- A request of a barrow. -/
def barReq (s : State) (b c g seq va pa n : Nat) (path : Path) (dest : Dest) (wr : Bool) (peer : Nat) : Req :=
  { tag := 0, path := path, dest := dest, engine := b, ctx := c, gen := g, seq := seq, va := va, pa := pa, len := n, write := wr, sentUp := s.up,
    peer := peer, bytes := [], left := 0, dropped := false, ut := false }

/-- An armed LINK_TIMEOUT injection of barrow `b`: the response to its next request is discarded (R344). -/
def State.timeoutInj (s : State) (b : Nat) (r : Req) : Req × State :=
  if s.injHits 0x0C (16 + b) then ({ r with lost := true }, s.disarm) else (r, s)

/-- The most host read tags outstanding (R422). -/
def State.tagsFull (s : State) : Bool := decide (4096 ≤ (s.reqs.filter fun r => r.path == .host).length)

/-- Where a piece leads; one that goes untranslated carries its offset to the host (R251). -/
def State.pieceAt (s : State) (c pa : Nat) (p : Piece) : Where := if p.ut then .host (p.va % 2 ^ 57) else s.whereIs c pa

/-- One source piece is read, or its request is issued, when that can be done now. -/
def State.sendSrc (s : State) (b op k i : Nat) : State :=
  match s.qdesc? b op, s.op? op, s.seg? b op k with
  | some q, some _, some g =>
    match g.src[i]? with
    | some p =>
      match p.sent, p.pa with
      | false, some pa =>
        match s.pieceAt q.ctx pa p with
        | .own a =>
          if scratchBase ≤ a then
            if !s.inLease q.ctx a || !s.inLease q.ctx (a + p.len - 1) then s.failSeg b op k xSCRATCHRANGE 0
            else
              let (ok, s) := s.checkScr (some (q.ctx, q.gen)) (some q.seq) a
              if ok then (s.gotPiece b op k i (s.rdBytes a p.len)).scrEnergy q.ctx q.seq a p.len
              else s.failSeg b op k xDATAERROR p.va
          else if s.memRange a p.len then (s.memOut q.ctx a).failSeg b op k xDATAERROR p.va
          else if s.memRoom a p.len false && s.mayIssue b q.ctx then
            let n := (linesOf a p.len).length
            let s := (s.spendTx b).acceptRead (barReq s b q.ctx q.gen q.seq p.va a p.len (.attached 0) (.seg b op k i) false 0)
            ((s.workUp q.ctx q.seq 3 n).energyEvent q.ctx q.seq 10 n).updSeg b op k fun g =>
              { g with src := g.src.modify i fun p => { p with sent := true } }
          else s
        | .host h =>
          if s.hostHeld || s.tagsFull || !s.mayIssue b q.ctx then s
          else
            let s := s.spendTx b
            let tag := s.nextTag
            let s := s.addReq { barReq s b q.ctx q.gen q.seq p.va pa p.len .host (.seg b op k i) false 0 with ut := p.ut }
            let s := s.emit (if p.ut then .utRead tag (s.fld (Reg.ctxXltCfg q.ctx) 19 0) h p.len else .mrd tag h p.len)
            s.updSeg b op k fun g => { g with src := g.src.modify i fun p => { p with sent := true } }
        | .peer sl j a =>
          if !s.mayIssue b q.ctx then s
          else match s.takeTokens q.ctx b 1 with
            | (false, s) => s
            | (true, s) =>
              let s := s.spendTx b
              let tag := s.nextTag
              let (r, s) := s.timeoutInj b (barReq s b q.ctx q.gen q.seq p.va pa p.len (.link (s.peerPort sl j) (s.fld (Reg.fabJobCfg sl) 15 0)) (.seg b op k i) false j)
              let s := ((s.addReq r).sendPeer sl q.ctx j tag (.read a p.len)).workUp q.ctx q.seq 5 1
              (s.energyEvent q.ctx q.seq 11 1).updSeg b op k fun g => { g with src := g.src.modify i fun p => { p with sent := true } }
        | .lost j => s.failSeg b op k xREMOTEREFUSED (refusedArg j 1)
      | _, _ => s
    | none => s
  | _, _, _ => s

/-- A destination piece is in force, or sent with an acknowledgement due. -/
def State.sentDst (s : State) (b op k i : Nat) (wait : Bool) (clamps : Nat) : State :=
  s.updSeg b op k fun g => { g with dst := g.dst.modify i fun p => { p with sent := true }, waits := if wait then g.waits + 1 else g.waits,
                                    clamps := g.clamps + clamps }

/-- One destination piece is written, when that can be done now (R160, R227, R233). -/
def State.sendDst (s : State) (b op k i : Nat) : State :=
  match s.qdesc? b op, s.op? op, s.seg? b op k with
  | some q, some o, some g =>
    match g.dst[i]? with
    | some p =>
      match p.sent, p.pa, p.bytes with
      | false, some pa, some bs =>
        let red := iOp o.iw == 2
        let f := dFmt o.dd
        let rop := bits o.iw.w 23 22
        let count := fun (s : State) => (s.incWrap (Reg.barBytes b) 63 0 p.len).workUp q.ctx q.seq 2 p.len
        match s.pieceAt q.ctx pa p with
        | .own a =>
          if scratchBase ≤ a then
            if !s.inLease q.ctx a || !s.inLease q.ctx (a + p.len - 1) then s.failSeg b op k xSCRATCHRANGE 0
            else if red then
              let (ok, s) := s.checkScr (some (q.ctx, q.gen)) (some q.seq) a
              if !ok then s.failSeg b op k xDATAERROR p.va
              else
                let (n, s) := s.reduceAt f rop (p.len / (fmtW f / 8)) bs a
                (count (s.scrEnergy q.ctx q.seq a (2 * p.len))).sentDst b op k i false n
            else (count ((s.store a bs).scrEnergy q.ctx q.seq a p.len)).sentDst b op k i false 0
          else if s.memRange a p.len then (s.memOut q.ctx a).failSeg b op k xDATAERROR p.va
          else if s.memRoom a p.len true && (s.partLines a p.len == 0 || s.mayIssue b q.ctx) then
            let n := (linesOf a p.len).length
            let s := if s.partLines a p.len == 0 then s else s.spendTx b
            let (wait, s) := s.acceptWrite (barReq s b q.ctx q.gen q.seq p.va a p.len (.attached 0) (.ackSeg b op k) true 0) bs
            (count ((s.workUp q.ctx q.seq 4 n).energyEvent q.ctx q.seq 10 n)).sentDst b op k i wait 0
          else s
        | .host h =>
          if s.hostHeld then s
          else (count (s.emit (if p.ut then .utWrite (s.fld (Reg.ctxXltCfg q.ctx) 19 0) h bs else .mwr h bs))).sentDst b op k i false 0
        | .peer sl j a =>
          if !s.mayIssue b q.ctx then s
          else match s.takeTokens q.ctx b 2 with
            | (false, s) => s
            | (true, s) =>
              let s := s.spendTx b
              let tag := s.nextTag
              let (r, s) := s.timeoutInj b (barReq s b q.ctx q.gen q.seq p.va pa p.len (.link (s.peerPort sl j) (s.fld (Reg.fabJobCfg sl) 15 0)) (.ackSeg b op k) true j)
              let s := ((s.addReq r).sendPeer sl q.ctx j tag (if red then .reduce a p.len rop f bs else .write a p.len bs)).workUp q.ctx q.seq 5 2
              (count (s.energyEvent q.ctx q.seq 11 2)).sentDst b op k i true 0
        | .lost j => s.failSeg b op k xREMOTEREFUSED (refusedArg j 1)
      | _, _, _ => s
    | none => s
  | _, _, _ => s

/-- Bytes dealt out to the destination pieces in order. -/
def dealBytes : List Piece → List Byte → List Piece
  | [], _ => []
  | p :: r, bs => { p with bytes := some (bs.take p.len) } :: dealBytes r (bs.drop p.len)

/-- When every source byte has come, the bytes to be written are formed. -/
def State.formSeg (s : State) (b op k : Nat) : State :=
  match s.op? op, s.seg? b op k with
  | some o, some g =>
    if g.formed || g.src.any fun p => p.bytes.isNone then s
    else
      let (bs, n) := segData o k g.src
      s.updSeg b op k fun g => { g with dst := dealBytes g.dst bs, formed := true, clamps := g.clamps + n }
  | _, _ => s

def State.sendSrcs (s : State) (b op k : Nat) : List Nat → State
  | [] => s
  | i :: r => (s.sendSrc b op k i).sendSrcs b op k r
def State.sendDsts (s : State) (b op k : Nat) : List Nat → State
  | [] => s
  | i :: r => (s.sendDst b op k i).sendDsts b op k r

/-- A segment goes on as far as it can: its reads, its bytes, its writes. -/
def State.pumpSeg (s : State) (b op k : Nat) : State :=
  match s.seg? b op k with
  | some g => if g.dead then s else ((s.sendSrcs b op k (List.range g.src.length)).formSeg b op k).sendDsts b op k (List.range g.dst.length)
  | none => s

def State.pumpSegs (s : State) (b op : Nat) : List Nat → State
  | [] => s
  | k :: r => (s.pumpSeg b op k).pumpSegs b op r

/-- Does a piece of a segment wait to be issued as a transaction (R236): a read that leaves the cluster, a write to a peer, a write of part of a
line of attached memory? -/
def State.needsTx (s : State) (c : Nat) (write : Bool) (p : Piece) : Bool :=
  match p.sent, p.pa with
  | false, some pa =>
    match s.pieceAt c pa p with
    | .host _ => !write
    | .peer _ _ _ => !write || p.bytes.isSome
    | .own a => decide (a < scratchBase) && (!write || (p.bytes.isSome && decide (0 < s.partLines a p.len)))
    | .lost _ => false
  | _, _ => false

/-- A barrow with a piece that waits for the budget is in STALLED_BUDGET (R236). -/
def State.budgetState (s : State) (b : Nat) : State :=
  let x := s.barrow b
  let stuck := x.q.any fun q => !s.mayIssue b q.ctx && q.segs.any fun g =>
    !g.dead && (g.src.any (s.needsTx q.ctx false) || g.dst.any (s.needsTx q.ctx true))
  if stuck && x.st == .moving then (s.setBarSt b .stalledBudget).barEvent 4
  else if !stuck && x.st == .stalledBudget then s.setBarSt b (if x.q.any fun q => q.running then .moving else .idle)
  else s

/-- The first piece, of the segments in flight, whose translation was withdrawn and now faults: its segment, address and cause. -/
def State.rebindFault (s : State) (q : QDesc) (o : Op) : Option (Nat × Nat × Nat × Bool) :=
  (q.segs.filter fun g => !g.dead).findSome? fun g =>
    let one := fun (d : Bool) (p : Piece) =>
      if p.pa.isNone && !p.sent then (match s.pieceXl q o p.va d with | .fault n => some (g.k, p.va, n, d) | _ => none) else none
    match g.src.findSome? (one false) with
    | some x => some x
    | none => g.dst.findSome? (one true)

/-- Pieces whose translation was withdrawn take it again, from the frames or the segments in force (R225, R259). -/
def State.rebind (s : State) (b op : Nat) : State :=
  match s.qdesc? b op, s.op? op with
  | some q, some o =>
    match s.rebindFault q o with
    | some (k, va, 0, _) => s.failSeg b op k (badAddr va) 0
    | some (k, va, n, d) => (s.noteFault q.ctx va b (needOf o d) n).failSeg b op k xTRANSLATIONFAULT va
    | none =>
      let one := fun (d : Bool) (p : Piece) =>
        if p.pa.isNone && !p.sent then (match s.pieceXl q o p.va d with | .ok pa ut => { p with pa := some pa, ut := ut } | _ => p) else p
      s.updQ b op fun q => { q with segs := q.segs.map fun g => { g with src := g.src.map (one false), dst := g.dst.map (one true) } }
  | _, _ => s

/-- Every segment in flight of a list of operations goes on. -/
def State.pumpOps (s : State) (b : Nat) : List Nat → State
  | [] => s
  | op :: r =>
    let s := s.rebind b op
    (match s.qdesc? b op with
     | some q => let ks : List Nat := q.segs.map fun (g : Seg) => g.k; s.pumpSegs b op ks
     | none => s).pumpOps b r

def State.pump (s : State) (b : Nat) : State := (s.pumpOps b ((s.barrow b).q.map fun q => q.op)).budgetState b

def State.pumpAll (s : State) : List Nat → State
  | [] => s
  | b :: r => (s.pump b).pumpAll r

/-- Every barrow goes on as far as it can. -/
def State.pumpBarrows (s : State) : State := s.pumpAll (List.range s.straps.barrows)

/-! ## Frames in use -/

/-- FRAME_TRANSLATED (R220, R221). -/
def frameTranslatedS (b op page : Nat) (s : State) : State :=
  match s.qdesc? b op with
  | some _ => (((s.fillFrame b op (pageVa page) false).fillFrame b op (pageVa page) true).refill b op).pump b
  | none => s

def execFrameTranslated (barrow op page : Nat) (s : State) : Host.Outcome State Fault Refusal := .next (frameTranslatedS barrow op page s)

/-! ## Starting (R218) -/

/-- The digest slot an operation works on. -/
def digestIx (o : Op) : Nat := 4 * o.lane.cl + bits o.iw.w 23 22

/-- A BAR.DIGEST starts (R179): the slot as it stands is kept; init empties it; a read-only slot without init, or a length beyond 2^61 - 1, is
DIGEST-INVALID. -/
def State.startDigest (s : State) (b : Nat) (o : Op) : State :=
  let d := nth (s.ctx o.ctx).digests (digestIx o)
  let init := bit o.iw.w 21
  let len := if init then 0 else d.length
  let s := s.updQ b o.id fun q => { q with before := some d }
  if (d.fin && !init) || decide (2 ^ 61 - 1 < len + streamLen o.da) then s.failOp b o.id xDIGESTINVALID 0
  else if init then s.updCtx o.ctx fun x => { x with digests := put x.digests (digestIx o) Digest.empty }
  else s

/-- BARROW_OP_START (R218): the head of the queue starts. -/
def barrowOpStartS (b : Nat) (s : State) : State :=
  let x := s.barrow b
  match x.q.find? fun q => !q.running with
  | none => s
  | some q =>
    match s.op? q.op with
    | none => s
    | some o =>
      let run := x.q.filter fun q => q.running
      let turn := iOp o.iw != 3 || s.ops.all fun p =>
        !(iCls p.iw == 0xA && iOp p.iw == 3 && p.ctx == o.ctx && decide (p.id < o.id) && digestIx p == digestIx o)
      if s.injHits 0x12 (16 + b) then s.ctrlWord (16 + b)
      else if !s.mayStart o || decide (2 ≤ run.length) || run.any (fun r => decide (r.next < r.total)) || !turn then s
      else
        let s := (s.startOp o).updQ b o.id fun q => { q with running := true }
        let s := if (s.barrow b).st == .idle then s.setBarSt b .moving else s
        if iOp o.iw == 3 then s.startDigest b o else s

def execBarrowOpStart (barrow : Nat) (s : State) : Host.Outcome State Fault Refusal := .next (barrowOpStartS barrow s)

/-! ## Issue of segments (R222, R224) -/

/-- The next segment of a running operation. -/
def QDesc.nextSeg (q : QDesc) : Option Nat := q.ahead256.head?

/-- A segment whose page is missing stops its operation's issue (R224): STALLED_FAULT where a page request is served for it; else it waits for
its frame, in RETRANSLATING where the one it had was withdrawn (R225, R244). -/
def State.stallSeg (s : State) (b : Nat) (q : QDesc) (page : Nat) (dest again : Bool) : State :=
  if s.pageReqs.any fun p => p.ctx == q.ctx && p.gen == q.gen && p.page == page then
    let s := s.updQ b q.op fun q => { q with fault := some page }
    let s := s.setBarSt b .stalledFault
    (s.incSat (Reg.barReplay b) 31 0 1).barEvent 1
  else
    let s := if again || q.frames.any (fun f => f.stale && f.covers page dest) then s.setBarSt b .retranslating else s
    s.refill b q.op

/-- The segment's runs translate, or the first that does not: a fault, or a miss with its page. -/
def State.segReady (s : State) (q : QDesc) (o : Op) : List (Nat × Nat × Bool) → Option (Xl × Nat × Bool)
  | [] => none
  | (va, _, d) :: r =>
    match s.pieceXl q o va d with
    | .ok _ _ => s.segReady q o r
    | x => some (x, va, d)

/-- SEGMENT_ISSUE (R222): the next segment of the oldest running operation that has one is issued when every page it touches is held. -/
def segmentIssueS (b : Nat) (s : State) : State :=
  let x := s.barrow b
  match x.q.find? fun q => q.running && q.failing.isNone && q.fault.isNone && q.nextSeg.isSome with
  | none => s
  | some q0 =>
    let s := if q0.recheck then (s.updQ b q0.op fun q => { q with recheck := false }).checkSegs b q0.op q0.next else s
    match s.qdesc? b q0.op, s.op? q0.op with
    | some q, some o =>
      match q.failing, q.nextSeg with
      | none, some k =>
        match s.segReady q o (segRuns o k) with
        | some (.fault 0, va, _) => s.failOp b q.op (badAddr va) 0
        | some (.fault n, va, d) => (s.noteFault q.ctx va b (needOf o d) n).failOp b q.op xTRANSLATIONFAULT va
        | some (_, va, d) => s.stallSeg b q (pageVa va) d q0.recheck
        | none =>
          let src := s.formPieces q o false (srcRuns o k)
          let remote := src.any fun p => match s.whereIs q.ctx (p.pa.getD 0) with | .own a => decide (a < scratchBase) | _ => true
          if remote && !s.mayIssue b q.ctx then
            (if x.st == .stalledBudget then s else (s.setBarSt b .stalledBudget).barEvent 4)
          else
            let g : Seg := { k := k, src := src, dst := s.formPieces q o true (dstRuns o k), waits := 0, formed := false, clamps := 0, dead := false }
            let s := s.updQ b q.op fun q => { q with segs := q.segs ++ [g], next := k + 1 }
            let s := if (s.barrow b).st == .stalledBudget then s else s.setBarSt b .moving
            ((s.pumpSeg b q.op k).refill b q.op).budgetState b
      | _, _ => s
    | _, _ => s

def execSegmentIssue (barrow : Nat) (s : State) : Host.Outcome State Fault Refusal := .next (segmentIssueS barrow s)

/-- BUDGET_GRANT (R236): a freed pool transaction goes to the waiting barrow whose turn it is; where none waits for the pool, a barrow that
waits at its cap goes on. -/
def budgetGrantS (s : State) : State :=
  let n := s.straps.barrows
  match s.poolTurn with
  | some b => s.pump b
  | none =>
    match ((List.range n).map fun i => (s.grantTurn + i) % n).find? fun b => (s.barrow b).st == .stalledBudget with
    | some b => s.pump b
    | none => s

def execBudgetGrant (s : State) : Host.Outcome State Fault Refusal := .next (budgetGrantS s)

/-! ## Completion (R223) -/

/-- A semaphore raised (R181): false, and unchanged, where the sum would pass 2^32 - 1. -/
def State.semAdd (s : State) (c sem v : Nat) : Bool × State :=
  let x := nth (s.ctx c).sems sem
  if x + v < 2 ^ 32 then (true, s.updCtx c fun y => { y with sems := put y.sems sem (x + v) }) else (false, s)

/-- Complete segments' bytes are absorbed in segment order (R234). -/
def absorbGo : Nat → QDesc → Digest → QDesc × Digest
  | 0, q, d => (q, d)
  | n + 1, q, d =>
    match q.ahead.find? fun a => a.1 == q.absorbed with
    | some (k, bs) =>
      absorbGo n { q with absorbed := k + 1, ahead := q.ahead.filter fun a => a.1 != k } { d with bytes := d.bytes ++ bs, length := d.length + bs.length }
    | none => (q, d)

def State.absorb (s : State) (b : Nat) (o : Op) (k : Nat) (bs : List Byte) : State :=
  match s.qdesc? b o.id with
  | some q =>
    let q := { q with ahead := q.ahead ++ [(k, bs)] }
    let (q, d) := absorbGo q.ahead.length q (nth (s.ctx o.ctx).digests (digestIx o))
    (s.updQ b o.id fun _ => q).updCtx o.ctx fun x => { x with digests := put x.digests (digestIx o) d }
  | none => s

/-- The prefix advances over every set bit at its front. -/
def QDesc.advance : Nat → QDesc → QDesc
  | 0, q => q
  | n + 1, q => if q.bitmap.contains q.done then QDesc.advance n { q with bitmap := q.bitmap.filter (· != q.done), done := q.done + 1 } else q

/-- The operation completes (R160, R179, R180, R223). -/
def State.endBarOp (s : State) (b : Nat) (o : Op) : State :=
  let s := if iOp o.iw == 3 && bit o.iw.w 20 then
      s.updCtx o.ctx fun x => { x with digests := upd x.digests (digestIx o) fun d => { d with fin := true } }
    else s
  let s := ((s.updBarrow b fun x => { x with q := x.q.filter fun q => q.op != o.id }).finishOp o).restBarrow b
  if bSig o.iw then
    let (ok, s) := s.semAdd o.ctx (bSem o.iw) 1
    if ok then s else s.raiseOp o xSEMOVERFLOW 0 0 0
  else s

/-- SEGMENT_COMPLETE (R223): the segment's writes are in force. -/
def segmentCompleteS (b op k : Nat) (s : State) : State :=
  match s.op? op, s.seg? b op k with
  | some o, some g =>
    if !g.formed || g.dead || g.dst.any (fun p => !p.sent) || decide (0 < g.waits) then s
    else
      let s := s.updQ b op fun q => QDesc.advance 257 { q with segs := q.segs.filter fun x => x.k != k, bitmap := q.bitmap ++ [k] }
      let s := (s.tallyUp o.ctx o.seq 1).energyEvent o.ctx o.seq 7 1
      let s := s.countSat o.lane 0 g.clamps false
      let bs := (g.dst.map fun p => p.bytes.getD []).flatten
      let s := if iOp o.iw == 3 then (s.absorb b o k bs).energyEvent o.ctx o.seq 8 ((bs.length + 127) / 128) else s
      match s.qdesc? b op with
      | some q =>
        if q.failing.isSome then s.settle b op
        else if q.done == q.total then s.endBarOp b o
        else s
      | none => s
  | _, _ => s

def execSegmentComplete (barrow op seg : Nat) (s : State) : Host.Outcome State Fault Refusal := .next (segmentCompleteS barrow op seg s)

/-- BARROW_REPLAY (R224): the page that stopped an operation is translated again; once it is, the operation replays from the prefix. -/
def barrowReplayS (b : Nat) (s : State) : State :=
  match (s.barrow b).q.find? fun q => q.fault.isSome with
  | none => s
  | some q =>
    let page := q.fault.getD 0
    let s := (s.fillFrame b q.op page false).fillFrame b q.op page true
    match s.qdesc? b q.op with
    | none => s.restBarrow b
    | some q =>
      if q.failing.isNone && q.frames.any fun f => !f.valid && f.covers page f.dest then s
      else if q.failing.isSome then s
      else
        let s := s.updQ b q.op fun q => { q with fault := none, next := q.done }
        let s := s.setBarSt b .moving
        ((s.incSat (Reg.barReplay b) 63 32 1).barEvent 2).refill b q.op

def execBarrowReplay (barrow : Nat) (s : State) : Host.Outcome State Fault Refusal := .next (barrowReplayS barrow s)

end Sys2Proof.Machine
end

