-- ==== Sys2Proof/Machine/Xlate.lean ====
section
/-!
DEFINITION. Results of translation (R247 to R251), page requests (R255 to R257) and the withdrawal of mappings (R244, R258 to R264).
-/
namespace Sys2Proof.Machine

open Sys2Proof

/-! ## ATS (R251) -/

/-- The generation of a context's slot. -/
def State.genOf (s : State) (c : Nat) : Nat := (s.ctx c).gen

/-- The cache entry of an ATS completion: the page of its size that holds the page asked for, a larger one by its 1 GiB piece; R grants
read, W write and atomic; with U its requests go untranslated. A translated address from 2^55 up is out of range (R242). -/
def atsEntry (x : XReq) (r : AtsResult) : XOut :=
  if r.u then
    .entry { cache := x.cache, ctx := x.ctx, gen := x.gen, page := x.page, size := 4096, phys := 2 ^ 55 + x.page % 2 ^ 55, r := true, w := true,
             atomic := true, untrans := true }
  else if !r.r && !r.w then .absent
  else
    let size := max 4096 r.size
    let used := min size (2 ^ 30)
    let base := x.page / used * used
    let a := r.addr / size * size + (base - x.page / size * size)
    if 2 ^ 55 < a + used then .fault 0x0F
    else .entry { cache := x.cache, ctx := x.ctx, gen := x.gen, page := base, size := used, phys := 2 ^ 55 + a, r := r.r, w := r.w,
                  atomic := r.w, untrans := false }

/-- Does a run of bytes overlap a range? -/
def overlap (a n first len : Nat) : Bool := decide (a < first + len) && decide (first < a + n)

/-- ATS_TCPL (R251, R263): a result that overlaps a range withdrawn since the request was sent is discarded, and the page is asked for again. -/
def atsTcplS (id status : Nat) (r : AtsResult) (s : State) : State :=
  match s.xreqs.find? fun x => x.id == id && !x.walk && !x.held with
  | none => s
  | some x =>
    let s : State := { s with xreqs := s.xreqs.filter fun y => y.id != id }
    if x.gen != s.genOf x.ctx then s
    else
      let out := if status != 0 then .fault 8 else atsEntry x r
      let (first, len) := match out with | .entry e => (e.page, e.size) | _ => (x.page, 4096)
      if x.stale || x.after.any fun v => overlap first len v.1 v.2 then
        s.askAgain x.ctx x.gen x.page (s.waiters (some x.cache) x.ctx x.gen x.page)
      else (if status != 0 then s.xltEvent (2 ^ 5) else s).xlResult x out

/-- An answer to a transaction that the lead of a gang has issued for a member goes back to it over the ring (R291). -/
def State.relayed (s : State) (kind tag : Nat) : Option Relay := s.relays.find? fun r => r.kind == kind && r.tag == tag
def State.relayBack (s : State) (r : Relay) (t : HostTx) : State :=
  { s with relays := s.relays.erase r }.emit (.ring r.member 6 { t with tag := r.theirs }.bytes)

def execAtsTcpl (req status : Nat) (r : AtsResult) (s : State) : Host.Outcome State Fault Refusal :=
  match s.relayed 3 req with
  | some x => .next (s.relayBack x { kind := 0x11, status := status, addr := r.addr,
                                     fields := [r.size, if r.r then 1 else 0, if r.w then 1 else 0, if r.u then 1 else 0] })
  | none => .next (atsTcplS req status r s)

/-! ## Walks (R245 to R250) -/

/-- The format of the tables (R245). -/
structure PtFmt where
  levels : Nat
  idx : Nat
  ps : Nat
  valid : Nat
  write : Nat
  leaf : Nat
  user : Nat
  atomic : Nat
  accessed : Nat
  dirty : Nat
  hi : Nat
  lo : Nat
  leafLevels : Nat
  deriving DecidableEq, Repr, Inhabited

def State.ptFmt (s : State) : PtFmt :=
  let a := s.reg Reg.xltFmtX0
  let b := s.reg Reg.xltFmtX1
  { levels := bits b 11 8, idx := bits b 7 4, ps := 12 + bits b 3 0, valid := bits a 7 2, write := bits a 13 8, leaf := bits a 19 14,
    user := bits a 25 20, atomic := bits a 31 26, accessed := bits a 37 32, dirty := bits a 43 38, hi := bits a 55 50, lo := bits a 49 44,
    leafLevels := bits b 23 16 }

def PtFmt.vaBits (f : PtFmt) : Nat := f.ps + f.levels * f.idx

/-- The frame of an entry as a physical address (R248). -/
def PtFmt.frame (f : PtFmt) (host : Bool) (e : Word) : Nat :=
  if host then 2 ^ 55 + bits e f.hi f.lo * 2 ^ f.lo else bits e (f.lo + 43) f.lo * 4096

/-- What a walk finds. -/
inductive WalkRes where
  | range
  | error
  | absent
  /-- a leaf: its page's base offset and size, its physical address, write and atomic -/
  | leaf (base size phys : Nat) (w atomic : Bool)
  deriving DecidableEq, Repr, Inhabited

/-- A walk on its way: the values that host memory will return, in order, and the reads issued to it (R242). -/
structure Walk where
  host : List Word
  reads : List Nat
  deriving DecidableEq, Repr, Inhabited

/-- One entry read at a physical address: from this block's memory, else by a host read; none when the read fails (R242, R248). -/
def State.readEntry (s : State) (c pa : Nat) (k : Walk) : Option Word × Walk × State :=
  match s.whereIs c pa with
  | .host h =>
    let k := { k with reads := k.reads ++ [h] }
    match k.host with
    | e :: r => (some e, { k with host := r }, s)
    | [] => (none, k, s)
  | .own a =>
    if a < scratchBase then
      let (ok, s) := s.walkLine c a
      (if ok then some (word (s.rdNat a 8)) else none, k, s)
    else (if placeOf s.straps a != .none then some (word (s.rdNat a 8)) else none, k, s)
  | _ => (none, k, s)

/-- The walk from a table at level `lvl` downwards (R247 to R249). -/
def State.walkGo (c : Nat) (f : PtFmt) (hostW : Bool) (va : Nat) : Nat → Nat → Bool → Walk → State → WalkRes × Walk × State
  | 0, _, _, k, s => (.error, k, s)
  | l + 1, table, pw, k, s =>
    let ix := va / 2 ^ (f.ps + l * f.idx) % 2 ^ f.idx
    let (e, k, s) := s.readEntry c (table + 8 * ix) k
    match e with
    | none => (.error, k, s)
    | some e =>
      if !bit e f.valid then (.absent, k, s)
      else if hostW && f.user != 63 && !bit e f.user then (.absent, k, s)
      else
        let pw := pw && bit e f.write
        let p := f.frame hostW e
        if l == 0 || (maskHas f.leafLevels l && bit e f.leaf) then
          let size := 2 ^ (f.ps + l * f.idx)
          if p % size != 0 then (.error, k, s)
          else if hostW && f.accessed != 63 && !bit e f.accessed then (.absent, k, s)
          else
            let w := pw && (!hostW || f.dirty == 63 || bit e f.dirty)
            (.leaf (va / size * size) size p w (w && (f.atomic == 63 || bit e f.atomic)), k, s)
        else State.walkGo c f hostW va l p pw k s

/-- A page walk (R247). -/
def State.walk (s : State) (x : XReq) (host : List Word) : WalkRes × Walk × State :=
  let f := s.ptFmt
  let va := if x.hostWalk then x.page % 2 ^ 57 else x.page % 2 ^ 60
  let root := if x.hostWalk then 2 ^ 55 + s.fld (Reg.ctxXltHroot x.ctx) 54 12 * 4096 else s.fld (Reg.ctxXltDroot x.ctx) 55 12 * 4096
  let k : Walk := ⟨host, []⟩
  if 2 ^ f.vaBits ≤ va then (.range, k, s) else State.walkGo x.ctx f x.hostWalk va f.levels root true k s

/-- Host reads of 8 bytes each are sent, under tags of their own. -/
def State.walkReads (s : State) : List Nat → State
  | [] => s
  | h :: r => { s.emit (.mrd s.nextTag h 8) with nextTag := s.nextTag + 1 }.walkReads r

/-- HW_WALK (R247): a walk in a walker is made against the tables as they stand; its host reads, whose answers the command brings, are sent,
and while host-bound requests are held it waits (R429). -/
def hwWalkS (id : Nat) (host : List Word) (s : State) : State :=
  match s.xreqs.find? fun x => x.id == id && x.walk with
  | none => s
  | some x =>
    if !x.running then s
    else if x.gen != s.genOf x.ctx then { s with xreqs := s.xreqs.filter fun y => y.id != id }.takeWalkers 1
    else
      let (r, k, s1) := s.walk x host
      if !k.reads.isEmpty && s.hostHeld then s
      else
        let s1 := { s1 with xreqs := s1.xreqs.filter fun y => y.id != id }.walkReads k.reads
        let tag := x.page / 2 ^ 60 * 2 ^ 60
        let s1 := match r with
          | .range => s1.xlResult x (.fault 5)
          | .error => (s1.xltEvent (2 ^ 4)).xlResult x (.fault 6)
          | .absent => s1.xlResult x .absent
          | .leaf base size phys w a =>
            s1.xlResult x (.entry { cache := x.cache, ctx := x.ctx, gen := x.gen, page := tag + base, size := size, phys := phys, r := true, w := w,
                                    atomic := a, untrans := false })
        s1.takeWalkers 1

def execHwWalk (req : Nat) (host : List (BitVec 64)) (s : State) : Host.Outcome State Fault Refusal := .next (hwWalkS req host s)

/-! ## Page requests (R255) -/

/-- A waiter has had its page request for a page, of a write or of a read. -/
def State.markServed (s : State) (page : Nat) (wr : Bool) : Waiter → State
  | .frame b op _ => s.updQ b op fun q => { q with served := (page, wr) :: q.served }
  | .fetch l => s.updLane l fun x => { x with served := page :: x.served }
  | .record c r _ => s.updCtx c fun x => x.updRing r fun g => { g with served := page :: g.served, held := false }
  | .cq c => s.updCtx c fun x => { x with cq := .walk, launches := x.launches.mapIdx fun i l => if i == 0 && wr then { l with retried := true } else l }

def State.markAll (s : State) (page : Nat) (wr : Bool) : List Waiter → State
  | [] => s
  | w :: r => (s.markServed page wr w).markAll page wr r

def State.faultAll (s : State) (page cause : Nat) : List Waiter → State
  | [] => s
  | w :: r => (s.waitFault page cause w).faultAll page cause r

/-- CTX_XLT_PRQ.failed. -/
def State.prqFailed (s : State) (c : Nat) : State := s.incSat (Reg.ctxXltPrq c) 31 0 1

/-- PRG_RSP (R255, R257). -/
def prgRspS (index : Nat) (code : PrgCode) (s : State) : State :=
  match s.pageReqs.find? fun p => p.index == index && !p.waiting with
  | none => s
  | some p =>
    let s : State := { s with pageReqs := s.pageReqs.filter (· != p) }
    let live := p.gen == s.genOf p.ctx && !p.dead
    let ws := if live then s.waiters none p.ctx p.gen p.page else []
    let s := if code != .success && live then s.prqFailed p.ctx else s
    let s := match code with
      | .success => (s.markAll p.page p.write ws).askAgain p.ctx p.gen p.page ws
      | .invalidRequest => (s.markAll p.page p.write ws).faultAll p.page 0x0A ws
      | .responseFailure =>
        if p.gen == s.genOf p.ctx then (((s.setFld Reg.xltCtrl 1 1 0).xltEvent 2).markAll p.page p.write ws).faultAll p.page 0x0B ws else s
    s.sendPages (s.pageReqs.filter fun q => q.waiting)

/-- The number of a response code, as a field of its message. -/
def prgField : PrgCode → Nat
  | .success => 0 | .invalidRequest => 1 | .responseFailure => 2

def execPrgRsp (index : Nat) (code : PrgCode) (s : State) : Host.Outcome State Fault Refusal :=
  match s.relayed 4 index with
  | some x => .next (s.relayBack x { kind := 0x15, fields := [prgField code] })
  | none => .next (prgRspS index code s)

/-- PRI_TIMEOUT (R255): the index stays in use until its response arrives. -/
def priTimeoutS (index : Nat) (s : State) : State :=
  match s.pageReqs.find? fun p => p.index == index && !p.waiting && !p.dead with
  | none => s
  | some p =>
    if s.up < p.sentUp + s.fld Reg.xltPri 47 32 * msT then s
    else
      let s : State := { s with pageReqs := s.pageReqs.map fun q => if q == p then { q with dead := true } else q }
      if p.gen != s.genOf p.ctx then s
      else
        let ws := s.waiters none p.ctx p.gen p.page
        (((s.prqFailed p.ctx).xltEvent (2 ^ 2)).markAll p.page p.write ws).faultAll p.page 0x0C ws

def execPriTimeout (index : Nat) (s : State) : Host.Outcome State Fault Refusal := .next (priTimeoutS index s)

/-! ## Withdrawals (R258 to R264) -/

/-- The engines of the build (R258). -/
def engineMask (t : Straps) : Nat := (2 ^ t.barrows - 1) + (2 ^ t.clusters - 1) * 2 ^ 24 + 7 * 2 ^ 28 + (if t.build = .c1 then 0 else 2 ^ 31)

/-- What every engine drops when a range of some contexts is withdrawn: cache entries, frames (marked stale), pieces formed and not yet
accepted, instruction lines, requests for translation under way (R259, R263). -/
def State.dropRange (s : State) (cs : List Nat) (first len : Nat) : State :=
  let hit := fun c a n => cs.contains c && overlap a n first len
  let piece := fun (c : Nat) (p : Piece) => if !p.sent && hit c p.va p.len then { p with pa := none } else p
  let desc := fun (q : QDesc) => { q with
    frames := q.frames.map fun f => if f.valid && hit q.ctx f.page f.size then { f with stale := true, valid := false, asked := false } else f
    segs := q.segs.map fun g => { g with src := g.src.map (piece q.ctx), dst := g.dst.map (piece q.ctx) } }
  { s with
    tlb := s.tlb.filter fun e => !hit e.ctx e.page e.size
    xreqs := s.xreqs.map fun x => if !x.walk && !x.held && cs.contains x.ctx then { x with after := x.after ++ [(first, len)] } else x
    clusters := s.clusters.map fun k => { k with icache := k.icache.filter fun l => !hit l.ctx l.addr 64 }
    barrows := s.barrows.map fun b => { b with q := b.q.map desc } }

/-- Reads of some contexts issued through a range and not yet answered (R260). -/
def State.undrained (s : State) (cs : List Nat) (first len : Nat) : List Nat :=
  (s.reqs.filter fun r => !r.write && !r.abandoned && cs.contains r.ctx && overlap r.va r.len first len).map fun r => r.tag

/-- A withdrawal begins: of `pages` pages, or of the whole space (both spaces for a change of settings). -/
def State.withdraw (s : State) (itag : Option Nat) (drain : Bool) (cs : List Nat) (first pages : Nat) : State :=
  let len := if pages == 0 then (if itag.isNone && !drain then 2 * 2 ^ 60 else 2 ^ 60) else pages * 4096
  let first := if pages == 0 then first / 2 ^ 60 * 2 ^ 60 else first
  let w : Withdraw := { id := s.nextWd, itag := itag, drain := drain, ctxs := cs, first := first, pages := pages, engines := engineMask s.straps, arrived := s.up,
                        tags := s.undrained cs first len, members := if itag.isSome && s.gangM == 0 then (List.range s.gangN).drop 1 else [] }
  let s := s.dropRange cs first len
  let s : State := { s with withdraws := s.withdraws ++ [w], nextWd := s.nextWd + 1 }
  s.refillAll

/-- ATS_INV (R259): of every context with the PASID, or of every context; at most 32 are outstanding. The lead of a gang passes it to every
member (R291). -/
def atsInvS (itag : Nat) (pasid : Option Nat) (page pages : Nat) (s : State) : State :=
  if 32 ≤ (s.withdraws.filter fun w => w.itag.isSome).length then s
  else
    let tx : HostTx := { kind := 0x14, tag := itag, pasid := (pasid.map fun p => pasidWord p false).getD 0, addr := page * 4096, fields := [pages] }
    let s := if s.gangM == 0 then (List.range s.gangN).drop 1 |>.foldl (fun s m => s.emit (.ring m 5 tx.bytes)) s else s
    let cs := (List.range s.straps.contexts).filter fun c => match pasid with
      | some p => s.fld (Reg.ctxXltCfg c) 19 0 == p
      | none => true
    s.withdraw (some itag) false cs (2 ^ 60 + page * 4096) pages

def execAtsInv (itag : Nat) (pasid : Option Nat) (page pages : Nat) (s : State) : Host.Outcome State Fault Refusal :=
  .next (atsInvS itag pasid page pages s)

/-- A withdrawal that every engine has acknowledged is complete: the Invalidate Completion, or DONE and its events (R259, R264). -/
def State.endWithdraw (s : State) (w : Withdraw) : State :=
  let s : State := { s with withdraws := s.withdraws.filter fun x => x.id != w.id }
  let ns := (s.up - w.arrived) / 4
  let s := if s.fld Reg.xltInv 63 32 < ns then s.setFld Reg.xltInv 63 32 (sat 32 ns) else s
  match w.itag with
  | some t => s.emit (.invCpl t)
  | none =>
    if !w.drain then s
    else
      let s := s.setReg Reg.xltDinvStatus (word (fields [(16, sat 16 ((s.up - w.arrived) / usT)), (0, 2)]))
      (s.xltEvent (2 ^ 6)).mgmt 2

/-- ENGINE_INVAL_ACK (R259, R260): an engine acknowledges when none of its reads through the old translation is outstanding; a purge by
the Awning counts for its context (R263). -/
def engineInvalAckS (wd engine : Nat) (s : State) : State :=
  match s.withdraws.find? fun w => w.id == wd with
  | none => s
  | some w =>
    let busy := s.reqs.any fun r => w.tags.contains r.tag && r.engine == engine && r.gen == s.genOf r.ctx && !r.abandoned
    let left := if busy then w.engines else maskDiff w.engines (2 ^ engine)
    let w := { w with engines := left }
    let s : State := { s with withdraws := s.withdraws.map fun x => if x.id == wd then w else x }
    if left == 0 && w.members.isEmpty then s.endWithdraw w else s

/-- The Invalidate Completion of another member of the gang has reached the lead (R291). -/
def State.memberInvCpl (s : State) (m itag : Nat) : State :=
  match s.withdraws.find? fun w => w.itag == some itag && w.members.contains m with
  | none => s
  | some w =>
    let w := { w with members := w.members.erase m }
    let s : State := { s with withdraws := s.withdraws.map fun x => if x.id == w.id then w else x }
    if w.engines == 0 && w.members.isEmpty then s.endWithdraw w else s

def execEngineInvalAck (wd engine : Nat) (s : State) : Host.Outcome State Fault Refusal := .next (engineInvalAckS wd engine s)

/-- The work of a request ends with a fault: its operation, its fetch, or its record's fetch (R254). -/
def State.reqFault (s : State) (r : Req) (cause : Nat) : State :=
  let s := if cause == 8 then s.xltEvent (2 ^ 5) else s
  match r.dest with
  | .seg b op k _ =>
    match s.op? op with
    | some o => (s.noteFault r.ctx r.va b (needOf o false) cause).failSeg b op k xTRANSLATIONFAULT r.va
    | none => s
  | .fetch l a => (s.noteFault r.ctx a (24 + l.cl) 1 cause).raiseAt r.ctx (s.lane l).seq l.cl s.nextOp ⟨xFETCHFAULT, a, 0, 0, 0⟩
  | .record c g n => (s.noteFault c r.va 28 1 cause).updCtx c fun x => x.updRing g fun y => { y with failed := y.firstFailed n r.va }
  | _ => s

/-- INVAL_ABANDON (R261): a read undrained 50 microseconds after the withdrawal arrived is abandoned, for every withdrawal that waits on it. -/
def invalAbandonS (wd tag : Nat) (s : State) : State :=
  match s.withdraws.find? (fun w => w.id == wd), s.req? tag with
  | some w, some r =>
    if !w.tags.contains tag || decide (s.up < w.arrived + 50 * usT) || r.abandoned then s
    else
      let s := s.updReq tag fun r => { r with dropped := true, abandoned := true }
      let s := s.xltEvent (2 ^ 3)
      if r.dropped || r.gen != s.genOf r.ctx then s else s.reqFault r 0x0E
  | _, _ => s

def execInvalAbandon (wd tag : Nat) (s : State) : Host.Outcome State Fault Refusal := .next (invalAbandonS wd tag s)

/-- The effect of a write to XLT_DINV_CTL (R264); the access is an error while a withdrawal is PENDING. -/
def State.drainGo (s : State) (v : Word) : State :=
  if !bit v 0 then s
  else if s.withdraws.any fun w => w.drain then s.regError Reg.xltDinvCtl
  else
    let a := s.fld Reg.xltDinvAddr 63 12 * 4096
    if vaTag a != 1 && vaTag a != 2 then s.setReg Reg.xltDinvStatus 3
    else (s.setReg Reg.xltDinvStatus 1).withdraw none true [bits v 13 8] a (bits v 47 16)

/-- Segment `n` of a context is to change (R244): its old range is withdrawn, queued descriptors are checked again, and a drain that is
pending over it covers the requests issued through it (R263). -/
def State.segWithdraw (s : State) (c n : Nat) : State :=
  if !s.flag (Reg.ctxSegLimit c n) 3 then s
  else
    let first := 2 * 2 ^ 60 + s.fld (Reg.ctxSegBase c n) 59 12 * 4096
    let len := 2 * 2 ^ 60 + s.fld (Reg.ctxSegLimit c n) 59 12 * 4096 + 4096 - first
    let more := s.undrained [c] first len
    let s := s.dropRange [c] first len
    { s with withdraws := s.withdraws.map fun w =>
        let wl := if w.pages == 0 then 2 ^ 60 else w.pages * 4096
        if w.drain && w.ctxs.contains c && overlap first len w.first wl then
          let engs := (s.reqs.filter fun r => more.contains r.tag).map fun r => r.engine
          { w with tags := w.tags ++ more.filter (fun t => !w.tags.contains t), engines := engs.foldl (fun m e => maskOr m (2 ^ e)) w.engines }
        else w }

/-- Every queued descriptor of a context is checked against the segments in force before its next segment (R244). -/
def State.recheckSegs (s : State) (c : Nat) : State :=
  { s with barrows := s.barrows.map fun b => { b with q := b.q.map fun q => if q.ctx == c then { q with recheck := true } else q } }

/-- Every mapping of a context is withdrawn under R259 (R266). -/
def State.withdrawAll (s : State) (c : Nat) : State := (s.withdraw none false [c] (2 ^ 60) 0).recheckSegs c

end Sys2Proof.Machine
end

