-- ==== Sys2Proof/Machine/Barrier.lean ====
section
/-!
DEFINITION. The barrier engine (R184, R283 to R289): arrival of lanes and of the block, epochs, release, missing members, and the gap of
a lane that waits at an ALIGNED barrier (R288).
-/
namespace Sys2Proof.Machine

open Sys2Proof

/-! ## Groups as bound (R283) -/

def State.barMode (s : State) (g : Nat) : Nat := s.fld (Reg.fabBarCfg g) 33 32
def State.barSlot (s : State) (g : Nat) : Nat := s.fld (Reg.fabBarCfg g) 3 0
/-- Is the group bound to the gang job? -/
def State.barGang (s : State) (g : Nat) : Bool := s.fld (Reg.fabJobCfg (s.barSlot g)) 15 0 == 0xFFFF

/-- The context a bound group serves (R184, R283). -/
def State.barCtx (s : State) (g : Nat) : Option Nat :=
  let j := s.barSlot g
  if (s.barMode g == 1 || s.barMode g == 2) && s.flag (Reg.fabJobCfg j) 63 && s.jobState j == 1 then
    if s.barGang g then (if s.flag (Reg.fabBarGctx g) 6 then some (s.fld (Reg.fabBarGctx g) 5 0) else none)
    else some (s.fld (Reg.fabJobCfg j) 55 50)
  else none

/-- Children of a group, from the child table. -/
def State.barKids (s : State) (g : Nat) : List Nat :=
  (List.range (s.fld (Reg.fabBarCfg g) 20 17)).map fun i =>
    let e := s.fld (Reg.fabBarCfg g) 31 21 + i
    s.fld (Reg.fabBchild (e / 4)) (16 * (e % 4) + 11) (16 * (e % 4))

def State.barRoot (s : State) (g : Nat) : Bool := s.flag (Reg.fabBarCfg g) 4
def State.barParent (s : State) (g : Nat) : Nat := s.fld (Reg.fabBarCfg g) 16 5
def State.barSelf (s : State) (g : Nat) : Nat := s.fld (Reg.fabJobCfg (s.barSlot g)) 39 28
def State.barEpoch (s : State) (g : Nat) : Nat := s.fld (Reg.fabBarStatus g) 63 49

/-- A barrier message to a job block; those of a gang group carry the context's slot and generation (R283). -/
def State.barSend (s : State) (g blk : Nat) (body : MsgBody) : State :=
  if s.barGang g then s.sendPeer (s.barSlot g) (s.fld (Reg.fabBarGctx g) 5 0) blk 0 body
  else s.sendJob (s.barSlot g) blk 0 0 body

def State.barSends (s : State) (g : Nat) (body : MsgBody) : List Nat → State
  | [] => s
  | b :: r => (s.barSend g b body).barSends g body r

/-- Does a message carry the generation, and for the gang job the context, that the group expects (R283, R284)? -/
def State.barMsgOk (s : State) (g : Nat) (job : Nat) (m : Msg) : Bool :=
  let j := s.barSlot g
  (s.barCtx g).isSome && s.fld (Reg.fabJobCfg j) 15 0 == job &&
    (if s.barGang g then m.gctx == s.fld (Reg.fabBarGctx g) 5 0 && m.jgen == (s.ctx (s.fld (Reg.fabBarGctx g) 5 0)).gen
     else m.jgen == s.fld (Reg.fabJobCfg j) 47 40)

/-! ## The epoch (R284, R285) -/

def State.barGroup? (s : State) (g : Nat) : Option BarGroup := s.barGroups.find? fun x => x.group == g

/-- The open epoch of a group; it opens with the first arrival of any kind. -/
def State.openBar (s : State) (g : Nat) : State :=
  if (s.barGroup? g).isSome then s
  else { s with barGroups := s.barGroups ++ [{ group := g, ops := [], own := none, kids := [], kidMissing := [], sent := false, release := none,
                                               openedUp := s.up, lastStraggler := s.up, lastMissing := s.up }] }
def State.updBar (s : State) (g : Nat) (f : BarGroup → BarGroup) : State :=
  { s with barGroups := s.barGroups.map fun x => if x.group == g then f x else x }

/-- The slack, the least expected tick and (0) the greatest that a subtree reports when none of its members had an expectation: the
identities of least and greatest (DESIGN CHOICE, log entry 21). -/
def noSlack : Int := 2 ^ 31 - 1
def noLeast : Nat := 2 ^ 64 - 1

/-- Two aggregates joined (R284, R289). -/
def joinArrive (a b : ArriveInfo) : ArriveInfo :=
  let (sl, sb) := if b.slack < a.slack then (b.slack, b.slackBlock) else (a.slack, a.slackBlock)
  let pa := if a.pace == 7 then 0 else a.pace + 1
  let pb := if b.pace == 7 then 0 else b.pace + 1
  { group := a.group, epoch := a.epoch, count := a.count + b.count, slack := sl, slackBlock := sb,
    leastTick := min a.leastTick b.leastTick, greatestTick := max a.greatestTick b.greatestTick, noneFlag := a.noneFlag || b.noneFlag,
    pace := if pa < pb then b.pace else a.pace, paceBlock := if pa < pb then b.paceBlock else a.paceBlock, overruns := a.overruns + b.overruns }

/-- A signed slack in 32 bits, saturating. -/
def slackBits (v : Int) : Nat := unsignedOf 32 (satInt 32 v)

/-- A gap of every tile of a lane begins anew, known to a tick or unknown (R288). -/
def State.regapTiles (s : State) (known : Option Nat) : List Nat → State
  | [] => s
  | t :: r =>
    (if (s.tile t).gap.isSome then
      let s := s.endGap t
      s.updTile t fun x => { x with gap := some { s.newGap t with known := known } }
     else s).regapTiles known r
def State.regap (s : State) (l : LaneId) (known : Option Nat) : State :=
  s.regapTiles known ((s.leaseTiles (s.lane l).ctx).filter fun t => t / 4 == l.cl)

/-- The release tick reaches the waiting operations; for a lane that waits for an earlier one, or for none, the wait from here is a new known
gap (R288). -/
def State.laterRelease (s : State) (t : Nat) : List Nat → State
  | [] => s
  | i :: r =>
    (match s.op? i with
     | some o => if o.tick < t then (s.updOp i fun o => { o with tick := t }).regap o.lane (some t) else s
     | none => s).laterRelease t r

/-- What a CONFIRM leaves at a member (R284, R285, R288, R289): the release, the job's least slack and pace, an overrun of the job, a late
confirm, a new gap of lanes that wait on, and the pace ceiling of a job slot that follows it. -/
def State.takeConfirm (s : State) (c : ConfirmInfo) : State :=
  let g := c.group
  let s := (s.setFld (Reg.fabBarStatus g) 31 0 (slackBits c.slack)).setFld (Reg.fabBarStatus g) 34 32 c.pace
  let s := s.updBar g fun x => { x with release := some c.release }
  let s := if c.slack < 0 then
      (s.setReg Reg.fabOverrun (word (fields [(52, c.slackBlock % 4096), (44, g), (0, slackBits c.slack)]))).fabEvent (2 ^ 7)
    else s
  let s := if c.release != 0 && decide (c.release < s.bell.now) then s.fabEvent (2 ^ 9) else s
  let ids := ((s.barGroup? g).map fun (x : BarGroup) => x.ops).getD []
  let s := s.laterRelease c.release ids
  if s.flag (Reg.fabJobCfg (s.barSlot g)) 61 then
    let job := s.fld (Reg.fabJobCfg (s.barSlot g)) 15 0
    (s.updPower fun p => { p with paces := (p.paces.filter fun x => x.1 != job) ++ (if c.pace ≤ 5 then [(job, c.pace)] else []) }).redecide
  else s

/-- The CONFIRM of a completed epoch, taken here and sent to every child. -/
def State.confirmDown (s : State) (c : ConfirmInfo) : State := (s.takeConfirm c).barSends c.group (.confirm c) (s.barKids c.group)

/-- When the block and all its children have arrived, ARRIVE goes to the parent; at the root the epoch completes with the release tick of
R285. -/
def State.checkEpoch (s : State) (g : Nat) : State :=
  match s.barGroup? g with
  | none => s
  | some x =>
    match x.own with
    | none => s
    | some own =>
      if x.sent || !(s.barKids g).all (fun k => x.kids.any fun p => p.1 == k) then s
      else
        let a := (x.kids.map fun p => p.2).foldl joinArrive own
        let s := s.updBar g fun x => { x with sent := true }
        if s.barRoot g then
          let cfg := s.reg (Reg.fabBarCfg g)
          let late := s.bell.now + 64 * bits cfg 39 34
          let rel := if s.barMode g == 1 then 0 else if a.noneFlag then late else max (a.greatestTick + bits cfg 63 40) late
          let s := if s.barMode g == 2 && decide (a.leastTick < a.greatestTick) then s.fabEvent (2 ^ 8) else s
          s.confirmDown { group := g, epoch := a.epoch, release := rel, slack := a.slack, slackBlock := a.slackBlock, pace := a.pace,
                          paceBlock := a.paceBlock, overruns := a.overruns }
        else s.barSend g (s.barParent g) (.arrive a)

/-! ## Arrival (R184) -/

/-- Clusters of this block still running a launch: those that have not ended their share (log entry 22). -/
def Launch.live (l : Launch) : List Nat := l.clusters.filter fun k => !l.ended.contains k

/-- Running BARRIER operations of a launch, local or on a group, by cluster. -/
def State.barOps (s : State) (c seq : Nat) (loc : Bool) (g : Nat) : List Op :=
  s.ops.filter fun o => o.of c seq && iCls o.iw == 0xB && iOp o.iw == 3 && o.st == .running && sLocal o.iw == loc && sGroup o.iw == g && o.done == 0

/-- A local barrier is complete when every cluster that runs the launch has reached it. -/
def State.checkLocal (s : State) (c seq : Nat) : State :=
  match (s.ctx c).launch? seq with
  | none => s
  | some l =>
    let os := s.barOps c seq true 0
    if !os.isEmpty && l.live.all (fun k => os.any fun o => o.lane.cl == k) then
      { s with ops := s.ops.map fun o => if os.any (fun p => p.id == o.id) then { o with done := 1 } else o }
    else s

/-- The block arrives at a group barrier when all its clusters that run the launch have: its slack, expectation and pace (R184, R289). The
expectation is the one that the last of its lanes carries (DEDUCED, log entry 22). -/
def State.checkGroup (s : State) (c seq g : Nat) : State :=
  match (s.ctx c).launch? seq with
  | none => s
  | some l =>
    let os := s.barOps c seq false g
    if os.isEmpty || !l.live.all (fun k => os.any fun o => o.lane.cl == k) || ((s.barGroup? g).bind fun x => x.own).isSome then s
    else
      let e : Option Nat := os.getLast?.bind fun o => if sBarRa o.iw == 0 then none else some (nth o.sc 0).toNat
      let slack : Int := match e with | some e => Int.ofNat e - Int.ofNat s.bell.now | none => noSlack
      let thr := s.throttled
      let a : ArriveInfo := { group := g, epoch := s.barEpoch g, count := 1, slack := satInt 32 slack, slackBlock := s.barSelf g,
                              leastTick := e.getD noLeast, greatestTick := e.getD 0, noneFlag := e.isNone, pace := if thr then s.power.run else 7, paceBlock := s.barSelf g,
                              overruns := if slack < 0 then 1 else 0 }
      let s := (s.openBar g).updBar g fun x => { x with own := some a, ops := os.map fun o => o.id }
      let s := if slack < 0 then s.fabEvent (2 ^ 6) else s
      s.checkEpoch g

/-- A BARRIER operation starts: its lane arrives. -/
def State.startBarrier (s : State) (o : Op) : State :=
  let s := s.startOp o
  if sLocal o.iw then s.checkLocal o.ctx o.seq
  else ((s.openBar (sGroup o.iw)).updBar (sGroup o.iw) fun x => { x with ops := x.ops ++ [o.id] }).checkGroup o.ctx o.seq (sGroup o.iw)

/-- BARRIER_RELEASE (R284, R285): the barrier completes at its release tick, or at once when that is 0 or has passed, and the epoch
advances. -/
def State.finishIds (s : State) : List Nat → State
  | [] => s
  | i :: r => (match s.op? i with | some o => s.finishOp o | none => s).finishIds r

def barrierReleaseS (g : Nat) (s : State) : State :=
  match s.barGroup? g with
  | some x =>
    match x.release with
    | some t =>
      if s.bell.now < t then s
      else
        let s := s.finishIds x.ops
        let s : State := { s with barGroups := s.barGroups.filter fun y => y.group != g }
        ((s.setFld (Reg.fabBarStatus g) 63 49 (s.barEpoch g + 1)).setFld (Reg.fabBarStatus g) 48 48 0).setFld (Reg.fabBarStatus g) 47 36 0
    | none => s
  | none => s

def execBarrierRelease (group : Nat) (s : State) : Host.Outcome State Fault Refusal := .next (barrierReleaseS group s)

/-! ## Messages -/

/-- ARRIVE (R284): from a child, for the current epoch and the job's generation; any other is dropped. -/
def arriveS (k : Nat) (s : State) : State :=
  match s.take k with
  | some (d, s1) =>
    match d.msg.body with
    | .arrive a =>
      if s.barMsgOk a.group d.job d.msg && a.epoch % 2 ^ 15 == s.barEpoch a.group && (s.barKids a.group).contains d.msg.src then
        let s1 := (s1.openBar a.group).updBar a.group fun x =>
          if x.kids.any fun p => p.1 == d.msg.src then x else { x with kids := x.kids ++ [(d.msg.src, a)] }
        s1.checkEpoch a.group
      else s1
    | _ => s
  | none => s

def execArrive (k : Nat) (s : State) : Host.Outcome State Fault Refusal := .next (arriveS k s)

/-- CONFIRM (R284): from the parent, for the current epoch. -/
def confirmS (k : Nat) (s : State) : State :=
  match s.take k with
  | some (d, s1) =>
    match d.msg.body with
    | .confirm c =>
      if s.barMsgOk c.group d.job d.msg && c.epoch % 2 ^ 15 == s.barEpoch c.group && d.msg.src == s.barParent c.group && !s.barRoot c.group then
        s1.confirmDown c
      else s1
    | _ => s
  | none => s

def execConfirm (k : Nat) (s : State) : Host.Outcome State Fault Refusal := .next (confirmS k s)

/-- The lowest number to report (R287): the block itself, children that have said nothing within 200 microseconds, and what children
report. -/
def State.lowestMissing (s : State) (g : Nat) (x : BarGroup) : Option Nat :=
  let own := if x.own.isNone then [s.barSelf g] else []
  let kids := ((s.barKids g).filter fun k => !x.kids.any (fun p => p.1 == k)).filter fun k =>
    match x.kidMissing.find? fun p => p.1 == k with
    | some (_, t, _) => decide (t + 200 * usT < s.up)
    | none => decide (x.openedUp + 200 * usT < s.up)
  let told := (x.kidMissing.filter fun p => !x.kids.any fun q => q.1 == p.1).map fun p => p.2.2
  (own ++ kids ++ told).foldl (fun m n => match m with | some v => some (min v n) | none => some n) none

/-- MISSING (R287): a child's report is kept for the epoch. -/
def missingS (k : Nat) (s : State) : State :=
  match s.take k with
  | some (d, s1) =>
    match d.msg.body with
    | .missing g e n =>
      if s.barMsgOk g d.job d.msg && e % 2 ^ 15 == s.barEpoch g && (s.barKids g).contains d.msg.src then
        (s1.openBar g).updBar g fun x => { x with kidMissing := (d.msg.src, s.up, n) :: x.kidMissing.filter fun p => p.1 != d.msg.src }
      else s1
    | _ => s
  | none => s

def execMissing (k : Nat) (s : State) : Host.Outcome State Fault Refusal := .next (missingS k s)

/-- FAB_BARg_STATUS.missing stored. -/
def State.noteMissing (s : State) (g n : Nat) : State :=
  (s.setFld (Reg.fabBarStatus g) 47 36 n).setFld (Reg.fabBarStatus g) 48 48 1

/-- STRAGGLER (R287): stored, and passed down the tree. -/
def stragglerS (k : Nat) (s : State) : State :=
  match s.take k with
  | some (d, s1) =>
    match d.msg.body with
    | .straggler g e n =>
      if s.barMsgOk g d.job d.msg && e % 2 ^ 15 == s.barEpoch g && d.msg.src == s.barParent g then
        ((s1.noteMissing g n).updBar g fun x => { x with lastStraggler := s.up }).barSends g (.straggler g e n) (s.barKids g)
      else s1
    | _ => s
  | none => s

def execStraggler (k : Nat) (s : State) : Host.Outcome State Fault Refusal := .next (stragglerS k s)

/-- MISSING_TIMER (R287): every 100 microseconds while an epoch is open whose subtree has not all arrived. -/
def missingTimerS (g : Nat) (s : State) : State :=
  match s.barGroup? g with
  | some x =>
    if x.sent || decide (s.up < x.lastMissing + 100 * usT) then s
    else
      let s := s.updBar g fun x => { x with lastMissing := s.up }
      match s.lowestMissing g x with
      | some n =>
        if s.barRoot g then ((s.noteMissing g n).updBar g fun x => { x with lastStraggler := s.up }).barSends g (.straggler g (s.barEpoch g) n) (s.barKids g)
        else s.barSend g (s.barParent g) (.missing g (s.barEpoch g) n)
      | none => s
  | none => s

def execMissingTimer (group : Nat) (s : State) : Host.Outcome State Fault Refusal := .next (missingTimerS group s)

/-- STRAGGLER_SILENCE (R287): a waiting block that has heard none for 300 microseconds stores its parent's number. -/
def stragglerSilenceS (g : Nat) (s : State) : State :=
  match s.barGroup? g with
  | some x =>
    if x.release.isSome || s.barRoot g || decide (s.up < max x.lastStraggler x.openedUp + 300 * usT) then s
    else (s.noteMissing g (s.barParent g)).updBar g fun x => { x with lastStraggler := s.up }
  | none => s

def execStragglerSilence (group : Nat) (s : State) : Host.Outcome State Fault Refusal := .next (stragglerSilenceS group s)

/-- ALIGNED_GUARD_TICK (R288): the tick E + guard_st passes before CONFIRM; the rest of the wait is a new unknown gap. -/
def alignedGuardTickS (op : Nat) (s : State) : State :=
  match s.op? op with
  | some o =>
    let waits := iCls o.iw == 0xB && iOp o.iw == 3 && !sLocal o.iw && o.st == .running && decide (0 < o.tick) && decide (o.tick ≤ s.bell.now)
    if waits && ((s.barGroup? (sGroup o.iw)).bind fun x => x.release).isNone then
      (s.updOp op fun o => { o with tick := 0 }).regap o.lane none
    else s
  | none => s

def execAlignedGuardTick (op : Nat) (s : State) : Host.Outcome State Fault Refusal := .next (alignedGuardTickS op s)

end Sys2Proof.Machine
end

