-- ==== Sys2Proof/Machine/Flags.lean ====
section
/-!
DEFINITION. What the scalar unit computes (R136, R137): the arithmetic functions, the comparisons and the predicate logic. The block
has no condition flags; a comparison writes a predicate.
-/
namespace Sys2Proof.Machine

open Sys2Proof

def aluMulh (a b : Word) : Word := BitVec.ofInt 64 (a.toInt * b.toInt / (2 ^ 64 : Int))
def aluMulhu (a b : Word) : Word := BitVec.ofNat 64 (a.toNat * b.toNat / 2 ^ 64)
/-- floor(a / b), all ones when b is 0. -/
def aluDivu (a b : Word) : Word := if b = 0 then BitVec.allOnes 64 else BitVec.ofNat 64 (a.toNat / b.toNat)
/-- a mod b, a when b is 0. -/
def aluRemu (a b : Word) : Word := if b = 0 then a else BitVec.ofNat 64 (a.toNat % b.toNat)
def aluShl (a b : Word) : Word := a <<< (b.toNat % 64)
def aluShr (a b : Word) : Word := a >>> (b.toNat % 64)
def aluSra (a b : Word) : Word := a.sshiftRight (b.toNat % 64)
def aluMin (a b : Word) : Word := if a.toInt ≤ b.toInt then a else b
def aluMax (a b : Word) : Word := if b.toInt ≤ a.toInt then a else b
def aluMinu (a b : Word) : Word := if a.toNat ≤ b.toNat then a else b
def aluMaxu (a b : Word) : Word := if b.toNat ≤ a.toNat then a else b

def cmpEqW (a b : Word) : Bool := a == b
def cmpNeW (a b : Word) : Bool := a != b
def cmpLtW (a b : Word) : Bool := decide (a.toInt < b.toInt)
def cmpLeW (a b : Word) : Bool := decide (a.toInt ≤ b.toInt)
def cmpGtW (a b : Word) : Bool := decide (b.toInt < a.toInt)
def cmpGeW (a b : Word) : Bool := decide (b.toInt ≤ a.toInt)
def cmpLtuW (a b : Word) : Bool := decide (a.toNat < b.toNat)
def cmpLeuW (a b : Word) : Bool := decide (a.toNat ≤ b.toNat)
def cmpGtuW (a b : Word) : Bool := decide (b.toNat < a.toNat)
def cmpGeuW (a b : Word) : Bool := decide (b.toNat ≤ a.toNat)

end Sys2Proof.Machine
end

