-- ==== Sys2Proof/Machine/Scalar.lean ====
section
/-!
DEFINITION. The scalar instructions (R136, R137): ALU, CMP, SEL and predicate logic.
-/
namespace Sys2Proof.Machine

open Sys2Proof

/-- s[fa] written; its result is usable `lat` cycles after issue (R148). A write to s0 is discarded (R131). -/
def State.writeS (s : State) (l : LaneId) (r : Nat) (v : Word) (lat : Nat) : State :=
  if r = 0 then s else (s.updLane l fun x => x.setS r v).pendReg l (rS r) lat

/-- p[fa] written, usable one cycle after issue; a write to p0 is discarded (R131). -/
def State.writeP (s : State) (l : LaneId) (r : Nat) (v : Bool) : State :=
  if r = 0 then s else (s.updLane l fun x => x.setP r v).pendReg l (rP r) 1

/-- The b operand: s[rb] + imm, or s[rb] + imm64 (R136). -/
def State.opB (s : State) (l : LaneId) (i : IWord) : Word := (s.lane l).sv (iRb i) + iVal i
def State.opA (s : State) (l : LaneId) (i : IWord) : Word := (s.lane l).sv (iRa i)

/-- s[fa] := f(a, b) (R136). -/
def aluBody (l : LaneId) (i : IWord) (f : Word → Word → Word) (lat : Nat) (s : State) : State :=
  (s.writeS l (iFa i) (f (s.opA l i) (s.opB l i)) lat).advance l i

def aluS (l : LaneId) (i : IWord) (op : Nat) (f : Word → Word → Word) (lat : Nat) (s : State) : State :=
  s.issue l i 1 op (formRegs i) (aluBody l i f lat)

/-- DIVU and REMU: one at a time per lane (R148). -/
def divBody (l : LaneId) (i : IWord) (f : Word → Word → Word) (s : State) : State :=
  if s.cyc < (s.lane l).divFree then s.waitLane l 2 0
  else aluBody l i f 34 (s.updLane l fun x => { x with divFree := s.cyc + 34 })

def divS (l : LaneId) (i : IWord) (op : Nat) (f : Word → Word → Word) (s : State) : State :=
  s.issue l i 1 op (formRegs i) (divBody l i f)

/-- p[fa] := a cc b (R137). -/
def cmpBody (l : LaneId) (i : IWord) (f : Word → Word → Bool) (s : State) : State :=
  (s.writeP l (iFa i) (f (s.opA l i) (s.opB l i))).advance l i

def cmpS (l : LaneId) (i : IWord) (op : Nat) (f : Word → Word → Bool) (s : State) : State :=
  s.issue l i 2 op (formRegs i) (cmpBody l i f)

/-- p[fa] := p[ra] f p[rb] (R137). -/
def predBody (l : LaneId) (i : IWord) (f : Bool → Bool → Bool) (s : State) : State :=
  (s.writeP l (iFa i) (f ((s.lane l).pv (iRa i)) ((s.lane l).pv (iRb i)))).advance l i

def predS (l : LaneId) (i : IWord) (op : Nat) (f : Bool → Bool → Bool) (s : State) : State :=
  s.issue l i 2 op (formRegs i) (predBody l i f)

/-- SEL (R137): s[fa] := s[ra] if p[imm 2:0], else s[rb]. -/
def selBody (l : LaneId) (i : IWord) (s : State) : State :=
  (s.writeS l (iFa i) (if (s.lane l).pv ((iVal i).toNat % 8) then (s.lane l).sv (iRa i) else (s.lane l).sv (iRb i)) 1).advance l i

/-- ADD (R136). -/
def execAddI (l : LaneId) (i : IWord) (s : State) : Host.Outcome State Fault Refusal :=
  .next (aluS l i 0 (· + ·) 1 s)

/-- SUB (R136). -/
def execSubI (l : LaneId) (i : IWord) (s : State) : Host.Outcome State Fault Refusal :=
  .next (aluS l i 1 (· - ·) 1 s)

/-- MUL (R136). -/
def execMulI (l : LaneId) (i : IWord) (s : State) : Host.Outcome State Fault Refusal :=
  .next (aluS l i 2 (· * ·) 3 s)

/-- MULH (R136). -/
def execMulh (l : LaneId) (i : IWord) (s : State) : Host.Outcome State Fault Refusal :=
  .next (aluS l i 3 aluMulh 3 s)

/-- MULHU (R136). -/
def execMulhu (l : LaneId) (i : IWord) (s : State) : Host.Outcome State Fault Refusal :=
  .next (aluS l i 4 aluMulhu 3 s)

/-- DIVU (R136). -/
def execDivu (l : LaneId) (i : IWord) (s : State) : Host.Outcome State Fault Refusal :=
  .next (divS l i 5 aluDivu s)

/-- REMU (R136). -/
def execRemu (l : LaneId) (i : IWord) (s : State) : Host.Outcome State Fault Refusal :=
  .next (divS l i 6 aluRemu s)

/-- AND (R136). -/
def execAndI (l : LaneId) (i : IWord) (s : State) : Host.Outcome State Fault Refusal :=
  .next (aluS l i 7 (· &&& ·) 1 s)

/-- OR (R136). -/
def execOrI (l : LaneId) (i : IWord) (s : State) : Host.Outcome State Fault Refusal :=
  .next (aluS l i 8 (· ||| ·) 1 s)

/-- XOR (R136). -/
def execXorI (l : LaneId) (i : IWord) (s : State) : Host.Outcome State Fault Refusal :=
  .next (aluS l i 9 (· ^^^ ·) 1 s)

/-- SHL (R136). -/
def execShl (l : LaneId) (i : IWord) (s : State) : Host.Outcome State Fault Refusal :=
  .next (aluS l i 10 aluShl 1 s)

/-- SHR (R136). -/
def execShr (l : LaneId) (i : IWord) (s : State) : Host.Outcome State Fault Refusal :=
  .next (aluS l i 11 aluShr 1 s)

/-- SRA (R136). -/
def execSra (l : LaneId) (i : IWord) (s : State) : Host.Outcome State Fault Refusal :=
  .next (aluS l i 12 aluSra 1 s)

/-- MIN (R136). -/
def execMinI (l : LaneId) (i : IWord) (s : State) : Host.Outcome State Fault Refusal :=
  .next (aluS l i 13 aluMin 1 s)

/-- MAX (R136). -/
def execMaxI (l : LaneId) (i : IWord) (s : State) : Host.Outcome State Fault Refusal :=
  .next (aluS l i 14 aluMax 1 s)

/-- MINU (R136). -/
def execMinu (l : LaneId) (i : IWord) (s : State) : Host.Outcome State Fault Refusal :=
  .next (aluS l i 15 aluMinu 1 s)

/-- MAXU (R136). -/
def execMaxu (l : LaneId) (i : IWord) (s : State) : Host.Outcome State Fault Refusal :=
  .next (aluS l i 16 aluMaxu 1 s)

/-- CMP.EQ (R137). -/
def execCmpEq (l : LaneId) (i : IWord) (s : State) : Host.Outcome State Fault Refusal :=
  .next (cmpS l i 0 cmpEqW s)

/-- CMP.NE (R137). -/
def execCmpNe (l : LaneId) (i : IWord) (s : State) : Host.Outcome State Fault Refusal :=
  .next (cmpS l i 1 cmpNeW s)

/-- CMP.LT (R137). -/
def execCmpLt (l : LaneId) (i : IWord) (s : State) : Host.Outcome State Fault Refusal :=
  .next (cmpS l i 2 cmpLtW s)

/-- CMP.LE (R137). -/
def execCmpLe (l : LaneId) (i : IWord) (s : State) : Host.Outcome State Fault Refusal :=
  .next (cmpS l i 3 cmpLeW s)

/-- CMP.GT (R137). -/
def execCmpGt (l : LaneId) (i : IWord) (s : State) : Host.Outcome State Fault Refusal :=
  .next (cmpS l i 4 cmpGtW s)

/-- CMP.GE (R137). -/
def execCmpGe (l : LaneId) (i : IWord) (s : State) : Host.Outcome State Fault Refusal :=
  .next (cmpS l i 5 cmpGeW s)

/-- CMP.LTU (R137). -/
def execCmpLtu (l : LaneId) (i : IWord) (s : State) : Host.Outcome State Fault Refusal :=
  .next (cmpS l i 6 cmpLtuW s)

/-- CMP.LEU (R137). -/
def execCmpLeu (l : LaneId) (i : IWord) (s : State) : Host.Outcome State Fault Refusal :=
  .next (cmpS l i 7 cmpLeuW s)

/-- CMP.GTU (R137). -/
def execCmpGtu (l : LaneId) (i : IWord) (s : State) : Host.Outcome State Fault Refusal :=
  .next (cmpS l i 8 cmpGtuW s)

/-- CMP.GEU (R137). -/
def execCmpGeu (l : LaneId) (i : IWord) (s : State) : Host.Outcome State Fault Refusal :=
  .next (cmpS l i 9 cmpGeuW s)

/-- SEL (R137). -/
def execSelI (l : LaneId) (i : IWord) (s : State) : Host.Outcome State Fault Refusal :=
  .next (s.issue l i 2 10 (rP ((iVal i).toNat % 8) :: formRegs i) (selBody l i))

/-- PAND (R137). -/
def execPand (l : LaneId) (i : IWord) (s : State) : Host.Outcome State Fault Refusal :=
  .next (predS l i 11 (· && ·) s)

/-- POR (R137). -/
def execPor (l : LaneId) (i : IWord) (s : State) : Host.Outcome State Fault Refusal :=
  .next (predS l i 12 (· || ·) s)

/-- PXOR (R137). -/
def execPxor (l : LaneId) (i : IWord) (s : State) : Host.Outcome State Fault Refusal :=
  .next (predS l i 13 xor s)

/-- PANDN (R137). -/
def execPandn (l : LaneId) (i : IWord) (s : State) : Host.Outcome State Fault Refusal :=
  .next (predS l i 14 (fun a b => a && !b) s)

end Sys2Proof.Machine
end

