-- ==== Sys2Proof/Machine/Branch.lean ====
section
/-!
DEFINITION. Branches, loops, and the CTL instructions (R138 to R140, R147).
-/
namespace Sys2Proof.Machine

open Sys2Proof

/-- Does the instruction stand as the last word of an active body (R140)? -/
def Lane.atBodyEnd (ln : Lane) : Bool := ln.loops.any fun e => e.last == ln.pc

/-- Loops left after a branch to `t`: one whose body lacks `t` ends, with every loop nested in it (R140). -/
def leaveLoops (t : Nat) : List LoopEnt → List LoopEnt
  | [] => []
  | e :: r =>
    let r' := leaveLoops t r
    if r'.length = r.length ∧ e.start ≤ t ∧ t ≤ e.last then e :: r' else r'

/-- A taken branch: the target issues 3 cycles later (R138). -/
def State.jump (s : State) (l : LaneId) (t : Nat) : State :=
  (s.updLane l fun x => { x with pc := t, loops := leaveLoops t x.loops }).spend l 3

/-- R138 and R140: a misaligned target, or a branch at the end of an active body, has no effect and raises; `link` is the
register that takes pc + 8. -/
def branchBody (l : LaneId) (t : Word) (link : Option Nat) (s : State) : State :=
  let ln := s.lane l
  if ln.atBodyEnd then s.raise l xLOOPINVALID 0
  else if t.toNat % 8 ≠ 0 then s.raise l xMISALIGNEDPC 0
  else
    let s := match link with
      | some r => s.writeS l r (word (ln.pc + 8)) 1
      | none => s
    s.jump l t.toNat

/-- pc + 8 × imm. -/
def State.relTarget (s : State) (l : LaneId) (i : IWord) : Word := word (s.lane l).pc + 8 * iVal i
/-- s[ra] + imm. -/
def State.regTarget (s : State) (l : LaneId) (i : IWord) : Word := s.opA l i + iVal i

/-- B. -/
def execBr (l : LaneId) (i : IWord) (s : State) : Host.Outcome State Fault Refusal :=
  .next (s.issue l i 3 0 (formRegs i) fun s => branchBody l (s.relTarget l i) none s)

/-- CALL. -/
def execCall (l : LaneId) (i : IWord) (s : State) : Host.Outcome State Fault Refusal :=
  .next (s.issue l i 3 1 (formRegs i) fun s => branchBody l (s.relTarget l i) (some (iFa i)) s)

/-- JR. -/
def execJr (l : LaneId) (i : IWord) (s : State) : Host.Outcome State Fault Refusal :=
  .next (s.issue l i 3 2 (formRegs i) fun s => branchBody l (s.regTarget l i) none s)

/-- JALR. -/
def execJalr (l : LaneId) (i : IWord) (s : State) : Host.Outcome State Fault Refusal :=
  .next (s.issue l i 3 3 (formRegs i) fun s => branchBody l (s.regTarget l i) (some (iFa i)) s)

/-- LOOP (R139, R140). A body of no words breaks "at least 1" and raises LOOP-INVALID (DEDUCED, log entry 9). A count of 0 goes
past the body with no loop test, as the pseudocode of R139 says (DEDUCED, log entry 10). -/
def loopBody (l : LaneId) (i : IWord) (s : State) : State :=
  let ln := s.lane l
  let count := ((s.opA l i).toNat + iImm i / 2 ^ 16) % 2 ^ 64
  let len := iImm i % 2 ^ 16
  let last := ln.pc + 8 * len
  let beyond := match ln.loops with
    | e :: _ => decide (e.last < last)
    | [] => false
  if ln.atBodyEnd then s.raise l xLOOPINVALID 0
  else if 2 ^ 32 ≤ count ∨ 4 ≤ ln.loops.length ∨ (ln.loops.any fun e => e.k == iFa i) ∨ beyond = true ∨ len = 0 then
    s.raise l xLOOPINVALID 0
  else if count = 0 then (s.updLane l fun x => { x with pc := (last + 8) % 2 ^ 64 }).spend l 1
  else
    (s.updLane l fun x =>
      { x.setK (iFa i) count with pc := (x.pc + 8) % 2 ^ 64, loops := ⟨iFa i, x.pc + 8, last⟩ :: x.loops }).spend l 1

def execLoopI (l : LaneId) (i : IWord) (s : State) : Host.Outcome State Fault Refusal :=
  .next (s.issue l i 4 0 (formRegs i) (loopBody l i))

/-- KRD (R139): s[fa] := k[rb]. -/
def execKrd (l : LaneId) (i : IWord) (s : State) : Host.Outcome State Fault Refusal :=
  .next (s.issue l i 4 1 (formRegs i) fun s => (s.writeS l (iFa i) (word ((s.lane l).kv (iRb i))) 1).advance l i)

/-- NOP (R147). -/
def execNop (l : LaneId) (i : IWord) (s : State) : Host.Outcome State Fault Refusal :=
  .next (s.issue l i 0xD 0 [] fun s => s.advance l i)

/-- END (R147): issue on the lane stops; it retires once every operation the lane issued has completed. -/
def endBody (l : LaneId) (i : IWord) (s : State) : State :=
  (s.advance l i).updLane l fun x => { x with st := .ending, wait := 12, waitArg := 0 }

def execEndI (l : LaneId) (i : IWord) (s : State) : Host.Outcome State Fault Refusal :=
  .next (s.issue l i 0xD 1 [] (endBody l i))

/-- TRAP (R147): raises TRAP with the code in imm 15:0. -/
def execTrap (l : LaneId) (i : IWord) (s : State) : Host.Outcome State Fault Refusal :=
  .next (s.issue l i 0xD 2 [] fun s => s.raise l xTRAP (iImm i % 2 ^ 16))

end Sys2Proof.Machine
end

