-- ==== Sys2Proof/Machine/LoadStore.lean ====
section
/-!
DEFINITION. Loads, stores, constants and descriptors (R141 to R146).
-/
namespace Sys2Proof.Machine

open Sys2Proof

/-! ## LD and ST -/

/-- The local address of an LD, ST, DLD or DST of `n` bytes, or the exception of R141: an invalid tag, an address outside the
context's range in the lane's own cluster, misaligned. -/
def State.portAddr (s : State) (l : LaneId) (v : Word) (n : Nat) : Except Nat Nat :=
  let a := v.toNat
  let c := (s.lane l).ctx
  let base := 0x4000000 + s.clusterOrd c l.cl * clusterSize
  let off := a % 2 ^ 60
  if !tagOk a then .error xINVALIDADDRESS
  else if vaTag a ≠ 3 ∨ off < base ∨ base + (s.clusterRange c l.cl).2 ≤ off ∨ !(s.leaseClusters c).contains l.cl then
    .error xSCRATCHRANGE
  else if off % n ≠ 0 then .error xMISALIGNED
  else .ok (clusterAddr l.cl + (s.clusterRange c l.cl).1 + (off - base))

/-- The interval of an access to cluster scratch. -/
def portIval (l : LaneId) (a n : Nat) (wr : Bool) : Ival := ⟨16 + l.cl, a - clusterAddr l.cl, a - clusterAddr l.cl + n - 1, wr⟩

/-- An operation of the LD and ST port: `n` bytes at s[ra] + imm; a load names its destination, a store its bytes. -/
def portBody (l : LaneId) (i : IWord) (n : Nat) (dst : Option Nat) (data : Option (List Byte)) (s : State) : State :=
  match s.portAddr l (s.opA l i + iVal i) n with
  | .error e => s.raise l e 0
  | .ok a =>
    let o := s.newOp l i .port
    s.issueOps l i [{ o with dst := dst, tick := a, total := n, ivals := [portIval l a n data.isSome],
                             pendBytes := match data with
                               | some bs => (List.range n).map fun k => (a + k, nth bs k)
                               | none => [] }]

/-- Destination of a scalar load: none for s0, whose write is discarded (R131). -/
def sDst (r : Nat) : Option Nat := if r = 0 then none else some (rS r)

def loadS (l : LaneId) (i : IWord) (op n : Nat) (s : State) : State :=
  s.issue l i 5 op (formRegs i) (portBody l i n (sDst (iFa i)) none)

def storeS (l : LaneId) (i : IWord) (op n : Nat) (s : State) : State :=
  s.issue l i 5 op (formRegs i) fun s => portBody l i n none (some (leBytes n ((s.lane l).sv (iFa i)).toNat)) s

/-- LD.B (R141). -/
def execLdB (l : LaneId) (i : IWord) (s : State) : Host.Outcome State Fault Refusal := .next (loadS l i 0 1 s)
/-- LD.BS. -/
def execLdBs (l : LaneId) (i : IWord) (s : State) : Host.Outcome State Fault Refusal := .next (loadS l i 1 1 s)
/-- LD.H. -/
def execLdH (l : LaneId) (i : IWord) (s : State) : Host.Outcome State Fault Refusal := .next (loadS l i 2 2 s)
/-- LD.HS. -/
def execLdHs (l : LaneId) (i : IWord) (s : State) : Host.Outcome State Fault Refusal := .next (loadS l i 3 2 s)
/-- LD.W. -/
def execLdW (l : LaneId) (i : IWord) (s : State) : Host.Outcome State Fault Refusal := .next (loadS l i 4 4 s)
/-- LD.WS. -/
def execLdWs (l : LaneId) (i : IWord) (s : State) : Host.Outcome State Fault Refusal := .next (loadS l i 5 4 s)
/-- LD.D. -/
def execLdD (l : LaneId) (i : IWord) (s : State) : Host.Outcome State Fault Refusal := .next (loadS l i 6 8 s)
/-- ST.B (R141). -/
def execStB (l : LaneId) (i : IWord) (s : State) : Host.Outcome State Fault Refusal := .next (storeS l i 8 1 s)
/-- ST.H. -/
def execStH (l : LaneId) (i : IWord) (s : State) : Host.Outcome State Fault Refusal := .next (storeS l i 9 2 s)
/-- ST.W. -/
def execStW (l : LaneId) (i : IWord) (s : State) : Host.Outcome State Fault Refusal := .next (storeS l i 10 4 s)
/-- ST.D. -/
def execStD (l : LaneId) (i : IWord) (s : State) : Host.Outcome State Fault Refusal := .next (storeS l i 11 8 s)

/-- DLD (R145): d[fa] := 32 bytes of cluster scratch. -/
def execDld (l : LaneId) (i : IWord) (s : State) : Host.Outcome State Fault Refusal :=
  .next (s.issue l i 7 0 (formRegs i) (portBody l i 32 (some (rD (iFa i))) none))
/-- DST (R145). -/
def execDst (l : LaneId) (i : IWord) (s : State) : Host.Outcome State Fault Refusal :=
  .next (s.issue l i 7 1 (formRegs i) fun s => portBody l i 32 none (some (leBytes 32 ((s.lane l).dv (iFa i)).toNat)) s)

/-- The value a load of class 5 leaves in its register: zero- or sign-extended (R141). -/
def loadValue (op n : Nat) (bs : List Byte) : Word :=
  let v := leNat bs
  if op = 1 ∨ op = 3 ∨ op = 5 then wordOfInt (signed (8 * n) v) else word v

/-- Completion at the port, 12 cycles after the start or later (R148): a store's bytes go to scratch, a load's to its register,
after the check of R113. -/
def State.completePort (s : State) (o : Op) : State :=
  if s.cyc < o.startCyc + 12 then s
  else
    let s := s.energyEvent o.ctx o.seq 6 ((o.total + 63) / 64)
    if o.pendBytes.isEmpty then
      let (ok, s) := s.readFor o o.tick
      if !ok then s.dropOp o.id
      else
        let bs := s.rdBytes o.tick o.total
        let s := match o.dst with
          | some r =>
            if r < 32 then s.updLane o.lane fun x => x.setS r (loadValue (iOp o.iw) o.total bs)
            else s.updLane o.lane fun x => x.setD (r - 32) (BitVec.ofNat 256 (leNat bs))
          | none => s
        s.finishOp o
    else (s.wrList o.pendBytes).finishOp o

/-! ## Constants -/

/-- `n` bytes of the constant buffer at s[ra] + imm, or the exception of R142: misaligned, or past 192. `al` is the alignment. -/
def State.constAt (s : State) (l : LaneId) (i : IWord) (n al : Nat) : Except Nat (List Byte) :=
  let a := (s.opA l i + iVal i).toNat
  if a % al ≠ 0 then .error xMISALIGNED
  else if 192 < a + n then .error xCONSTRANGE
  else .ok (((s.lane l).consts.drop a).take n)

/-- LDC (R142), usable 2 cycles later (R148). -/
def ldcBody (l : LaneId) (i : IWord) (n : Nat) (sx : Bool) (s : State) : State :=
  match s.constAt l i n n with
  | .error e => s.raise l e 0
  | .ok bs => (s.writeS l (iFa i) (if sx then wordOfInt (signed (8 * n) (leNat bs)) else word (leNat bs)) 2).advance l i

/-- LDC.W. -/
def execLdcW (l : LaneId) (i : IWord) (s : State) : Host.Outcome State Fault Refusal :=
  .next (s.issue l i 6 0 (formRegs i) (ldcBody l i 4 false))
/-- LDC.WS. -/
def execLdcWs (l : LaneId) (i : IWord) (s : State) : Host.Outcome State Fault Refusal :=
  .next (s.issue l i 6 1 (formRegs i) (ldcBody l i 4 true))
/-- LDC.D. -/
def execLdcD (l : LaneId) (i : IWord) (s : State) : Host.Outcome State Fault Refusal :=
  .next (s.issue l i 6 2 (formRegs i) (ldcBody l i 8 false))

/-! ## Descriptors -/

/-- d[fa] written, usable `lat` cycles later (R148). -/
def State.writeD (s : State) (l : LaneId) (r : Nat) (v : Desc) (lat : Nat) : State :=
  (s.updLane l fun x => x.setD r v).pendReg l (rD r) lat

/-- DLDC (R145): the offset is a multiple of 8 and at most 160. -/
def execDldc (l : LaneId) (i : IWord) (s : State) : Host.Outcome State Fault Refusal :=
  .next (s.issue l i 7 2 (formRegs i) fun s =>
    match s.constAt l i 32 8 with
    | .error e => s.raise l e 0
    | .ok bs => (s.writeD l (iFa i) (BitVec.ofNat 256 (leNat bs)) 2).advance l i)

/-- DMOV (R145). -/
def execDmov (l : LaneId) (i : IWord) (s : State) : Host.Outcome State Fault Refusal :=
  .next (s.issue l i 7 3 (formRegs i) fun s => (s.writeD l (iFa i) ((s.lane l).dv (iRb i)) 1).advance l i)

/-- The byte advance of DADV, none where axis 0 advances by part of a byte (R145, R146). A reserved format gives no element width
and is refused in the same way (DEDUCED, log entry 11). -/
def advBytes (d : Desc) (axis : Nat) (n : Word) : Option Int :=
  if axis = 0 then
    match fmtBits (dFmt d) with
    | some w =>
      let b := n.toNat * dStr0 d * w
      if b % 8 = 0 then some (b / 8 : Nat) else none
    | none => none
  else some (n.toInt * dStr d axis)

/-- DADV (R145): base := base + s[ra] × stride of the axis, modulo 2^64. -/
def execDadv (l : LaneId) (i : IWord) (s : State) : Host.Outcome State Fault Refusal :=
  .next (s.issue l i 7 4 (formRegs i) fun s =>
    let d := (s.lane l).dv (iFa i)
    match advBytes d (iImm i % 4) (s.opA l i) with
    | none => s.raise l xDESCINVALID 0
    | some b => (s.writeD l (iFa i) (dSetBase d (unsignedOf 64 ((dBase d : Int) + b))) 1).advance l i)

/-- The bits of an extent field. -/
def extBits (axis : Nat) : Nat × Nat := match axis with | 0 => (87, 64) | 1 => (103, 88) | 2 => (119, 104) | _ => (143, 128)

/-- DCLIP (R145, R146): extent := min(extent, s[ra]); 0 is refused. -/
def execDclip (l : LaneId) (i : IWord) (s : State) : Host.Outcome State Fault Refusal :=
  .next (s.issue l i 7 5 (formRegs i) fun s =>
    let d := (s.lane l).dv (iFa i)
    let n := (s.opA l i).toNat
    if n = 0 then s.raise l xDESCINVALID 0
    else
      let (hi, lo) := extBits (iImm i % 4)
      (s.writeD l (iFa i) (dSet d hi lo (min (dExt d (iImm i % 4)) n - 1)) 1).advance l i)

/-- A descriptor with field `f` set to v, none where v does not fit (R145, R146). -/
def setField (d : Desc) (f : Nat) (v : Word) : Option Desc :=
  let n := v.toNat
  let ext := fun hi lo lim => if n = 0 ∨ lim < n then none else some (dSet d hi lo (n - 1))
  let str := fun hi lo => if v.toInt < -(2 ^ 29) ∨ 2 ^ 29 - 1 < v.toInt then none else some (dSet d hi lo (unsignedOf 30 v.toInt))
  let fit := fun hi lo lim => if lim < n then none else some (dSet d hi lo n)
  match f with
  | 0 => some (dSetBase d n)
  | 1 => ext 87 64 (2 ^ 24)
  | 2 => ext 103 88 65536
  | 3 => ext 119 104 65536
  | 4 => ext 143 128 65536
  | 5 => if n = 0 ∨ 255 < n then none else some (dSet d 127 120 n)
  | 6 => str 173 144
  | 7 => str 221 192
  | 8 => str 251 222
  | 9 => fit 186 182 31
  | 10 => fit 190 187 15
  | 11 => if 31 < n then none else some (dSet (dSet d 191 191 (n / 16)) 255 252 (n % 16))
  | 12 => fit 181 174 255
  | _ => none

/-- The value of field `f`: extents as the extent, strides sign-extended (R145). -/
def getField (d : Desc) (f : Nat) : Word :=
  match f with
  | 0 => word (dBase d)
  | 1 => word (dExt d 0)
  | 2 => word (dExt d 1)
  | 3 => word (dExt d 2)
  | 4 => word (dExt d 3)
  | 5 => word (dStr0 d)
  | 6 => wordOfInt (dStr d 1)
  | 7 => wordOfInt (dStr d 2)
  | 8 => wordOfInt (dStr d 3)
  | 9 => word (dFmt d)
  | 10 => word (dCb d)
  | 11 => word ((if dScEn d then 16 else 0) + dScD d)
  | _ => word (dZp d)

/-- The operation code of a DSET or DGET word, one of 13; 64 names no operation. -/
def fieldOp (i : IWord) (base : Nat) : Nat := if base ≤ iOp i ∧ iOp i ≤ base + 12 then iOp i else 64

/-- DSET.field (R145, R146). -/
def execDset (l : LaneId) (i : IWord) (s : State) : Host.Outcome State Fault Refusal :=
  .next (s.issue l i 7 (fieldOp i 0x10) (formRegs i) fun s =>
    match setField ((s.lane l).dv (iFa i)) (iOp i - 0x10) (s.opA l i + iVal i) with
    | none => s.raise l xDESCINVALID 0
    | some d => (s.writeD l (iFa i) d 1).advance l i)

/-- DGET.field (R145). -/
def execDget (l : LaneId) (i : IWord) (s : State) : Host.Outcome State Fault Refusal :=
  .next (s.issue l i 7 (fieldOp i 0x20) (formRegs i) fun s =>
    (s.writeS l (iFa i) (getField ((s.lane l).dv (iRb i)) (iOp i - 0x20)) 1).advance l i)

end Sys2Proof.Machine
end

