-- ==== Sys2Proof/Machine/SyncTime.lean ====
section
/-!
DEFINITION. Issue of SIG, WAIT, FENCE and BARRIER (R181 to R184) and of TWAIT, TWAIT.C, TSLOT and PACE (R185, R186), and the release of
waits on semaphores and on station time.
-/
namespace Sys2Proof.Machine

open Sys2Proof

/-- value of SIG and WAIT: (s[ra] + imm) mod 2^32 (R181). -/
def semValue (x : Lane) (i : IWord) : Nat := ((x.sv (sRa i)).toNat + iImm i) % 2 ^ 32

def semBody (l : LaneId) (i : IWord) (s : State) : State :=
  s.issueOps l i [{ s.newOp l i .sync with slotNo := sSem i, total := semValue (s.lane l) i }]

/-- SIG (R181). -/
def execSig (l : LaneId) (i : IWord) (s : State) : Host.Outcome State Fault Refusal := .next (s.issue l i 0xB 0 [rS (sRa i)] (semBody l i))
/-- WAIT (R182). -/
def execWaitI (l : LaneId) (i : IWord) (s : State) : Host.Outcome State Fault Refusal := .next (s.issue l i 0xB 1 [rS (sRa i)] (semBody l i))
/-- FENCE (R183). -/
def execFence (l : LaneId) (i : IWord) (s : State) : Host.Outcome State Fault Refusal :=
  .next (s.issue l i 0xB 2 [] fun s => s.issueOps l i [s.newOp l i .sync])

/-- The tick an ALIGNED barrier's lane waits on: E + guard_st, from its own s[ra] (R288); 0 for none, which s0 means (R184). -/
def State.alignedTick (s : State) (i : IWord) (e : Word) : Nat :=
  if sLocal i || s.barMode (sGroup i) != 2 || sBarRa i == 0 then 0 else e.toNat + s.fld (Reg.fabBarCfg (sGroup i)) 63 40

/-- BARRIER (R184): a group that is not bound for the context raises BARRIER-INVALID at issue. -/
def barrierBody (l : LaneId) (i : IWord) (s : State) : State :=
  let x := s.lane l
  if !sLocal i && s.barCtx (sGroup i) != some x.ctx then s.raise l xBARRIERINVALID 0
  else s.issueOps l i [{ s.newOp l i .sync with sc := [x.sv (sBarRa i)], tick := s.alignedTick i (x.sv (sBarRa i)) }]

def execBarrier (l : LaneId) (i : IWord) (s : State) : Host.Outcome State Fault Refusal :=
  .next (s.issue l i 0xB 3 [rS (sBarRa i)] (barrierBody l i))

/-- Is a cadence in use for a context (R31, R185)? Its origin and period. -/
def State.cadFor (s : State) (c cad : Nat) : Option (Nat × Nat) :=
  if s.cadGranted c cad then (s.cadPeriod cad).map fun p => ((s.reg (Reg.bellCadOrigin cad)).toNat, p) else none

/-- The smallest n with s(n) + f at or after `t`, f signed, and that tick (R31). -/
def cadRelease (o p : Nat) (f : Int) (t : Nat) : Nat × Nat :=
  let d := ((t : Int) - f - o).toNat
  let n := (d * 2 ^ 32 + p - 1) / p
  (n, ((slotStart o p n : Int) + f).toNat)

/-- TWAIT (R185). -/
def execTwait (l : LaneId) (i : IWord) (s : State) : Host.Outcome State Fault Refusal :=
  .next (s.issue l i 0xC 0 [rS (iRa i)] fun s =>
    s.issueOps l i [{ s.newOp l i .time with tick := ((s.lane l).sv (iRa i) + iVal i).toNat, slotNo := 0xFFFF }])

/-- TWAIT.C (R185): n is computed from the issue instant. -/
def execTwaitC (l : LaneId) (i : IWord) (s : State) : Host.Outcome State Fault Refusal :=
  .next (s.issue l i 0xC 1 [rS (iRa i), rS (iFa i)] fun s =>
    match s.cadFor (s.lane l).ctx (sCad i) with
    | none => s.raise l xTIMEINVALID 0
    | some (o, p) =>
      let (n, t) := cadRelease o p ((s.lane l).sv (iRa i) + iVal i).toInt s.bell.now
      s.issueOps l i [{ s.newOp l i .time with tick := t, slotNo := n, dst := sDst (iFa i) }])

/-- TSLOT (R185). -/
def execTslot (l : LaneId) (i : IWord) (s : State) : Host.Outcome State Fault Refusal :=
  .next (s.issue l i 0xC 2 [rS (iFa i)] fun s =>
    match s.cadFor (s.lane l).ctx (sCad i) with
    | none => s.raise l xTIMEINVALID 0
    | some _ => s.issueOps l i [{ s.newOp l i .time with dst := sDst (iFa i) }])

/-- PACE (R186). -/
def execPace (l : LaneId) (i : IWord) (s : State) : Host.Outcome State Fault Refusal :=
  .next (s.issue l i 0xC 3 [] fun s => s.issueOps l i [s.newOp l i .time])

/-! ## Releases -/

/-- A scalar result of an operation that completes. -/
def State.opResult (s : State) (o : Op) (v : Nat) : State :=
  match o.dst with
  | some r => s.updLane o.lane fun x => x.setS r (word v)
  | none => s

/-- WAIT_RELEASE (R182): the first WAIT in the semaphore's order completes when it can be met, and takes its value unless keep is 1. -/
def waitReleaseS (c sem : Nat) (s : State) : State :=
  match (s.ctx c).semWaits.find? fun w => w.sem == sem with
  | some w =>
    let v := nth (s.ctx c).sems sem
    match s.op? w.op with
    | some o =>
      if w.value ≤ v then
        (s.updCtx c fun x => { x with semWaits := x.semWaits.erase w, sems := if w.keep then x.sems else put x.sems sem (v - w.value) }).finishOp o
      else s
    | none => s.updCtx c fun x => { x with semWaits := x.semWaits.erase w }
  | none => s

def execWaitRelease (ctx sem : Nat) (s : State) : Host.Outcome State Fault Refusal := .next (waitReleaseS ctx sem s)

/-- TIME_WAIT_RELEASE (R29, R31): at its tick, or at once when that has passed. -/
def timeWaitReleaseS (op : Nat) (s : State) : State :=
  match s.op? op with
  | some o =>
    if iCls o.iw == 0xC && decide (iOp o.iw ≤ 1) && o.st == .running && decide (o.tick ≤ s.bell.now) then (s.opResult o o.slotNo).finishOp o
    else s
  | none => s

def execTimeWaitRelease (op : Nat) (s : State) : Host.Outcome State Fault Refusal := .next (timeWaitReleaseS op s)

end Sys2Proof.Machine
end

