-- ==== Sys2Proof/Machine/Units.lean ====
section
/-!
DEFINITION. Operations in their units: when they start (R150, R151, R161) and when they complete (R160), the launch's start on a lane
(R128), the end of a cluster's share (R147), and instruction fetch (R129).
-/
namespace Sys2Proof.Machine

open Sys2Proof

/-! ## Starts (R150) -/

/-- ARM.DRAIN starts when every pass ahead on its tile has entered all its row quads (R169), and then closes an open chain (R168). -/
def State.startDrain (s : State) (t : Nat) (o : Op) : State :=
  if s.ops.any fun p => p.isArm t 2 && decide (p.id < o.id) && decide (p.done < p.total) then s
  else
    let s := s.startOp o
    if o.total == 1 then s.closeChain t o.id o.mode.slotInt else s

/-- May a SIG or a WAIT reach its semaphore in this cycle (R182)? Not once one that the order of one cycle puts behind it, by cluster and then
in issue order, has reached it. -/
def State.semTurn (s : State) (o : Op) : Bool :=
  (s.ctx o.ctx).semReach.all fun (m, t, k, i) =>
    m != o.slotNo || t != s.cyc || decide (k < o.lane.cl) || (k == o.lane.cl && decide (i < o.id))

/-- It reaches the store. -/
def State.semReached (s : State) (o : Op) : State :=
  s.updCtx o.ctx fun x => { x with semReach := (x.semReach.filter fun r => r.2.1 == s.cyc) ++ [(o.slotNo, s.cyc, o.lane.cl, o.id)] }

/-- A SIG with after, a FENCE and a BARRIER start when every earlier operation of the lane has completed (R181, R183, R184). -/
def State.startSync (s : State) (o : Op) : State :=
  let clear := (s.earlier o).isEmpty
  match iOp o.iw with
  | 0 => if sFlag o.iw && !clear then s else s.startOp o
  | 1 =>
    if o.total == 0 then s.startOp o
    else if !s.semTurn o then s
    else ((s.startOp o).semReached o).updCtx o.ctx fun x => { x with semWaits := x.semWaits ++ [{ sem := o.slotNo, value := o.total, keep := sFlag o.iw, op := o.id }] }
  | 2 => if clear then s.startOp o else s
  | _ => if clear then s.startBarrier o else s

/-- TSLOT samples the slot in force when it starts; its grant was held at issue (R325). A cadence disabled since has no slot in force (DESIGN
CHOICE, log entry 67). PACE takes effect (R185, R186). -/
def State.startTime (s : State) (o : Op) : State :=
  let s := s.startOp o
  match iOp o.iw with
  | 2 =>
    let n := match s.cadPeriod (sCad o.iw) with
      | some p => (slotAt (s.reg (Reg.bellCadOrigin (sCad o.iw))).toNat p s.bell.now).getD (2 ^ 64 - 1)
      | none => 2 ^ 64 - 1
    s.updOp o.id fun o => { o with slotNo := n }
  | 3 =>
    let v := bits o.iw.w 2 0
    (s.updLane o.lane fun x => { x with pace := if v == 7 then none else some v }).redecide
  | _ => s

/-- OPERATION_START (R150, R161). A barrow's operations start with BARROW_OP_START. -/
def operationStartS (id : Nat) (s : State) : State :=
  match s.op? id with
  | none => s
  | some o =>
    if !s.mayStart o then s
    else
      match o.unit with
      | .barrow _ => s
      | .tile t =>
        if iCls o.iw == 8 then
          match iOp o.iw with
          | 0 => (s.startOp o).updTile t fun x => { x with mode := o.mode }
          | 3 => s.startDrain t o
          | _ => s.startOp o
        else (s.startOp o).takeAll t
      | .port => s.startOp o
      | .sync => s.startSync o
      | .time => s.startTime o

def execOperationStart (op : Nat) (s : State) : Host.Outcome State Fault Refusal := .next (operationStartS op s)

/-! ## Completions (R160) -/

/-- Words of scratch that an operation's intervals span, for the Ledger (R387): tile scratch and cluster scratch. -/
def ivalWords (o : Op) (cl : Bool) : Nat :=
  (o.ivals.map fun v => if decide (v.store < 16) != cl && decide (v.store < 32) then v.hi / 64 + 1 - v.lo / 64 else 0).sum

def State.opEnergy (s : State) (o : Op) : State :=
  (s.energyEvent o.ctx o.seq 5 (ivalWords o false)).energyEvent o.ctx o.seq 6 (ivalWords o true)

/-- Elements a vector operation processes. -/
def vecCount (o : Op) : Nat := max (dCount o.dd) (if bankSrc o.iw then 0 else dCount o.da)

/-- First words that a vector operation reads: its tensors', their scales' unless only codes are read (R120), and its records' (R113). -/
def State.vecReads (s : State) (t : Nat) (o : Op) : List Nat :=
  ((s.vecSrcs o).map fun x => x.a :: if isMx (dFmt x.d) && !s.codesOnly t o then [x.sc] else []).flatten ++
    (if iOp o.iw == 0x10 || iOp o.iw == 0x11 then [s.localBase o.ctx o.db] else [])

/-- A vector operation completes: it has taken every slot it reads (R151), its sources pass their checks (R82, R113, R344), and its results are
in force; an exception writes nothing (R82) or what came before it. -/
def State.completeVec (s : State) (t : Nat) (o : Op) : State :=
  let o := s.takeSlots t o
  if decide (o.slotsIn.length < o.readSlots.length) then s.takeAll t
  else
    let srcs := s.vecSrcs o
    let (ok, s) := s.readAll o (s.vecReads t o)
    if !ok then s.dropOp o.id
    else
      let book := iOp o.iw == 0x14 || iOp o.iw == 0x18 || iOp o.iw == 0x30
      let (bad, s) := if book then s.tableError t o (if iOp o.iw == 0x14 then bookAddr t (dCb o.dd) else tableAddr t (tCtl o.iw 2 0)) else (false, s)
      if bad then s.dropOp o.id
      else
        let (bad, s) := match o.readSlots with
          | k :: _ => s.bankError t o k
          | [] => (false, s)
        if bad then s.dropOp o.id
        else
          let (flip, s) := if !s.codesOnly t o && srcs.any fun x => isMx (dFmt x.d) then s.takeTagFlip t else (false, s)
          let out := s.vecRun t o flip
          match out.err with
          | some (code, arg) =>
            let mis := code == xSCALEMISALIGN
            let s := if mis then s else ((s.wrList out.bytes).countSat o.lane 0 out.sat out.nan).stickyNan o.ctx out.nan
            (s.dropOp o.id).raiseOp o code arg (if mis then 3 else 0) (if mis then s.tileOrd o.ctx t else 0)
          | none =>
            let s := ((s.wrList out.bytes).countSat o.lane 0 out.sat out.nan).stickyNan o.ctx out.nan
            (((s.opEnergy o).energyEvent o.ctx o.seq 4 (vecCount o)).workUp o.ctx o.seq 1 1).finishOp o

/-- SIG's addition; a sum past 2^32 - 1 is SEM-OVERFLOW (R181). -/
def State.completeSig (s : State) (o : Op) : State :=
  if !s.semTurn o then s
  else
    let (ok, s) := (s.semReached o).semAdd o.ctx o.slotNo o.total
    if ok then s.finishOp o else (s.dropOp o.id).raiseOp o xSEMOVERFLOW 0 0 0

/-- An operation of the Armature has every effect in force (R56, R166 to R169). -/
def State.completeArm (s : State) (t : Nat) (o : Op) : State :=
  let flying := (s.tile t).flights.any fun f => f.op == o.id
  match iOp o.iw with
  | 0 => s.finishOp o
  | 1 => if o.done == 1 && decide (o.tick ≤ s.cyc) then (s.opEnergy o).finishOp o else s
  | 2 => if o.done == o.total && !flying then (s.opEnergy o).finishOp o else s
  | _ =>
    if !(s.tile t).flights.isEmpty then s
    else if o.done == 2 then s.dropOp o.id
    else s.finishOp o

/-- OPERATION_COMPLETE (R160). -/
def operationCompleteS (id : Nat) (s : State) : State :=
  match s.op? id with
  | none => s
  | some o =>
    if o.st != .running then s
    else
      match o.unit with
      | .barrow _ => s
      | .tile t => if iCls o.iw == 8 then s.completeArm t o else s.completeVec t o
      | .port => s.completePort o
      | .sync =>
        match iOp o.iw with
        | 0 => s.completeSig o
        | 1 => if o.total == 0 then s.finishOp o else s
        | 2 => s.finishOp o
        | _ => if sLocal o.iw && o.done == 1 then s.finishOp o else s
      | .time => if decide (2 ≤ iOp o.iw) then (if iOp o.iw == 2 then s.opResult o o.slotNo else s).finishOp o else s

def execOperationComplete (op : Nat) (s : State) : Host.Outcome State Fault Refusal := .next (operationCompleteS op s)

/-! ## The start of a launch (R128) -/

/-- The lane's registers at a launch's start (R128, R158). -/
def State.startRegs (s : State) (l : LaneId) (lch : Launch) (c : Nat) : List Word :=
  let mine := (s.leaseTiles c).filter fun t => t / 4 == l.cl
  let ord := s.clusterOrd c l.cl
  [0, word (lch.gangBefore + ord), word (lch.clusters.length + lch.gangMore),
    word ((s.leaseTiles c).filter fun t => decide (t / 4 < l.cl)).length, word mine.length, word lch.seq,
    word (3 * 2 ^ 60 + 0x4000000 + ord * 0x1000000), word (if s.ganged then s.straps.gangMember else 0)] ++ List.replicate 24 0

/-- May the lane begin its next launch (R198)? A launch in time with a not-before tick T begins at T + 1,024 st. -/
def State.mayLaunch (s : State) (l : LaneId) (lch : Launch) : Bool :=
  let x := s.lane l
  x.st == .idle && (s.cluster l.cl).rest == .awake && lch.decision.isNone &&
    ((s.leaseTiles x.ctx).all fun t => t / 4 != l.cl || (s.tile t).rest == .awake) &&
    (match lch.nb with
     | some t => !lch.inTime || decide (t + 1024 ≤ s.bell.now)
     | none => true)

/-- LANE_LAUNCH_START (R128, R129, R198). A launch that is decided, or stops for an exception of another cluster (R155), does not begin. -/
def laneLaunchStartS (l : LaneId) (s : State) : State :=
  let x := s.lane l
  match x.waiting with
  | [] => s
  | seq :: rest =>
    match (s.ctx x.ctx).launch? seq with
    | none => s.updLane l fun x => { x with waiting := rest }
    | some lch =>
      if lch.decision.isSome || lch.stage == .stopping then s.updLane l fun x => { x with waiting := rest }
      else if !s.mayLaunch l lch then s
      else
        let c := x.ctx
        let regs := s.startRegs l lch c
        let s := if lch.keep then s else s.updCluster l.cl fun k => { k with icache := k.icache.filter fun i => i.ctx != c }
        let s := s.updLane l fun y => { Lane.reset with
          st := .issuing, ctx := c, gen := lch.gen, seq := seq, s := regs, pc := lch.entry, s3 := (nth regs 3).toNat, s4 := (nth regs 4).toNat,
          consts := lch.consts, nextIssue := s.cyc, divFree := y.divFree, waiting := rest, threshold := lch.numCtrl.toNat % 2 ^ 32,
          irqEn := bit lch.numCtrl 32 }
        let s := s.updLaunch c seq fun y => { y with stage := if y.stage == .waiting then .running else y.stage }
        { s with tiles := s.tiles.mapIdx fun t y =>
            if t / 4 == l.cl && y.lease == some c then { y with issuedMode := y.mode, chainIssued := none, chain := none } else y }

def execLaneLaunchStart (l : LaneId) (s : State) : Host.Outcome State Fault Refusal := .next (laneLaunchStartS l s)

/-! ## The end of a cluster's share (R147, R168) -/

/-- A calibration event that is due comes before the end of the share (R101); the counts that a lane kept go to its launch (R102); the lane
is idle, its PACE ends (R186), and its tiles are idle from now (R391). -/
def State.freeLane (s : State) (l : LaneId) : State :=
  let s := calibrationEventS l s
  let x := s.lane l
  let s := s.updLaunch x.ctx x.seq fun y => { y with accSat := sat 32 (y.accSat + x.accSat), convSat := sat 32 (y.convSat + x.convSat),
                                                     nan := y.nan || x.nan, ended := if y.ended.contains l.cl then y.ended else y.ended ++ [l.cl] }
  let s : State := { s with tiles := s.tiles.mapIdx fun t y => if t / 4 == l.cl && y.lease == some x.ctx then { y with idleSince := s.up } else y }
  (s.updLane l fun y => { y with st := .idle, wait := 0, waitArg := 0, pace := none, stopped := false, accSat := 0, convSat := 0, nan := false,
                                 calib := false }).redecide

/-- The word of ARM.DRAIN, with which END closes a chain (R168). -/
def drainWord : IWord := ⟨word (8 * 2 ^ 58 + 3 * 2 ^ 52), 0⟩

/-- END closes each chain that is open on the lane's tiles as ARM.DRAIN would; `done` 2 marks that no instruction counts it (R209). -/
def State.closeChains (s : State) (l : LaneId) : List Nat → State
  | [] => s
  | t :: r =>
    let o := { s.newOp l drainWord (.tile t) with st := .running, done := 2, mode := s.modeAt t }
    (((s.addOp o).closeChain t s.nextOp o.mode.slotInt).updTile t fun x => { x with chainIssued := none }).closeChains l r

/-- END_RETIRE (R147, R209): END retires when every operation that its lane issued has completed and no chain is open. -/
def endRetireS (l : LaneId) (s : State) : State :=
  let x := s.lane l
  if x.st != .ending || x.stopped || !(s.laneOps l).isEmpty then s
  else
    let open_ := (s.leaseTiles x.ctx).filter fun t => t / 4 == l.cl && (s.tile t).chain.isSome
    if !open_.isEmpty then s.closeChains l open_
    else
      let s := (s.tallyUp x.ctx x.seq 1).freeLane l
      let s := s.checkLocal x.ctx x.seq
      (s.ops.filter fun o => o.of x.ctx x.seq && iCls o.iw == 0xB && iOp o.iw == 3 && o.st == .running && !sLocal o.iw).foldl
        (fun s o => s.checkGroup x.ctx x.seq (sGroup o.iw)) s

def execEndRetire (l : LaneId) (s : State) : Host.Outcome State Fault Refusal := .next (endRetireS l s)

/-! ## Instruction fetch (R129) -/

/-- Lines the instruction cache holds (R129): 32 KiB of 64 bytes; the oldest goes for a new one. -/
def fillCache (ls : List ILine) (x : ILine) : List ILine :=
  (x :: ls.filter fun y => !(y.addr == x.addr && y.ctx == x.ctx && y.gen == x.gen)).take 512

/-- A line has come for a lane. -/
def State.gotLine (s : State) (l : LaneId) (c g a : Nat) (bs : List Byte) : State :=
  (s.updCluster l.cl fun k => { k with icache := fillCache k.icache ⟨a, c, g, padTo 64 bs⟩ }).updLane l fun x =>
    if x.ctx == c && x.gen == g then { x with served := [] } else x

/-- The engine-mask bit of a lane's fetch (R258). -/
def fetchEngine (l : LaneId) : Nat := 24 + l.cl

/-- A fetch is an exception of the launch, at the address of the word that failed (R129, R155, R200). -/
def State.fetchRaise (s : State) (l : LaneId) (code arg : Nat) : State :=
  let x := s.lane l
  let a := (s.fetchWord l).getD x.pc
  s.raiseAt x.ctx x.seq l.cl s.nextOp ⟨code, a, arg, 0, 0⟩

/-- A request of a lane's fetch. -/
def State.fetchReq (s : State) (l : LaneId) (a pa n : Nat) (path : Path) (peer : Nat) (ut : Bool) : Req :=
  let x := s.lane l
  { tag := 0, path := path, dest := .fetch l a, engine := fetchEngine l, ctx := x.ctx, gen := x.gen, seq := x.seq, va := a, pa := pa, len := n,
    write := false, sentUp := s.up, peer := peer, bytes := [], left := 0, dropped := false, ut := ut }

/-- The line at address `a` is read from where its translation leads. -/
def State.fetchFrom (s : State) (l : LaneId) (a pa : Nat) (ut : Bool) : State :=
  let x := s.lane l
  match (if ut then Where.host (a % 2 ^ 57) else s.whereIs x.ctx pa) with
  | .own p =>
    if scratchBase ≤ p then
      if !s.inLease x.ctx p then s.fetchRaise l xSCRATCHRANGE 0
      else
        let (ok, s) := s.checkScr (some (x.ctx, x.gen)) (some x.seq) p
        if ok then s.gotLine l x.ctx x.gen a (s.rdBytes p 64) else s.fetchRaise l xDATAERROR a
    else if s.memRange p 64 then (s.memOut (s.lane l).ctx p).fetchRaise l xDATAERROR a
    else if s.memRoom p 64 false && s.reserveRoom then s.acceptRead (s.fetchReq l a p 64 (.attached 0) 0 false)
    else s
  | .host h =>
    if s.hostHeld || s.tagsFull || !s.reserveRoom then s
    else
      let tag := s.nextTag
      (s.addReq (s.fetchReq l a pa 64 .host 0 ut)).emit (if ut then .utRead tag (s.fld (Reg.ctxXltCfg x.ctx) 19 0) h 64 else .mrd tag h 64)
  | .peer sl j p =>
    let tag := s.nextTag
    if !s.reserveRoom then s
    else (s.addReq (s.fetchReq l a pa 64 (.link (s.peerPort sl j) (s.fld (Reg.fabJobCfg sl) 15 0)) j false)).sendPeer sl x.ctx j tag (.read p 64)
  | .lost _ => s.fetchRaise l xFETCHFAULT 0

/-- INSTRUCTION_FETCH (R129): the line a lane needs next is translated and read; when its host read is outstanding, the data of that read
arrives. -/
def instructionFetchS (l : LaneId) (host : List Byte) (s : State) : State :=
  let x := s.lane l
  if x.st == .idle || x.st == .ending || x.stopped then s
  else
    match s.fetchLine l with
    | none => s
    | some a =>
      match s.reqs.find? fun r => r.dest == .fetch l a && r.ctx == x.ctx && r.gen == x.gen && !r.dropped with
      | some r => if r.path == .host then (s.dropReq r.tag).gotLine l x.ctx x.gen a host else s
      | none =>
        if !tagOk a then s.fetchRaise l xINVALIDADDRESS 0
        else
          let (r, s) := s.xlate (cacheOf l) x.ctx x.gen a 1
          match r with
          | .ok pa ut => s.fetchFrom l a pa ut
          | .fault 0 => s.fetchRaise l xSCRATCHRANGE 0
          | .fault n => s.waitFault (pageVa a) n (.fetch l)
          | .miss =>
            let (f, s) := s.startX (fetchEngine l) (cacheOf l) x.ctx x.gen a 1
            match f with
            | some n => s.waitFault (pageVa a) n (.fetch l)
            | none => s.waitLane l 1 0

def execInstructionFetch (l : LaneId) (host : List (BitVec 8)) (s : State) : Host.Outcome State Fault Refusal :=
  .next (instructionFetchS l host s)

end Sys2Proof.Machine
end

