-- ==== Sys2Proof/Machine/Crier.lean ====
section
/-!
DEFINITION. Submission rings, records and dispatch (R188 to R198), the completion sequencer (R199 to R208), the no-progress watch
(R209 to R211) and what a launch leaves at its end (R102, R331, R335, R336, R389).
-/
namespace Sys2Proof.Machine

open Sys2Proof

/-! ## Doorbells and rings (R189 to R191, R213) -/

def State.ringOn (s : State) (c r : Nat) : Bool := s.flag (Reg.ctxRingCfg c r) 0
def State.ringSize (s : State) (c r : Nat) : Nat := 2 ^ s.fld (Reg.ctxRingCfg c r) 12 8
def State.updRing (s : State) (c r : Nat) (f : Ring → Ring) : State := s.updCtx c fun x => x.updRing r f

/-- A doorbell (R190): accepted for an enabled ring and a tail within the ring's size of its head. -/
def State.doorbell (s : State) (c : Nat) (v : Word) : State :=
  let r := bits v 33 32
  let t := bits v 31 0
  let g := s.ring c r
  if s.ringOn c r && decide (since32 t g.head ≤ s.ringSize c r) then
    s.updRing c r fun g => { g with tail := t, pending := true, scanning := true }
  else (s.incSat (Reg.ctxUstatus c) 63 48 1).criEvent 4

/-- A write of CTX_RINGr_CFG (R213): base and log2size stand while the ring is enabled; enabling zeroes the counts; a log2size outside 4 to 16
leaves the ring disabled. Both are logged. -/
def State.wrRingCfg (s : State) (c r : Nat) (new : Word) : State :=
  let off := Reg.ctxRingCfg c r
  let old := s.reg off
  let on := bit old 0
  let s := if on && bits old 12 8 != bits new 12 8 then s.regError off else s
  let new := if on then setBits new 12 8 (bits old 12 8) else new
  if bit new 0 && !on then
    if bits new 12 8 < 4 || 16 < bits new 12 8 then (s.setReg off (setBits new 0 0 0)).regError off
    else (s.setReg off new).updRing c r fun _ => Ring.reset
  else s.setReg off new

/-- A write of CTX_CQ_CFG (R213). -/
def State.wrCqCfg (s : State) (c : Nat) (new : Word) : State :=
  let off := Reg.ctxCqCfg c
  let old := s.reg off
  let on := bit old 0
  let s := if on && bits old 12 8 != bits new 12 8 then s.regError off else s
  let new := if on then setBits new 12 8 (bits old 12 8) else new
  if bit new 0 && !on then
    if bits new 12 8 < 4 || 16 < bits new 12 8 then (s.setReg off (setBits new 0 0 0)).regError off
    else ((s.setReg off new).setReg (Reg.ctxCqHead c) 0).updCtx c fun x => { x with written := 0, phase := true }
  else s.setReg off new

/-- A write of a ring's base is an error while the ring is enabled (R213). -/
def State.wrBase (s : State) (off : Nat) (on : Bool) (new : Word) : State := if on then s.regError off else s.setReg off new

/-- A write of CTX_CQ_HEAD (R199, R214): a count behind the one held or ahead of written is discarded. -/
def State.wrCqHead (s : State) (c v : Nat) : State :=
  let old := s.fld (Reg.ctxCqHead c) 31 0
  if since32 v old ≤ since32 (s.ctx c).written old then s.setFld (Reg.ctxCqHead c) 31 0 v else s

/-- Undelivered slots acknowledged (R207): each releases its completion entry. -/
def State.ackUndel (s : State) (c mask : Nat) : State :=
  let held := s.fld (Reg.ctxUndelStatus c) 3 0
  let n := (maskBits 4 (maskAnd held mask)).length
  (s.setFld (Reg.ctxUndelStatus c) 3 0 (maskDiff held mask)).updCtx c fun x => { x with reserved := x.reserved - n }

/-! ## Fetching (R191, R192, R197) -/

/-- Record fetches outstanding, all contexts (R191). -/
def State.fetching (s : State) : Nat := (s.ctxs.map fun c => (c.rings.map fun r => (r.recs.filter fun k => !k.here).length).sum).sum

/-- Has a ring a record to fetch, and room for it? -/
def State.wantsFetch (s : State) (c r : Nat) : Bool :=
  let x := s.ctx c
  let g := s.ring c r
  s.ringOn c r && g.scanning && g.head != g.tail && !g.held && g.failed.isNone && decide (g.recs.length < 8) && decide (s.fetching < 16) &&
    x.st == .active && x.rst.isNone && s.flag Reg.criCtrl 0 && s.gangM == 0

def State.ctxWants (s : State) (c : Nat) : Bool := (List.range 4).any (s.wantsFetch c)

/-- Is it context `c`'s turn (R197): timed contexts first, each class in round robin? -/
def State.fetchTurn (s : State) (c : Nat) : Bool :=
  let n := s.straps.contexts
  let timed := fun i => s.flag (Reg.ctxSubmit i) 16
  let wants := (List.range n).filter s.ctxWants
  let any := wants.any timed
  let cls := wants.filter fun i => timed i == any
  let last := if any then s.turnTimed else s.turnOther
  ((List.range n).map fun i => (last + 1 + i) % n).find? (cls.contains ·) == some c

/-- A request of the Crier for a record. -/
def State.recReq (s : State) (c r n va pa : Nat) (path : Path) (peer : Nat) (ut : Bool) : Req :=
  { tag := 0, path := path, dest := .record c r n, engine := 28, ctx := c, gen := (s.ctx c).gen, seq := r * 2 ^ 32 + n, va := va, pa := pa,
    len := 256, write := false, sentUp := s.up, peer := peer, bytes := [], left := 0, dropped := false, ut := ut }

/-! ### The record (R193 to R195) -/

/-- The byte offset of the first failing header field: that of the byte with the field's lowest bit (R193, R194; DEDUCED, log entry 24). -/
def headerBad (w : Nat → Word) : Option Nat :=
  let h := w 2
  if bits h 1 0 == 3 || bit h 6 then some 0x10
  else if bits h 31 9 != 0 then some 0x11
  else if 60000 < bits h 47 32 then some 0x14
  else if bits h 63 48 != 0 then some 0x16
  else if bits (w 3) 7 0 != 3 then some 0x18
  else if bits (w 3) 63 8 != 0 then some 0x19
  else if w 4 != 0 || w 5 != 0 || w 6 != 0 || w 7 != 0 then some 0x20
  else none

/-- A decision made before a launch runs: the end time at which it was made, zero counts (R201). -/
def State.early (s : State) (status arg : Nat) : Decision :=
  { status := status, where_ := s.bell.now / 4000, arg := arg, operand := 0, tile := 0, cluster := 0 }

/-- One more record of a ring is decided (R189). -/
def State.countDecided (s : State) (c r : Nat) : State := s.updRing c r fun g => { g with decided := (g.decided + 1) % 2 ^ 32 }

/-- Is the launch of the entry at a count already decided? -/
def Ring.decidedAt (g : Ring) (n : Nat) : Bool := g.recs.any fun k => k.count == n && k.bad.isSome

/-- A record has arrived (R194, R195): its header is checked and its not-before tick is formed. A header failure decides it at once. -/
def State.gotRecord (s : State) (c r n : Nat) (bs : List Byte) : State :=
  let w := fun i => word (leNat ((bs.drop (8 * i)).take 8))
  let h := w 2
  let f := (w 1).toInt
  let nb := match bits h 1 0 with
    | 1 => some (some (w 1).toNat)
    | 2 => (s.cadFor c (bits h 5 2)).map fun (p : Nat × Nat) => some (cadRelease p.1 p.2 f s.bell.now).2
    | _ => some none
  let bad := match headerBad w, nb with
    | some o, _ => some (s.early 0x41 o)
    | none, none => some (s.early xTIMEINVALID 0)
    | none, some _ => none
  let s := if bad.isSome && !(s.ring c r).decidedAt n then s.countDecided c r else s
  s.updRing c r fun g => { g with
    served := []
    recs := g.recs.map fun k =>
      if k.count == n && !k.here then
        { k with here := true, entry := (w 0).toNat, consts := padTo 192 (bs.drop 64), irq := bit h 8, keep := bit h 7, watch := bits h 47 32,
                 nb := nb.getD none, fetchedAt := s.bell.now, bad := if k.bad.isSome then k.bad else bad }
      else k }

/-- The fetch of a record fails for good without a translation fault: its launch, unless it is decided, is decided DATA_ERROR at the ring
entry (R203, R346). -/
def State.recFailed (s : State) (c r n va : Nat) : State :=
  let d := { s.early xDATAERROR va with where_ := va }
  let s := if (s.ring c r).decidedAt n then s else s.countDecided c r
  s.updRing c r fun g => { g with recs := g.recs.map fun k =>
    if k.count == n && !k.here then { k with here := true, bad := if k.bad.isSome then k.bad else some d } else k }

/-- The read of a record, where its translation leads. -/
def State.recFrom (s : State) (c r n va pa : Nat) (ut : Bool) : State :=
  let x := s.ctx c
  match (if ut then Where.host (va % 2 ^ 57) else s.whereIs c pa) with
  | .own p =>
    if scratchBase ≤ p then
      if s.inLease c p && s.inLease c (p + 255) then
        let (ok, s) := s.checkScr (some (c, x.gen)) none p
        if ok then s.gotRecord c r n (s.rdBytes p 256) else s.recFailed c r n va
      else s.waitFault (pageVa va) 0 (.record c r n)
    else if s.memRange p 256 then (s.memOut c p).recFailed c r n va
    else if s.memRoom p 256 false && s.reserveRoom then s.acceptRead (s.recReq c r n va p (.attached 0) 0 false)
    else s
  | .host h =>
    if s.hostHeld || s.tagsFull || !s.reserveRoom then s
    else
      let tag := s.nextTag
      (s.addReq (s.recReq c r n va pa .host 0 ut)).emit (if ut then .utRead tag (s.fld (Reg.ctxXltCfg c) 19 0) h 256 else .mrd tag h 256)
  | .peer sl j p =>
    let tag := s.nextTag
    if !s.reserveRoom then s
    else (s.addReq (s.recReq c r n va pa (.link (s.peerPort sl j) (s.fld (Reg.fabJobCfg sl) 15 0)) j false)).sendPeer sl c j tag (.read p 256)
  | .lost _ => s.recFailed c r n va

/-- The fetch of record `n` of a ring goes as far as it can: its entry's page is translated and its read is issued. An entry with an invalid
tag, or outside the lease, is an unrecoverable fault with no code of R265 (DESIGN CHOICE, log entry 52). Nothing is fetched with
CRI_CTRL.enable 0 (R215). -/
def State.recFetch (s : State) (c r n : Nat) : State :=
  let va := s.ringVa c r n
  if !s.flag Reg.criCtrl 0 || s.reqs.any fun q => q.dest == .record c r n && q.gen == (s.ctx c).gen && !q.dropped then s
  else
    let (x, s) := s.xlate crierCache c (s.ctx c).gen va 1
    match x with
    | .ok pa ut => s.recFrom c r n va pa ut
    | .fault k => s.waitFault (pageVa va) k (.record c r n)
    | .miss =>
      let (f, s) := s.startX 28 crierCache c (s.ctx c).gen va 1
      match f with
      | some k => s.waitFault (pageVa va) k (.record c r n)
      | none => if s.pageAsked c (s.ctx c).gen (pageVa va) then s.updRing c r fun g => { g with held := true } else s

/-- A record that a fetch has been begun for. -/
def Rec.fresh (n : Nat) : Rec :=
  { count := n, here := false, entry := 0, consts := [], irq := false, keep := false, watch := 0, nb := none, released := false, onTime := false,
    fetchedAt := 0, bad := none, retried := false }

/-- RING_SCAN (R191): one turn of a ring's fetch engine: the fetch of the entry at its head, or the atomic step that lets it go idle. A launch
that an abort mark decided, or whose record was dropped after its decision, keeps that decision (R203, R204). -/
def ringScanS (c r : Nat) (s : State) : State :=
  let g := s.ring c r
  if !g.scanning then s
  else if g.head == g.tail then
    if g.pending then s.updRing c r fun g => { g with pending := false } else s.updRing c r fun g => { g with scanning := false }
  else if s.injHits 0x12 48 then s.ctrlWord 48
  else if !s.wantsFetch c r || !s.fetchTurn c then s
  else
    let n := g.head
    let seq := r * 2 ^ 32 + n
    let bad := (((s.ctx c).marks ++ (s.ctx c).kept).find? fun m => m.1 == seq).map fun m => m.2
    let s := s.updCtx c fun x => { x with marks := x.marks.filter fun m => m.1 != seq, kept := x.kept.filter fun m => m.1 != seq }
    let s := s.updRing c r fun g => { g with head := (n + 1) % 2 ^ 32, recs := g.recs ++ [{ Rec.fresh n with bad := bad }] }
    let s : State := if s.flag (Reg.ctxSubmit c) 16 then { s with turnTimed := c } else { s with turnOther := c }
    s.recFetch c r n

def execRingScan (ctx ring : Nat) (s : State) : Host.Outcome State Fault Refusal := .next (ringScanS ctx ring s)

/-- RECORD_FETCH (R192, R194): the oldest record of a ring that has not come: the data of its host read arrive, or its fetch goes on. -/
def recordFetchS (c r : Nat) (bs : List Byte) (s : State) : State :=
  match (s.ring c r).recs.find? fun k => !k.here with
  | none => s
  | some k =>
    match s.reqs.find? fun q => q.dest == .record c r k.count && q.gen == (s.ctx c).gen && !q.dropped with
    | some q => if q.path == .host then (s.dropReq q.tag).gotRecord c r k.count bs else s
    | none => if (s.ring c r).held || (s.ring c r).failed.isSome then s else s.recFetch c r k.count

def execRecordFetch (ctx ring : Nat) (bytes : List (BitVec 8)) (s : State) : Host.Outcome State Fault Refusal :=
  .next (recordFetchS ctx ring bytes s)

/-! ## Dispatch (R196, R198) -/

/-- Room for one more completion record (R196). -/
def State.cqRoom (s : State) (c : Nat) : Bool :=
  let x := s.ctx c
  s.flag (Reg.ctxCqCfg c) 0 &&
    decide (since32 (x.written + x.reserved) (s.fld (Reg.ctxCqHead c) 31 0) < 2 ^ s.fld (Reg.ctxCqCfg c) 12 8)

/-- The conditions of R196 beside the record's own. -/
def State.mayDispatch (s : State) (c : Nat) : Bool :=
  let x := s.ctx c
  x.st == .active && x.rst.isNone && s.flag Reg.criCtrl 0 && decide (x.launches.length < 4) && s.cqRoom c && s.gangM == 0

/-- Is a ring's head record eligible (R196)? One that is decided without running takes its turn like the others. -/
def State.eligible (s : State) (c r : Nat) : Bool :=
  match (s.ring c r).recs.head? with
  | some k => s.ringOn c r && k.here && (k.bad.isSome || k.nb.isNone || k.released)
  | none => false

/-- The ring the next dispatch comes from: the highest priority, shared in rounds by weight (R196). -/
def State.pickRing (s : State) (c : Nat) : Option Nat :=
  let x := s.ctx c
  let rs := (List.range 4).filter (s.eligible c)
  let prio := fun r => s.fld (Reg.ctxRingCfg c r) 33 32
  let top := rs.foldl (fun m r => max m (prio r)) 0
  let set := rs.filter fun r => prio r == top
  let t := nth x.turns top
  let w := max 1 (s.fld (Reg.ctxRingCfg c t) 47 40)
  if set.contains t && decide ((s.ring c t).used < w) then some t
  else ((List.range 4).map fun i => (t + 1 + i) % 4).find? (set.contains ·)

/-- A dispatch taken from a ring's turn in the round of its priority. -/
def State.takeTurn (s : State) (c r : Nat) : State :=
  s.updCtx c fun x =>
    let p := s.fld (Reg.ctxRingCfg c r) 33 32
    let w := max 1 (s.fld (Reg.ctxRingCfg c r) 47 40)
    let n := if nth x.turns p == r && decide ((nth x.rings r).used < w) then (nth x.rings r).used + 1 else 1
    { x with turns := put x.turns p r, rings := upd x.rings r fun g => { g with used := n } }

/-- NOT_BEFORE_RELEASE (R195, R198): the head record's tick has come. It is in time when it was fetched at least 8,000 st before T and is
eligible by T on lanes that are free. -/
def notBeforeReleaseS (c r : Nat) (s : State) : State :=
  match (s.ring c r).recs.head? with
  | some k =>
    match k.nb with
    | some t =>
      if !k.here || k.released || decide (s.bell.now < t) then s
      else
        let idle := s.lanes.all fun l => l.ctx != c || (l.st == .idle && l.waiting.isEmpty)
        let ok := decide (s.bell.now ≤ t) && decide (k.fetchedAt + 8000 ≤ t) && s.mayDispatch c && idle
        s.updRing c r fun g => { g with recs := g.recs.mapIdx fun i k => if i == 0 then { k with released := true, onTime := ok } else k }
    | none => s
  | none => s

def execNotBeforeRelease (ctx ring : Nat) (s : State) : Host.Outcome State Fault Refusal := .next (notBeforeReleaseS ctx ring s)

/-- The domains that a dispatch of a context needs start to wake (R392). -/
def State.wakeFor (s : State) (c : Nat) : State :=
  let ks := s.leaseClusters c
  { s with tiles := s.tiles.map fun x => if x.lease == some c then { x with rest := x.rest.wake s.up } else x
           clusters := s.clusters.mapIdx fun k x => if ks.contains k then { x with rest := x.rest.wake s.up } else x }

/-- The lane of cluster `k` that serves a context (R127): the one that holds its work, else the one of its lowest tile there. -/
def State.laneFor (s : State) (c k : Nat) : LaneId :=
  match (List.range 4).find? fun n => (s.lane ⟨k, n⟩).ctx == c && ((s.lane ⟨k, n⟩).st != .idle || !(s.lane ⟨k, n⟩).waiting.isEmpty) with
  | some n => ⟨k, n⟩
  | none => ⟨k, (((s.leaseTiles c).filter fun t => t / 4 == k).headD 0) % 4⟩

def State.sendLanes (s : State) (c seq : Nat) : List Nat → State
  | [] => s
  | k :: r =>
    (s.updLane (s.laneFor c k) fun x =>
      { (if x.st == .idle then { x with ctx := c, gen := (s.ctx c).gen } else x) with waiting := x.waiting ++ [seq] }).sendLanes c seq r

/-- The launch a record becomes. -/
def State.launchOf (s : State) (c r : Nat) (k : Rec) : Launch :=
  let w := if k.watch == 0 then s.fld (Reg.ctxSubmit c) 15 0 else k.watch
  { ring := r, seq := r * 2 ^ 32 + k.count, gen := (s.ctx c).gen, entry := k.entry, consts := k.consts, irq := k.irq, keep := k.keep, nb := k.nb,
    inTime := k.onTime, stage := .waiting, dispatched := k.bad.isNone, numCtrl := s.reg (Reg.ctxNumCtrl c),
    clusters := if k.bad.isNone then s.leaseClusters c else [], gangMore := 0, gangBefore := 0, gangLeft := [], gangShares := [], fromLead := false, ended := [], excs := [], decision := k.bad, tally := 0, window := w * 1000,
    watchAt := s.up, watchTally := 0, fired := false, accSat := 0, convSat := 0, nan := false, calib := false,
    events := List.replicate 13 0, energy := 0, unrec := false, runSt := 0, thrSt := 0, work := List.replicate 6 0, retried := false,
    accounted := false }

/-- Is a domain that the context leases ready only after a launch's start (R392): 120 us after its wake begins? -/
def State.restMisses (s : State) (c start : Nat) : Bool :=
  let ready := fun (r : Rest) => match r with
    | .awake => true
    | .waking since => decide (since + 120 * usT ≤ s.up + (start - s.bell.now))
    | _ => false
  !((s.leaseTiles c).all (fun t => ready (s.tile t).rest) && (s.leaseClusters c).all fun k => ready (s.cluster k).rest)

/-- Does a launch with a not-before tick start late: out of time (R198), or because a domain rests (R392)? -/
def State.startsLate (s : State) (c : Nat) (k : Rec) : Bool :=
  match k.nb with
  | some t => !k.onTime || s.restMisses c (t + 1024)
  | none => false

/-- In a gang the clusters that run a launch on other members are those members' own leases (R291): how many each has, from none to all of its
clusters, is free (log entry 23). -/
def State.gangCounts (s : State) : List Nat → List (Nat × Nat) × State
  | [] => ([], s)
  | m :: r =>
    let (v, s) := s.draw
    let (l, s) := s.gangCounts r
    ((m, v % (s.straps.clusters + 1)) :: l, s)

/-- The lead of a gang dispatches a launch to the members that lease clusters (R291); clusters are ordered member by member (R128). -/
def State.dispatchOthers (s : State) (c : Nat) (g : GangLaunch) (own : Nat) (total before : Nat) : List (Nat × Nat) → State
  | [] => s
  | (m, n) :: r =>
    (if n == 0 then s else s.emit (.gangTell m c (.launch { g with more := own + total - n, before := own + before }))).dispatchOthers
      c g own total (before + n) r

/-- DISPATCH (R196, R198): the next launch of a context goes to the Stallholders of the clusters it leases, or, decided already, to the
sequencer; either reserves a completion entry. -/
def dispatchS (c : Nat) (s : State) : State :=
  if !s.mayDispatch c then s
  else
    match s.pickRing c with
    | none => s
    | some r =>
      match (s.ring c r).recs with
      | [] => s
      | k :: rest =>
        if s.injHits 0x12 48 then s.ctrlWord 48
        else
          let (ms, s) := if s.ganged && k.bad.isNone then s.gangCounts ((List.range s.gangN).drop 1) else ([], s)
          let more := (ms.map (·.2)).sum
          let l := { s.launchOf c r k with gangMore := more, gangLeft := (ms.filter fun p => p.2 != 0).map (·.1) }
          let s := (s.takeTurn c r).updCtx c fun x => { x with reserved := x.reserved + 1, launches := x.launches ++ [l] }
          let s := s.updRing c r fun g => { g with recs := rest }
          match k.bad with
          | some _ => s
          | none =>
            let late := s.startsLate c k
            let s := (s.sendLanes c l.seq l.clusters).wakeFor c
            let s := s.dispatchOthers c ⟨r, l.seq, l.entry, l.consts, l.nb, l.inTime, 0, 0⟩ l.clusters.length more 0 ms
            if late then (s.incWrap Reg.criLate 63 0 1).criEvent 8 else s

/-- A launch that the lead of the gang dispatches to this member's clusters (R291). -/
def State.memberLaunch (s : State) (c : Nat) (g : GangLaunch) : State :=
  let x := s.ctx c
  if s.gangM == 0 || x.st != .active || x.rst.isSome || (x.launch? g.seq).isSome then s
  else
    let k : Rec := { (default : Rec) with count := g.seq % 2 ^ 32, entry := g.entry, consts := g.consts, nb := g.nb, onTime := g.onTime, bad := none }
    let l := { s.launchOf c g.ring k with seq := g.seq, gangMore := g.more, gangBefore := g.before, fromLead := true }
    ((s.updCtx c fun x => { x with launches := x.launches ++ [l] }).sendLanes c l.seq l.clusters).wakeFor c

/-! ## What a launch leaves (R102, R335, R336, R389) -/

/-- Dynamic energy of a launch's events in the window, in pJ (R388): the counts carry the square of the voltage. -/
def State.dynEnergy (s : State) (l : Launch) : Rat :=
  ((List.range 13).map fun k => ((s.fld (Reg.pwrCoef k) 31 0 : Rat) * ((nth l.events k : Nat) : Rat)) / 6400).sum

/-- Launches that run in the window and have not ended, with their contexts. -/
def State.runningLaunches (s : State) : List (Nat × Launch) :=
  ((List.range 64).map fun c =>
    ((s.ctx c).launches.filter fun l => l.dispatched && !l.accounted && l.stage != .waiting).map fun l => (c, l)).flatten

/-- A share in proportion to dynamic energy; equal shares where no launch has any. -/
def shareOf (mine total : Rat) (n : Nat) : Rat := if total = 0 then 1 / (n : Rat) else mine / total

/-- Leakage of a domain of coefficient `k` on a rail, in mW: compute-rail domains by the voltage in force, uncore ones by 0.9375 (R388). -/
def State.leakMw (s : State) (k : Nat) (compute : Bool) : Rat :=
  (s.fld (Reg.pwrCoef k) 31 0 : Rat) * (if compute then (s.power.voltMv : Rat) / 800 else 15 / 16)

/-- The mean temperature of a tile over the window (R388): throttle_c when its three sensors are excluded; before the window's first reading
that of the last. -/
def State.tileTemp (s : State) (t : Nat) : Rat :=
  let x := s.tile t
  let last := x.temps.filterMap id
  if x.winTemp.2 != 0 then (x.winTemp.1 : Rat) / (16 * (x.winTemp.2 : Rat))
  else if last.isEmpty then (s.fld Reg.pwrTherm 15 8 : Rat)
  else (last.sum : Rat) / (16 * (last.length : Rat))

/-- Leakage of a tile's domain in mW, as it stands (R388). -/
def State.tileLeak (s : State) (t : Nat) : Rat :=
  if (s.tile t).rest == .resting then 0 else s.leakMw 16 true * Config.leakScale (s.tileTemp t)

/-- Clusters whose domain is not in Rest. -/
def State.clustersOn (s : State) : Nat := ((List.range s.straps.clusters).filter fun k => (s.cluster k).rest != .resting).length

/-- Energy in pJ of a compute-rail domain of coefficient `k` over mV × ticks: 1 mW over 1 ns is 1 pJ. -/
def State.leakPj (s : State) (k x : Nat) : Rat := (s.coef k : Rat) * (x : Rat) / 3200
/-- The same of a tile, at its temperature. -/
def State.tilePj (s : State) (t x : Nat) : Rat := s.leakPj 16 x * Config.leakScale (s.tileTemp t)

/-- What ended launches of the window have taken of a leakage account. -/
def State.leakTaken (s : State) (c : Nat) : Rat := ((s.power.leakOut.filter fun p => p.1 == c).map fun p => p.2).sum

/-- Leakage of the window so far, in pJ: of the tiles that a context leases; of the domains that no lease has, which are clusters, front-end,
quads, link groups, always-on and unleased tiles (R371, R388). -/
def State.ownLeak (s : State) (c : Nat) : Rat := ((s.leaseTiles c).map fun t => s.tilePj t (s.tile t).leakOwn).sum - s.leakTaken c
def State.sharedLeak (s : State) : Rat :=
  ((List.range s.straps.clusters).map fun k => s.leakPj 17 (s.cluster k).leak).sum + s.leakPj 18 s.power.frontMv +
    (s.coef 19 : Rat) * 15 * (s.power.quadT : Rat) / 64 + (s.coef 20 : Rat) * 15 * (s.power.linkT : Rat) / 64 +
    (s.coef 21 : Rat) * ((s.up - s.power.windowUp : Nat) : Rat) / 4 +
    ((List.range s.straps.tiles).map fun t => s.tilePj t (s.tile t).leakFree).sum - s.leakTaken 64

/-- leak(L) in pJ (R388): the launch's share of its context's tiles, and of all the rest. What launches that ended earlier in the window took is
no longer shared (DEDUCED, log entry 26). -/
def State.launchLeak (s : State) (c : Nat) (l : Launch) : Rat × Rat :=
  let all := s.runningLaunches
  let mine := all.filter fun p => p.1 == c
  let sum := fun (ps : List (Nat × Launch)) => (ps.map fun p => s.dynEnergy p.2).sum
  let e := s.dynEnergy l
  (s.ownLeak c * shareOf e (sum mine) mine.length, s.sharedLeak * shareOf e (sum all) all.length)

/-- E(L, w) in pJ (R388). -/
def State.launchEst (s : State) (c : Nat) (l : Launch) : Rat :=
  let (a, b) := s.launchLeak c l
  s.dynEnergy l + a + b

/-- The launch's end reaches the counters, before its record is written: CTX_UCNTj, CTX_UENERGY, CTX_ULAST, CTX_NUM_TOTAL, CTX_NUM_STATUS. -/
def State.addWork (s : State) (c : Nat) : Nat → List Nat → State
  | _, [] => s
  | j, n :: r => (s.incWrap (Reg.ctxUcnt c j) 63 0 n).addWork c (j + 1) r

/-- The energy attributed to a launch at its end, which its Ledger then holds no longer (R388, R389). -/
def State.takeEnergy (s : State) (c : Nat) (l : Launch) : Rat × State :=
  let ran := l.dispatched && l.stage != .waiting
  let leak := if ran then s.launchLeak c l else (0, 0)
  let est := if ran then s.launchEst c l else 0
  (l.energy + s.power.scale * est,
    (s.updPower fun p => { p with endedEst := p.endedEst + est, leakOut := p.leakOut ++ [(c, leak.1), (64, leak.2)] }).updLaunch c l.seq fun l =>
      { l with accounted := true })

/-- The larger of two shares, running time and throttled time each. -/
def moreThrottled (a b : Nat × Nat) : Nat × Nat := if a.2 * b.1 < b.2 * a.1 || a.1 == 0 then b else a
/-- A share in tenths, halves upwards. -/
def tenths (a : Nat × Nat) : Nat := if a.1 == 0 then 0 else min 10 ((20 * a.2 + a.1) / (2 * a.1))

def State.accountLaunch (s : State) (c : Nat) (l : Launch) : State :=
  if l.accounted then s
  else
    let (e, s) := s.takeEnergy c l
    let total := (s.ctx c).energy + e
    let mj := fun (x : Rat) => (x / 1000000000).floor.toNat
    let tenth := tenths (l.gangShares.foldl moreThrottled (l.runSt, l.thrSt))
    let s := (s.addWork c 0 l.work).incWrap (Reg.ctxUcnt c 6) 63 0 1
    let s := (s.updCtx c fun x => { x with energy := total }).setReg (Reg.ctxUenergy c) (word (mj total))
    let s := s.setReg (Reg.ctxUlast c) (word (fields [(30, l.seq % 2 ^ 34), (8, sat 22 (mj e)), (7, if l.unrec then 1 else 0), (0, tenth)]))
    let s := (s.incSat (Reg.ctxNumTotal c) 31 0 l.accSat).incSat (Reg.ctxNumTotal c) 63 32 l.convSat
    s.setBitsIn (Reg.ctxNumStatus c) ((if l.nan then 2 else 0) + (if (l.decision.map fun d => d.status) == some xSCALEMISALIGN then 4 else 0))

/-- The gaps of a list of tiles have their filler counted as far as they have come. -/
def State.settleGaps (s : State) : List Nat → State
  | [] => s
  | t :: r => (s.settleGap t).settleGaps r

/-- A launch is accounted for, with the filler of its context's tiles so far (R70, R336). -/
def State.account (s : State) (c seq : Nat) : State :=
  let s := s.settleGaps (s.leaseTiles c)
  match (s.ctx c).launch? seq with
  | some l => s.accountLaunch c l
  | none => s

/-! ## Deciding (R203, R204) -/

/-- A launch is decided. -/
def State.decide_ (s : State) (c seq : Nat) (d : Decision) : State :=
  (s.updLaunch c seq fun l => { l with decision := some d }).countDecided c (seq / 2 ^ 32)

/-- Every unit has come to rest for a launch (R155, R203): no operation and no barrow descriptor is left of it. -/
def State.launchStill (s : State) (c seq : Nat) : Bool :=
  s.ops.all (fun o => !o.of c seq) && s.barrows.all fun b => b.q.all fun q => !(q.ctx == c && q.seq == seq)

/-- Lanes that a decided launch still holds are freed, and it leaves the lanes' queues. -/
def State.freeLanes (s : State) (c seq : Nat) : List LaneId → State
  | [] => s
  | l :: r =>
    let x := s.lane l
    let s := if x.st != .idle && x.ctx == c && x.seq == seq then s.freeLane l else s
    (s.updLane l fun x => if x.ctx == c then { x with waiting := x.waiting.filter (· != seq) } else x).freeLanes c seq r

/-- At a member of a gang other than the lead: a launch whose clusters have all ended or stopped is reported to the lead, with this member's
figures, and leaves (R291, R459). -/
def State.memberEnd (s : State) (c : Nat) (l : Launch) : State :=
  if !l.live.isEmpty && l.stage != .stopping || !s.launchStill c l.seq then s
  else
    let s := (s.freeLanes c l.seq s.allLanes).settleGaps (s.leaseTiles c)
    let l := ((s.ctx c).launch? l.seq).getD l
    let (e, s) := s.takeEnergy c l
    (s.updCtx c fun x => { x with launches := x.launches.filter fun y => y.seq != l.seq }).emit
      (.gangEnd c l.seq ⟨e, l.runSt, l.thrSt, l.unrec, l.work, l.accSat, l.convSat, l.nan, l.calib⟩)

/-- A member's figures reach the lead (R459): energy is summed, the throttle figure is the largest share, a flag of any member is set. -/
def Launch.takeFig (l : Launch) (m : Nat) (f : GangFig) : Launch :=
  { l with
    gangLeft := l.gangLeft.erase m, energy := l.energy + f.energy, gangShares := l.gangShares ++ [(f.runSt, f.thrSt)], unrec := l.unrec || f.unrec
    work := (List.range l.work.length).map fun j => nth l.work j + nth f.work j
    accSat := l.accSat + f.accSat, convSat := l.convSat + f.convSat, nan := l.nan || f.nan, calib := l.calib || f.calib }

/-- END_REPORT (R203): every cluster running the launch has ended its share. The lead of a gang hears from each member besides, and decides the
launch when the clusters of every member have ended (R291). -/
def endReportS (c seq : Nat) (member : Option (Nat × GangFig)) (s : State) : State :=
  match (s.ctx c).launch? seq, member with
  | none, _ => s
  | some l, some (m, f) => if l.gangLeft.contains m then s.updLaunch c seq fun l => l.takeFig m f else s
  | some l, none =>
    if l.fromLead then s.memberEnd c l
    else if l.decision.isSome || !l.dispatched || !l.live.isEmpty || !l.gangLeft.isEmpty || !l.excs.isEmpty then s
    else s.decide_ c seq (s.early 0 0)

def execEndReport (ctx : Nat) (r : EndOf) (s : State) : Host.Outcome State Fault Refusal := .next (endReportS ctx r.seq r.member s)

/-- Which of two exceptions a record names (R82, R156): the first by station time, then the lowest cluster, then for SCALE-MISALIGN the
lowest tile and block, then the earliest in program order. -/
def excBefore (a b : ExcRep) : Bool :=
  if a.time != b.time then decide (a.time < b.time)
  else if a.cluster != b.cluster then decide (a.cluster < b.cluster)
  else if a.exc.code == xSCALEMISALIGN && b.exc.code == xSCALEMISALIGN && (a.exc.tile != b.exc.tile || a.exc.arg != b.exc.arg) then
    decide (a.exc.tile < b.exc.tile) || (a.exc.tile == b.exc.tile && decide (a.exc.arg < b.exc.arg))
  else decide (a.opNo < b.opNo)

def firstExc : List ExcRep → Option ExcRep
  | [] => none
  | e :: r => match firstExc r with
    | some f => some (if excBefore f e then f else e)
    | none => some e

/-- An exception of a member's cluster reaches the lead: the launch stops on every cluster (R155, R291). -/
def State.memberExc (s : State) (c seq m : Nat) (e : GangExc) : State :=
  match (s.ctx c).launch? seq with
  | some l =>
    if l.decision.isSome || !l.gangLeft.contains m then s
    else
      (s.updLaunch c seq fun l => { l with
        excs := l.excs ++ [⟨e.time, 16 * m + e.cluster % 16, e.opNo, ⟨e.code, e.pc, e.arg, e.operand, e.tile⟩⟩] }).stopLaunch c seq
  | none => s

/-- EXCEPTION_REPORT (R155, R156, R203). A member of a gang reports it to the lead, which decides (R291). -/
def exceptionReportS (c seq : Nat) (s : State) : State :=
  match (s.ctx c).launch? seq with
  | some l =>
    match l.decision, firstExc l.excs with
    | none, some e =>
      let d : Decision := { status := e.exc.code, where_ := e.exc.pc, arg := e.exc.arg, operand := e.exc.operand, tile := e.exc.tile, cluster := e.cluster }
      if l.fromLead then
        (s.updLaunch c seq fun l => { l with decision := some d }).emit
          (.gangReport c seq ⟨e.time, e.cluster % 16, e.opNo, e.exc.code, e.exc.pc, e.exc.arg, e.exc.operand, e.exc.tile⟩)
      else s.decide_ c seq d
    | _, _ => s
  | none => s

/-- The register pair of an abort request: its status register. -/
def abortStatus (c : Nat) (kernel : Bool) : Nat := if kernel then Reg.ctxKabortStatus c else Reg.ctxAbortStatus c

/-- A write of CTX_ABORT or CTX_KABORT (R204). -/
def State.wrAbort (s : State) (c : Nat) (kernel : Bool) (v : Word) : State :=
  let off := abortStatus c kernel
  if s.fld off 2 0 == 1 then s.setFld off 8 8 1
  else
    let seq := bits v 33 0
    (s.setReg off (word (fields [(30, seq), (0, 1)]))).updCtx c fun x => if kernel then { x with abortK := some seq } else { x with abortT := some seq }

/-- The result of an abort request reported. -/
def State.abortResult (s : State) (c : Nat) (kernel : Bool) (code stage : Nat) : State :=
  ((s.setFld (abortStatus c kernel) 2 0 code).setFld (abortStatus c kernel) 5 4 stage).updCtx c fun x =>
    if kernel then { x with abortK := none } else { x with abortT := none }

/-- Stage of a record that waits in a ring (R201): waiting for not-before, or queued. -/
def Rec.abortStage (k : Rec) : Nat := if k.here && k.nb.isSome && !k.released then 1 else 0

/-- The sequencer takes an abort (R203, R204). -/
def State.abort (s : State) (c seq : Nat) (kernel : Bool) : State :=
  let r := seq / 2 ^ 32
  let n := seq % 2 ^ 32
  let g := s.ring c r
  let src := if kernel then 2 else 1
  let ahead := since32 g.tail n
  if !s.ringOn c r || ahead == 0 || decide (2 ^ 31 < ahead) then s.abortResult c kernel 4 0
  else
    match (s.ctx c).launch? seq with
    | some l =>
      if l.decision.isSome then s.abortResult c kernel 3 0
      else ((s.decide_ c seq (s.early 0x40 (src + 32))).stopLaunch c seq).abortResult c kernel 2 2
    | none =>
      match g.recs.find? fun k => k.count == n with
      | some k =>
        if k.bad.isSome then s.abortResult c kernel 3 0
        else
          let st := k.abortStage
          let d := s.early 0x40 (src + 16 * st)
          ((s.updRing c r fun g => { g with recs := g.recs.map fun k => if k.count == n then { k with bad := some d } else k }).countDecided c r).abortResult
            c kernel 2 st
      | none =>
        if since32 g.tail g.head < ahead then s.abortResult c kernel 3 0
        else if ((s.ctx c).marks ++ (s.ctx c).kept).any fun m => m.1 == seq then s.abortResult c kernel 3 0
        else if 4 ≤ (s.ctx c).marks.length then s.abortResult c kernel 5 0
        else ((s.updCtx c fun x => { x with marks := x.marks ++ [(seq, s.early 0x40 src)] }).countDecided c r).abortResult c kernel 2 0

/-- ABORT_REQUEST_ARRIVE (R204). -/
def abortRequestArriveS (c : Nat) (kernel : Bool) (s : State) : State :=
  match (if kernel then (s.ctx c).abortK else (s.ctx c).abortT) with
  | some seq => s.abort c seq kernel
  | none => s

def execAbortRequestArrive (ctx : Nat) (kernel : Bool) (s : State) : Host.Outcome State Fault Refusal :=
  .next (abortRequestArriveS ctx kernel s)

/-! ## The completion record (R199 to R202, R206) -/

/-- An exception code whose launch leaves its context FAULTED (R154, R187). -/
def faultsCtx (code : Nat) : Bool := code == xFETCHFAULT || code == xTRANSLATIONFAULT

/-- The four words of a completion record (R200, R201). -/
def State.cqWords (s : State) (phase : Bool) (l : Launch) (d : Decision) : List Word :=
  let exc := decide (1 ≤ d.status) && decide (d.status < 0x40) && l.dispatched
  let mis := d.status == xSCALEMISALIGN
  [ word (fields [(63, if phase then 1 else 0), (56, if mis then d.operand % 4 else 0), (52, if mis then d.tile % 16 else 0),
                  (48, if exc then d.cluster % 16 else 0), (44, if exc && s.ganged then d.cluster / 16 % 8 else 0),
                  (43, if l.calib then 1 else 0), (42, if l.nan then 1 else 0), (40, l.ring % 4), (32, d.status % 256), (0, l.seq % 2 ^ 32)]),
    word d.where_,
    word (fields [(32, sat 32 l.convSat), (0, sat 32 l.accSat)]),
    word d.arg ]

/-- Completion attention (R202, R331). -/
def State.attnHeld (s : State) (c : Nat) : State :=
  let off := Reg.ctxAttn c
  let held := s.fld off 63 48
  let s := s.incSat off 63 48 1
  let s := if held == 0 then s.updCtx c fun x => { x with modFrom := some s.up } else s
  if max 1 (s.fld (Reg.ctxIrq c) 31 24) ≤ held + 1 then s.setBitsIn off 1 else s

/-- What follows the end of a launch with its status: error attention, and FAULTED for the exceptions that ask it (R154, R330). -/
def State.afterLaunch (s : State) (c : Nat) (d : Decision) : State :=
  let s := if 1 ≤ d.status && decide (d.status < 0x40) then s.errAttn c 1 else s
  if faultsCtx d.status && (s.ctx c).st == .active then (s.updCtx c fun x => { x with st := .faulted }).errAttn c 2 else s

/-- The head launch's record has been placed: it leaves the context. -/
def State.retire (s : State) (c : Nat) (l : Launch) (d : Decision) : State :=
  (s.updCtx c fun x => { x with launches := x.launches.filter fun y => y.seq != l.seq }).afterLaunch c d

/-- The record is written to the ring: the count, the phase, and the reservation move on (R199). -/
def State.wroteCq (s : State) (c : Nat) (l : Launch) (d : Decision) : State :=
  let size := 2 ^ s.fld (Reg.ctxCqCfg c) 12 8
  let s := s.updCtx c fun x => { x with
    written := (x.written + 1) % 2 ^ 32, reserved := x.reserved - 1, phase := if (x.written + 1) % size == 0 then !x.phase else x.phase,
    cq := .idle }
  let s := s.retire c l d
  if l.irq then s.attnHeld c else s

/-- A record placed in an undelivered slot (R206). -/
def State.putUndel (s : State) (c : Nat) (ws : List Word) : Option Nat → State
  | some i =>
    let s := (List.range 4).foldl (fun s j => s.setReg (Reg.ctxUndel c i j) (nth ws j)) s
    s.setBitsIn (Reg.ctxUndelStatus c) (2 ^ i)
  | none => s

/-- The lowest free slot; the slot next to those in use, so that the slots hold records in dispatch order (R206, R207). -/
def State.lowestUndel (s : State) (c : Nat) : Option Nat := (List.range 4).find? fun i => !maskHas (s.fld (Reg.ctxUndelStatus c) 3 0) i
def State.nextUndel (s : State) (c : Nat) : Option Nat :=
  let n := (List.range 4).foldl (fun m i => if maskHas (s.fld (Reg.ctxUndelStatus c) 3 0) i then i + 1 else m) 0
  if n < 4 then some n else none

/-- The write has failed for good. -/
def State.cqLost (s : State) (c : Nat) : State := s.updCtx c fun x => { x with cq := .failed }

/-- The write of a record to a physical address (R199): a part line of attached memory is in force when its check has passed (R310, R312). -/
def State.cqStore (s : State) (c pa : Nat) (ut : Bool) (va : Nat) (l : Launch) (d : Decision) (ws : List Word) : State :=
  let bs := (ws.map fun w => leBytes 8 w.toNat).flatten
  match (if ut then Where.host (va % 2 ^ 57) else s.whereIs c pa) with
  | .host h =>
    if s.hostHeld then s
    else (s.emit (if ut then .utWrite (s.fld (Reg.ctxXltCfg c) 19 0) h bs else .mwr h bs)).wroteCq c l d
  | .own a =>
    if scratchBase ≤ a then (if s.inLease c a && s.inLease c (a + 31) then (s.store a bs).wroteCq c l d else s.cqLost c)
    else if s.memRange a 32 then (s.memOut c a).cqLost c
    else if s.memRoom a 32 true && s.reserveRoom then
      let r := { s.recReq c 0 0 va a (.attached 0) 0 false with dest := .cq c, len := 32, seq := 0, write := true }
      let (wait, s) := s.acceptWrite r bs
      if wait then s.updCtx c fun x => { x with cq := .sent } else s.wroteCq c l d
    else s
  | _ => s.cqLost c

/-- The write through its translation (R206). A ring at an address with an invalid tag, or outside the lease, is an unrecoverable fault with no
code of R265 (DESIGN CHOICE, log entry 52). -/
def State.cqTry (s : State) (c : Nat) (l : Launch) (d : Decision) (ws : List Word) : State :=
  let va := s.cqVa c (s.ctx c).written
  let (x, s) := s.xlate crierCache c (s.ctx c).gen va 2
  match x with
  | .ok pa ut => s.cqStore c pa ut va l d ws
  | .fault k => s.waitFault (pageVa va) k (.cq c)
  | .miss =>
    let (f, s) := s.startX 28 crierCache c (s.ctx c).gen va 2
    match f with
    | some k => s.waitFault (pageVa va) k (.cq c)
    | none => s.updCtx c fun x => { x with cq := if s.pageAsked c x.gen (pageVa va) then .held else .walk }

/-- The write of a part line has passed its check. -/
def State.cqAcked (s : State) (c : Nat) : State :=
  match (s.ctx c).launches.head? with
  | some l =>
    match l.decision with
    | some d => if (s.ctx c).cq == .sent then s.wroteCq c l d else s
    | none => s
  | none => s

/-- COMPLETION_RECORD_WRITE (R199, R200, R202): the record of the launch that was dispatched first, when it is decided and every unit has
stopped. While an undelivered slot is valid the record goes to the next slot (R206). -/
def completionRecordWriteS (c : Nat) (s : State) : State :=
  match (s.ctx c).launches with
  | [] => s
  | l0 :: _ =>
    match l0.decision with
    | none => s
    | some d =>
      if !s.launchStill c l0.seq || !l0.gangLeft.isEmpty || l0.fromLead || !((s.ctx c).cq == .idle || (s.ctx c).cq == .walk) || (s.ctx c).rst.isSome then s
      else
        let s := s.freeLanes c l0.seq s.allLanes
        let s := s.account c l0.seq
        let l := ((s.ctx c).launch? l0.seq).getD l0
        let ws := s.cqWords (s.ctx c).phase l d
        if s.fld (Reg.ctxUndelStatus c) 3 0 != 0 then
          (match s.nextUndel c with
           | some i => (s.putUndel c ws (some i)).retire c l d
           | none => s)
        else
          match s.inject with
          | some j =>
            if j.det == 0x0F && j.ctx == c then
              (s.disarm.detect { det := 0x0F, sev := 1, place := 48, ctx := some (c, l.gen), injected := true, seq := some l.seq }).cqLost c
            else s.cqTry c l d ws
          | none => s.cqTry c l d ws
def execCompletionRecordWrite (ctx : Nat) (s : State) : Host.Outcome State Fault Refusal := .next (completionRecordWriteS ctx s)

/-- Records of a ring that are fetched and not dispatched are dropped, and its head goes back to the first of them; `lead` keeps those decided
at the front, which the head of R208 lies behind. The decision of one that is dropped stands (R203). -/
def State.dropRecs (s : State) (c r : Nat) (lead : Bool) : State :=
  let g := s.ring c r
  let stay := if lead then g.recs.takeWhile fun k => k.bad.isSome && k.here else []
  let gone := g.recs.drop stay.length
  let kept := gone.filterMap fun k => k.bad.map fun d => (r * 2 ^ 32 + k.count, d)
  let head := match gone.head? with | some k => k.count | none => g.head
  let s : State := { s with reqs := s.reqs.map fun q => match q.dest with
    | .record c' r' n => if c' == c && r' == r && gone.any (fun k => k.count == n) then { q with dropped := true } else q
    | _ => q }
  let s := s.updRing c r fun g =>
    { g with recs := stay, head := head, held := false, served := [], failed := none, scanning := g.scanning || head != g.tail }
  s.updCtx c fun x => { x with kept := x.kept ++ kept }

def State.dropAllRecs (s : State) (c : Nat) (lead : Bool) : State := (List.range 4).foldl (fun s r => s.dropRecs c r lead) s

/-- A context that is not being reset becomes FAULTED (R206, R208, R317). -/
def State.fault_ (s : State) (c cause : Nat) : State :=
  (s.updCtx c fun x => { x with st := if x.st == .teardown then x.st else .faulted }).errAttn c cause

/-- COMPLETION_WRITE_FAULT (R206): the record cannot be written; it goes to an undelivered slot. -/
def completionWriteFaultS (c : Nat) (s : State) : State :=
  match (s.ctx c).launches, (s.ctx c).cq with
  | l :: _, .failed =>
    match l.decision with
    | some d =>
      let ws := s.cqWords (s.ctx c).phase l d
      let s := (s.putUndel c ws (s.lowestUndel c)).updCtx c fun x => { x with cq := .idle }
      (((s.retire c l d).dropAllRecs c false).fault_ c 3).criEvent 2
    | none => s
  | _, _ => s

def execCompletionWriteFault (ctx : Nat) (s : State) : Host.Outcome State Fault Refusal := .next (completionWriteFaultS ctx s)

/-- RECORD_FETCH_FAULT (R208): when every earlier record of the ring is dispatched or decided, the launch of the failed entry, unless it is
decided already (R203), is decided TRANSLATION_FAULT. It and the decided ones before it take their places in dispatch order. -/
def recordFetchFaultS (c r : Nat) (s : State) : State :=
  let g := s.ring c r
  match g.failed with
  | some (n, va) =>
    let before := g.recs.takeWhile fun k => k.count != n
    match g.recs.drop before.length with
    | k :: _ =>
      if !before.all fun k => k.bad.isSome then s
      else
        let d : Decision := { s.early xTRANSLATIONFAULT va with where_ := s.ringVa c r n }
        let ls := before.map (s.launchOf c r) ++ [s.launchOf c r { k with bad := some (k.bad.getD d) }]
        let s := if k.bad.isSome then s else s.countDecided c r
        let s := s.updCtx c fun x => { x with reserved := x.reserved + ls.length, launches := x.launches ++ ls }
        let s := s.updRing c r fun g => { g with recs := g.recs.drop (before.length + 1) }
        let s := (s.dropRecs c r false).updRing c r fun g => { g with head := (n + 1) % 2 ^ 32 }
        (s.dropAllRecs c true).fault_ c 2
    | [] => s
  | none => s

def execRecordFetchFault (ctx ring : Nat) (s : State) : Host.Outcome State Fault Refusal := .next (recordFetchFaultS ctx ring s)

/-! ## The watch (R209 to R211, R353) -/

/-- Lanes that run a launch. -/
def State.lanesOf (s : State) (c seq : Nat) : List LaneId :=
  s.allLanes.filter fun l => (s.lane l).st != .idle && (s.lane l).ctx == c && (s.lane l).seq == seq

/-- Does a lane wait only on a TWAIT or TWAIT.C whose tick is still ahead (R210)? It issues nothing meanwhile: it stands at END, or what holds
it at issue is an operation behind the wait, in a register (2), in a queue (3) or in the operations it may have (11). -/
def State.timeOnly (s : State) (l : LaneId) : Bool :=
  let x := s.lane l
  let os := (s.laneOps l).filter fun o => o.st == .running
  let stands := x.st == .ending ||
    (x.st == .blocked && (x.wait == 2 && x.ready.all (fun p => decide (p.2 ≤ s.cyc)) || x.wait == 3 || x.wait == 11))
  stands && !os.isEmpty && os.all fun o => iCls o.iw == 0xC && decide (iOp o.iw ≤ 1) && decide (s.bell.now < o.tick)

/-- The hang record of a launch (R211, R353): of the lane whose oldest unfinished operation is the oldest of the launch. -/
def State.hang (s : State) (c : Nat) (l : Launch) (inj : Bool) : State :=
  let ls := s.lanesOf c l.seq
  let id := match (s.ops.filter fun o => o.of c l.seq).head? with
    | some o => o.lane
    | none => ls.headD ⟨0, 0⟩
  let (w, a) := s.stalledUnit id
  let st := s.reg (Reg.fabBarStatus a)
  let peer := w == 8 && (s.ops.any fun o => o.lane == id && iCls o.iw == 0xB && iOp o.iw == 3 && !sLocal o.iw) && bit st 48
  let s := s.detect { det := 0x10, sev := 1, place := 40 + id.cl, ctx := some (c, l.gen), injected := inj, arg := a, addr := (s.lane id).pc,
                      addrKind := 1, seq := some l.seq, cause := if peer then 13 else w, peer := if peer then some (bits st 47 36) else none, lane := id.n }
  ((s.mgmt 1).criEvent 1).updLaunch c l.seq fun l => { l with fired := true }

/-- One launch at a watch sample. -/
def State.watchOne (s : State) (c seq : Nat) (inj : Bool) : State :=
  match (s.ctx c).launch? seq with
  | none => s
  | some l =>
    if !l.dispatched || l.decision.isSome || l.fromLead then s
    else
      let ls := s.lanesOf c seq
      let quiet := !ls.isEmpty && ls.all s.timeOnly
      if inj then s.disarm.hang c l true
      else if l.tally != l.watchTally then
        s.updLaunch c seq fun l => { l with watchAt := s.up, watchTally := l.tally, fired := false }
      else if quiet then s.updLaunch c seq fun l => { l with watchAt := s.up }
      else if !l.fired && decide (l.watchAt + l.window * usT ≤ s.up) then s.hang c l false
      else s

def State.watchCtx (s : State) (c : Nat) : List Nat → State
  | [] => s
  | q :: r =>
    let inj := match s.inject with
      | some j => j.det == 0x10 && j.ctx == c && ((s.ctx c).launches.find? fun l => l.dispatched && l.decision.isNone).any (fun l => l.seq == q)
      | none => false
    (s.watchOne c q inj).watchCtx c r

def State.watchAll (s : State) : List Nat → State
  | [] => s
  | c :: r => (s.watchCtx c ((s.ctx c).launches.map fun l => l.seq)).watchAll r

/-- WATCH_SAMPLE (R210): every Tally is sampled, every 250 microseconds. -/
def watchSampleS (s : State) : State := s.watchAll (List.range s.straps.contexts)

def execWatchSample (s : State) : Host.Outcome State Fault Refusal := .next (watchSampleS s)

end Sys2Proof.Machine
end

