-- ==== Sys2Proof/Machine/Deliver.lean ====
section
/-!
DEFINITION. What becomes of the answer to a request: its data reach the unit that asked, or the failure ends what would have consumed them
(R228, R281, R310, R312, R345, R346, R351, R358), and the host port's completions (R346, R358).
-/
namespace Sys2Proof.Machine

open Sys2Proof

/-- The launch that a detection on a request names: none once it has ended or its generation is retired (R351), and none for a record that
is not yet a launch. -/
def State.seqOf (s : State) (r : Req) : Option Nat :=
  match r.dest with
  | .seg .. | .ackSeg .. | .fetch .. => if r.gen == s.genOf r.ctx && ((s.ctx r.ctx).launch? r.seq).isSome then some r.seq else none
  | _ => none

/-- A response to a peer's request (R271, R281): with the identity of the request, in the job it came in. -/
def State.reply (s : State) (job src jgen gctx tag : Nat) (body : MsgBody) : State :=
  let j := s.slotOfJob job
  let self := match j with | some j => s.fld (Reg.fabJobCfg j) 39 28 | none => Config.strangerBlock.toNat
  s.originate j job src { src := self, jgen := jgen, gctx := gctx, tag := tag, body := body }

/-- A request's answer has come, with its bytes and its clamp count; the request is out of the list already. A response of a retired
generation, or one to be discarded, changes nothing (R226, R358). -/
def State.respond (s : State) (r : Req) (bs : List Byte) (clamps : Nat) : State :=
  if r.dropped then s
  else
    match r.dest with
    | .peer _ job src jgen gctx tag => s.reply job src jgen gctx tag (if r.write then .ack clamps else .data bs)
    | .debug off => s.emit (.regCpl off (word (leNat bs)))
    | .seg b op k i => if r.gen == s.genOf r.ctx then ((s.gotPiece b op k i bs).pump b).settle b op else s
    | .ackSeg b op k =>
      if r.gen == s.genOf r.ctx then
        ((s.updSeg b op k fun g => { g with waits := g.waits - 1, clamps := g.clamps + clamps }).pump b).settle b op
      else s
    | .fetch l a => if r.gen == s.genOf r.ctx then s.gotLine l r.ctx r.gen a bs else s
    | .record c g n => if r.gen == s.genOf c then s.gotRecord c g n bs else s
    | .cq c => if r.gen == s.genOf c then s.cqAcked c else s

/-- A request fails with an exception of what would have consumed it: its operation, the launch whose line it was, its record (R346), or
the peer that asked (R281). -/
def State.failReq (s : State) (r : Req) (code arg : Nat) : State :=
  if r.dropped then s
  else
    match r.dest with
    | .peer _ job src jgen gctx tag => s.reply job src jgen gctx tag .error
    | .debug off => s.emit (.regCpl off 0)
    | .seg b op k _ | .ackSeg b op k => if r.gen == s.genOf r.ctx then s.failSeg b op k code arg else s
    | .fetch l a =>
      let x := s.lane l
      if r.gen == s.genOf r.ctx && x.ctx == r.ctx && x.gen == r.gen && x.seq == r.seq && x.st != .idle then
        s.raiseAt r.ctx x.seq l.cl s.nextOp ⟨if code == xREMOTEREFUSED then xFETCHFAULT else code, a, if code == xREMOTEREFUSED then 0 else arg, 0, 0⟩
      else s
    | .record c g n => if r.gen == s.genOf c then s.recFailed c g n r.va else s
    | .cq c => if r.gen == s.genOf c && (s.ctx c).cq == .sent then s.cqLost c else s

/-- CPL (R346, R358): a completion of the host port. Status 1 is Unsupported Request, 2 Completer Abort, 3 the endpoint's timeout,
4 poisoned. One whose tag maps to a retired generation frees its tag and is discarded. -/
def cplS (tag status : Nat) (bs : List Byte) (s : State) : State :=
  match s.req? tag with
  | none => s
  | some r =>
    if r.path != .host then s
    else
      let s := s.dropReq tag
      let inj := s.injHits 0x09 54
      let s := if inj then s.disarm else s
      let st := if inj then 1 else status
      if st == 0 then (s.respond r (padTo r.len bs) 0).pumpBarrows
      else
        let s := s.detect { det := 0x09, sev := 1, place := 54, ctx := some (r.ctx, r.gen), injected := inj, arg := min st 4, addr := r.va,
                            addrKind := 1, seq := s.seqOf r }
        let live := !r.dropped && r.gen == s.genOf r.ctx
        let s :=
          if !live then s
          else if r.ut then s.reqFault r 8
          else
            match r.dest with
            | .record c g n =>
              if ((s.ring c g).recs.find? fun k => k.count == n).any fun (k : Rec) => !k.retried then
                (s.updRing c g fun y => { y with recs := y.recs.map fun (k : Rec) => if k.count == n then { k with retried := true } else k }).recFetch c g n
              else s.failReq r xDATAERROR r.va
            | _ => s.failReq r xDATAERROR r.va
        s.pumpBarrows

def execCpl (tag status : Nat) (bytes : List (BitVec 8)) (s : State) : Host.Outcome State Fault Refusal :=
  match s.relayed 1 tag with
  | some x => .next (s.relayBack x { kind := 0x10, status := status, len := bytes.length, data := bytes })
  | none => .next (cplS tag status bytes s)

/-! ## The debug channel (R417, R454) -/

/-- Has a channel room for a read of 8 bytes, and the reserve for a transaction (R236, R301)? -/
def State.debugRoom (s : State) (a : Nat) : Bool := s.memRoom a 8 false && s.reserveRoom

/-- A read of 8 bytes of attached memory: its line is read and checked under R311, and waits while its channel has no room; beyond the data
region, or with no memory in service, it reads zero. It is no context's work: 64 names none. -/
def State.debugAttached (s : State) (off a : Nat) : State :=
  if s.memRange a 8 then (s.memOut 64 a).emit (.regCpl off 0)
  else if s.debugRoom a then
    s.acceptRead { tag := 0, path := .attached 0, dest := .debug off, engine := 30, ctx := 64, gen := 0, seq := 0, va := a, pa := a, len := 8,
                   write := false, sentUp := s.up, peer := 0, bytes := [], left := 0, dropped := false, ut := false }
  else { s with debugHeld := s.debugHeld ++ [(off, a)] }

end Sys2Proof.Machine
end

