-- ==== Sys2Proof/Machine/Memory.lean ====
section
/-!
DEFINITION. The memory controllers (R295 to R316, R326, R327): the choice at a command slot, the checks of a line read, refresh, training,
slots of strict reservation, the clear of a range and the sweep of key pages (R413, R414).
-/
namespace Sys2Proof.Machine

open Sys2Proof

/-! ## Slots of strict reservation (R303, R326, R327) -/

/-- Entry `k` of the slot table: the strict context that owns it. -/
def State.slotOwner (s : State) (k : Nat) : Option Nat :=
  let e := s.fld (Reg.ctxQosTable (k / 8)) (8 * (k % 8) + 7) (8 * (k % 8))
  if 128 ≤ e && s.flag (Reg.ctxQos (e % 64)) 16 then some (e % 64) else none

/-- The length of a slot in ticks, the number of the interval of now, and the ticks left in it. -/
def State.slotT (s : State) : Nat := 4 * max 1 (s.fld Reg.ctxQosSlot 11 0)
def State.slotNow (s : State) : Nat := s.bell.now / s.slotT
def State.slotLeft (s : State) : Nat := s.slotT - s.bell.now % s.slotT

/-- Does a controller start requests of context `c` now? In an owned slot the owner's alone, in every other those of shared contexts; none
in the last 60 ns before a change of owner. -/
def State.slotOk (s : State) (c : Nat) : Bool :=
  let k := s.slotNow % 32
  let own := s.slotOwner k
  let gap := s.slotOwner ((k + 1) % 32) != own && decide (s.slotLeft ≤ 240)
  !gap && (match own with | some o => o == c | none => !s.flag (Reg.ctxQos c) 16)

/-! ## Key pages (R309, R413) -/

/-- Pages and references of a key slot. -/
def State.slotPages (s : State) (k : Nat) : Nat := (s.mem.pages.filter fun p => p.2 % 16 == k).length
def State.slotRefs (s : State) (k : Nat) : Nat := ((s.mem.chans.map fun c => (c.inflight.filter fun f => f.slot == k).length).sum)

/-! ## The command slot (R301, R302, R305) -/

/-- The request with the least acceptance time, the first of those that tie. -/
def oldest : List MReq → Option MReq
  | [] => none
  | q :: r => match oldest r with
    | some p => if p.accepted < q.accepted then some p else some q
    | none => some q

/-- A request's bank and row. -/
def State.reqRow (s : State) (q : MReq) : Nat × Nat := bankRow (s.chanOf (64 * q.line)).2

/-- Rows that have had no hit for idle_ns are closed. -/
def State.closeIdle (s : State) (ch : Nat) : State :=
  let idle := 4 * s.fld Reg.memPolicyX 19 8
  s.updChan ch fun x => { x with rows := x.rows.mapIdx fun b r => if decide (nth x.hits b + idle ≤ s.up) then none else r }

/-- Requests to one line keep their order of acceptance (R301): may this one be chosen? A line being written or checked is waited for; a write
waits for the reads of its line that were accepted before it. -/
def Chan.inTurn (x : Chan) (q : MReq) : Bool :=
  q.fwd || !((x.inflight.any fun f => f.req.line == q.line && (f.req.write || q.write)) ||
    (q.write && x.reads.any fun p => p.line == q.line && decide (p.ord < q.ord) && !p.fwd))

/-- The refresh that goes next: one whose deadline has come, or with `any` one that may go before it; the ordinary one of a bank before the
neighbour one (R302, R304, R315). -/
def nextRefresh (up : Nat) (any : Refresh → Bool) (rs : List Refresh) : Option Refresh :=
  let ok := rs.filter fun r => any r || decide (r.deadline ≤ up)
  match ok.find? fun r => !r.neighbour with
  | some r => some r
  | none => ok.head?

/-- A refresh is postponed only while a request that was accepted before it fell due is under way (R304); a neighbour refresh may wait for its
deadline (R305). -/
def Chan.refreshNow (x : Chan) (r : Refresh) : Bool := !r.neighbour && !x.inflight.any fun f => decide (f.req.accepted < r.due)

/-- Rows beside a row of a bank: one at an end of the bank (R305). -/
def State.besides (s : State) (row : Nat) : List Nat :=
  (if row == 0 then [] else [row - 1]) ++ (if row + 1 < s.bankRows then [row + 1] else [])

/-- Rows activated and precharged in turn. -/
def State.actRows (s : State) (ch bank : Nat) : List Nat → State
  | [] => s
  | r :: rs => ((s.emit (.dfiAct ch bank r)).activate ch bank r).actRows ch bank rs

/-- A refresh is carried out: its bank is precharged; a neighbour refresh is counted, and is a refresh-management command or the activation of
the rows beside its own (R304, R305). -/
def State.doRefresh (s : State) (ch : Nat) (r : Refresh) : State :=
  let s := s.updChan ch fun x => { x with refresh := x.refresh.erase r, rows := put x.rows r.bank none }
  if r.neighbour then
    let s := s.incWrap (Reg.memChAct ch) 63 40 1
    if s.flag Reg.memCtrl 1 && !s.flag Reg.memPolicyX 4 then s.emit (.dfi ch 2 r.bank) else s.actRows ch r.bank (s.besides r.row)
  else s.emit (.dfi ch 1 r.bank)

/-- One line of an attached request is done: with its last, the request is answered. -/
def State.lineDone (s : State) : List Nat → State
  | [] => s
  | t :: r =>
    match s.req? t with
    | some q =>
      (if q.left ≤ 1 then (s.dropReq t).respond q q.bytes 0 else s.updReq t fun q => { q with left := q.left - 1 }).lineDone r
    | none => s.lineDone r

/-- One line of a list of attached requests has failed (R228, R310, R312). -/
def State.lineFail (s : State) (line : Nat) : List Nat → State
  | [] => s
  | t :: r =>
    match s.req? t with
    | some q => ((s.dropReq t).failReq q xDATAERROR (q.va + (max (64 * line) q.pa - q.pa))).lineFail line r
    | none => s.lineFail line r

/-- The channel address of a request's line, and its key page. -/
def State.reqCa (s : State) (q : MReq) : Nat := (s.chanOf (64 * q.line)).2
def State.reqKey (s : State) (q : MReq) : Nat := s.pageOf (64 * q.line)

/-- A line of a written page is read from its channel, with its MAC line where the cache lacks it, and a reference on the slot its page names
(R308, R309). -/
def State.fly (s : State) (ch : Nat) (q : MReq) (sl : Nat) : State :=
  let bad := s.mem.badMac.contains q.line
  let (miss, s) := s.touch ch false (s.macLine (s.reqCa q)) false
  (s.devRd ch (s.reqCa q)).updChan ch fun x =>
    { x with inflight := x.inflight ++ [{ req := q, slot := sl, again := none, macRead := miss, bad := bad, cleared := false }] }

/-- A chosen read: the key-page table is looked up; a page that is not written reads zeros without the device (R309). -/
def State.chooseRead (s : State) (ch : Nat) (q : MReq) : State :=
  let s := s.updChan ch fun x => { x with reads := x.reads.erase q }
  if q.fwd then s.lineDone q.tags
  else
    let s := (s.touch ch true (s.tabLine (s.reqCa q)) false).2
    match s.pageSlot (s.reqKey q) with
    | none => s.lineDone q.tags
    | some sl => s.fly ch q sl

/-- A chosen write: the first to a page initialises it (R309); a part of a line reads and checks its line first (R310); a whole line is
written. -/
def State.chooseWrite (s : State) (ch : Nat) (q : MReq) : State :=
  let s := (s.touch ch true (s.tabLine (s.reqCa q)) false).2
  let s := if (s.pageSlot (s.reqKey q)).isNone then s.initPage ch (s.reqCa q) else s
  let s := s.updChan ch fun x => { x with writes := x.writes.erase q }
  if q.part then s.fly ch q ((s.pageSlot (s.reqKey q)).getD 0) else (s.putLine ch (s.reqCa q) q.line).lineDone q.tags

/-- The direction for the next choice (R302). -/
def State.turn (s : State) (ch : Nat) (reads : List MReq) : State :=
  let x := s.chan ch
  let toW :=
    if x.toWrite then !(decide (x.writes.length ≤ s.fld Reg.memPolicyX 39 32) && !x.reads.isEmpty)
    else decide (s.fld Reg.memPolicyX 47 40 ≤ x.writes.length) || (!x.writes.isEmpty && reads.isEmpty)
  s.updChan ch fun y => { y with toWrite := toW }

/-- A read of the debug channel that waits for room is accepted. -/
def State.debugAgain (s : State) : State :=
  match s.debugHeld.find? fun p => decide (p.2 < scratchBase) with
  | some p => if s.debugRoom p.2 then { s with debugHeld := s.debugHeld.erase p }.debugAttached p.1 p.2 else s
  | none => s

/-- Does a channel take commands: it is in use and its training is over (R296, R304)? -/
def State.driven (s : State) (ch : Nat) : Bool :=
  decide (ch < s.straps.channels) && maskHas s.memMask ch && (s.chan ch).phy != 1

/-- The memory-controller quad of a channel; in a C1 a half-quad (R371). -/
def State.quadOf (s : State) (ch : Nat) : Nat := if s.straps.build = .c1 then ch / 2 else ch / 4

/-- May a quad start another line in this microsecond (R381)? -/
def State.quadRoom (s : State) (ch : Nat) : Bool :=
  let (us, n) := nth s.power.memStarts (s.quadOf ch)
  !s.power.memThr || us != s.up / usT || decide (n < s.power.memRate)

/-- A line is started. -/
def State.startLine (s : State) (ch : Nat) : State :=
  s.updPower fun p => { p with memStarts := upd p.memStarts (s.quadOf ch) fun x => if x.1 == s.up / usT then (x.1, x.2 + 1) else (s.up / usT, 1) }

/-- A request is chosen among those that are eligible: an aged one; a row hit in the direction in force; the oldest in that direction. With
none, a neighbour refresh goes before its deadline. -/
def State.chooseReq (s : State) (ch : Nat) : State :=
  let ok := fun (q : MReq) => s.slotOk q.ctx && (s.chan ch).inTurn q
  let rs := (s.chan ch).reads.filter ok
  let ws := (s.chan ch).writes.filter ok
  let age := 4 * s.fld Reg.memPolicyX 63 48
  let go := fun (s : State) (q : MReq) => let s := s.startLine ch; if q.write then s.chooseWrite ch q else s.chooseRead ch q
  match oldest ((rs ++ ws).filter fun q => decide (q.accepted + age ≤ s.up)) with
  | some q => go s q
  | none =>
    let s := s.turn ch rs
    let qs := if (s.chan ch).toWrite then ws else rs
    match oldest (qs.filter fun q => let p := s.reqRow q; nth (s.chan ch).rows p.1 == some p.2), oldest qs with
    | some q, _ => go s q
    | none, some q => go s q
    | none, none => match nextRefresh s.up (fun _ => true) (s.chan ch).refresh with
      | some r => s.doRefresh ch r
      | none => s

/-- MEM_COMMAND_SLOT (R302 to R305, R309, R310): a refresh that is due goes first, in every state of the block and whether or not memory is in
service; a request only in service, on a channel that is READY and not in a DFI update (R306), and within its quad's share (R381). -/
def memCommandSlotS (ch : Nat) (s : State) : State :=
  if !s.driven ch then s
  else
    let s := s.closeIdle ch
    match nextRefresh s.up (s.chan ch).refreshNow (s.chan ch).refresh with
    | some r => s.doRefresh ch r
    | none =>
      if !s.memOn || s.fld (Reg.memChStatus ch) 2 0 != 2 || decide (s.up < (s.chan ch).updateUntil) || !s.quadRoom ch then s
      else (s.chooseReq ch).pumpBarrows.debugAgain

def execMemCommandSlot (ch : Nat) (s : State) : Host.Outcome State Fault Refusal := .next (memCommandSlotS ch s)

/-! ## A line returns (R308, R310 to R312) -/

/-- The physical address of a line of this block's attached memory. -/
def linePhys (line : Nat) : Nat := ownPhys (64 * line)

/-- A part write that failed is discarded (R310): the line stands as it stood, with the writes accepted after it, and so do the bytes of the
reads of it that wait. -/
def State.undoWrite (s : State) (ch : Nat) (q : MReq) : State :=
  let now := fun (n : Nat) => match (s.chan ch).writes.find? fun w => w.line == q.line with
    | some w => if w.ord < n then patch q.old w.puts else q.old
    | none => q.old
  let reads := (s.chan ch).reads.filter fun r => r.line == q.line && !r.fwd
  let fill := fun (r : Req) => match reads.find? fun p => p.tags.contains r.tag with
    | some p => { r with bytes := r.bytes.mapIdx fun i b => if (r.pa + i) / 64 == q.line then nth (now p.ord) ((r.pa + i) % 64) else b }
    | none => r
  let s : State := { s with reqs := s.reqs.map fill }
  (s.updChan ch fun x => { x with writes := x.writes.map fun w => if w.line == q.line then { w with old := q.old } else w }).wrBytes
    (64 * q.line) (now s.nextTag)

/-- The data lines whose MACs share a line with that of a line. -/
def State.macMates (s : State) (ch line : Nat) : List Nat :=
  let ca := (s.chanOf (64 * line)).2 / 512 * 512
  ((List.range 8).map fun i => s.localOf ch (ca + 64 * i)).filterMap fun a => a.map (· / 64)

/-- A MAC line that has failed fails every one of its eight data lines on read (R311). -/
def State.macFail (s : State) (ch line : Nat) : State :=
  let ls := s.macMates ch line
  let mac := s.macLine (s.chanOf (64 * line)).2
  (s.updMem fun m => { m with badMac := ls ++ m.badMac.filter fun l => !ls.contains l }).updChan ch fun x =>
    { x with
      inflight := x.inflight.map fun f => if ls.contains f.req.line && f.macRead then { f with bad := true } else f
      macCache := x.macCache.filter fun e => e.1 != mac }

/-- MEM_READ_RETURN (R311): link ECC of the line and, where it was read too, of its MAC line, then the MAC; what cannot be corrected is read once
more, and fails when it fails again. -/
def memReadReturnS (ch tag : Nat) (checks : LineChecks) (s : State) : State :=
  match (s.chan ch).inflight.find? fun f => f.req.tags.contains tag with
  | none => s
  | some f =>
    let inj := f.again.isNone && s.memInj 2 f.req.line
    let s := if inj then s.memDisarm else s
    let link := if inj then LinkCheck.double else checks.line
    let macLink := if f.macRead then checks.mac else LinkCheck.clean
    let who := ((s.req? tag).filter fun r => decide (r.ctx < 64)).map fun r => (r.ctx, r.gen)
    let sq := (s.req? tag).bind s.seqOf
    let rep := fun (det sev : Nat) (i : Bool) =>
      ({ det := det, sev := sev, place := 44 + ch / 4, ctx := who, injected := i, addr := linePhys f.req.line, addrKind := 2, seq := sq } : Report)
    let fixed := fun (s : State) => ((s.incSat (Reg.memChErr ch) 15 0 1).memEvent 1).detect (rep 7 0 false)
    let s := if link == .single then fixed s else s
    let s := if macLink == .single then fixed s else s
    let badLink := link == .double || macLink == .double
    let badMac := f.bad || link == .missed || macLink == .missed
    if badLink || badMac then
      if f.again.isNone then
        (s.devRds ch ((if f.macRead then [s.macLine (s.reqCa f.req)] else []) ++ [s.reqCa f.req])).updChan ch fun x =>
          { x with inflight := x.inflight.map fun g => if g == f then { g with again := some (if badLink then 7 else 8) } else g }
      else
        let s := s.updChan ch fun x => { x with inflight := x.inflight.erase f }
        let s := if badLink then s.incSat (Reg.memChErr ch) 47 32 1 else s.incSat (Reg.memChErr ch) 63 48 1
        let s := (s.memEvent 2).detect (rep (if badLink then 7 else 8) 1 (!badLink && f.bad))
        let s := if macLink == .double || macLink == .missed then s.macFail ch f.req.line else s
        let s := if f.req.write && !f.cleared then s.undoWrite ch f.req else s
        (s.lineFail f.req.line f.req.tags).pumpBarrows
    else
      let s := match f.again with
        | some d => ((s.incSat (Reg.memChErr ch) 31 16 1).memEvent 1).detect (rep d 0 false)
        | none => s
      let s := s.updChan ch fun x => { x with inflight := x.inflight.erase f }
      let s := if f.req.write && !f.cleared then s.putLine ch (s.reqCa f.req) f.req.line else s
      (s.lineDone f.req.tags).pumpBarrows

def execMemReadReturn (ch tag : Nat) (link : LineChecks) (s : State) : Host.Outcome State Fault Refusal :=
  .next (memReadReturnS ch tag link s)

/-! ## Refresh and training (R304, R306) -/

/-- REFRESH_DUE (R304): a bank's refresh falls due at the interval that the device's last report calls for; its deadline is the device's
postponement limit. A channel left out of MEM_MAP or in training takes none. -/
def refreshDueS (ch bank : Nat) (s : State) : State :=
  if !s.driven ch || decide (s.up < nth (s.chan ch).dues (bank % 16)) then s
  else
    let gap := Config.refreshInterval (s.fld (Reg.memChStatus ch) 15 8)
    s.updChan ch fun x => { x with
      refresh := x.refresh ++ [⟨bank % 16, s.up + Config.refreshLimit, false, 0, s.up⟩]
      dues := put x.dues (bank % 16) (s.up + gap) }

def execRefreshDue (ch bank : Nat) (s : State) : Host.Outcome State Fault Refusal := .next (refreshDueS ch bank s)

/-- MR4_POLL (R304): the device's report, read every millisecond. -/
def execMr4Poll (ch report : Nat) (hot : Bool) (s : State) : Host.Outcome State Fault Refusal :=
  .next (if s.driven ch then
    (let s := s.setFld (Reg.memChStatus ch) 15 8 report
     if hot then s.memEvent (2 ^ 4) else s) else s)

/-- The state of a channel as MEM_CHn_STATUS shows it: what training came to, or EXCLUDED where MEM_MAP leaves it out (R296). -/
def State.showPhy (s : State) : List Nat → State
  | [] => s
  | c :: r => (s.setFld (Reg.memChStatus c) 2 0 (if maskHas s.memMask c then (s.chan c).phy else 4)).showPhy r

/-- MEM_MAP fields that MEM_CTRL.enable refuses: a mask that is no power of two of the build's channels, all trained (R296, R306), chcap or
grain out of range (R316). -/
def State.mapBad (s : State) : Bool :=
  let m := s.memMask
  let n := s.memCount
  decide (2 ^ s.straps.channels ≤ m) || !([1, 2, 4, 8, 16].contains n) || s.fld Reg.memMap 17 16 == 3 || decide (s.fld Reg.memMap 12 8 < 8) ||
    decide (16 < s.fld Reg.memMap 12 8) || !(maskBits 16 m).all fun c => s.fld (Reg.memChStatus c) 2 0 == 2

/-- Keys installed in slot 0 as CURRENT, every other slot EMPTY (R413, R415, R436). -/
def State.firstKey (s : State) : State :=
  let (v, s) := s.draw
  s.updMem fun x => { x with slots := 1 :: List.replicate 15 0, slotKeys := v :: List.replicate 15 0 }

/-- Once every channel in use is trained, the Inspector installs memory key slot 0 as CURRENT and sets MEM_CTRL.enable (R296, R306, R436). -/
def State.memUp (s : State) : State :=
  if s.flag Reg.memCtrl 0 || s.mapBad then s else (s.setFld Reg.memCtrl 0 0 1).firstKey

/-- A channel's training comes to an end. -/
def State.trained (s : State) (ch st : Nat) : State :=
  (s.updChan ch fun x => { x with trainStart := none, phy := st }).showPhy [ch]

/-- CHANNEL_TRAINED (R306): a channel in TRAINING that finishes within 40 ms is READY. -/
def channelTrainedS (ch : Nat) (s : State) : State :=
  match s.fld (Reg.memChStatus ch) 2 0, (s.chan ch).trainStart with
  | 1, some t => if s.up ≤ t + 40 * msT then (s.trained ch 2).memUp else s
  | _, _ => s

def execChannelTrained (ch : Nat) (s : State) : Host.Outcome State Fault Refusal := .next (channelTrainedS ch s)

/-- TRAIN_TIMEOUT (R306, R438): one that has not finished within 40 ms is FAILED, and start-up's failure is CHANNEL. -/
def trainTimeoutS (ch : Nat) (s : State) : State :=
  match s.fld (Reg.memChStatus ch) 2 0, (s.chan ch).trainStart with
  | 1, some t =>
    if t + 40 * msT ≤ s.up then
      let s := (s.trained ch 3).memEvent (2 ^ 3)
      if s.fld Reg.insBoot 47 40 == 0 then s.setFld Reg.insBoot 47 40 4 else s
    else s
  | _, _ => s

def execTrainTimeout (ch : Nat) (s : State) : Host.Outcome State Fault Refusal := .next (trainTimeoutS ch s)

/-- PHY_UPDATE (R306): a DFI update takes at most 1 us of the channel, during which requests wait. -/
def execPhyUpdate (ch : Nat) (s : State) : Host.Outcome State Fault Refusal :=
  .next (if maskHas s.memMask ch && s.fld (Reg.memChStatus ch) 2 0 == 2 then
    (s.updChan ch fun x => { x with updateUntil := s.up + usT }).emit (.dfi ch 0 0) else s)

/-- QOS_SLOT_BOUNDARY (R303): under strict reservation every bank of every channel is precharged. -/
def execQosSlotBoundary (s : State) : Host.Outcome State Fault Refusal :=
  .next (if (List.range 32).any fun k => (s.slotOwner k).isSome then
    s.updMem fun m => { m with chans := m.chans.map fun x => { x with rows := x.rows.map fun _ => none } } else s)

/-! ## Clearing a range (R313) -/

/-- U, the clear unit. -/
def State.clearUnit (s : State) : Nat := if 12 ≤ s.fld Reg.memMap 12 8 then 4096 else s.memCount * 4096

/-- Requests accepted before a clear complete under the old state (R313): those of the range that wait are chosen, each in its turn. -/
def State.clearReqs (s : State) (ch : Nat) : List MReq → State
  | [] => s
  | q :: r => (if q.write then s.chooseWrite ch q else s.chooseRead ch q).clearReqs ch r
def State.clearQueues (s : State) (lo n : Nat) : List Nat → State
  | [] => s
  | ch :: r =>
    let inr := fun (q : MReq) => decide (lo ≤ 64 * q.line) && decide (64 * q.line < lo + n)
    let s := (s.clearReqs ch ((s.chan ch).reads.filter inr)).clearReqs ch ((s.chan ch).writes.filter inr)
    (s.updChan ch fun x => { x with inflight := x.inflight.map fun f => if inr f.req then { f with cleared := true } else f }).clearQueues lo n r

/-- The effect of a write of 1 to MEM_CLEAR_CTL.go (R313); a go while one is PENDING is an access error. Requests accepted from now on
find the pages unwritten. -/
def State.clearGo (s : State) (v : Word) : State :=
  if !bit v 0 then s
  else if s.fld Reg.memClearStatus 2 0 == 1 then s.regError Reg.memClearCtl
  else
    let lo := s.fld Reg.memClearAddr 42 12 * 4096
    let n := bits v 39 8 * 4096
    let u := s.clearUnit
    if u == 0 || lo % u != 0 || n % u != 0 || decide (s.dataBytes < lo + n) then s.setReg Reg.memClearStatus 3
    else
      let s := s.clearQueues lo n (List.range 16)
      let keep := fun (p : Nat × Nat) => match s.localOf (p.1 / 2 ^ 32) (p.1 % 2 ^ 32 * 4096) with
        | some a => !(decide (lo ≤ a) && decide (a < lo + n))
        | none => true
      let tags := (s.reqs.filter fun r => match r.path with
        | .attached _ => decide (r.pa < lo + n) && decide (lo < r.pa + r.len)
        | _ => false).map fun r => r.tag
      let s := (s.zeroMem lo n).updMem fun m => { m with
        pages := m.pages.filter keep
        badMac := m.badMac.filter fun l => !(decide (lo ≤ 64 * l) && decide (64 * l < lo + n))
        clear := some ⟨lo, n, s.up, tags⟩ }
      s.setReg Reg.memClearStatus 1

/-- MEM_CLEAR_DONE (R313): every channel has come past the requests accepted before the clear. -/
def memClearDoneS (s : State) : State :=
  match s.mem.clear with
  | none => s
  | some j =>
    if s.reqs.any fun r => j.tags.contains r.tag then s
    else
      let s := s.updMem fun m => { m with clear := none }
      (s.setReg Reg.memClearStatus (word (fields [(16, sat 16 ((s.up - j.began) / usT)), (0, 2)]))).memEvent (2 ^ 5)

def execMemClearDone (s : State) : Host.Outcome State Fault Refusal := .next (memClearDoneS s)

/-! ## The sweep (R413 to R415) -/

/-- The slot that is DRAINING, while a sweep runs. -/
def State.draining (s : State) : Option Nat := firstIdx (· == 2) s.mem.slots

/-- SWEEP_PAGE (R414, R315): a page of the DRAINING slot is read and rewritten under the CURRENT one, in a shared interval; a line whose MAC
does not match keeps one that does not. -/
def sweepPageS (ch page : Nat) (s : State) : State :=
  let key := ch * 2 ^ 32 + page
  let ca := page * 4096
  match s.draining, s.pageSlot key with
  | some d, some k =>
    if d == k && (s.slotOwner (s.slotNow % 32)).isNone then
      let s := (s.devRds ch (pageLines ca)).markPage key
      let s := (s.devWrs ch (pageLines ca)).touchMacs ch ((List.range 8).map fun i => ca + 512 * i)
      (s.touch ch true (s.tabLine ca) true).2
    else s
  | _, _ => s

def execSweepPage (ch page : Nat) (s : State) : Host.Outcome State Fault Refusal := .next (sweepPageS ch page s)

/-- KEY_SLOT_ZERO (R414): the DRAINING slot without pages and references is zeroed. -/
def keySlotZeroS (s : State) : State :=
  match s.draining with
  | some d =>
    if s.slotPages d == 0 && s.slotRefs d == 0 then (s.updMem fun m => { m with slots := put m.slots d 0, slotKeys := put m.slotKeys d 0 }).insEvent (2 ^ 4) else s
  | none => s

def execKeySlotZero (s : State) : Host.Outcome State Fault Refusal := .next (keySlotZeroS s)

end Sys2Proof.Machine
end

