-- ==== Sys2Proof/Machine/Fabric.lean ====
section
/-!
DEFINITION. The link complex (R267 to R282): ports, the arrival and forwarding of heads, the check at ingress (R278), the requests a peer
makes and the responses it gives, job key phases (R282, R416) and management messages (R418).
-/
namespace Sys2Proof.Machine

open Sys2Proof

/-! ## Ports (R267, R268, R272) -/

/-- A port's state changes (FAB_EVENT.port_change); the heads that wait there are dropped (R268). -/
def State.setPort (s : State) (p st : Nat) : State :=
  if s.fld (Reg.fabPortCfg p) 2 1 == st then s
  else
    let s := s.dropHeads (nth s.ports p).queue
    { (s.setFld (Reg.fabPortCfg p) 2 1 st).fabEvent 1 with ports := upd s.ports p fun _ => Port.reset }

/-- The effect of a write to FAB_PORTn_CFG: enable 1 starts training, 0 takes the port down; a FAILED port needs a 0 first. -/
def State.wrPort (s : State) (p : Nat) (new : Word) : State :=
  let s := s.setFld (Reg.fabPortCfg p) 0 0 (bits new 0 0)
  if !bit new 0 then s.setPort p 0
  else if s.fld (Reg.fabPortCfg p) 2 1 == 0 then s.setPort p 1
  else s

/-- PORT_UP (R268). -/
def execPortUp (port : Nat) (s : State) : Host.Outcome State Fault Refusal :=
  .next (if port < s.straps.ports && s.fld (Reg.fabPortCfg port) 2 1 == 1 then s.setPort port 2 else s)

/-- LINK_REPLAY (R268, R344): a board port sends the flits of its replay buffer once more; after 8 replays without an acknowledgement it is
FAILED. -/
def linkReplayS (p : Nat) (s : State) : State :=
  if p < 2 || s.straps.ports ≤ p || s.fld (Reg.fabPortCfg p) 2 1 != 2 then s
  else
    let inj := (nth s.ports p).spoiled
    let n := (nth s.ports p).replays + 1
    let s : State := { s with ports := upd s.ports p fun x => { x with replays := n, spoiled := false } }
    let s := s.incSat (Reg.fabPortCfg p) 63 32 1
    let rep : Report := { det := 0x0A, sev := 0, place := 49, injected := inj, arg := p }
    if n < 8 then (s.resend p (nth s.ports p).buf).detect rep else (s.setPort p 3).detect { rep with sev := 2 }

def execLinkReplay (port : Nat) (s : State) : Host.Outcome State Fault Refusal := .next (linkReplayS port s)

/-- CREDIT_STALL (R272). -/
def execCreditStall (port : Nat) (s : State) : Host.Outcome State Fault Refusal :=
  .next (if s.portUp port then s.fabEvent (2 ^ 10) else s)

/-! ## The check at ingress (R278) -/

def isRequest : MsgBody → Bool
  | .write .. | .reduce .. | .read .. => true
  | _ => false
def isResponse : MsgBody → Bool
  | .ack .. | .data .. | .refuse .. | .error => true
  | _ => false

/-- Does a reserved type stand in a head (R271)? -/
def hasReserved (l : List Msg) : Bool := l.any fun m => !knownCodes.contains (typeCode m.body)

/-- Address, length and right of a request: 1 read, 2 write, 3 atomic, as bits of FAB_WINw_CFG. -/
def reqSpan : MsgBody → Nat × Nat × Nat
  | .write a n _ => (a, n, 2)
  | .reduce a n _ _ _ => (a, n, 3)
  | .read a n => (a, n, 1)
  | _ => (0, 0, 0)

/-- The lowest-numbered enabled window of a job slot that covers a request and holds its right. -/
def State.windowFor (s : State) (j : Nat) (gang : Bool) (m : Msg) : Option Nat :=
  let (a, n, r) := reqSpan m.body
  (List.range 64).find? fun w =>
    let c := s.reg (Reg.fabWinCfg w)
    let b := s.fld (Reg.fabWinBase w) 42 12 * 4096
    bit c 0 && bits c 11 8 == j && bit c r && decide (b ≤ a) && decide (a + n ≤ b + bits c 62 32 * 4096) &&
      (!gang || bits c 21 16 == m.gctx)

/-- May the gang context that a message names be reached here (R278)? -/
def State.gangCtxOk (s : State) (m : Msg) : Bool :=
  let x := s.ctx m.gctx
  s.ganged && (x.st == .active || x.st == .stopped || x.st == .faulted) && x.rst.isNone && x.gen == m.jgen

/-- The answer of R278 to a message of a head that is not dropped: none admits it, 1 WINDOW-MISS, 2 CONTEXT-RETIRED. -/
def State.answerOf (s : State) (h : Head) (m : Msg) : Option Nat :=
  match s.slotOfJob h.job with
  | none => some 1
  | some j =>
    let c := s.reg (Reg.fabJobCfg j)
    let gang := bits c 15 0 == 0xFFFF
    if bit c 62 && !h.enc then some 1
    else if s.jobState j == 2 || (if gang then !s.gangCtxOk m else bits c 47 40 != m.jgen) then some 2
    else if isRequest m.body && (s.windowFor j gang m).isNone then some 1
    else none

/-- Does the tag of an encrypted head hold under the key of the phase it names (R282, R416)? -/
def State.tagHolds (s : State) (j : Nat) (h : Head) : Bool :=
  let k := s.fld (Reg.fabJobCfg j) 59 56
  let kp := s.keyPhase k h.phase
  let open_ := h.phase == s.keyInForce k || (match kp.until_ with | some t => decide (s.bell.now < t) | none => false)
  match kp.key with
  | some key => open_ && h.tag == Config.gcmTag key (headIv h) (headAad h) h.sealed
  | none => false

/-- The messages of an encrypted head (R282). -/
def State.openHead (s : State) (j : Nat) (h : Head) : List Msg :=
  match (s.keyPhase (s.fld (Reg.fabJobCfg j) 59 56) h.phase).key with
  | some key => Config.gcmOpen key (headIv h) h.sealed
  | none => []

/-- A refusal counted (R278): FAB_REFUSED, FAB_LASTREF, FAB_EVENT.refused. -/
def State.countRefused (s : State) (h : Head) (a : Nat) : State :=
  let s := if a == 1 then s.incSat Reg.fabRefused 63 32 1 else s.incSat Reg.fabRefused 31 0 1
  (s.setReg Reg.fabLastref (word (fields [(48, h.job % 2 ^ 16), (36, h.src % 2 ^ 12), (34, a)]))).fabEvent (2 ^ 5)

/-- One message of a delivered head (R278). A barrier or commit-group message that fails is dropped and counted as a refusal (DEDUCED, log
entry 27); a response that fails is dropped. -/
def State.ingress (s : State) (p : Nat) (h : Head) (m : Msg) : State :=
  let put := fun (s : State) =>
    ({ s with inbox := s.inbox ++ [{ port := p, job := h.job, srcFab := h.src, enc := h.enc, phase := h.phase, at_ := s.bell.now, msg := m }] } : State)
  match m.body with
  | .timeReq _ | .timeResp _ _ _ | .mgmt _ => put s
  | _ =>
    match s.answerOf h m with
    | none => put s
    | some a =>
      if isRequest m.body then (s.countRefused h a).reply h.job h.src m.jgen m.gctx m.tag (.refuse a)
      else if isResponse m.body then s
      else s.countRefused h a

def State.ingressAll (s : State) (p : Nat) (h : Head) : List Msg → State
  | [] => s
  | m :: r => (s.ingress p h m).ingressAll p h r

/-- The messages of a delivered head; one that holds a reserved type is dropped (R271). -/
def State.ingressHead (s : State) (p : Nat) (h : Head) (l : List Msg) : State :=
  if hasReserved l then s.dropHead 3 else s.ingressAll p h l

/-- A head for this block: its tag first, once for the whole head (R278 check 2), then each message. What an encrypted head of no job slot holds
cannot be read: nothing is answered (DEDUCED, log entry 27). -/
def State.deliver (s : State) (p : Nat) (h : Head) : State :=
  let s := s.ctrlWord 49
  if !h.enc then s.ingressHead p h h.msgs
  else
    match s.slotOfJob h.job with
    | none => s.ingressHead p h h.msgs
    | some j =>
      let inj := s.injHits 0x0B 49 && s.inject.any fun (x : Inject) => x.param == p
      let s := if inj then s.disarm else s
      if inj || !s.tagHolds j h then
        (s.dropHead 4).detect { det := 0x0B, sev := 2, place := 49, injected := inj, arg := p }
      else s.ingressHead p h (s.openHead j h)

/-- Heads for this block's own fabric number are delivered here (R274). They were never in clear on a port, so no tag is checked. -/
def State.loopTick (s : State) : State :=
  match s.loop with
  | [] => s
  | h :: r => { s with loop := r }.ingressHead 8 { h with sent := s.bell.now / 256 % 2 ^ 32 } h.msgs

/-! ## Arrival (R273, R274) -/

/-- Has a head been under way for more than 2 ms (R273)? Its field holds bits 39:8 of the time of sending. -/
def State.stale (s : State) (h : Head) : Bool :=
  let d := since32 (s.bell.now / 256) h.sent
  s.flag Reg.fabCtrl 1 && decide (d < 2 ^ 31) && decide (8000000 < d * 256)

def isTime (h : Head) : Bool := h.msgs.any fun m => match m.body with | .timeReq _ | .timeResp _ _ _ => true | _ => false

/-- HEAD_ARRIVE (R274, R278): counted, dropped, delivered here or forwarded by the table of its input port. An arrival shows that the
flit in hand at this port's output has been acknowledged (DESIGN CHOICE, log entry 28). -/
def headArriveS (p : Nat) (h : Head) (s : State) : State :=
  if !s.portUp p then s
  else
    let s := s.incWrap (Reg.fabPortFlits p) 63 32 (flitsOf h)
    let s : State := { s with ports := upd s.ports p fun x => { x with replays := 0, buf := [], spoiled := false } }
    if s.stale h then s.dropHead 2
    else if isTime h || h.dst == s.fld Reg.fabId 11 0 then s.deliver p h
    else if 31 ≤ h.hop then s.dropHead 3
    else
      match s.route p h.dst with
      | some o => s.sendPort o false none { h with hop := h.hop + 1 }
      | none => s.dropHead 1

def execHeadArrive (port : Nat) (h : Head) (s : State) : Host.Outcome State Fault Refusal := .next (headArriveS port h s)

/-! ## Requests of a peer (R280, R281) -/

/-- The context on whose behalf a peer's request is served: that of its job slot, or the gang context it names. -/
def State.serveCtx (s : State) (d : Delivered) : Nat :=
  match s.slotOfJob d.job with
  | some j => if d.job == 0xFFFF then d.msg.gctx else s.fld (Reg.fabJobCfg j) 55 50
  | none => d.msg.gctx

def State.peerReq (s : State) (d : Delivered) (a n : Nat) (wr : Bool) : Req :=
  let c := s.serveCtx d
  { tag := 0, path := .attached 0, dest := .peer d.port d.job d.srcFab d.msg.jgen d.msg.gctx d.msg.tag, engine := 31, ctx := c, gen := s.genOf c,
    seq := 0, va := a, pa := a, len := n, write := wr, sentUp := s.up, peer := d.msg.src, bytes := [], left := 0, dropped := false, ut := false }

def State.answer (s : State) (d : Delivered) (body : MsgBody) : State := s.reply d.job d.srcFab d.msg.jgen d.msg.gctx d.msg.tag body

/-- WRITE (R280): in force at its acceptance, and acknowledged; it waits while its channel has no room. -/
def fabWriteS (k : Nat) (s : State) : State :=
  match s.take k with
  | some (d, s1) =>
    match d.msg.body with
    | .write a n bs =>
      let bs := padTo n bs
      if scratchBase ≤ a then (s1.store a bs).answer d (.ack 0)
      else if s.memRange a n then (s1.memOut (s1.serveCtx d) a).answer d .error
      else if s.memRoom a n true then
        let (wait, s2) := s1.acceptWrite (s1.peerReq d a n true) bs
        if wait then s2 else s2.answer d (.ack 0)
      else s
    | _ => s
  | none => s

def execFabWrite (k : Nat) (s : State) : Host.Outcome State Fault Refusal := .next (fabWriteS k s)

/-- REDUCE (R281): performed by the reduce unit on scratch, under R112 and R233; the clamps go back with the ACK. Attached memory, which a
sender never names, is answered with ERROR (DESIGN CHOICE, log entry 29). -/
def fabReduceS (k : Nat) (s : State) : State :=
  match s.take k with
  | some (d, s1) =>
    match d.msg.body with
    | .reduce a n op f bs =>
      if a < scratchBase then s1.answer d .error
      else
        let c := s1.serveCtx d
        let (ok, s2) := s1.checkScr (some (c, s1.genOf c)) none a
        if !ok then s2.answer d .error
        else
          let (clamps, s3) := s2.reduceAt f op (n / (fmtW f / 8)) (padTo n bs) a
          s3.answer d (.ack clamps)
    | _ => s
  | none => s

def execFabReduce (k : Nat) (s : State) : Host.Outcome State Fault Refusal := .next (fabReduceS k s)

/-- READ (R281): answered with DATA, or ERROR when its bytes are uncorrectable. -/
def fabReadS (k : Nat) (s : State) : State :=
  match s.take k with
  | some (d, s1) =>
    match d.msg.body with
    | .read a n =>
      if scratchBase ≤ a then
        let c := s1.serveCtx d
        let (ok, s2) := s1.checkScr (some (c, s1.genOf c)) none a
        s2.answer d (if ok then .data (s2.rdBytes a n) else .error)
      else if s.memRange a n then (s1.memOut (s1.serveCtx d) a).answer d .error
      else if s.memRoom a n false then s1.acceptRead (s1.peerReq d a n false)
      else s
    | _ => s
  | none => s

def execFabRead (k : Nat) (s : State) : Host.Outcome State Fault Refusal := .next (fabReadS k s)

/-! ## Responses of a peer (R228, R281) -/

/-- The request that a response answers: by job, requester tag and peer. A block that carries no slot of the job knows no job block number of
its own (R278); it is known by its fabric number. -/
def State.answered (s : State) (d : Delivered) : Option Req :=
  s.reqs.find? fun r => match r.path with
    | .link _ j => j == d.job && r.tag % 2 ^ 16 == d.msg.tag && !r.lost &&
        (r.peer == d.msg.src || (s.slotOfJob j).any fun k => s.jobMap k r.peer == some d.srcFab)
    | _ => false

/-- The ERROR response of a peer (R344 code 0x0D). -/
def State.peerError (s : State) (d : Delivered) (r : Req) (inj : Bool) : State :=
  let s := s.detect { det := 0x0D, sev := 1, place := 49, ctx := some (r.ctx, r.gen), injected := inj, arg := d.port, addr := r.pa, addrKind := 2,
                      seq := s.seqOf r, peer := some r.peer }
  s.failReq r xDATAERROR r.va

/-- Flits received for a context's operation (R387). -/
def State.flitsIn (s : State) (r : Req) (n : Nat) : State := s.energyEvent r.ctx r.seq 12 n

/-- ACK (R280): the write or reduction is in force at the peer. -/
def fabAckS (k : Nat) (s : State) : State :=
  match s.take k with
  | some (d, s1) =>
    match d.msg.body, s.answered d with
    | .ack n, some r => if r.write then (((s1.dropReq r.tag).flitsIn r 1).respond r [] n).pumpBarrows else s1
    | .ack _, none => s1
    | _, _ => s
  | none => s

def execFabAck (k : Nat) (s : State) : Host.Outcome State Fault Refusal := .next (fabAckS k s)

/-- DATA (R281); an armed LINK_PEER injection takes it as ERROR. -/
def fabDataS (k : Nat) (s : State) : State :=
  match s.take k with
  | some (d, s1) =>
    match d.msg.body, s.answered d with
    | .data bs, some r =>
      if r.write then s1
      else
        let inj := s1.injHits 0x0D 49 && s1.inject.any fun (j : Inject) => j.param == d.port
        let s1 := ((if inj then s1.disarm else s1).dropReq r.tag).flitsIn r 2
        if inj then (s1.peerError d r true).pumpBarrows else (s1.respond r (padTo r.len bs) 0).pumpBarrows
    | .data _, none => s1
    | _, _ => s
  | none => s

def execFabData (k : Nat) (s : State) : Host.Outcome State Fault Refusal := .next (fabDataS k s)

/-- REFUSE (R228): the operation ends with REMOTE-REFUSED. -/
def fabRefuseS (k : Nat) (s : State) : State :=
  match s.take k with
  | some (d, s1) =>
    match d.msg.body, s.answered d with
    | .refuse a, some r => (((s1.dropReq r.tag).flitsIn r 1).failReq r xREMOTEREFUSED (refusedArg r.peer a)).pumpBarrows
    | .refuse _, none => s1
    | _, _ => s
  | none => s

def execFabRefuse (k : Nat) (s : State) : Host.Outcome State Fault Refusal := .next (fabRefuseS k s)

/-- ERROR (R281): the peer found the bytes uncorrectable; the operation ends with DATA-ERROR. -/
def fabErrorS (k : Nat) (s : State) : State :=
  match s.take k with
  | some (d, s1) =>
    match d.msg.body, s.answered d with
    | .error, some r => (((s1.dropReq r.tag).flitsIn r 1).peerError d r false).pumpBarrows
    | .error, none => s1
    | _, _ => s
  | none => s

def execFabError (k : Nat) (s : State) : Host.Outcome State Fault Refusal := .next (fabErrorS k s)

/-- The place of the unit that issued a request (R349, R461). -/
def enginePlace (e : Nat) : Nat := if e < 24 then 16 + e else if e < 28 then 40 + (e - 24) else if e == 28 then 48 else 49

/-- LINK_REQUEST_TIMEOUT (R273): a request without a response 2 ms after it was sent ends its operation with DATA-ERROR. -/
def linkRequestTimeoutS (tag : Nat) (s : State) : State :=
  match s.req? tag with
  | none => s
  | some r =>
    match r.path with
    | .link port _ =>
      if s.up < r.sentUp + 2 * msT then s
      else
        let s := s.dropReq tag
        if r.dropped then s.pumpBarrows
        else
          let s := s.detect { det := 0x0C, sev := 1, place := enginePlace r.engine, ctx := some (r.ctx, r.gen), injected := r.lost, arg := port,
                              addr := r.pa, addrKind := 2, seq := s.seqOf r, peer := some r.peer }
          (s.failReq r xDATAERROR r.va).pumpBarrows
    | _ => s

def execLinkRequestTimeout (tag : Nat) (s : State) : Host.Outcome State Fault Refusal := .next (linkRequestTimeoutS tag s)

/-! ## Job key phases (R416) -/

/-- The phase of a job key slot flips (R282, R416): the phase that is left is accepted for receipt for 2 ms. -/
def State.flipPhase (s : State) (k p : Nat) : State :=
  if s.keyInForce k == p then s
  else
    let t := s.bell.now + 8000000
    let s := (s.setFld (Reg.insJkeyCtl k) 4 4 p).updKey k (1 - p) fun x => { x with until_ := if x.key.isSome then some t else none }
    s.updKey k p fun x => { x with until_ := none }

/-- KEY_PHASE_EXPIRE (R416): 2 ms after the tick that left it, a phase is zeroed. -/
def keyPhaseExpireS (k : Nat) (s : State) : State :=
  let p := 1 - s.keyInForce k
  match (s.keyPhase k p).until_ with
  | some t => if t ≤ s.bell.now then s.updKey k p fun _ => KeyPhase.empty else s
  | none => s

def execKeyPhaseExpire (slot : Nat) (s : State) : Host.Outcome State Fault Refusal := .next (keyPhaseExpireS slot s)

/-! ## Management messages (R418) -/

/-- The bytes of a whole message. -/
def Partial.bytes (m : Partial) : List Byte :=
  ((List.range m.count).map fun i => ((m.frags.find? fun f => f.1 == i).map fun (f : Nat × List Byte) => f.2).getD []).flatten

/-- The member of the gang with a fabric number. -/
def State.memberOf (s : State) (fab : Nat) : Option Nat := (List.range s.gangN).find? fun m => s.jobMap 15 m == some fab

/-- A whole message: commands and SPDM requests wait for the Inspector; at a gang's lead a member's SPDM response leaves through its DOE mailbox
(R404); a transaction of the host port between members of the gang waits for the relay (R291); another response has no reader in this block. -/
def State.mgmtWhole (s : State) (m : Partial) : State :=
  if m.kind == 1 || m.kind == 3 then s.updInsp fun i => { i with messages := i.messages ++ [m] }
  else if m.kind == 4 then
    match (if s.ganged && s.gangM == 0 then s.memberOf m.src else none) with
    | some k => s.emit (.doe k m.bytes)
    | none => s
  else if m.kind == 5 || m.kind == 6 then { s with relayHeld := s.relayHeld ++ [(m.src, m.bytes)] }
  else s

/-- MGMT (R418): the Inspector puts a message together by source and identifier; a ninth partial message discards the oldest. A fragment
with an index beyond its count, or with a count beyond 64, belongs to no message and is discarded. -/
def mgmtS (k : Nat) (s : State) : State :=
  match s.take k with
  | some (d, s1) =>
    match d.msg.body with
    | .mgmt f =>
      if f.count == 0 || 64 < f.count || f.count ≤ f.index then s1
      else
        let same := fun (p : Partial) => p.src == d.srcFab && p.ident == f.ident
        let ps := s1.insp.partials
        let old := ps.find? same
        let p := old.getD { src := d.srcFab, ident := f.ident, kind := f.kind, count := f.count, first := s1.up, frags := [] }
        let p := { p with frags := p.frags.filter (fun x => x.1 != f.index) ++ [(f.index, f.bytes)] }
        let rest := ps.filter fun q => !same q
        if p.frags.length == p.count then (s1.updInsp fun i => { i with partials := rest }).mgmtWhole p
        else
          let ps := if old.isSome then ps.map (fun q => if same q then p else q) else (if 8 ≤ ps.length then ps.drop 1 else ps) ++ [p]
          s1.updInsp fun i => { i with partials := ps }
    | _ => s
  | none => s

def execMgmt (k : Nat) (s : State) : Host.Outcome State Fault Refusal := .next (mgmtS k s)

/-- MGMT_REASSEMBLY_TIMEOUT (R418): a message incomplete 2 ms after its first fragment is discarded. -/
def execMgmtReassemblyTimeout (src ident : Nat) (s : State) : Host.Outcome State Fault Refusal :=
  .next (s.updInsp fun i => { i with partials := i.partials.filter fun p => !(p.src == src && p.ident == ident && decide (p.first + 2 * msT ≤ s.up)) })

end Sys2Proof.Machine
end

