-- ==== Sys2Proof/Machine/Contexts.lean ====
section
/-!
DEFINITION. The life of a context (R317 to R322), its interrupts (R330 to R332), its link bucket (R329), and its reset, from the Awning to
completion (R212, R320, R354 to R365, R393).
-/
namespace Sys2Proof.Machine

open Sys2Proof

/-! ## Interrupts (R330 to R332) -/

/-- Does a context assert attention? -/
def State.attends (s : State) (c : Nat) : Bool := s.fld (Reg.ctxAttn c) 2 0 != 0
/-- CTX_SUMMARYl (R332). -/
def State.summary (s : State) (l : Nat) : Nat :=
  maskOf ((List.range s.straps.contexts).filter fun c => s.attends c && s.fld (Reg.ctxIrq c) 1 0 == l)
/-- The level of attention line `l` (R330): the OR of the contexts on it and of the kernel's management events. -/
def State.irqLine (s : State) (l : Nat) : Bool :=
  s.summary l != 0 || (s.fld Reg.ctxKirq 1 0 == l && (s.reg Reg.ctxMgmt &&& s.reg Reg.ctxMgmtEn) != 0)

/-- The effect of a W1C of CTX_ATTN: clearing the completion bit sets held to 0 (R331). -/
def State.clearAttn (s : State) (c : Nat) (m : Word) : State :=
  let off := Reg.ctxAttn c
  let s := s.setReg off (s.reg off &&& ~~~(m &&& 7))
  if bit m 0 then (s.setFld off 63 48 0).updCtx c fun x => { x with modFrom := none } else s

/-- MOD_TIMER (R331): mod_us after held left 0 the completion bit is set. -/
def modTimerS (c : Nat) (s : State) : State :=
  let us := s.fld (Reg.ctxIrq c) 47 32
  match (s.ctx c).modFrom with
  | some t =>
    if us != 0 && decide (t + us * usT ≤ s.up) && s.fld (Reg.ctxAttn c) 63 48 != 0 then
      (s.setBitsIn (Reg.ctxAttn c) 1).updCtx c fun x => { x with modFrom := none }
    else s
  | none => s

def execModTimer (ctx : Nat) (s : State) : Host.Outcome State Fault Refusal := .next (modTimerS ctx s)

/-- LINK_RATE_TOKEN (R329): a microsecond's tokens, when a microsecond has passed since the last, and the request flits that waited for
them. -/
def linkRateTokenS (c : Nat) (s : State) : State :=
  if s.up < (s.ctx c).tokenAt + usT then s
  else
    (s.updCtx c fun x =>
      { x with tokens := min (max 1 (s.fld (Reg.ctxQos c) 15 8)) (x.tokens + s.fld (Reg.ctxQos c) 7 0), tokenAt := s.up }).pumpBarrows

def execLinkRateToken (ctx : Nat) (s : State) : Host.Outcome State Fault Refusal := .next (linkRateTokenS ctx s)

/-! ## Generations (R358, R359) -/

/-- Is a generation of a slot clean? -/
def State.clean (s : State) (c g : Nat) : Bool :=
  let t := sparseGet 0 (s.ctx c).retired g
  (t == 0 || decide (t + 8000000 ≤ s.up + 1)) && s.reqs.all fun r => !(r.path == .host && r.ctx == c && r.gen == g)

/-- GEN_CLEAN (R359): the current generation of a slot is clean, and its last retirement no longer counts. -/
def genCleanS (c : Nat) (s : State) : State :=
  let g := s.genOf c
  if s.clean c g then s.updCtx c fun x => { x with retired := sparseSet 0 x.retired g 0 } else s

def execGenClean (ctx : Nat) (s : State) : Host.Outcome State Fault Refusal := .next (genCleanS ctx s)

/-! ## The Awning (R355, R357) -/

/-- Engines that acknowledge the Awning: those of R258, and the tiles of the lease (32 + t). -/
def State.awningEngines (s : State) (tiles : List Nat) : List Nat := maskBits 32 (engineMask s.straps) ++ tiles.map (32 + ·)

/-- A context's work leaves every unit, without records or exceptions (R155 step 2, R212, R226, R257, R263). -/
def State.purge (s : State) (c : Nat) : State :=
  let os := s.ops.filter fun o => o.ctx == c
  let s := os.foldl (fun s o => match o.st, o.unit with
    | .running, .tile t => if iCls o.iw == 9 then s.landPrefix t o else s
    | _, _ => s) s
  let ids := os.map fun o => o.id
  let s : State := { s with
    ops := s.ops.filter fun o => o.ctx != c
    lanes := s.lanes.map fun l =>
      let l := { l with waiting := if l.ctx == c && l.st == .idle then [] else l.waiting }
      if l.st != .idle && l.ctx == c then { l with st := .idle, wait := 0, waitArg := 0, waiting := [], stopped := false, loops := [], served := [] } else l
    barGroups := s.barGroups.map fun g => { g with ops := g.ops.filter fun o => !ids.contains o }
    barrows := s.barrows.map fun b => { st := if b.q.any fun q => q.ctx == c then .purging else b.st, q := b.q.filter fun q => q.ctx != c }
    tlb := s.tlb.filter fun e => e.ctx != c
    xreqs := s.xreqs.filter fun x => !(x.ctx == c && (x.walk || x.held))
    pageReqs := s.pageReqs.filter fun p => !(p.ctx == c && p.waiting)
    clusters := s.clusters.map fun k => { k with icache := k.icache.filter fun l => l.ctx != c } }
  let s := s.updCtx c fun x => { x with
    launches := [], marks := [], kept := [], abortT := none, abortK := none, semWaits := [], cq := .idle, paid := [],
    reserved := (maskBits 4 (s.fld (Reg.ctxUndelStatus c) 3 0)).length,
    rings := x.rings.map fun g => { g with head := g.decided, pending := false, scanning := g.decided != g.tail, recs := [], used := 0, held := false,
                                           served := [], failed := none } }
  s.takeWalkers 8

/-- The cluster ranges of a lease that are not empty: cluster, first MiB and MiB. -/
def State.leaseRanges (s : State) (c : Nat) : List (Nat × Nat × Nat) :=
  ((s.leaseClusters c).map fun k => (k, (s.clusterRange c k).1 / 0x100000, (s.clusterRange c k).2 / 0x100000)).filter fun z => z.2.2 != 0

/-- The Armature of a tile discards its row quads and clears (R58); a tile that rests clears after its next wake (R393). R68 gives no end
for a gap that the lease or the context's reset cuts off: it ends then, with the filler row quads it has taken (DESIGN CHOICE, log entry
16). -/
def State.awningTile (s : State) (t : Nat) : State :=
  (s.settleGap t).updTile t fun x =>
    let x := { x with flights := [], gap := none, chain := none, chainIssued := none, shadow := none }
    if x.rest != .awake then { x with clearOnWake := true } else { x with clearArr := some (s.cyc + 1100) }

/-- The context's job slot becomes RETIRED (R277). -/
def State.retireSlot (s : State) (c : Nat) : State :=
  match s.slotOfCtx c with
  | some j => ((s.setFld (Reg.fabJobStatus j) 9 8 2).fabEvent (2 ^ 11)).redecide
  | none => s

/-- An abort request that is PENDING is dropped, and its result reads NONE (R361). -/
def State.dropAbort (s : State) (off : Nat) : State := if s.fld off 2 0 == 1 then s.setFld off 2 0 0 else s

/-- A context reset begins with a cause of R354; one already under way goes on. -/
def State.beginReset (s : State) (c cause : Nat) (destroy command : Bool) : State :=
  let x := s.ctx c
  if x.rst.isSome || x.st == .free then s
  else
    let rep := resetReport c x.gen cause
    let ws := rep.words (s.fld Reg.errLogWritten 31 0) s.bell.now
    let s := s.record rep
    let (cap, s) := if s.flag Reg.errSampleEn c then s.capture c else ([], s)
    let tiles := s.leaseTiles c
    let s := s.updCtx c fun x => { x with
      gen := (x.gen + 1) % 256
      retired := sparseSet 0 x.retired x.gen (s.up + 1)
      st := if destroy then .teardown else x.st
      rst := some { cause := cause, destroy := destroy, command := command, oldGen := x.gen, began := s.bell.now, acks := [], phase := 0,
                    capture := cap, tiles := tiles, ranges := s.leaseRanges c, words := ws }
      modFrom := none }
    let s := if cause == 4 && s.ganged && s.gangM == 0 then s.tell c .reset ((List.range s.gangN).drop 1) else s
    let s := (s.retireSlot c).purge c
    let s := tiles.foldl (fun s t => s.awningTile t) s
    let s := (s.dropAbort (Reg.ctxAbortStatus c)).dropAbort (Reg.ctxKabortStatus c)
    let s := s.setReg (Reg.ctxAttn c) (s.reg (Reg.ctxAttn c) &&& word (maskNat 15 8 + 2))
    s.pumpBarrows

/-- DISPATCH (R196, R198, R291): this block's Crier dispatches, or, on a member of a gang, what the lead tells it. -/
def execDispatch (d : DispatchOf) (s : State) : Host.Outcome State Fault Refusal :=
  match d.gang with
  | none => .next (dispatchS d.ctx s)
  | some (.launch g) => .next (s.memberLaunch d.ctx g)
  | some (.stop seq) => .next (if s.gangM == 0 then s else s.stopLaunch d.ctx seq)
  | some .reset => .next (if s.gangM == 0 then s else s.beginReset d.ctx 4 false false)

/-- A member of the gang has reset alone: at the lead, a gang context that leases tiles there is reset with cause GANG_MEMBER (R292). -/
def memberLostS (c : Nat) (s : State) : State :=
  if !s.live || !s.ganged || s.gangM != 0 then s else s.beginReset c 4 false false

/-- EXCEPTION_REPORT (R156, R203, R292): a launch of this block; or at the lead of a gang, an exception on a member, or the loss of the member. -/
def execExceptionReport (ctx : Nat) (r : ExcOf) (s : State) : Host.Outcome State Fault Refusal :=
  match r.member with
  | none => .next (exceptionReportS ctx r.seq s)
  | some (m, some e) => .next (s.memberExc ctx r.seq m e)
  | some (_, none) => .next (memberLostS ctx s)

/-- Zeroing begins (R115): scratch, tables and books of the tiles that are awake, and the cluster ranges; semaphores are 0. DESTROY ends the
lease and empties the undelivered slots (R360). -/
def State.beginZero (s : State) (c : Nat) (r : CtxReset) : State :=
  let s := r.tiles.foldl (fun s t => s.updTile t fun x => if x.rest != .awake then { x with clearOnWake := true } else { x with clearScr := some (s.cyc + 2048) }) s
  let s := r.ranges.foldl (fun s z => s.updCluster z.1 fun x => { x with zeroing := x.zeroing ++ [(z.2.1, z.2.2, s.cyc + 256 * z.2.2)] }) s
  let s := s.updCtx c fun x => { x with sems := List.replicate 64 0, rst := x.rst.map fun r => { r with phase := 2 } }
  if r.destroy then
    let s := r.tiles.foldl (fun s t => s.updTile t Tile.endLease) s
    (((s.setReg (Reg.ctxLease c) 0).setReg (Reg.ctxLeaseCs c) 0).clearRegs (Reg.ctxUndel c 0 0) 128).setReg (Reg.ctxUndelStatus c) 0
  else s

/-- A barrow holds no work of the context any more: it goes on with what else it has. -/
def State.purged (s : State) (b : Nat) : State :=
  s.updBarrow b fun x => if x.st == .purging then { x with st := if x.q.any fun q => q.running then .moving else .idle } else x

/-- AWNING_ACK (R355 step 3): an engine acknowledges once it holds no work of the context; with the last, the sample or the zeroing begins. -/
def awningAckS (c e : Nat) (s : State) : State :=
  match (s.ctx c).rst with
  | some r =>
    let all := s.awningEngines r.tiles
    if r.phase != 0 || !all.contains e || r.acks.contains e then s
    else
      let acks := r.acks ++ [e]
      let s := if e < 24 then s.purged e else s
      if acks.length < all.length then s.updCtx c fun x => { x with rst := some { r with acks := acks } }
      else if s.flag Reg.errSampleEn c then s.updCtx c fun x => { x with rst := some { r with acks := acks, phase := 1 } }
      else (s.updCtx c fun x => { x with rst := some { r with acks := acks } }).beginZero c r
  | none => s

def execAwningAck (ctx engine : Nat) (s : State) : Host.Outcome State Fault Refusal := .next (awningAckS ctx engine s)

/-- SAMPLE_DONE (R362, R363): the dump slot is written, and zeroing begins. -/
def sampleDoneS (c : Nat) (s : State) : State :=
  match (s.ctx c).rst with
  | some r => if r.phase == 1 then (s.writeDump c r r.words true none).beginZero c r else s
  | none => s

def execSampleDone (ctx : Nat) (s : State) : Host.Outcome State Fault Refusal := .next (sampleDoneS ctx s)

/-- SAMPLE_TIMEOUT (R364): after 50 us the Inspector stops wherever it stands, a free length, and marks the slot incomplete. -/
def sampleTimeoutS (c : Nat) (s : State) : State :=
  match (s.ctx c).rst with
  | some r =>
    if r.phase == 1 && decide (r.began + 50 * usT ≤ s.bell.now) then
      (let (v, s) := s.draw
       (s.writeDump c r r.words false (some v)).beginZero c r)
    else s
  | none => s

def execSampleTimeout (ctx : Nat) (s : State) : Host.Outcome State Fault Refusal := .next (sampleTimeoutS ctx s)

/-- Are the areas of the lease clear and zero? A tile that rests is cleared after its wake (R393). -/
def State.zeroed (s : State) (r : CtxReset) : Bool :=
  (r.tiles.all fun t => let x := s.tile t; x.clearOnWake || (x.clearArr.isNone && x.clearScr.isNone)) &&
    r.ranges.all fun z => (s.cluster z.1).zeroing.all fun y => !(y.1 == z.2.1 && y.2.1 == z.2.2)

/-- CTX_CMD_STATUS of a command (R321, R340): 1 PENDING, 2 DONE, 3 REFUSED; completions and refusals set CTX_MGMT.cmd_done. -/
def State.cmdResult (s : State) (c op result cause : Nat) : State :=
  let s := s.setReg Reg.ctxCmdStatus (word (fields [(16, cause), (8, c), (4, op), (0, result)]))
  if result == 1 then s else s.mgmt 7

/-- CONTEXT_RESET_COMPLETE (R355 step 6, R360, R333). -/
def contextResetCompleteS (c : Nat) (s : State) : State :=
  match (s.ctx c).rst with
  | some r =>
    if r.phase != 2 || !s.zeroed r || !s.clean c (s.genOf c) then s
    else
      let s := s.updCtx c fun x => { x with rst := none, st := if r.destroy then .free else .stopped }
      let s := if r.destroy then s.setReg (Reg.ctxAttn c) 0 else s.errAttn c 4
      if r.command then s.cmdResult c (if r.destroy then 5 else 4) 2 0 else s
  | none => s

def execContextResetComplete (ctx : Nat) (s : State) : Host.Outcome State Fault Refusal := .next (contextResetCompleteS ctx s)

/-! ## Commands (R317 to R321) -/

/-- Is a commit group that stages CTX_ fields of the slot not yet APPLIED or ABORTED (R38)? -/
def State.groupPending (s : State) (c : Nat) : Bool :=
  s.groups.any fun g => (g.st == .opened || g.st == .armed || g.st == .bound) &&
    g.staged.any fun w => decide (0x100000 + 0x1000 * c ≤ w.off) && decide (w.off < 0x101000 + 0x1000 * c)

/-- CREATE (R318): the lease is empty, whatever a group has applied to the slot while it was FREE. -/
def State.create (s : State) (c : Nat) : State :=
  if (s.ctx c).st != .free then s.cmdResult c 1 3 1
  else if s.groupPending c then s.cmdResult c 1 3 2
  else if !s.clean c (s.genOf c) then s.cmdResult c 1 3 5
  else
    let s := (s.clearRegs (0x100000 + 0x1000 * c) 0x1000).clearRegs (0x200000 + 0x1000 * c) 0x1000
    let s : State := { s with latches := sparseClear (sparseClear s.latches (0x100000 + 0x1000 * c) 0x1000) (0x200000 + 0x1000 * c) 0x1000 }
    let s := (s.leaseTiles c).foldl (fun s t => s.updTile t Tile.endLease) s
    (s.updCtx c fun x => { Ctx.initial with st := .stopped, gen := x.gen, retired := x.retired }).cmdResult c 1 2 0

/-- RESUME (R319). -/
def State.resume (s : State) (c : Nat) : State :=
  let st := (s.ctx c).st
  if (st != .stopped && st != .faulted) || (s.ctx c).rst.isSome then s.cmdResult c 2 3 1
  else if s.fld (Reg.ctxUndelStatus c) 3 0 != 0 then s.cmdResult c 2 3 3
  else if (s.leaseTiles c).isEmpty then s.cmdResult c 2 3 4
  else if s.groupPending c then s.cmdResult c 2 3 2
  else (s.updCtx c fun x => { x with st := .active }).cmdResult c 2 2 0

/-- STOP (R317). -/
def State.stop (s : State) (c : Nat) : State :=
  if (s.ctx c).st != .active || (s.ctx c).rst.isSome then s.cmdResult c 3 3 1
  else (s.updCtx c fun x => { x with st := .stopped }).cmdResult c 3 2 0

/-- RESET and DESTROY (R317, R355, R360). -/
def State.resetCmd (s : State) (c : Nat) (destroy : Bool) : State :=
  let op := if destroy then 5 else 4
  let st := (s.ctx c).st
  if (st != .active && st != .stopped && st != .faulted) || (s.ctx c).rst.isSome then s.cmdResult c op 3 1
  else (s.cmdResult c op 1 0).beginReset c (if destroy then 2 else 1) destroy true

/-- The effect of a write to CTX_CMD (R321, R340). -/
def State.wrCmd (s : State) (v : Word) : State :=
  let c := bits v 13 8
  let op := bits v 2 0
  if s.straps.contexts ≤ c || op == 0 || 5 < op || s.fld Reg.ctxCmdStatus 1 0 == 1 then s.regError Reg.ctxCmd
  else
    match op with
    | 1 => s.create c
    | 2 => s.resume c
    | 3 => s.stop c
    | 4 => s.resetCmd c false
    | _ => s.resetCmd c true

end Sys2Proof.Machine
end

