-- ==== Sys2Proof/Machine/Power.lean ====
section
/-!
DEFINITION. Power, droop and thermal control: regulators and alerts (R377, R378, R385), the voltage and clock of a transition (R375, R376),
droop (R379, R380), the cap (R381, R382), temperature (R383, R384), the Ledger's window (R389, R390), Rest (R391 to R393), and the effects
of the PWR_ registers that are written directly (R396).
-/
namespace Sys2Proof.Machine

open Sys2Proof

/-! ## The clock switch (R375, R376, R394) -/

/-- The clock switches to a target now, unless it rises while the clock is stretched: then it waits for the stretch to end (R394). -/
def State.switchTo (s : State) (target : Nat) : State :=
  let t : Transition := ⟨target, 2, s.up, none⟩
  let s := s.updPower fun p => { p with trans := some t }
  if s.power.stretch.isSome && decide (target < s.power.clk) then s else s.switchClock

/-- VOLTAGE_SETTLED (R375): the raised voltage has arrived, or 25 us have passed; the PLL's lock is awaited. -/
def voltageSettledS (s : State) : State :=
  match s.power.trans with
  | some t => if s.live && t.stage == 0 then s.updPower fun p => { p with trans := some { t with stage := 1 } } else s
  | none => s

def execVoltageSettled (s : State) : Host.Outcome State Fault Refusal := .next (voltageSettledS s)

/-- PLL_LOCKED (R375): the clock switches; a group's transition waits for its tick (R376), a raise under a stretch for its end (R394). -/
def pllLockedS (s : State) : State :=
  match s.power.trans with
  | some t =>
    if !s.live || t.stage != 1 then s
    else if t.atTick.isSome then s.updPower fun p => { p with trans := some { t with stage := 2 } }
    else s.switchTo t.target
  | none => s

def execPllLocked (s : State) : Host.Outcome State Fault Refusal := .next (pllLockedS s)

/-! ## Droop (R379, R380) -/

/-- Is a reading of `mv` below the warning level: warn_pct % below the voltage of run? -/
def State.belowWarn (s : State) (mv : Nat) : Bool :=
  decide (100 * mv < 10 * oppVolt s.power.run * (100 - s.fld Reg.pwrDroopX 7 0))

/-- Is a reading of `mv` not above the return level: the warning level and hyst_pct % of the voltage of run (R379)? -/
def State.belowReturn (s : State) (mv : Nat) : Bool :=
  decide (100 * mv ≤ 10 * oppVolt s.power.run * (100 + s.fld Reg.pwrDroopX 15 8 - s.fld Reg.pwrDroopX 7 0))

/-- A detector reads below the warning level: the clock is stretched and new passes are held. -/
def State.droop (s : State) (tile mv : Nat) : State :=
  match s.power.stretch with
  | none => s.updPower fun p => { p with stretch := some ⟨s.bell.now, s.up, tile, mv, s.up⟩ }
  | some x => s.updPower fun p => { p with stretch := some { x with minMv := min x.minMv mv, lastLow := s.up } }

/-- DROOP_WARNING (R379): a reading below the warning level, or, during a stretch, one that has not come above the return level. The detector of a
tile in Rest is not read (R391). -/
def droopWarningS (tile mv : Nat) (s : State) : State :=
  if s.live && decide (tile < s.straps.tiles) && (s.tile tile).rest == .awake &&
      (s.belowWarn mv || (s.power.stretch.isSome && s.belowReturn mv)) then s.droop tile mv else s

def execDroopWarning (tile mv : Nat) (s : State) : Host.Outcome State Fault Refusal := .next (droopWarningS tile mv s)

/-- DROOP_RELEASE (R379, R380): settle_ns after the last low reading at the earliest; the stretch is counted and logged. -/
def droopReleaseS (s : State) : State :=
  match s.power.stretch with
  | some x =>
    if !s.live || decide (s.up < x.lastLow + 4 * s.fld Reg.pwrDroopX 31 16) then s
    else
      let i := s.fld Reg.pwrDroopCnt 63 0 % 32
      let s := ((s.incWrap Reg.pwrDroopCnt 63 0 1).pwrEvent 1).setReg (Reg.pwrDlogT i) (word x.startTick)
      let s := s.setReg (Reg.pwrDlogD i) (word (fields [(32, sat 32 ((s.up - x.startUp) / 4)), (24, x.tile % 256), (0, x.minMv % 2 ^ 16)]))
      let s := s.updPower fun p => { p with stretch := none }
      match s.power.trans with
      | some t => if t.stage == 2 && t.atTick.isNone then s.switchClock else s
      | none => s
  | none => s

def execDroopRelease (s : State) : Host.Outcome State Fault Refusal := .next (droopReleaseS s)

/-! ## Regulators (R377, R378) -/

/-- Is a rail in use: role not 0? -/
def State.railUsed (s : State) (r : Nat) : Bool := decide (r < 4) && s.fld (Reg.pwrRailCfg r) 9 8 != 0
def State.railMeasured (s : State) (r : Nat) : Bool := s.railUsed r && s.flag (Reg.pwrRailCfg r) 10

/-- PMBUS_POLL (R377): the four readings of a rail; a second failed error check keeps the last. A measured rail's power counts for the
millisecond it was read in (R378, R389): 0.1 W over 1 ms is 10^8 pJ. -/
def pmbusPollS (rail : Nat) (r : RailRead) (s : State) : State :=
  if !s.live || !s.railUsed rail then s
  else
    let s :=
      if r.ok then
        s.setReg (Reg.pwrRailRead rail) (word (fields [(48, r.vout % 2 ^ 16), (32, r.iout % 2 ^ 16), (24, r.temp % 256),
          (16, s.fld (Reg.pwrRailRead rail) 23 16), (0, r.pout % 2 ^ 16)]))
      else s.pwrEvent (2 ^ 8)
    if s.railMeasured rail then
      s.updPower fun p => { p with winMeas := p.winMeas + 100000000 * (s.fld (Reg.pwrRailRead rail) 15 0 : Rat) }
    else s

def execPmbusPoll (rail : Nat) (r : RailRead) (s : State) : Host.Outcome State Fault Refusal := .next (pmbusPollS rail r s)

/-- Measured power in mW, when some rail is measured (R378). -/
def State.measuredMw (s : State) : Option Rat :=
  let rs := [0, 1, 2, 3].filter s.railMeasured
  if rs.isEmpty then none else some ((rs.map fun r => 100 * (s.fld (Reg.pwrRailRead r) 15 0 : Rat)).sum)

/-! ## The cap (R381, R382) -/

/-- Power in mW of event classes over the control period: pJ over ns. -/
def State.classMw (s : State) (ks : List Nat) : Rat :=
  let ns : Rat := ((max 4 (s.up - s.power.msUp) : Nat) : Rat) / 4
  (ks.map fun k => (s.fld (Reg.pwrCoef k) 31 0 : Rat) * ((nth s.power.msEvents k : Nat) : Rat) / 6400).sum / ns

/-- The activity estimate by part, in mW: compute dynamic, compute static, memory, links, always-on. -/
def State.partsMw (s : State) : List Rat :=
  let tiles := (((List.range s.straps.tiles).map s.tileLeak)).sum
  [ s.classMw (List.range 10),
    tiles + (s.clustersOn : Rat) * s.leakMw 17 true + s.leakMw 18 true,
    s.classMw [10] + (s.quadsOn : Rat) * s.leakMw 19 false,
    s.classMw [11, 12] + (s.linkGroupsOn : Rat) * s.leakMw 20 false,
    (s.fld (Reg.pwrCoef 21) 31 0 : Rat) ]

/-- Predicted compute power at an operating point (R381). -/
def predictMw (d st : Rat) (clk x : Nat) : Rat :=
  let f := (oppFreq x : Rat) / (oppFreq clk : Rat)
  let v := (oppVolt x : Rat) / (oppVolt clk : Rat)
  d * f * v * v + st * v

/-- Budgets of compute, memory and links (R381): shares of the cap less the fixed part; what a part left unused is lent to the parts that
exceeded theirs, compute first. -/
def budgetsMw (cap fixed c m l : Nat) (pc pm pl : Rat) : Rat × Rat × Rat :=
  let b : Rat := 100 * ((cap - fixed : Nat) : Rat)
  let share := fun (n : Nat) => b * (n : Rat) / 100
  let left := fun (n : Nat) (p : Rat) => max 0 (share n - p)
  let pool := left c pc + left m pm + left l pl
  let bc := min pool (max 0 (pc - share c))
  let bm := min (pool - bc) (max 0 (pm - share m))
  let bl := min (pool - bc - bm) (max 0 (pl - share l))
  (share c + bc, share m + bm, share l + bl)

/-- PWR_THRT (R386, R396): one more millisecond under each ceiling that holds run above req. -/
def State.countThrottle (s : State) : State :=
  let p := s.power
  let q := s.oppReq
  let one := fun (s : State) (hi lo c : Nat) => if q < c then s.incSat Reg.pwrThrt hi lo 1 else s
  one (one (one (one s 15 0 p.capCeil) 31 16 p.thermCeil) 47 32 p.alertCeil) 63 48 s.paceOpp

/-- Events of `pj` pJ each that a power of `mw` mW allows per microsecond; one at least (DESIGN CHOICE, log entry 33). -/
def perUs (mw : Rat) (pj : Nat) : Nat := max 1 (1000 * mw / (max 1 pj : Nat)).floor.toNat

/-- CAP_CONTROL (R381): the control period. A memory or link part over its budget is held to what the budget allows: lines of each quad that is on,
in equal parts, and request flits (DESIGN CHOICE, log entry 33). When the measured power exceeds the estimate, every part is scaled to it (DEDUCED, log entry
33). -/
def capControlS (s : State) : State :=
  if !s.live then s
  else
    let s := s.settleGaps (List.range s.straps.tiles)
    let s := s.updPower fun p => { p with cap := s.fld Reg.pwrCap 15 0 }
    let est := s.partsMw
    let total := est.sum
    let k : Rat := match s.measuredMw with
      | some m => if total < m ∧ 0 < total then m / total else 1
      | none => 1
    let part := fun i => k * nth est i
    let (d, st, pm, pl) := (part 0, part 1, part 2, part 3)
    let f := s.fld Reg.pwrPolicyX
    let (bc, bm, bl) := budgetsMw s.power.cap (f 63 48) (f 23 16) (f 15 8) (f 7 0) (d + st) pm pl
    let p := s.power
    let fits := decide (0 < p.capCeil ∧ 20 * predictMw d st p.clk (p.capCeil - 1) ≤ 19 * bc)
    let up := decide (bc < d + st ∧ bc < predictMw d st p.clk p.capCeil ∧ p.capCeil < 5)
    let n := if fits && !up then p.fitted + 1 else 0
    let s := s.countThrottle
    (s.updPower fun p => { p with
      capCeil := if up then p.capCeil + 1 else if n == 10 then p.capCeil - 1 else p.capCeil
      fitted := n % 10
      memThr := decide (bm < pm)
      linkThr := decide (bl < pl)
      memRate := perUs (bm / k - (s.quadsOn : Rat) * s.leakMw 19 false) ((s.coef 10) * max 1 s.quadsOn)
      linkRate := perUs (bl / k - (s.linkGroupsOn : Rat) * s.leakMw 20 false) (s.coef 11)
      msEvents := List.replicate 13 0
      msUp := s.up }).redecide

def execCapControl (s : State) : Host.Outcome State Fault Refusal := .next (capControlS s)

/-- PWR_CAP written (R382): outside 10 % to 100 % of the build's peak it is discarded and logged; it acts from the next control period. -/
def State.wrCap (s : State) (new : Word) : State :=
  let c := bits new 15 0
  if 10 * c < s.straps.peakPower || s.straps.peakPower < c then s.regError Reg.pwrCap else s.setReg Reg.pwrCap new

/-! ## Temperature (R383, R384) -/

/-- A sensor's reading taken, or the sensor excluded (R383); true when it was excluded. -/
def Tile.sense (x : Tile) (j : Nat) (v : Int) : Tile × Bool :=
  let bad := decide (v < -640) || decide (2400 < v)
  ({ x with temps := put x.temps j (if bad then none else some v)
            winTemp := if bad then x.winTemp else (x.winTemp.1 + v, x.winTemp.2 + 1) }, bad)

/-- The readings of the tiles that are not in Rest, in the order of the sensors: 3 × tile + index. -/
def State.senseAll (s : State) : Nat → List Int → State
  | _, [] => s
  | i, v :: r =>
    let t := i / 3
    if s.straps.tiles ≤ t || (s.tile t).rest != .awake then s.senseAll (i + 1) r
    else
      let (x, bad) := (s.tile t).sense (i % 3) v
      let s := s.updTile t fun _ => x
      (if bad then s.pwrEvent (2 ^ 6) else s).senseAll (i + 1) r

/-- Readings that count, with their sensors: a tile with all three excluded counts as at throttle_c (R383). -/
def State.sensors (s : State) : List (Nat × Int) :=
  let th : Int := 16 * (s.fld Reg.pwrTherm 15 8 : Int)
  ((List.range s.straps.tiles).map fun t =>
    let x := s.tile t
    if x.rest != .awake then []
    else if x.temps.all (·.isNone) then [(3 * t, th)]
    else ((List.range 3).filterMap fun j => (nth x.temps j).map fun v => (3 * t + j, v))).flatten

/-- The hottest reading (R383). -/
def hottestOf : List (Nat × Int) → Option (Nat × Int)
  | [] => none
  | p :: r => some (r.foldl (fun (m q : Nat × Int) => if m.2 < q.2 then q else m) p)

/-- The hottest reading as PWR_TEMP holds it, in 1/16 degree. -/
def State.hottest (s : State) : Int := signed 16 (s.fld Reg.pwrTemp 15 0)

/-- The thermal ceiling moved, with PWR_EVENT.throttle when it leaves OPP0 (R396). -/
def State.setTherm (s : State) (c : Nat) : State :=
  let s := if s.power.thermCeil == 0 && c != 0 then s.pwrEvent 2 else s
  (s.updPower fun p => { p with thermCeil := c }).redecide

/-- Shutdown request (R384): asserted at shutdown_c, released 10 degrees below it. -/
def State.shutdownCheck (s : State) : State :=
  let lv : Int := 16 * (s.fld Reg.pwrTherm 23 16 : Int)
  if lv ≤ s.hottest then
    let s := if s.power.shutdown then s else s.pwrEvent 4
    (s.updPower fun p => { p with shutdown := true }).setTherm 5
  else if s.hottest < lv - 160 then s.updPower fun p => { p with shutdown := false }
  else s

/-- TEMP_SAMPLE (R383, R384). -/
def tempSampleS (readings : List Int) (s : State) : State :=
  if !s.live then s
  else
    let s := s.senseAll 0 readings
    match hottestOf s.sensors with
    | some (i, v) =>
      let back : Int := 16 * (s.fld Reg.pwrTherm 15 8 : Int) - 16 * (s.fld Reg.pwrTherm 7 0 : Int)
      let s := if v < back then s else s.updPower fun p => { p with coolMs := 0 }
      (s.setReg Reg.pwrTemp (word (fields [(48, i % 64), (0, (v % 65536).toNat)]))).shutdownCheck
    | none => s

def execTempSample (readings : List Int) (s : State) : Host.Outcome State Fault Refusal := .next (tempSampleS readings s)

/-- THERMAL_CEILING_STEP (R384), once a millisecond. -/
def thermalCeilingStepS (s : State) : State :=
  if !s.live then s
  else
    let th : Int := 16 * (s.fld Reg.pwrTherm 15 8 : Int)
    let back : Int := th - 16 * (s.fld Reg.pwrTherm 7 0 : Int)
    let p := s.power
    if th ≤ s.hottest then (s.updPower fun p => { p with coolMs := 0 }).setTherm (min 5 (p.thermCeil + 1))
    else if s.hottest < back then
      if p.coolMs + 1 == 10 then (s.updPower fun p => { p with coolMs := 0 }).setTherm (p.thermCeil - 1)
      else s.updPower fun p => { p with coolMs := p.coolMs + 1 }
    else s.updPower fun p => { p with coolMs := 0 }

def execThermalCeilingStep (s : State) : Host.Outcome State Fault Refusal := .next (thermalCeilingStepS s)

/-- PWR_THERM written (R384): a write that would raise a level above its reset value is discarded and logged. -/
def State.wrTherm (s : State) (new : Word) : State :=
  if 115 < bits new 23 16 || 100 < bits new 15 8 then s.regError Reg.pwrTherm else s.setReg Reg.pwrTherm new

/-! ## Alerts (R385) -/

/-- One alert assertion: one OPP slower than run, and STATUS_WORD of every rail to be read. -/
def State.alertHit (s : State) : State :=
  (s.updPower fun p => { p with alertCeil := min 5 (p.run + 1), alertFreeMs := 0, statusDue := true }).redecide

/-- ALERT_ASSERT. -/
def alertAssertS (s : State) : State :=
  if !s.live || s.pins.alertIn then s else (s.updPins fun p => { p with alertIn := true }).alertHit

def execAlertAssert (s : State) : Host.Outcome State Fault Refusal := .next (alertAssertS s)

/-- One rail's STATUS_WORD: its low byte kept, an output fault noted, CLEAR_FAULTS sent where it reports anything (log entry 34). -/
def State.readStatus (s : State) (words : List Nat) : List Nat → State
  | [] => s
  | r :: rs =>
    if !s.railUsed r then s.readStatus words rs
    else
      let w := (words[r]?).getD 0 % 2 ^ 16
      let s := s.setFld (Reg.pwrRailRead r) 23 16 (w % 256)
      let s := if maskHas w 5 || maskHas w 4 then s.pwrEvent (2 ^ 7) else s
      (if w != 0 then s.emit (.pmbus r 0x03 0) else s).readStatus words rs

/-- ALERT_STATUS_READ: within 100 us of an assertion. -/
def alertStatusReadS (words : List Nat) (s : State) : State :=
  if !s.live || !s.power.statusDue then s
  else ((s.readStatus words [0, 1, 2, 3]).pwrEvent (2 ^ 3)).updPower fun p => { p with statusDue := false }

def execAlertStatusRead (words : List Nat) (s : State) : Host.Outcome State Fault Refusal := .next (alertStatusReadS words s)

/-- ALERT_CEILING_STEP, once a millisecond: up while the alert stands, down after each 10 ms of release. -/
def alertCeilingStepS (s : State) : State :=
  if !s.live then s
  else
    let p := s.power
    if s.pins.alertIn then (s.updPower fun p => { p with alertCeil := min 5 (p.alertCeil + 1) }).redecide
    else if p.alertCeil == 0 then s
    else if p.alertFreeMs + 1 == 10 then (s.updPower fun p => { p with alertCeil := p.alertCeil - 1, alertFreeMs := 0 }).redecide
    else s.updPower fun p => { p with alertFreeMs := p.alertFreeMs + 1 }

def execAlertCeilingStep (s : State) : Host.Outcome State Fault Refusal := .next (alertCeilingStepS s)

/-- ALERT_RELEASE: the rise stops and the 10 ms count begins. -/
def alertReleaseS (s : State) : State :=
  if !s.live || !s.pins.alertIn then s
  else (s.updPins fun p => { p with alertIn := false }).updPower fun p => { p with alertFreeMs := 0 }

def execAlertRelease (s : State) : Host.Outcome State Fault Refusal := .next (alertReleaseS s)

/-- PWR_TEST written (R396): force_alert acts as one alert assertion; without it the tile named reads once below the warning level, by an
amount that is free (log entry 35). The register then reads 0. -/
def State.wrPwrTest (s : State) (v : Word) : State :=
  if bit v 4 then s.alertHit
  else
    let t := bits v 3 0
    if s.straps.tiles ≤ t || (s.tile t).rest != .awake then s
    else
      let (x, s) := s.draw
      s.droop t (x % (10 * oppVolt s.power.run * (100 - s.fld Reg.pwrDroopX 7 0) / 100))

/-! ## The Ledger's window (R389, R390) -/

/-- Each launch's energy for the window at the window's scale, and its flag. -/
def State.reconcile (s : State) (scale : Rat) (out : Bool) (es : List (Nat × Nat × Rat)) : State :=
  es.foldl (fun s e => s.updLaunch e.1 e.2.1 fun l =>
    { l with energy := l.energy + scale * e.2.2, unrec := l.unrec || out, events := List.replicate 13 0 }) s

/-- Leakage of the window that no running launch takes, in pJ: all of it when none runs, else that of leased tiles whose context runs none, and of
leases that have ended (log entry 26). -/
def State.idleLeak (s : State) : Rat :=
  let run := s.runningLaunches
  let alone := (List.range 64).filter fun c => run.all fun p => p.1 != c
  (if run.isEmpty then s.sharedLeak else 0) + (alone.map s.ownLeak).sum +
    ((List.range s.straps.tiles).map fun t => s.tilePj t (s.tile t).leakLost).sum

/-- Filler energy of contexts that run no launch, in pJ: it is the lease holder's (R70, R388). -/
def State.fillPj (s : State) (c : Nat) : Rat := (s.coef 2 : Rat) * ((s.ctx c).fillEvents : Rat) / 6400
def State.takeFill (s : State) (scale : Rat) : List Nat → State
  | [] => s
  | c :: r =>
    (if (s.ctx c).fillEvents == 0 then s
     else s.updCtx c fun x => { x with energy := x.energy + scale * s.fillPj c, fillEvents := 0 }).takeFill scale r

/-- µJ of an exact number of pJ. -/
def microJ (x : Rat) : Nat := (x / 1000000).floor.toNat

/-- LEDGER_WINDOW (R389, R390). The idle account takes the scale too, so that what is attributed sums to the measured energy (DEDUCED, log
entry 36). -/
def ledgerWindowS (s : State) : State :=
  if !s.live then s
  else
    let s := s.settleGaps (List.range s.straps.tiles)
    let es := s.runningLaunches.map fun p => (p.1, p.2.seq, s.launchEst p.1 p.2)
    let idle := s.idleLeak
    let est := (es.map fun e => e.2.2).sum + s.power.endedEst + idle + ((List.range 64).map s.fillPj).sum
    let meas := s.measuredMw.isSome
    let m := s.power.winMeas
    let ratio : Rat := if meas ∧ est ≠ 0 then m / est else 1
    let scale : Rat := max (1 / 2) (min 2 ratio)
    let out := decide (ratio < 1 / 2 ∨ 2 < ratio)
    let diff := max (m - est) (est - m)
    let s := (s.reconcile scale out es).takeFill scale (List.range 64)
    let s := if out then s.pwrEvent (2 ^ 4) else s
    let s := if meas && decide (est * (s.fld Reg.pwrPolicyX 39 32 : Rat) < 100 * diff) then s.pwrEvent (2 ^ 5) else s
    let k := fun (x : Rat) => sat 16 (1024 * x).floor.toNat
    let s := s.setReg Reg.pwrLedgerScale (word (fields [(32, if out then 1 else 0), (16, k ratio), (0, k scale)]))
    let s := s.updPower fun p => { p with
      ledgerEst := p.ledgerEst + est
      ledgerMeas := if meas then p.ledgerMeas + m else p.ledgerMeas
      ledgerIdle := p.ledgerIdle + scale * idle
      scale := scale
      winMeas := 0
      endedEst := 0
      windowUp := s.up
      frontMv := 0
      quadT := 0
      linkT := 0
      leakOut := [] }
    let s : State := { s with
      tiles := s.tiles.map fun x => { x with winTemp := (0, 0), leakOwn := 0, leakFree := 0, leakLost := 0 }
      clusters := s.clusters.map fun x => { x with leak := 0 } }
    ((s.setReg Reg.pwrLedgerEst (word (microJ s.power.ledgerEst))).setReg Reg.pwrLedgerMeas (word (microJ s.power.ledgerMeas))).setReg
      Reg.pwrLedgerIdle (word (microJ s.power.ledgerIdle))

def execLedgerWindow (s : State) : Host.Outcome State Fault Refusal := .next (ledgerWindowS s)

/-! ## Rest (R391 to R393) -/

/-- Does an open, armed or bound commit group name a member? -/
def State.groupNames (s : State) (bitNo : Nat) : Bool :=
  s.groups.any fun g => (g.st == .opened || g.st == .armed || g.st == .bound) && maskHas g.members bitNo

/-- Does a lane of cluster `k` hold a launch of a context (any context when none)? -/
def State.laneHolds (s : State) (k : Nat) (c : Option Nat) : Bool :=
  (List.range 4).any fun n =>
    let x := s.lane ⟨k, n⟩
    (x.st != .idle || !x.waiting.isEmpty) && (match c with | some c => x.ctx == c | none => true)

/-- Is a tile asked to rest: by its bit, or under auto while it is unleased; and after how long idle (R391)? -/
def State.tileAsked (s : State) (t : Nat) : Option Nat :=
  if s.flag Reg.pwrRest t then some (10 * usT)
  else if s.flag Reg.pwrRest 32 && (s.tile t).lease.isNone then some msT
  else none

/-- The conditions on which a tile enters Rest (R391). -/
def State.tileMayRest (s : State) (t : Nat) : Bool :=
  let x := s.tile t
  match s.tileAsked t with
  | none => false
  | some d =>
    decide (t < s.straps.tiles) && x.rest == .awake &&
      (match x.lease with | some c => !s.laneHolds (t / 4) (some c) | none => true) &&
      (s.ops.all fun o => o.unit != .tile t) && x.flights.isEmpty && x.clearArr.isNone && x.clearScr.isNone &&
      decide (x.idleSince + d ≤ s.up) && !s.groupNames (16 + t)

/-- The conditions on which a cluster enters Rest (R391). -/
def State.clusterMayRest (s : State) (k : Nat) : Bool :=
  decide (k < s.straps.clusters) && s.flag Reg.pwrRest (16 + k) && (s.cluster k).rest == .awake &&
    ([0, 1, 2, 3].all fun j => (s.tile (4 * k + j)).rest == .resting) && !s.laneHolds k none && (s.cluster k).zeroing.isEmpty &&
    (List.range 6).all fun j => (s.barrow (6 * k + j)).q.isEmpty

/-- Rest of a domain, and the state with it replaced. -/
def State.restOf (s : State) : RestDom → Rest
  | .tile t => (s.tile t).rest
  | .cluster k => (s.cluster k).rest
def State.setRest (s : State) (d : RestDom) (r : Rest) : State :=
  match d with
  | .tile t => s.updTile t fun x => { x with rest := r }
  | .cluster k => s.updCluster k fun x => { x with rest := r }

/-- REST_ENTRY (R391). -/
def restEntryS (dom : RestDom) (s : State) : State :=
  let ok := match dom with
    | .tile t => s.tileMayRest t
    | .cluster k => s.clusterMayRest k
  if s.live && ok then s.setRest dom (.entering s.up false) else s

def execRestEntry (dom : RestDom) (s : State) : Host.Outcome State Fault Refusal := .next (restEntryS dom s)

/-- REST_ENTRY_COMPLETE (R391, R392): a wake that came during the entry follows it. -/
def restEntryCompleteS (dom : RestDom) (s : State) : State :=
  match s.restOf dom with
  | .entering _ w => if s.live then s.setRest dom (if w then .waking s.up else .resting) else s
  | _ => s

def execRestEntryComplete (dom : RestDom) (s : State) : Host.Outcome State Fault Refusal := .next (restEntryCompleteS dom s)

/-- A domain wakes (R392). -/
def State.wakeDom (s : State) (dom : RestDom) : State := s.setRest dom ((s.restOf dom).wake s.up)

/-- A cause of R392 stands for a domain: its request has ended, a launch waits on it, a debug read waits on it, or a block soft reset runs. -/
def State.wakeCause (s : State) (dom : RestDom) : Bool :=
  s.breset.isSome || (s.debugHeld.any fun p => inDom s.straps dom p.2) ||
  match dom with
  | .tile t =>
    (s.tileAsked t).isNone || (match (s.tile t).lease with | some c => s.laneHolds (t / 4) (some c) | none => false)
  | .cluster k => !s.flag Reg.pwrRest (16 + k) || s.laneHolds k none

/-- REST_WAKE (R392). -/
def restWakeS (dom : RestDom) (s : State) : State := if s.live && s.wakeCause dom then s.wakeDom dom else s

def execRestWake (dom : RestDom) (s : State) : Host.Outcome State Fault Refusal := .next (restWakeS dom s)

/-- WAKE_READY (R392, R393): 120 us after the wake began; a tile marked clearing in Rest begins to zero before anything runs there, and the
debug reads that waited complete, or wait for that zeroing (R454). -/
def wakeReadyS (dom : RestDom) (s : State) : State :=
  match s.restOf dom with
  | .waking since =>
    if !s.live || decide (s.up < since + 120 * usT) then s
    else
      let s := s.setRest dom .awake
      match dom with
      | .tile t =>
        if (s.tile t).clearOnWake then
          s.updTile t fun x => { x with clearOnWake := false, clearArr := some (s.cyc + 1100), clearScr := some (s.cyc + 2048), idleSince := s.up }
        else (s.updTile t fun x => { x with idleSince := s.up }).debugAnswer dom
      | .cluster _ => s.debugAnswer dom
  | _ => s

def execWakeReady (dom : RestDom) (s : State) : Host.Outcome State Fault Refusal := .next (wakeReadyS dom s)

/-- The domains whose request has ended wake (R392). -/
def State.wakeUnasked (s : State) : State :=
  let s := (List.range s.straps.tiles).foldl (fun s t => if (s.tileAsked t).isNone then s.wakeDom (.tile t) else s) s
  (List.range s.straps.clusters).foldl (fun s k => if s.flag Reg.pwrRest (16 + k) then s else s.wakeDom (.cluster k)) s

/-- PWR_REST written: a domain whose request bit is cleared wakes (R392). -/
def State.wrRest (s : State) (new : Word) : State := (s.setReg Reg.pwrRest new).wakeUnasked

end Sys2Proof.Machine
end

