-- ==== Sys2Proof/Machine/Faults.lean ====
section
/-!
DEFINITION. What the ERR_ registers do when they are written (R352, R367, R370, R461), the end of a block soft reset (R368, R415), and the
installation of the gang job (R290).
-/
namespace Sys2Proof.Machine

open Sys2Proof

/-! ## Injection (R352, R461) -/

/-- Is the place one that the detector has in this build (R461)? CPL_WRITE and HANG are named by their context instead (R352). -/
def injPlaceOk (t : Straps) (det place ctx param : Nat) : Bool :=
  let tile := decide (place < t.tiles)
  let cl := decide (40 ≤ place ∧ place < 40 + t.clusters)
  let bw := decide (16 ≤ place ∧ place < 16 + t.barrows)
  match det with
  | 0x01 | 0x03 | 0x04 | 0x0E => tile
  | 0x02 | 0x05 => cl
  | 0x06 => cl || (place == 53 && decide (param ≤ 2))
  | 0x09 => place == 54
  | 0x0A | 0x0B | 0x0D => place == 49 && decide (param < t.ports)
  | 0x0C => bw
  | 0x0F | 0x10 => decide (ctx < t.contexts)
  | 0x12 => cl || bw || place == 48 || (place == 49 && t.build != .c1)
  | 0x13 => place == 52
  | 0x14 => place == 55 && param % 8 == 0
  | _ => false

/-- ERR_INJECT written: the point is armed, replacing one that has not fired, or the write is discarded and logged. -/
def State.wrInject (s : State) (v : Word) : State :=
  let (det, place, ctx, kind, param) := (bits v 63 56, bits v 55 50, bits v 49 44, bits v 43 42, bits v 24 0)
  let secded := det == 1 || det == 2
  if !injPlaceOk s.straps det place ctx param || (secded && kind != 1 && kind != 2) then s.regError Reg.errInject
  else { s with inject := some ⟨det, place, ctx, kind, param⟩ }.setReg Reg.errInject (setBits v 41 41 1)

/-! ## The log and the block soft reset (R367, R368, R370, R415) -/

/-- ERR_LOG_CONSUMED written: a value behind the previous one or ahead of written is discarded, without a record. -/
def State.wrLogConsumed (s : State) (v : Nat) : State :=
  let old := s.fld Reg.errLogConsumed 31 0
  let room := since32 (s.fld Reg.errLogWritten 31 0) old
  if since32 v old ≤ room then s.setFld Reg.errLogConsumed 31 0 v else s

/-- ERR_BRESET written. -/
def State.wrBreset (s : State) (v : Word) : State := if bit v 0 then s.beginBlockReset 2 else s

/-! ## The gang (R277, R290) -/

/-- One member's entry in the gang job's map, at map entry `base + b`. -/
def State.putJmap (s : State) (e fabric : Nat) : State :=
  s.setFld (Reg.fabJmap (e / 4)) (16 * (e % 4) + 15) (16 * (e % 4)) (2 ^ 15 + fabric % 2 ^ 12)

/-- An output port for a destination in routing table `p`. -/
def State.putRoute (s : State) (dst port p : Nat) : State :=
  s.setFld (Reg.fabRt p (dst / 8)) (8 * (dst % 8) + 7) (8 * (dst % 8)) (128 + port)

/-- The ring port on the shorter way from member `m` to member `k` of `n`: port 1 leads upwards, port 0 downwards; `tie` decides equal
ways. -/
def ringPort (n m k : Nat) (tie : Bool) : Nat :=
  let up := (k + n - m) % n
  if 2 * up < n then 1 else if n < 2 * up then 0 else if tie then 1 else 0

/-- The gang job's map and, when `routes`, the routes around the ring. The other members' fabric numbers, the place of the map and the way to
a member at equal distance are not stated: they are free (log entry 37). -/
def State.gangEntries (s : State) (n m base : Nat) (routes : Bool) : List Nat → State
  | [] => s
  | k :: r =>
    let (x, s) := s.draw
    let (y, s) := s.draw
    let f := if k == m then s.fld Reg.fabId 11 0 else x % 2 ^ 12
    let s := s.putJmap (base + k) f
    let s := if routes && k != m then (List.range 9).foldl (fun s p => s.putRoute f (ringPort n m k (y % 2 == 1)) p) s else s
    s.gangEntries n m base routes r

/-- The gang job stands in job slot 15: identifier 0xFFFF, N the gang's size, this member as its own job block, LIVE (R277, R290). -/
def State.installGang (s : State) (routes : Bool) : State :=
  if s.straps.gangSize < 2 then s
  else
    let (n, m) := (s.straps.gangSize, s.straps.gangMember)
    let (b, s) := s.draw
    let base := b % (2 ^ 14 - n)
    let s := (s.gangEntries n m base routes (List.range n)).setReg (Reg.fabJobCfg 15) (word (fields [(63, 1), (28, m), (0, 0xFFFF)]))
    (s.setReg (Reg.fabJobMap 15) (word (fields [(32, base), (0, n)]))).setFld (Reg.fabJobStatus 15) 9 8 1

/-- BLOCK_RESET_READY (R368, R415): every context FREE, a new key in slot 0 as CURRENT, the gang job installed again, state READY. -/
def blockResetReadyS (s : State) : State :=
  if s.breset.isNone then s
  else
    let s := (List.range s.straps.contexts).foldl (fun s c => (s.setReg (Reg.ctxAttn c) 0).setReg (Reg.ctxIrq c) 0) s
    let s : State := { s with
      breset := none
      ctxs := s.ctxs.map fun c => { c with st := .free } }
    (s.firstKey.setFld Reg.errBresetStatus 0 0 0).installGang false

def execBlockResetReady (s : State) : Host.Outcome State Fault Refusal := .next (blockResetReadyS s)

end Sys2Proof.Machine
end

