-- ==== Sys2Proof/Machine/Ports.lean ====
section
/-!
DEFINITION. Ports, start-up and test: what holds and releases host-bound requests (R428 to R431), power-on reset (R434), start-up (R435 to
R439) and the test port (R440, R441).
-/
namespace Sys2Proof.Machine

open Sys2Proof

/-! ## Held host-bound requests (R428 to R431) -/

/-- Pieces of segments in flight whose host request waits: (barrow, operation, segment, device virtual address). -/
def State.heldPieces (s : State) : List (Nat × Nat × Nat × Nat) :=
  ((List.range s.straps.barrows).map fun b => ((s.barrow b).q.map fun q => (q.segs.map fun g =>
    (((g.src.filter fun p => !p.sent) ++ g.dst.filter fun p => !p.sent && p.bytes.isSome).filter fun p => match p.pa with
      | some pa => match s.pieceAt q.ctx pa p with | .host _ => true | _ => false
      | none => false).map fun p => (b, q.op, g.k, p.va)).flatten).flatten).flatten

/-- Lanes whose next instruction line leads to host memory and is not outstanding. -/
def State.heldFetches (s : State) : List LaneId :=
  s.allLanes.filter fun l =>
    let x := s.lane l
    if x.st == .idle || x.st == .ending || x.stopped then false
    else match s.fetchLine l with
      | some a =>
        (s.reqs.all fun r => !(r.dest == .fetch l a && !r.dropped)) &&
          (match (s.xlate (cacheOf l) x.ctx x.gen a 1).1 with
           | .ok pa ut => if ut then true else match s.whereIs x.ctx pa with | .host _ => true | _ => false
           | _ => false)
      | none => false

/-- ERR_HOSTPORT.held (log entry 38): pieces, fetches, translation requests, page requests and dump writes that the port holds. -/
def State.heldCount (s : State) : Nat :=
  if s.hostHeld then
    s.heldPieces.length + s.heldFetches.length + (s.xreqs.filter fun x => x.held).length + (s.pageReqs.filter fun p => p.waiting).length +
      s.dumpHeld.length
  else 0

/-- Held requests go out in their order once nothing holds them (R429): dump writes, translation requests, page requests, then the barrows'. -/
def State.releaseHeld (s : State) : State :=
  if s.hostHeld then s
  else
    let s := { s with dumpHeld := [] }.hostWrites s.dumpHeld
    let hs := s.xreqs.filter fun x => x.held
    let s : State := { s with xreqs := s.xreqs.map fun x => { x with held := false } }
    let s := hs.foldl (fun s x => s.sendAts x) s
    (s.sendPages s.pageReqs).pumpBarrows

/-- A read that is discarded while held ends its operation with DATA-ERROR and a HOST_CPL record with arg 3 (R346, R431). -/
def State.cplRecord (s : State) (c seq va : Nat) : State :=
  s.detect { det := 0x09, sev := 1, place := 54, ctx := some (c, s.genOf c), arg := 3, addr := va, addrKind := 1, seq := some seq }

/-- What waits for a discarded translation or page request ends with DATA-ERROR; a completion record waits on. -/
def State.flushWaiter (s : State) (page : Nat) (w : Waiter) : State :=
  match w with
  | .frame b op _ =>
    match s.op? op with
    | some o => (s.cplRecord o.ctx o.seq page).failOp b op xDATAERROR page
    | none => s
  | .fetch l => (s.cplRecord (s.lane l).ctx (s.lane l).seq page).fetchRaise l xDATAERROR page
  | .record c r n => s.recFailed c r n page
  | .cq c => s.updCtx c fun x => { x with cq := if x.cq == .held then .walk else x.cq }

/-- Every held request is discarded (R431). -/
def State.flushHeld (s : State) : State :=
  let ps := s.heldPieces
  let fs := s.heldFetches
  let xs := s.xreqs.filter fun x => x.held
  let gs := s.pageReqs.filter fun p => p.waiting
  let s : State := { s with xreqs := s.xreqs.filter fun x => !x.held, pageReqs := s.pageReqs.filter fun p => !p.waiting, dumpHeld := [] }
  let s := ps.foldl (fun s p => match s.seg? p.1 p.2.1 p.2.2.1, s.op? p.2.1 with
    | some _, some o => (s.cplRecord o.ctx o.seq p.2.2.2).failSeg p.1 p.2.1 p.2.2.1 xDATAERROR p.2.2.2
    | _, _ => s) s
  let s := fs.foldl (fun s l => (s.cplRecord (s.lane l).ctx (s.lane l).seq (s.lane l).pc).fetchRaise l xDATAERROR (s.lane l).pc) s
  let s := xs.foldl (fun s x => (s.waiters (some x.cache) x.ctx x.gen x.page).foldl (fun s w => s.flushWaiter x.page w) s) s
  gs.foldl (fun s p => (s.waiters none p.ctx p.gen p.page).foldl (fun s w => s.flushWaiter p.page w) s) s

/-- The freeze, and the native hold (log entry 31), end. -/
def State.endFreeze (s : State) : State :=
  (s.updPins fun p => { p with frozen := false, fatalHold := false }).setFld Reg.errHostport 39 32 0

/-- ERR_HOSTPORT written (R431, R442): release ends the freeze; flush with it discards what is held. -/
def State.wrHostport (s : State) (v : Word) : State :=
  if !bit v 3 then s
  else
    let s := if bit v 4 then s.flushHeld else s
    s.endFreeze.releaseHeld

/-- BME_CHANGE (R429). -/
def bmeChangeS (on : Bool) (s : State) : State :=
  if !s.live then s else (s.updPins fun p => { p with bme := on }).releaseHeld

def execBmeChange (on : Bool) (s : State) : Host.Outcome State Fault Refusal := .next (bmeChangeS on s)

/-- LINK_DOWN (R428). -/
def linkDownS (s : State) : State :=
  if !s.live then s else (s.updPins fun p => { p with linkDown := true }).holdHost 3

def execLinkDown (s : State) : Host.Outcome State Fault Refusal := .next (linkDownS s)

/-- LINK_DOWN_CLEAR (R428): a freeze stands until its release. -/
def linkDownClearS (s : State) : State :=
  if !s.live then s else (s.updPins fun p => { p with linkDown := false }).releaseHeld

def execLinkDownClear (s : State) : Host.Outcome State Fault Refusal := .next (linkDownClearS s)

/-- ENDPOINT_FATAL (R428). -/
def endpointFatalS (s : State) : State := if !s.live then s else s.holdHost 2

def execEndpointFatal (s : State) : Host.Outcome State Fault Refusal := .next (endpointFatalS s)

/-- FLR (R430, R431): a freeze ends at once with what it holds, the endpoint clears Bus Master Enable, and a block soft reset with cause FLR
begins. -/
def flrS (s : State) : State :=
  if !s.live then s
  else
    let s := if s.pins.frozen then { s with dumpHeld := [] } else s
    let s := s.endFreeze.updPins fun p => { p with bme := false }
    let s := if s.gangM == 0 then (List.range s.gangN).drop 1 |>.foldl (fun s m => s.emit (.gangFlr m)) s else s
    s.beginBlockReset 1

def execFlr (s : State) : Host.Outcome State Fault Refusal := .next (flrS s)

/-! ## Power-on reset and start-up (R434 to R439) -/

/-- Power-on reset with straps `t`: of the state only what is not the block's own stays, the queue of commands, what has been sent, and the
count of free values. -/
def State.repower (s : State) (t : Straps) : State :=
  { State.powerOn t with pending := s.pending, out := s.out, free := s.free }

/-- POWER_ON_RESET (R434). -/
def powerOnResetS (s : State) : State := s.repower s.straps

def execPowerOnReset (s : State) : Host.Outcome State Fault Refusal := .next (powerOnResetS s)

/-- The straps as they are sampled (R435). -/
def sampledStraps (t : StartInputs) (b : Build) : Straps := ⟨b, t.gangSize, t.gangMember, t.c1Channels, t.capDefault, t.freezeMode⟩

/-- Straps that R435 forbids. -/
def badStraps (t : Straps) : Bool :=
  t.gangSize == 1 || decide (8 < t.gangSize) || (decide (2 ≤ t.gangSize) && decide (t.gangSize ≤ t.gangMember)) ||
    (t.gangSize == 0 && t.gangMember != 0)

/-- INS_BOOT with a stage and a failure, and the time since power-good (R442). -/
def State.boot (s : State) (stage fail : Nat) : State :=
  s.setReg Reg.insBoot (word (fields [(48, sat 16 (s.up / msT)), (40, fail), (0, stage)]))

/-- Start-up stops with a failure (R438); register reads answer (R436). -/
def State.bootFail (s : State) (fail : Nat) : State := s.boot 7 fail

/-- faulty_row has four bits; what it shows for the spare row 16 is not stated (R71, log entry 39). -/
def rowField (r : Nat) : Nat := if r < 16 then r else Config.faultyRow r % 16

/-- The word of STH_ARM_REPAIRt for a tile: from a valid record's byte, else from the self-test (R64, R66, R402, R437, log entry 39). -/
def repairWord (record : Option Nat) (rows : List Nat) (other : Bool) : Nat :=
  match record with
  | some b =>
    let dis := maskHas b 7 || other
    let rep := maskHas b 6 && !dis
    fields [(15, if dis then 1 else 0), (14, if rep then 1 else 0), (8, 2), (4, if rep then rowField (b % 32) else 0), (0, if rep then 5 else 6)]
  | none =>
    match rows.eraseDups, other with
    | [], false => 6
    | [r], false => fields [(14, 1), (8, 1), (4, rowField (r % 32)), (0, 5)]
    | _, _ => fields [(15, 1), (8, 1), (0, 6)]

/-- The physical row that the repair map bypasses (R64). -/
def repairRow (record : Option Nat) (rows : List Nat) (other : Bool) : Option Nat :=
  match record with
  | some b => if maskHas b 6 && !(maskHas b 7 || other) then some (b % 32) else none
  | none =>
    match rows.eraseDups, other with
    | [r], false => some (r % 32)
    | _, _ => none

/-- The repair map loaded, and the single-bit scratch errors counted (R437). -/
def State.loadRepair (s : State) (record : Option (List Nat)) (x : SelfTest) : List Nat → State
  | [] => s
  | t :: r =>
    let w := repairWord (record.map fun l => l.getD t 0) (x.rows.getD t []) (x.other.getD t false)
    let s := (s.setReg (Reg.sthArmRepair (t / 4) (t % 4)) (word w)).updTile t fun y =>
      { y with faulty := repairRow (record.map fun l => l.getD t 0) (x.rows.getD t []) (x.other.getD t false) }
    (s.incSat (Reg.sthScrEcc (t / 4) (t % 4)) 31 0 (x.corrected.getD t 0)).loadRepair record x r

/-- Is a tile disabled (R66)? -/
def State.tileDisabled (s : State) (t : Nat) : Bool := s.flag (Reg.sthArmRepair (t / 4) (t % 4)) 15

/-- Channels after training, which begins 20 ms after power-good (R306, R436): READY, or still in TRAINING (log entry 30); one left out of the
mask is EXCLUDED, and not trained (R296). -/
def State.trainAll (s : State) (trained : Nat) : List Nat → State
  | [] => s
  | c :: r =>
    let st := if !maskHas s.memMask c then 3 else if maskHas trained c then 2 else 1
    ((s.updChan c fun x => { x with phy := st, trainStart := if st == 1 then some (20 * msT) else none }).showPhy [c]).trainAll trained r

/-- A gang member's ring ports, link complex and time source as the lead's Inspector sets them (R290, R439). -/
def State.gangUp (s : State) : State :=
  let (n, m) := (s.straps.gangSize, s.straps.gangMember)
  if n < 2 then s
  else
    let s := ((s.setFld (Reg.fabPortCfg 0) 2 0 5).setFld (Reg.fabPortCfg 1) 2 0 5).setFld Reg.fabCtrl 0 0 1
    let s := if m == 0 then s else (s.setFld Reg.bellCtrl 1 0 2).setFld Reg.bellCtrl 11 8 0
    let s := if m + 1 < n then s.setFld Reg.bellCtrl 23 16 2 else s
    s.installGang true

/-- The last stages of start-up, from MEMORY on (R436, R438, R439): READY, but a lead whose gang is not yet ready stays in CONFIGURE. -/
def State.bootEnd (s : State) (t : StartInputs) : State :=
  let s := s.setFld Reg.memMap 17 16 t.chcap
  let s := ((s.setFld Reg.memCtrl 1 1 (if t.rfm then 1 else 0)).trainAll t.trained (List.range s.straps.channels)).memUp
  let s := s.gangUp
  let s := (s.setFld Reg.insStatus 2 0 1).updInsp fun i => { i with st := 1, wdOn := true, watchFrom := s.up, lastCheck := s.up }
  if decide (2 ≤ s.straps.gangSize) && s.straps.gangMember == 0 && !t.gangReady then s.boot 5 0 else s.boot 6 0

/-- The FLASH_RD requests that read an area of the flash (R400, R424), 256 bytes each; their answers are operands. -/
def State.readFlash (s : State) (base kib : Nat) : State :=
  { s with out := s.out ++ (List.range (4 * kib)).map fun i => Out.flashRd (base + 256 * i) 256 }

/-- START_UP (R16, R401 to R403, R435 to R439): the whole sequence, in a free time of at most 120 ms; the station-time counter starts at 0
with it. -/
def startUpS (t : StartInputs) (s : State) : State :=
  if s.pins.pwrGood || s.pins.testMode || s.pins.testHold then s
  else
    let s := s.repower (sampledStraps t s.straps.build)
    let (d, s) := s.draw
    let d := d % (120 * msT + 1)
    let s := (s.updPins fun p => { p with pwrGood := true, regsReady := true }).updBell fun b => { b with now := d }
    let s : State := { s with up := d, bootUp := some 0 }
    let halt := fun (s : State) (fail : Nat) => ((s.setFld Reg.insStatus 2 0 3).updInsp fun i => { i with st := 3 }).bootFail fail
    if badStraps s.straps then s.bootFail 7
    else if !t.romOk then halt s 1
    else
      let s := s.readFlash 0 512
      match t.svnA, t.svnB with
      | none, none => halt s 2
      | a, b =>
        let slotB := match a, b with | some x, some y => decide (x < y) | none, some _ => true | _, _ => false
        let svn := (if slotB then b else a).getD 0 % 2 ^ 32
        let ident := t.seedOk && t.keyOk
        let s := s.readFlash 0x80000 16
        let s := if ident then s.readFlash 0x84000 4 else s
        let s := ((s.setFld Reg.insStatus 47 16 svn).setFld Reg.insStatus 9 8 (if slotB then 2 else 1)).updInsp fun i => { i with svn := svn }
        let s :=
          if ident then ((s.setFld Reg.insStatus 5 4 1).setReg Reg.insId0 Config.deviceId0).setReg Reg.insId1 Config.deviceId1
          else (s.setFld Reg.insStatus 5 4 2).insEvent (2 ^ 6)
        let record := if ident then t.repair else none
        let s := s.loadRepair record t.test (List.range s.straps.tiles)
        let s := s.setFld Reg.insStatus 11 10 (if record.isSome then 2 else 1)
        if t.test.scratchFail then s.bootFail 3
        else if (List.range s.straps.tiles).all s.tileDisabled then s.bootFail 5
        else s.bootEnd t

def execStartUp (t : StartInputs) (s : State) : Host.Outcome State Fault Refusal := .next (startUpS t s)

/-- GANG_READY_TIMEOUT (R439): 150 ms after power-good a lead that waits is FAILED with the lowest failing member, which is free. -/
def gangReadyTimeoutS (s : State) : State :=
  if !s.live || s.straps.gangSize < 2 || s.straps.gangMember != 0 || s.fld Reg.insBoot 3 0 != 5 || decide (s.up < 150 * msT) then s
  else
    let (m, s) := s.draw
    (s.bootFail 6).setFld Reg.insBoot 6 4 (m % (s.straps.gangSize - 1) + 1)

def execGangReadyTimeout (s : State) : Host.Outcome State Fault Refusal := .next (gangReadyTimeoutS s)

/-! ## The test port (R440, R441) -/

/-- A wrapper instruction that holds no secret is in force. -/
def State.setWir (s : State) (code : Nat) : State := s.updPins fun p => { p with wir := code }

def execWsBypass (s : State) : Host.Outcome State Fault Refusal := .next (s.setWir 0x00)
def execWsExtest (s : State) : Host.Outcome State Fault Refusal := .next (s.setWir 0x01)
def execWsSafe (s : State) : Host.Outcome State Fault Refusal := .next (s.setWir 0x03)

/-- Entry into a state that shifts the block's own cells (R441): power-on reset is held and everything secret is zeroed first. -/
def State.testEntry (s : State) : State := (s.repower s.straps).updPins fun p => { p with pwrGood := s.pins.pwrGood, testHold := true }

def execWsIntest (s : State) : Host.Outcome State Fault Refusal := .next (s.testEntry.setWir 0x02)
def execWpScan (s : State) : Host.Outcome State Fault Refusal := .next (s.testEntry.setWir 0x04)
def execTestModeEntry (s : State) : Host.Outcome State Fault Refusal :=
  .next ((s.testEntry.setWir s.pins.wir).updPins fun p => { p with testMode := true })

/-- TZ_SELFTEST (R437, R440): the self-test's repair map and scratch result are shifted out, 16 bits per tile and 1 per cluster; the block is
not reset (log entry 32). -/
def tzSelftestS (r : SelfTest) (s : State) : State :=
  let s := s.setWir 0x10
  let tiles := (List.range s.straps.tiles).map fun t => repairWord none (r.rows.getD t []) (r.other.getD t false)
  s.emit (.wrapper (tiles ++ (List.range s.straps.clusters).map fun _ => if r.scratchFail then 1 else 0))

def execTzSelftest (r : SelfTest) (s : State) : Host.Outcome State Fault Refusal := .next (tzSelftestS r s)

/-- The outputs on pins that the state gives: the interrupt lines (R332, R427, R440), the transmitters of a board port (R420, R440), therm_req
(R384, R433, R440). -/
def State.irqPin (s : State) (l : Nat) : Bool := s.pins.wir != 3 && s.irqLine l
def State.pmaTxEn (s : State) (p : Nat) : Bool := s.pins.wir != 3 && decide (2 ≤ p) && s.flag (Reg.fabPortCfg p) 0
def State.thermReq (s : State) : Bool := s.pins.wir == 3 || s.power.shutdown

end Sys2Proof.Machine
end

