-- ==== Sys2Proof/Machine/Groups.lean ====
section
/-!
DEFINITION. Commit groups (R28, R29, R33 to R41, R43, R44): opening, staging, the checks each member makes at the arm, binding, what the
tick puts in force, and job-scope groups.
-/
namespace Sys2Proof.Machine

open Sys2Proof

/-! ## Units and staging -/

/-- The unit mask of the build (R33). -/
def unitMask (t : Straps) : Nat :=
  let base := 0x6F + (if t.build = .c1 then 0 else 0x10)
  base + (2 ^ t.clusters - 1) * 2 ^ 8 + (2 ^ t.quads - 1) * 2 ^ 12 + (2 ^ t.tiles - 1) * 2 ^ 16

/-- A group that is neither applied nor aborted. -/
def GState.pending (g : GState) : Bool := g == .opened || g == .armed || g == .bound

/-- Does a register's member bit lie in a mask? A register of the memory quads belongs to any of bits 15:12 (R316). -/
def inMask (member mask : Nat) : Bool := if member == 12 then mask / 2 ^ 12 % 16 != 0 else maskHas mask member

/-- The slot with an OPEN group that holds a member (R12, R34). -/
def State.openSlot (s : State) (member : Nat) : Option Nat :=
  (List.range 4).find? fun i => (s.group i).st == .opened && inMask member (s.group i).members

/-- A write staged into a slot's group, in order (R14). -/
def State.stage (s : State) (i off mask val : Nat) : State :=
  s.updGroup i fun g => { g with staged := g.staged ++ [⟨off, mask, val⟩] }

/-- Registers of staged writes, with their indexes. -/
def State.stagedRegs (s : State) (l : List Staged) : List (RegName × List Nat) :=
  l.filterMap fun w => (decodeReg s.straps w.off).map fun i => (i.row.name, i.ix)

/-- The staged writes put into the registers, in order (R14). -/
def State.preview (s : State) (l : List Staged) : State := l.foldl (fun s w => s.putField w.off w.mask w.val) s

/-! ## The checks of the members (R34) -/

/-- A staged BASIC code that names no profile and is not CUSTOM, in a register of a member (R13). -/
def State.basicBad (s : State) (l : List Staged) (member : Nat) : Bool :=
  l.any fun w =>
    match decodeReg s.straps w.off with
    | some i =>
      (i.row.member.any fun (f : List Nat → Nat) => f i.ix == member) && (s.derive i.row.name i.ix 0).isSome && maskAnd w.mask 255 != 0 &&
        w.val % 256 != 255 && (s.derive i.row.name i.ix (w.val % 256)).isNone
    | none => false

/-- The Bell (R28, R29): more than one step is INVALID, a step backwards needs every context FREE. -/
def State.bellCause (s : State) (l : List Staged) (tick : Nat) : Nat :=
  match l.filter fun w => w.off == Reg.bellStep with
  | [] => 0
  | [w] => if w.val < tick && s.ctxs.any (fun c => c.st != .free) then 11 else 0
  | _ => 1

/-- XLT_FMT_X0 and XLT_FMT_X1 that describe no format (R245). -/
def fmtBad (x0 x1 : Word) : Bool :=
  let named := [bits x0 7 2, bits x0 13 8, bits x0 19 14] ++ (([bits x0 25 20, bits x0 31 26, bits x0 37 32, bits x0 43 38]).filter (· != 63))
  let (lo, hi) := (bits x0 49 44, bits x0 55 50)
  let (lv, ix, ps) := (bits x1 11 8, bits x1 7 4, 12 + bits x1 3 0)
  decide (57 < ps + lv * ix) || decide (named.eraseDups.length < named.length) ||
    (named.any fun b => (decide (lo ≤ b) && decide (b ≤ hi)) || (decide (lo ≤ b) && decide (b ≤ lo + 43))) ||
    decide (54 < hi) || decide (lo < ps) || !bit x1 16 || decide (lv < 2) || decide (6 < lv) || decide (ix < 4) || decide (12 < ix) ||
    decide (16 < ps)

/-- BAR_TXN_X beyond the budget, or a cap below the floor (R237). -/
def txnBad (t : Straps) (x : Word) : Bool :=
  decide (t.transactions < bits x 15 0 + t.barrows * bits x 31 16) || decide (bits x 47 32 < bits x 31 16)

/-- MEM_POLICY_X out of range (R316). -/
def policyBad (x : Word) : Bool :=
  let n := bits x 3 0
  decide (bits x 63 48 < 250) || decide (bits x 47 40 ≤ bits x 39 32) || decide (64 < bits x 47 40) ||
    (decide (1 ≤ n) && decide (n ≤ 5)) || decide (12 < n)

/-- CTX_QOS_SLOT out of range (R336's register table). -/
def slotNsBad (x : Word) : Bool := let n := bits x 11 0; decide (n < 250) || decide (4000 < n) || n % 250 != 0

/-- Quads in use, as unit bits (R33, R296, R316). -/
def State.quadsUsed (s : State) : List Nat :=
  ((List.range s.straps.quads).filter fun q => s.fld Reg.memMap 47 32 / 16 ^ q % 16 != 0).map (12 + ·)

/-- A segment that R244 refuses. -/
def State.segBad (s : State) (c n : Nat) : Bool :=
  let (b, l, t) := (s.fld (Reg.ctxSegBase c n) 59 12, s.fld (Reg.ctxSegLimit c n) 59 12, s.fld (Reg.ctxSegTarget c n) 55 12 * 4096)
  let size := (l + 1 - b) * 4096
  decide (l < b) || (if t / 2 ^ 55 = 1 then decide (2 ^ 55 < t % 2 ^ 55 + size) else decide (2 ^ 43 < t % 2 ^ 43 + size))

/-- Is a tile being cleared or zeroed (CTX_TILESr, R58, R115, R393)? -/
def Tile.clearing (x : Tile) : Bool := x.clearArr.isSome || x.clearScr.isSome || x.clearOnWake

/-- Do two byte ranges overlap? -/
def rangesMeet (b n b' n' : Nat) : Bool := decide (0 < n) && decide (0 < n') && decide (b < b' + n') && decide (b' < b + n)

/-- Does a lease under CTX_QOS.strict hold every tile in service of each cluster it touches (R323)? -/
def State.strictOk (p : State) (c : Nat) : Bool :=
  let ts := p.fld (Reg.ctxLease c) 15 0
  !p.flag (Reg.ctxQos c) 16 || (List.range p.straps.clusters).all fun k =>
    ts / 2 ^ (4 * k) % 16 == 0 || [0, 1, 2, 3].all fun j => maskHas ts (4 * k + j) || p.tileDisabled (4 * k + j)

/-- A lease that R323 refuses: what it takes must be free of every other context, both as its lease is in force and as the group stages it
(`p` is the preview). -/
def State.leaseBad (s p : State) (c : Nat) : Bool :=
  let ts := p.fld (Reg.ctxLease c) 15 0
  let others := (List.range s.straps.contexts).filter (· != c)
  ((maskBits 16 ts).any fun t => decide (s.straps.tiles ≤ t) || s.tileDisabled t || (s.tile t).clearing ||
      (s.tile t).lease.any (· != c) || others.any fun x => maskHas (p.fld (Reg.ctxLease x) 15 0) t) ||
    ([0, 1, 2, 3].any fun k =>
      let f := p.fld (Reg.ctxLeaseCs c) (16 * k + 15) (16 * k)
      let (b, n) := csRange (p.reg (Reg.ctxLeaseCs c)) k
      decide (512 ≤ f) || decide (clusterSize < b + n) || (decide (0 < n) && ts / 2 ^ (4 * k) % 16 == 0) ||
        (others.any fun x => [s, p].any fun (y : State) => let (b', n') := csRange (y.reg (Reg.ctxLeaseCs x)) k; rangesMeet b n b' n') ||
        ((s.cluster k).zeroing.any fun z => rangesMeet b n (z.1 * 0x100000) (z.2.1 * 0x100000))) ||
    (s.ctx c).st == .active || !(s.ctx c).flights.isEmpty || !p.strictOk c

/-- The context page's registers that are staged are refused (R244, R323). -/
def State.ctxPagesBad (s p : State) (rs : List (RegName × List Nat)) : Bool :=
  rs.any fun r =>
    let c := nth r.2 0
    match r.1 with
    | .ctxSegBase | .ctxSegLimit | .ctxSegTarget => p.segBad c (nth r.2 1)
    | .ctxLease | .ctxLeaseCs => s.leaseBad p c
    | .ctxQos => !p.strictOk c
    | _ => false

/-- Entries of the job map, of the child table. -/
def jmapSize (t : Straps) : Nat := match t.build with | .c4 => 16384 | _ => 4096

/-- A job slot that R277 or R416 refuses. -/
def State.jobBad (p : State) (j : Nat) : Bool :=
  let cfg := p.reg (Reg.fabJobCfg j)
  let map := p.reg (Reg.fabJobMap j)
  let others := (List.range p.straps.jobSlots).filter fun i => i != j && p.flag (Reg.fabJobCfg i) 63
  (p.straps.gangSize != 0 && j == 15) ||
    (bit cfg 63 && (bits cfg 15 0 == 0 || bits cfg 15 0 == 0xFFFF || bits map 12 0 == 0 || decide (4096 < bits map 12 0) ||
      decide (jmapSize p.straps < bits map 45 32 + bits map 12 0) ||
      others.any fun i => p.fld (Reg.fabJobCfg i) 59 56 == bits cfg 59 56 ||
        (p.fld (Reg.fabJobCfg i) 15 0 != 0xFFFF && p.fld (Reg.fabJobCfg i) 55 50 == bits cfg 55 50)))

/-- Does a lease, as the registers of `p` give it, hold a local scratch address (R278)? -/
def State.leaseHolds (p : State) (c a : Nat) : Bool :=
  let ts := p.fld (Reg.ctxLease c) 15 0
  match placeOf p.straps a with
  | .tile t _ | .maquette t _ | .table t _ => maskHas ts t
  | .cluster k o => let (b, n) := csRange (p.reg (Reg.ctxLeaseCs c)) k; decide (b ≤ o) && decide (o < b + n)
  | _ => false

/-- A window that R278 refuses. -/
def State.windowBad (p : State) (w : Nat) : Bool :=
  let cfg := p.reg (Reg.fabWinCfg w)
  let lo := p.fld (Reg.fabWinBase w) 42 12 * 4096
  let hi := lo + bits cfg 62 32 * 4096
  let job := p.reg (Reg.fabJobCfg (bits cfg 11 8))
  let c := if bits job 15 0 == 0xFFFF then bits cfg 21 16 else bits job 55 50
  let first := max lo scratchBase
  bit cfg 0 && (bits cfg 62 32 == 0 || decide (2 ^ 43 < hi) ||
    (decide (scratchBase < hi) && (!bit job 63 || decide (tableBase + 0x100000 < hi) ||
      (List.range ((hi - first) / 4096)).any fun i => !p.leaseHolds c (first + 4096 * i))))

/-- A barrier group that R283 refuses. -/
def State.barBad (s p : State) (g : Nat) : Bool :=
  let cfg := p.reg (Reg.fabBarCfg g)
  ((s.barGroup? g).any fun (x : BarGroup) => !x.ops.isEmpty) || bits cfg 33 32 == 3 || decide (2048 < bits cfg 31 21 + bits cfg 20 17)

/-- The link complex's registers that are staged are refused. -/
def State.fabBad (s p : State) (rs : List (RegName × List Nat)) : Bool :=
  rs.any fun r =>
    let i := nth r.2 0
    match r.1 with
    | .fabJobCfg | .fabJobMap => p.jobBad i
    | .fabWinBase | .fabWinCfg => p.windowBad i
    | .fabBarCfg | .fabBarGctx => s.barBad p i
    | _ => false

/-- The power controller's registers that are staged are refused (R376, R396). -/
def pwrBad (p : State) (rs : List (RegName × List Nat)) (tick armAt : Nat) : Bool :=
  rs.any fun r =>
    match r.1 with
    | .pwrOpp => decide (6 ≤ p.fld Reg.pwrOpp 10 8) || decide (6 ≤ p.fld Reg.pwrOpp 2 0) || decide (tick < armAt + 40 * usT)
    | .pwrPolicy | .pwrPolicyX => p.fld Reg.pwrPolicyX 23 16 + p.fld Reg.pwrPolicyX 15 8 + p.fld Reg.pwrPolicyX 7 0 != 100
    | .pwrDroop | .pwrDroopX =>
      let w := p.fld Reg.pwrDroopX 7 0
      decide (w < 2) || decide (10 < w) || p.fld Reg.pwrDroopX 15 8 == 0
    | _ => false

/-- The memory quads' registers that are staged are refused (R316): a value out of range, or a quad in use that the group does not name. -/
def State.quadBad (s p : State) (rs : List (RegName × List Nat)) (members : Nat) : Bool :=
  rs.any fun r =>
    match r.1 with
    | .memPolicy | .memPolicyX => policyBad (p.reg Reg.memPolicyX) || s.quadsUsed.any fun b => !maskHas members b
    | .ctxQosSlot => slotNsBad (p.reg Reg.ctxQosSlot) || s.quadsUsed.any fun b => !maskHas members b
    | .ctxQosTable => s.quadsUsed.any fun b => !maskHas members b
    | _ => false

/-- STH_ARM_FILL_X out of range (R71). -/
def fillBad (x : Word) : Bool :=
  let b := bits x 15 8
  decide (b < 1) || decide (50 < b) || decide (bits x 47 32 < 1000)

/-- The cause for which member `m` of a slot's group refuses; 0 when it acknowledges (R34). -/
def State.memberCause (s : State) (i m : Nat) : Nat :=
  let g := s.group i
  let p := s.preview g.staged
  let rs := s.stagedRegs g.staged
  let has := fun (l : List RegName) => rs.any fun r => l.contains r.1
  let inv := fun (b : Bool) => if b || s.basicBad g.staged (if 12 ≤ m ∧ m ≤ 15 then 12 else m) then 1 else 0
  if m == 0 then s.bellCause g.staged g.tick
  else if m == 2 then inv (has [.xltFmt, .xltFmtX0, .xltFmtX1] && fmtBad (p.reg Reg.xltFmtX0) (p.reg Reg.xltFmtX1))
  else if m == 3 then inv (has [.barTxn, .barTxnX] && txnBad s.straps (p.reg Reg.barTxnX))
  else if m == 4 then inv (s.fabBad p rs)
  else if m == 5 then inv (pwrBad p rs g.tick g.armAt)
  else if m == 6 then inv (s.ctxPagesBad p rs)
  else if 8 ≤ m ∧ m ≤ 11 then
    if (s.cluster (m - 8)).rest != .awake then 2
    else inv ((rs.any fun r => (r.1 == .sthArmFillX || r.1 == .sthArmFill) && nth r.2 0 == m - 8) && fillBad (p.reg (Reg.sthArmFillX (m - 8))))
  else if 12 ≤ m ∧ m ≤ 15 then inv (s.quadBad p rs g.members)
  else if 16 ≤ m then
    if (s.tile (m - 16)).rest != .awake then 2 else if (s.tile (m - 16)).clearing then 3 else 0
  else 0

/-! ## Abort (R35, R44, R376) -/

/-- The voltage raised for a group returns to what run requires (R376). -/
def State.undoRaise (s : State) : State :=
  let s := s.startTransition s.power.run none
  if s.power.clk ≤ s.power.run then s.setVolt s.power.clk else s

/-- A group is ABORTED with a cause and the members it names; its staged values go. -/
def State.cgAbort (s : State) (i cause failed : Nat) : State :=
  let r := (s.group i).raised
  let s := s.updGroup i fun g => { g with st := .aborted, cause := cause, failed := failed, staged := [], raised := false }
  (if r then s.undoRaise else s).mgmt 0

/-! ## Job-scope groups (R39) -/

/-- CG_JOB's fields. -/
def gJobOf (w : Word) : GJob := ⟨bit w 63, bits w 53 48, bits w 44 32, bits w 27 16, bits w 15 0⟩

/-- The job of a slot's group: as it stood at the arm, or as CG_JOB gives it before. -/
def State.groupJob (s : State) (i : Nat) : GJob := if (s.group i).st == .opened then gJobOf (s.reg (Reg.cgJob i)) else (s.group i).job

/-- This block's job block number in a group's job. -/
def State.groupSelf (s : State) (i : Nat) : Option Nat := (s.slotOfJob (s.groupJob i).job).map fun j => s.fld (Reg.fabJobCfg j) 39 28

/-- Is this block the coordinator? -/
def State.isCoord (s : State) (i : Nat) : Bool := s.groupSelf i == some (s.groupJob i).coord

/-- A message of a group to a job block. -/
def State.sendCg (s : State) (i b : Nat) (body : MsgBody) : State :=
  match s.slotOfJob (s.groupJob i).job with
  | some j => s.sendJob j b 0 0 body
  | none => s

/-- A message of the coordinator to every other block. -/
def State.sendCgAll (s : State) (i : Nat) (body : MsgBody) : State :=
  let g := s.groupJob i
  ((List.range g.count).filter (· != g.coord)).foldl (fun s b => s.sendCg i b body) s

/-- Blocks that are missing or refused: how many, and the lowest. -/
def Group.missingBlocks (g : Group) : List Nat := (List.range g.job.count).filter fun b => !g.held.contains b

/-- The coordinator sends ABORT (R39 step 2), and aborts its own group if that is not aborted already. -/
def State.coordAbort (s : State) (i : Nat) : State :=
  let g := s.group i
  let ms := g.missingBlocks
  let (n, first) := (ms.length, ms.headD 0)
  let s := s.sendCgAll i (.cgAbort ⟨g.ident, g.tick, 8, first, n⟩)
  let s := s.updGroup i fun g => { g with verdict := 2, missing := n, firstMissing := first }
  if g.st == .aborted then s else s.cgAbort i 8 0

/-- The coordinator holds STAGED from every block: COMMIT, and it is BOUND (R39 steps 2 and 3). Past T - 8,000 st it sends ABORT
instead. -/
def State.coordCheck (s : State) (i : Nat) : State :=
  let g := s.group i
  if g.st == .armed && g.sentStaged && g.missingBlocks.isEmpty then
    if g.tick < s.bell.now + 8000 then s.coordAbort i
    else (s.sendCgAll i (.cgCommit ⟨g.ident, g.tick, 0, 0, 0⟩)).updGroup i fun g => { g with st := .bound, verdict := 1 }
  else s

/-- A member refused, or the Bell is not locked: REFUSED to the coordinator, which sends ABORT itself when it is this block. -/
def State.sendRefused (s : State) (i cause : Nat) : State :=
  let g := s.group i
  if !g.job.scope then s
  else if s.isCoord i then s.coordAbort i
  else s.sendCg i g.job.coord (.cgRefused ⟨g.ident, g.tick, cause, 0, 0⟩)

/-- Every member of the block has acknowledged (R34 step 4, R39 step 1). For an abort with UNLOCKED, which the list of R35 omits,
CG_STATUS.failed is 0, as for the other causes that no member has (DESIGN CHOICE, log entry 50). -/
def State.allAcked (s : State) (i : Nat) : State :=
  let g := s.group i
  if !g.job.scope then s.updGroup i fun g => { g with st := .bound }
  else if !s.jobLocked then (s.cgAbort i 10 0).sendRefused i 10
  else if s.isCoord i then
    (s.updGroup i fun g => { g with sentStaged := true, held := if g.held.contains g.job.coord then g.held else g.held ++ [g.job.coord] }).coordCheck i
  else (s.sendCg i g.job.coord (.cgStaged ⟨g.ident, g.tick, 0, 0, 0⟩)).updGroup i fun g => { g with sentStaged := true }

/-! ## The CG_ registers that act -/

/-- CG_OPEN written (R34 step 1). -/
def State.wrCgOpen (s : State) (i : Nat) (v : Word) (byInspector : Bool) : State :=
  if (s.group i).st.pending then s.regError (Reg.cgOpen i)
  else
    let m := bits v 31 0
    let bad := maskDiff m (unitMask s.straps)
    let taken := maskAnd m (((List.range 4).filter fun j => j != i && (s.group j).st.pending).foldl (fun a j => maskOr a (s.group j).members) 0)
    let fresh : Group := { Group.reset with ident := bits v 47 32, members := m, byInspector := byInspector }
    if bad == 0 && taken == 0 then s.updGroup i fun _ => { fresh with st := .opened }
    else (s.updGroup i fun _ => fresh).cgAbort i 7 (maskOr bad taken)

/-- CG_ARM written (R34 step 3). -/
def State.wrCgArm (s : State) (i : Nat) (v : Word) : State :=
  if (s.group i).st != .opened then s.regError (Reg.cgArm i)
  else
    let now := s.bell.now
    let t := if v = 0 then now + 12000 else v.toNat
    let s := s.updGroup i fun g => { g with st := .armed, tick := t, armAt := now, job := gJobOf (s.reg (Reg.cgJob i)) }
    if t < now + 8000 then s.cgAbort i 5 0
    else if (s.group i).members == 0 then s.allAcked i
    else s

/-- CG_CANCEL written (R36). -/
def State.wrCgCancel (s : State) (i : Nat) (v : Word) : State :=
  if bit v 0 && ((s.group i).st == .opened || (s.group i).st == .armed) then s.cgAbort i 6 0 else s

/-! ## Acknowledgement, deadline and tick -/

/-- The power controller starts what a group's values need: a raise writes its voltage at once, and the switch waits for the tick (R376). -/
def State.groupRaise (s : State) (i : Nat) : State :=
  let g := s.group i
  let r := (s.preview g.staged).oppRun
  if r == s.power.run || s.power.trans.isSome then s
  else if r < s.power.clk then (s.startTransition r (some g.tick)).updGroup i fun g => { g with raised := true }
  else s.startTransition r (some g.tick)

/-- CG_MEMBER_ACK (R34, R35): the members of a mask answer together, each by its own check; they act up to the deadline only. R34 says
both 'before the deadline' and 'by the deadline': an acknowledgement at exactly T - 8,000 st counts (DESIGN CHOICE, log entry 50). -/
def cgMemberAckS (slot mask : Nat) (s : State) : State :=
  let g := s.group slot
  if g.st != .armed || decide (g.tick < s.bell.now + 8000) then s
  else
    let ms := maskBits 32 (maskDiff (maskAnd g.members mask) g.acked)
    let bad := ms.filter fun m => s.memberCause slot m != 0
    match bad with
    | m :: _ =>
      let cause := s.memberCause slot m
      (s.cgAbort slot cause (maskOf bad)).sendRefused slot cause
    | [] =>
      if ms.isEmpty then s
      else
        let s := if ms.contains 5 then s.groupRaise slot else s
        let s := s.updGroup slot fun g => { g with acked := maskOr g.acked (maskOf ms) }
        if maskDiff g.members (s.group slot).acked == 0 then s.allAcked slot else s

/-- CG_DEADLINE (R35, R39): at T - 8,000 st silent members abort the group with cause LATE, and a coordinator that does not hold every
STAGED sends ABORT. -/
def cgDeadlineS (slot : Nat) (s : State) : State :=
  let g := s.group slot
  if decide (s.bell.now + 8000 < g.tick) then s
  else if g.st == .armed then
    let silent := maskDiff g.members g.acked
    if silent != 0 then
      let s := s.cgAbort slot 4 silent
      if g.job.scope && s.isCoord slot then s.coordAbort slot else s
    else if g.job.scope && s.isCoord slot then s.coordAbort slot
    else s
  else if g.st == .aborted && g.job.scope && g.verdict == 0 && s.isCoord slot then s.coordAbort slot
  else s

/-- A run of MiB of a cluster zeroes because it has left a lease (R115, R324). -/
def State.zeroRun (s : State) (k lo hi : Nat) : State :=
  if lo < hi then s.updCluster k fun x => { x with zeroing := x.zeroing ++ [(lo / 0x100000, (hi - lo) / 0x100000, s.cyc + 256 * ((hi - lo) / 0x100000))] }
  else s

/-- A tile leaves its lease: it clears and zeroes (R58, R115, R324). -/
def State.unlease (s : State) (t : Nat) : State :=
  (s.awningTile t).updTile t fun x => { x.endLease with clearScr := if x.rest != .awake then x.clearScr else some (s.cyc + 2048) }

/-- The scratch, table memory and book slots of a tile zeroed (R115). -/
def State.zeroTile (s : State) (t : Nat) : State := ((s.zeroMem (tileAddr t) tileSize).zeroMem (tableAddr t 0) 0x10000).zeroMem (bookAddr t 0) 0x4000

/-- A tile joins a lease: with zeroed scratch, whatever a debug write left there, invalid books and tables, empty banks and the mode of R163
(R324); one that rests under auto only wakes (R392). -/
def State.newLease (s : State) (c t : Nat) : State :=
  (s.zeroTile t).updTile t fun x =>
    { x with lease := some c, mode := Mode.initial, issuedMode := Mode.initial, cbFmt := 0, idleSince := s.up, banks := [], poison := [],
             books := List.replicate 16 (false, false), tables := List.replicate 8 false, bookDirty := [], tableDirty := [],
             rest := if s.flag Reg.pwrRest t then x.rest else x.rest.wake s.up }

/-- The lease of a context follows its registers at the tick; `old` is CTX_LEASE_CS as it stood (R324). -/
def State.applyLease (s : State) (c : Nat) (old : Word) : State :=
  let ts := s.fld (Reg.ctxLease c) 15 0
  let s := ((s.leaseTiles c).filter fun t => !maskHas ts t).foldl (fun s t => s.unlease t) s
  let s := ((maskBits 16 ts).filter fun t => (s.tile t).lease != some c).foldl (fun s t => s.newLease c t) s
  [0, 1, 2, 3].foldl (fun s k =>
    let (b, n) := csRange old k
    let (b', n') := csRange (s.reg (Reg.ctxLeaseCs c)) k
    if n' == 0 then s.zeroRun k b (b + n) else (s.zeroRun k b (min (b + n) b')).zeroRun k (max b (b' + n')) (b + n)) s

/-- A job slot's state after its fields are put in force (R277). -/
def State.applyJob (s : State) (j : Nat) : State :=
  let cfg := s.reg (Reg.fabJobCfg j)
  let st := if bit cfg 63 then 256 + s.genOf (bits cfg 55 50) % 256 else 0
  s.setReg (Reg.fabJobStatus j) (word st)

/-- A barrier group begins again at epoch 0 when it is bound (R283). -/
def State.applyBar (s : State) (g : Nat) : State :=
  { s with barGroups := s.barGroups.filter fun x => x.group != g }.setReg (Reg.fabBarStatus g) (regReset s.straps (Reg.fabBarStatus g))

/-- The operating point at a group's tick (R376, R394): one decision, and the clock switches at once. -/
def State.applyOpp (s : State) : State :=
  let r := s.oppRun
  let held := (s.power.trans.bind fun t => t.atTick).isSome
  if r != s.power.run then (s.updPower fun p => { p with run := r }).switchTo r
  else if held then s.undoRaise
  else s

/-- The counter takes a value by a step (R28): the edge of R20 is expected as much later in elapsed time as before, and the Bell has its
step (R21). -/
def State.stepBell (s : State) (v : Nat) : State :=
  s.updBell fun b => { b with now := v, nextEdge := b.nextEdge.map fun e => ((e : Int) + v - b.now).toNat, awaitStep := false }

/-- Everything a group's staged values put in force at its tick (R14, R18, R28, R34 step 5). -/
def State.applyGroup (s : State) (i : Nat) : State :=
  let g := s.group i
  let rs := (s.stagedRegs g.staged).eraseDups
  let ixOf := fun (l : List RegName) => ((rs.filter fun r => l.contains r.1).map fun r => nth r.2 0).eraseDups
  let segs := ((rs.filter fun r => [RegName.ctxSegBase, .ctxSegLimit, .ctxSegTarget].contains r.1).map fun r => (nth r.2 0, nth r.2 1)).eraseDups
  let leases := (ixOf [.ctxLease, .ctxLeaseCs]).map fun c => (c, s.reg (Reg.ctxLeaseCs c))
  let late := s.bell.now - g.tick
  let s := segs.foldl (fun s p => s.segWithdraw p.1 p.2) s
  let key := fun (w : Staged) => (decodeReg s.straps w.off).any fun (x : RegInst) => x.row.name == .insJkeyCtl
  let s := s.preview (g.staged.filter fun w => !key w)
  let s := (g.staged.filter key).foldl (fun s w => match decodeReg s.straps w.off with
    | some x => if maskHas w.mask 4 then s.flipPhase (nth x.ix 0) (if maskHas w.val 4 then 1 else 0) else s
    | none => s) s
  let s := (segs.map (·.1)).eraseDups.foldl (fun s c => s.recheckSegs c) s
  let s := if segs.isEmpty then s else s.refillAll
  let s := (ixOf [.ctxXltCfg, .ctxXltDroot, .ctxXltHroot]).foldl (fun s c => s.withdrawAll c) s
  let s := leases.foldl (fun s p => s.applyLease p.1 p.2) s
  let s := (ixOf [.fabJobCfg, .fabJobMap]).foldl (fun s j => s.applyJob j) s
  let s := (ixOf [.fabBarCfg, .fabBarGctx]).foldl (fun s b => s.applyBar b) s
  let s := match g.staged.filter fun w => w.off == Reg.bellStep with
    | w :: _ => s.stepBell ((w.val + late) % 2 ^ 64)
    | [] => s
  s.applyOpp

/-- CG_APPLY (R34 step 5, R44): a BOUND group whose tick has come. -/
def cgApplyS (slot : Nat) (s : State) : State :=
  let g := s.group slot
  if g.st != .bound || decide (s.bell.now < g.tick) then s
  else ((s.applyGroup slot).updGroup slot fun g => { g with st := .applied, staged := [], raised := false }).mgmt 0

def execCgApply (slot : Nat) (s : State) : Host.Outcome State Fault Refusal := .next (cgApplyS slot s)

/-! ## The messages (R39, R271) -/

/-- The slot of a job-scope group with an identifier and a job, in the first of a list of states that has one. A message that comes
before this block has opened the group and written CG_JOB finds none and is dropped (DESIGN CHOICE, log entry 50). -/
def State.slotOfGroup (s : State) (ident job : Nat) (sts : List GState) : Option Nat :=
  sts.findSome? fun st => (List.range 4).find? fun i =>
    let g := s.group i
    g.st == st && g.ident == ident && (s.groupJob i).scope && (s.groupJob i).job == job

/-- The time in which a verdict counts has passed: T - 2,000 st (R39 step 4). -/
def State.verdictPast (s : State) (i : Nat) : Bool := (s.group i).sentStaged && decide ((s.group i).tick < s.bell.now + 2000)

/-- CG_STAGED: at the coordinator, one more block holds its values. -/
def cgStagedS (k : Nat) (s : State) : State :=
  match s.take k with
  | some (d, s1) =>
    match d.msg.body with
    | .cgStaged m =>
      match s1.slotOfGroup m.ident d.job [.opened, .armed] with
      | some i =>
        if s1.isCoord i then
          (s1.updGroup i fun g => { g with held := if g.held.contains d.msg.src then g.held else g.held ++ [d.msg.src] }).coordCheck i
        else s1
      | none => s1
    | _ => s
  | none => s

def execCgStaged (k : Nat) (s : State) : Host.Outcome State Fault Refusal := .next (cgStagedS k s)

/-- CG_REFUSED: at the coordinator, the first sends ABORT. -/
def cgRefusedS (k : Nat) (s : State) : State :=
  match s.take k with
  | some (d, s1) =>
    match d.msg.body with
    | .cgRefused m =>
      match s1.slotOfGroup m.ident d.job [.opened, .armed] with
      | some i =>
        if s1.isCoord i then (s1.updGroup i fun g => { g with job := s1.groupJob i, held := g.held.filter (· != d.msg.src) }).coordAbort i else s1
      | none => s1
    | _ => s
  | none => s

def execCgRefused (k : Nat) (s : State) : Host.Outcome State Fault Refusal := .next (cgRefusedS k s)

/-- CG_COMMIT: a block that has sent STAGED is BOUND, by T - 2,000 st. -/
def cgCommitS (k : Nat) (s : State) : State :=
  match s.take k with
  | some (d, s1) =>
    match d.msg.body with
    | .cgCommit m =>
      match s1.slotOfGroup m.ident d.job [.armed] with
      | some i =>
        if (s1.group i).sentStaged && d.msg.src == (s1.group i).job.coord && !s1.verdictPast i then s1.updGroup i fun g => { g with st := .bound, verdict := 1 } else s1
      | none => s1
    | _ => s
  | none => s

def execCgCommit (k : Nat) (s : State) : Host.Outcome State Fault Refusal := .next (cgCommitS k s)

/-- CG_ABORT: the group, OPEN or ARMED, is ABORTED with JOB_ABORT; a block that has aborted it already keeps its cause and records the
verdict. -/
def cgAbortS (k : Nat) (s : State) : State :=
  match s.take k with
  | some (d, s1) =>
    match d.msg.body with
    | .cgAbort m =>
      match s1.slotOfGroup m.ident d.job [.armed, .opened, .aborted] with
      | some i =>
        if d.msg.src == (s1.groupJob i).coord && (s1.group i).verdict == 0 && !((s1.group i).st == .armed && s1.verdictPast i) then
          let s2 := s1.updGroup i fun g => { g with job := s1.groupJob i, verdict := 2, missing := m.missing, firstMissing := m.first }
          if (s1.group i).st == .aborted then s2 else s2.cgAbort i 8 0
        else s1
      | none => s1
    | _ => s
  | none => s

def execCgAbort (k : Nat) (s : State) : Host.Outcome State Fault Refusal := .next (cgAbortS k s)

/-- VERDICT_LOST (R39 step 4, R354): by T - 2,000 st no verdict has come; the group is not applied and the job's context is reset. -/
def verdictLostS (slot : Nat) (s : State) : State :=
  let g := s.group slot
  if g.st != .armed || !g.job.scope || !g.sentStaged || s.isCoord slot || decide (s.bell.now + 2000 < g.tick) then s
  else ((s.cgAbort slot 9 0).updGroup slot fun g => { g with verdict := 3 }).beginReset g.job.ctx 3 false false

def execVerdictLost (slot : Nat) (s : State) : Host.Outcome State Fault Refusal := .next (verdictLostS slot s)

end Sys2Proof.Machine
end

