-- ==== Sys2Proof/Machine/Sha384.lean ====
section
/-!
DEFINITION. SHA-384, which the barrows' digest slots (R179, R234) and the measurements (R405) use, and the HMAC and key derivation over it that
commands and sessions use (R407, R408). The spec names the functions and gives no text of them; these are what FIPS 180-4, RFC 2104 and RFC 5869
define under those names (PRESUMED, log entry 12). The constants are computed from what they are: the fractional parts of roots of primes.
-/
namespace Sys2Proof.Machine

open Sys2Proof

/-! ## Constants -/

/-- The greatest r below `r + 2 ^ n` with r ^ k at most `x`, from a start that fits: one bit of the root after another. -/
def rootFrom (k x : Nat) : Nat → Nat → Nat
  | 0, r => r
  | n + 1, r => rootFrom k x n (if (r + 2 ^ n) ^ k ≤ x then r + 2 ^ n else r)

/-- The first 64 bits of the fractional part of the k-th root of a number below 512. -/
def rootFrac (k p : Nat) : Word := BitVec.ofNat 64 (rootFrom k (p * 2 ^ (64 * k)) 70 0)

/-- Has a number above 1 no divisor from 2 up to the `n`-th after it? Enough for numbers below 512 with n = 21. -/
def noDivisor (p : Nat) : Nat → Bool
  | 0 => true
  | n + 1 => (p % (n + 2) != 0 || p == n + 2) && noDivisor p n

/-- The first 80 primes: those below 410. -/
def firstPrimes : List Nat := (List.range 410).filter fun p => decide (2 ≤ p) && noDivisor p 21

/-! ## The hash -/

/-- The exclusive or of rotations of a word. -/
def rotXor (l : List Nat) (x : Word) : Word := (l.map x.rotateRight).foldl (· ^^^ ·) 0

/-- Sixteen words of a block, the newest first, and the words that follow from them: each from the second, the seventh, the fifteenth and the
sixteenth before it. -/
def shaMore : Nat → List Word → List Word
  | 0, ws => ws
  | n + 1, ws =>
    let (u, v) := (nth ws 1, nth ws 14)
    shaMore n (((rotXor [19, 61] u ^^^ u >>> 6) + nth ws 6 + (rotXor [1, 8] v ^^^ v >>> 7) + nth ws 15) :: ws)

/-- One round on the eight working words, the first of them first; `kw` is the sum of its constant and its word. -/
def shaTurn (v : List Word) (kw : Word) : List Word :=
  match v with
  | [p, q, r, s, t, x, y, z] =>
    let pick := y ^^^ (t &&& (x ^^^ y))
    let most := (p &&& q) ||| (r &&& (p ||| q))
    let step := z + rotXor [14, 18, 41] t + pick + kw
    [step + rotXor [28, 34, 39] p + most, p, q, r, s + step, t, x, y]
  | _ => v

/-- A number of bytes, the most significant first. -/
def ofBe (bs : List Byte) : Nat := bs.foldl (fun n b => 256 * n + b.toNat) 0
def beBytes (n v : Nat) : List Byte := (leBytes n v).reverse

/-- A block taken into the hash: `ks` are the 80 constants. -/
def shaAbsorb (ks v : List Word) (block : List Byte) : List Word :=
  let ws := (List.range 16).map fun i => (BitVec.ofNat 64 (ofBe ((block.drop (8 * i)).take 8)) : Word)
  List.zipWith (· + ·) v ((List.zipWith (· + ·) ks (shaMore 64 ws.reverse).reverse).foldl shaTurn v)

/-- The message, a one bit, zeros, and the message's length in bits: whole blocks of 128 bytes. -/
def shaPadded (bs : List Byte) : List Byte :=
  let tail := [0x80] ++ List.replicate ((239 - bs.length % 128) % 128) 0
  bs ++ tail ++ beBytes 16 (8 * bs.length)

/-- The 48 bytes of SHA-384 of a byte string. -/
def sha384Bytes (bs : List Byte) : List Byte :=
  let m := shaPadded bs
  let ks := firstPrimes.map (rootFrac 3)
  let v := (List.range (m.length / 128)).foldl (fun v i => shaAbsorb ks v ((m.drop (128 * i)).take 128)) (((firstPrimes.drop 8).take 8).map (rootFrac 2))
  ((v.take 6).map fun w => beBytes 8 w.toNat).flatten

/-- SHA-384 of a byte string, 48 bytes as a number, byte 0 lowest. -/
def sha384 (bs : List Byte) : Nat := leNat (sha384Bytes bs)

/-! ## Keyed tags and keys -/

/-- A key of at most 128 bytes, padded to a block, with every byte crossed with `x`. -/
def keyBlock (x : Byte) (key : List Byte) : List Byte := (padTo 128 key).map (· ^^^ x)

/-- HMAC-SHA-384 under a key of at most 128 bytes. -/
def hmac384 (key bs : List Byte) : List Byte := sha384Bytes (keyBlock 0x5C key ++ sha384Bytes (keyBlock 0x36 key ++ bs))

/-- HKDF-Expand with SHA-384 for at most 48 bytes (R407): one block of its output. -/
def hkdfExpand (secret info : List Byte) (n : Nat) : List Byte := (hmac384 secret (info ++ [1])).take n

/-- The bytes of a name. -/
def asciiBytes (s : String) : List Byte := s.toList.map fun c => BitVec.ofNat 8 c.toNat

end Sys2Proof.Machine
end

