-- ==== Sys2Proof/Machine/RegView.lean ====
section
/-!
DEFINITION. What a register reads as: the words that the hardware computes from a unit's state (R16, R23, R27, R33, R35, R43, R213 to R216, R235,
R238, R265, R313, R334, R340, R396, R419, R442), what each role may read (R350, R449, R451), and the debug windows (R417, R452 to R454).
-/
namespace Sys2Proof.Machine

open Sys2Proof

/-! ## Computed words -/

def lockCode : Lock → Nat
  | .unlocked => 0 | .acquiring => 1 | .locked => 2 | .holdover => 3
def gStCode : GState → Nat
  | .idle => 0 | .opened => 1 | .armed => 2 | .bound => 3 | .applied => 4 | .aborted => 5
def barStCode : BarSt → Nat
  | .idle => 0 | .moving => 1 | .stalledFault => 2 | .stalledBudget => 3 | .retranslating => 4 | .purging => 5
def one (b : Bool) : Nat := if b then 1 else 0

/-- BELL_STATUS (R26, R27, R42). -/
def State.bellStatusWord (s : State) : Nat :=
  fields [(32, sat 32 s.estError), (16, sat 16 s.holdoverMs), (0, lockCode s.bell.lock)]

/-- CG_STATUS, CG_ACKED and CG_JOB_STATUS (R43). -/
def Group.statusWord (g : Group) : Nat := fields [(32, g.failed % 2 ^ 32), (16, g.cause % 256), (0, gStCode g.st)]
def Group.jobStatusWord (g : Group) : Nat := fields [(52, g.firstMissing % 2 ^ 12), (32, g.missing % 2 ^ 13), (0, g.verdict % 4)]

/-- CRI_STATUS (R215). -/
def State.criStatusWord (s : State) : Nat :=
  fields [(32, sat 16 (s.ctxs.map fun c => c.flights.length).sum), (0, s.fetching % 32)]

/-- BAR_POOL (R236, R238): what the whole block holds, of the reserve, and the pool's rest. -/
def State.barPoolWord (s : State) : Nat :=
  let used := (s.reqs.filter fun r => decide (r.engine < 31)).length
  let rsv := (s.reqs.filter fun r => decide (24 ≤ r.engine) && decide (r.engine < 31)).length
  fields [(32, sat 16 (s.txPool - s.poolUsed)), (16, sat 16 rsv), (0, sat 16 used)]

/-- BAR_STATUSb (R238). -/
def State.barStatusWord (s : State) (b : Nat) : Nat :=
  let x := s.barrow b
  let run := x.q.filter fun q => q.running
  let (g, c) := match run with | q :: _ => (q.gen, q.ctx) | [] => (0, 0)
  fields [(56, g % 256), (50, c % 64), (32, sat 16 (s.held b)), (28, sat 4 (x.q.length - run.length)), (26, sat 2 run.length), (0, barStCode x.st)]

/-- XLT_INV (R265). -/
def State.xltInvWord (s : State) : Nat :=
  fields [(32, s.fld Reg.xltInv 63 32), (0, (s.withdraws.filter fun w => w.itag.isSome).length % 64)]

/-- XLT_DINV_STATUS (R264, R265): the engines still to acknowledge and the time since go, while one is pending. -/
def State.dinvWord (s : State) : Nat :=
  match s.withdraws.find? fun w => w.drain with
  | some w => fields [(32, w.engines % 2 ^ 32), (16, sat 16 ((s.up - w.arrived) / usT)), (0, 1)]
  | none => (s.reg Reg.xltDinvStatus).toNat

/-- MEM_CLEAR_STATUS (R313). -/
def State.clearWord (s : State) : Nat :=
  match s.mem.clear with
  | some j => fields [(16, sat 16 ((s.up - j.began) / usT)), (0, 1)]
  | none => (s.reg Reg.memClearStatus).toNat

/-- PWR_STATUS (R374, R379, R381, R384, R396). -/
def State.pwrStatusWord (s : State) : Nat :=
  let p := s.power
  fields [(37, one p.trans.isSome), (36, one p.linkThr), (35, one p.memThr), (34, one p.shutdown), (33, one p.stretch.isSome),
    (32, one p.stretch.isSome), (24, s.paceCeil.getD 7), (20, p.alertCeil), (16, p.thermCeil), (12, p.capCeil), (8, s.oppWant),
    (4, s.oppReq), (0, p.run)]

def Rest.isResting (r : Rest) : Bool := r == .resting
def Rest.isWaking (r : Rest) : Bool := match r with | .waking _ => true | _ => false

/-- PWR_REST_STATUS (R391, R396). -/
def State.restWord (s : State) : Nat :=
  let tiles := fun (f : Rest → Bool) => maskOf ((List.range 16).filter fun t => f (s.tile t).rest)
  let cls := fun (f : Rest → Bool) => maskOf ((List.range 4).filter fun k => f (s.cluster k).rest)
  fields [(48, cls Rest.isWaking), (32, tiles Rest.isWaking), (16, cls Rest.isResting), (0, tiles Rest.isResting)]

/-- CTX_TILESr (R340). -/
def State.tilesWord (s : State) (r : Nat) : Nat :=
  fields ((List.range 8).map fun k =>
    let x := s.tile (8 * r + k)
    (8 * k, one x.lease.isSome * 128 + one x.clearing * 64 + (x.lease.getD 0) % 64))

/-- CTX_USTATUS (R214). -/
def State.ustatusWord (s : State) (c : Nat) : Nat :=
  fields [(48, s.fld (Reg.ctxUstatus c) 63 48), (16, s.fld (Reg.ctxUndelStatus c) 3 0), (8, (s.ctx c).gen % 256), (0, ctxStCode (s.ctx c).st)]

/-- CTX_DIGc_s_Wj and CTX_DIGc_s_STATE (R235); `k` is the slot 4 c + s. -/
def Digest.word (d : Digest) (j : Nat) : Nat := if d.fin then sha384 d.bytes / 2 ^ (64 * j) % 2 ^ 64 else 0
def Digest.stateWord (d : Digest) : Nat := fields [(2, d.length % 2 ^ 61), (1, one d.fin)]

/-- ERR_HOSTPORT (R428, R442). -/
def State.hostportWord (s : State) : Nat :=
  fields [(32, s.fld Reg.errHostport 39 32), (16, sat 16 s.heldCount), (2, one s.pins.linkDown), (1, one s.pins.bme), (0, one s.pins.frozen)]

/-- INS_MKEY_CTL, INS_MKEYk and INS_JKEYk_CTL (R413, R414, R416, R419). -/
def State.mkeyCtlWord (s : State) : Nat :=
  fields [(32, s.fld Reg.insMkeyCtl 39 32), (20, one s.draining.isSome), (16, s.draining.getD 0), (0, s.curSlot)]
def State.mkeyWord (s : State) (k : Nat) : Nat :=
  fields [(62, nth s.mem.slots k % 4), (32, sat 16 (s.slotRefs k)), (0, s.slotPages k % 2 ^ 32)]
def State.jkeyWord (s : State) (k : Nat) : Nat :=
  let p := s.keyInForce k
  let held := fun i => one (s.keyPhase k i).key.isSome
  fields [(8, (s.keyPhase k p).count / 2 ^ 32 % 2 ^ 48), (4, p), (2, one (s.keyPhase k (1 - p)).until_.isSome), (0, held 0 + 2 * held 1)]

/-- INS_BOOT (R442): the time runs until READY. -/
def State.bootWord (s : State) : Nat :=
  let w := s.reg Reg.insBoot
  if bits w 3 0 = 6 then w.toNat else (setBits w 63 48 (sat 16 (s.up / msT))).toNat

/-- The word a register reads as, whoever reads it (R10, R12): WO fields read zero, SH fields the value in force. -/
def State.view (s : State) (off : Nat) : Word :=
  match decodeReg s.straps off with
  | none => 0
  | some i =>
    let a := nth i.ix 0
    let b := nth i.ix 1
    let c := nth i.ix 2
    match i.row.name with
    | .bellNow => word s.bell.now
    | .bellStatus => word s.bellStatusWord
    | .cgOpen | .cgArm | .cgCancel | .xltDinvCtl | .memClearCtl | .ctxCmd | .errBreset | .insCmdDoor | .insCmdBuf | .ctxKabort | .ctxDoorbell
    | .ctxAbort => 0
    | .cgStatus => word (s.group a).statusWord
    | .cgAcked => word (s.group a).acked
    | .cgJobStatus => word (s.group a).jobStatusWord
    | .fabBarStatus => s.reg off ||| word (2 ^ 35 * one (s.barGroups.any fun x => x.group == a))
    | .criStatus => word s.criStatusWord
    | .barPool => word s.barPoolWord
    | .barStatus => word (s.barStatusWord a)
    | .xltInv => word s.xltInvWord
    | .xltDinvStatus => word s.dinvWord
    | .memClearStatus => word s.clearWord
    | .pwrStatus => word s.pwrStatusWord
    | .pwrRestStatus => word s.restWord
    | .ctxSummary => word (s.summary a)
    | .ctxTiles => word (s.tilesWord a)
    | .errHostport => word s.hostportWord
    | .insMkeyCtl => word s.mkeyCtlWord
    | .insMkey => word (s.mkeyWord a)
    | .insJkeyCtl => word (s.jkeyWord a)
    | .insBoot => word s.bootWord
    | .sthLaneStatus => word (s.laneWord ⟨a, b⟩)
    | .sthLanePc => word (s.lane ⟨a, b⟩).pc
    | .ctxFlight => word ((s.ctx a).flightWord b)
    | .ctxTally => word ((s.ctx a).tallyWord b)
    | .ctxDigW => if (s.leaseClusters a).contains b then word ((nth (s.ctx a).digests (4 * b + c)).word (nth i.ix 3)) else 0
    | .ctxDigState => if (s.leaseClusters a).contains b then word (nth (s.ctx a).digests (4 * b + c)).stateWord else 0
    | .ctxUstatus => word (s.ustatusWord a)
    | .ctxHead => word (fields [(32, (s.ring a b).tail % 2 ^ 32), (0, (s.ring a b).head % 2 ^ 32)])
    | .ctxCqTail => word (fields [(32, one (s.ctx a).phase), (0, (s.ctx a).written % 2 ^ 32)])
    | .ctxUtime => word (s.bell.now / 4000)
    | _ => s.reg off

/-! ## Roles and slots -/

/-- The context whose kernel or user page an offset lies in (R450), and whether it is the kernel page. -/
def pageCtx (off : Nat) : Option (Nat × Bool) :=
  if 0x100000 ≤ off ∧ off < 0x200000 then some ((off - 0x100000) / 0x1000, true)
  else if 0x200000 ≤ off ∧ off < 0x300000 then some ((off - 0x200000) / 0x1000, false)
  else none

/-- What the kernel sees of word `j` of a log entry: of a CORRECTED record only detector, severity and number (R350). -/
def State.logMask (s : State) (e j : Nat) : Nat :=
  if s.fld (Reg.errLog e 0) 55 54 != 0 then allBits else if j = 0 then maskNat 63 56 + maskNat 55 54 + maskNat 15 0 else 0

/-- The bits of a register a role may read (R449, R350). -/
def State.readMask (s : State) (operator : Bool) (i : RegInst) : Nat :=
  if operator then allBits
  else if i.row.name == .errLog then s.logMask (nth i.ix 0) (nth i.ix 1)
  else i.row.kernelReads

/-- Is a slot FREE or in TEARDOWN (R451)? -/
def State.slotGone (s : State) (c : Nat) : Bool := (s.ctx c).st == CtxSt.free || (s.ctx c).st == CtxSt.teardown

/-- A 64-bit read of a register by a role (R445, R449, R451). -/
def State.readReg (s : State) (operator : Bool) (off : Nat) : Word :=
  match decodeReg s.straps off with
  | none => 0
  | some i =>
    let v :=
      match pageCtx off with
      | some (c, _) =>
        if s.slotGone c && i.row.name != RegName.ctxUstatus then regReset s.straps off else s.view off
      | none => s.view off
    word (maskAnd v.toNat (s.readMask operator i))

/-! ## The debug windows (R452 to R454) -/

/-- A debug read has touched a lease (R417, R455). -/
def State.countDebug (s : State) (c : Option Nat) : State :=
  match c with
  | some c => (s.updCtx c fun x => { x with debugReads := x.debugReads + 1 }).incWrap Reg.dbgStat 63 0 1
  | none => s

/-- The context that leases a local scratch address. -/
def State.lessee (s : State) (a : Nat) : Option Nat := (List.range s.straps.contexts).find? fun c => s.inLease c a

/-- The domain a scratch address stands in. -/
def domOf (t : Straps) (a : Nat) : Option RestDom :=
  match placeOf t a with
  | .tile x _ | .maquette x _ | .table x _ => some (.tile x)
  | .cluster k _ => some (.cluster k)
  | _ => none

/-- A counter that is settled when it is read: the filler of a gap under way (R67), and the bank conflicts of R110 and R125, of which the
rules fix no number: what has been added since the last read is free, and nothing before the first operation (log entry 57). -/
def State.settleRead (s : State) (off : Nat) : State :=
  match decodeReg s.straps off with
  | none => s
  | some i =>
    let t := 4 * nth i.ix 0 + nth i.ix 1
    match i.row.name with
    | .sthArmFillcnt => s.settleGap t
    | .sthScrConf =>
      if s.nextOp = 0 then s
      else
        let (a, s) := s.draw
        let (b, s) := s.draw
        (s.incWrap off 63 32 a).incWrap off 31 0 b
    | .sthScrCluster =>
      if s.nextOp = 0 then s
      else
        let (a, s) := s.draw
        s.incWrap off 31 0 a
    | _ => s

/-- Values as bytes, `n` bytes each. -/
def packBytes (n : Nat) (l : List Nat) : List Byte := (l.map (leBytes n)).flatten

/-- The 32 bytes of one cube of a stationary operand (R453): K-major, at the width of the class in force, zero-padded. -/
def Stat.cube (x : Stat) (m : Mode) (i j : Nat) : List Byte :=
  let code := fun k n => nth (nth x.codes (4 * j + n)) (m.kq * i + k)
  let es := ((List.range m.kq).map fun k => (List.range 4).map fun n => code k n).flatten
  padTo 32 (if m.cls == 16 then packBytes 2 es
    else if m.cls == 4 then (List.range (es.length / 2)).map fun e => BitVec.ofNat 8 (nth es (2 * e) % 16 + nth es (2 * e + 1) % 16 * 16)
    else packBytes 1 es)

/-- The 64 bytes of one cube of an OS accumulator set (R453). -/
def setCube (x : List (List Int)) (i j : Nat) : List Byte :=
  packBytes 4 (((List.range 4).map fun m => (List.range 4).map fun n => unsignedOf 32 (nth (nth x (4 * i + m)) (4 * j + n))).flatten)

/-- The byte at an offset of a tile's STATIONARY view in cycle `c` (R453): each cube shows what its own registers hold (R59, R60). -/
def Tile.stationaryByte (x : Tile) (c o : Nat) : Byte :=
  let st := fun (f : Nat → Nat → Stat) (o : Nat) =>
    let (i, j) := (o / 32 / 16, o / 32 % 16)
    nth ((f i j).cube x.passMode i j) (o % 32)
  let os := fun (k o : Nat) => nth (setCube (nth x.sets k) (o / 64 / 16) (o / 64 % 16)) (o % 64)
  if o < 0x2000 then st (x.cubeActive c) o
  else if o < 0x4000 then st (x.cubeShadow c) (o - 0x2000)
  else if o < 0x8000 then os 0 (o - 0x4000)
  else if o < 0xC000 then os 1 (o - 0x8000)
  else 0

/-- The byte at an offset of a tile's BANKS view (R453). -/
def Tile.bankByte (x : Tile) (o : Nat) : Byte :=
  if o < 0x100000 then
    let key := o / 0x20000 * 32768 + o % 0x20000 / 4
    BitVec.ofNat 8 ((sparseGet 0 x.banks key).toNat / 256 ^ (o % 4))
  else 0

/-- Aperture `a`'s selection: its space, its tile and its first local address (R455). -/
def State.aperture (s : State) (a : Nat) : Nat × Nat × Nat :=
  let w := s.reg (Reg.dbgApSel a)
  (bits w 55 52, bits w 51 48, bits w 42 22 * 2 ^ 22)

/-- The aperture an offset lies in, with the offset within it. -/
def apertureAt (off : Nat) : Option (Nat × Nat) :=
  if 0x1000000 ≤ off ∧ off < 0x1400000 then some (0, off - 0x1000000)
  else if 0x1400000 ≤ off ∧ off < 0x1800000 then some (1, off - 0x1400000)
  else none

/-- Eight bytes of a list. -/
def eightAt (l : List Byte) (o : Nat) : Word := word (leNat ((l.drop o).take 8))

/-- The barrow view and the lane view (R452): 0x180_0000 and 0x184_0000. Entries not in use read zero. -/
def State.viewWindow (s : State) (off : Nat) : Word × State :=
  if 0x1800000 ≤ off ∧ off < 0x1800000 + 0x2000 * s.straps.barrows then
    let o := off - 0x1800000
    let e := o % 0x2000 / 0x200
    let q := (s.barrow (o / 0x2000)).q
    let d := if e < 8 then (q.filter fun x => !x.running)[e]? else if e < 10 then (q.filter fun x => x.running)[e - 8]? else none
    match d with
    | some d => let (l, s) := s.descImage d; (eightAt l (o % 0x200), s)
    | none => (0, s)
  else if 0x1840000 ≤ off ∧ off < 0x1840000 + 0x1000 * s.straps.clusters then
    let o := off - 0x1840000
    let (l, s) := s.laneImage ⟨o / 0x1000, o % 0x1000 / 0x400⟩
    (eightAt l (o % 0x400), s)
  else (0, s)

/-- A read of 8 bytes of scratch, banks, books or tables: a resting tile or cluster wakes and the read waits for it; an uncorrectable word reads
zeros (R392, R393, R454). -/
def State.debugScratch (s : State) (off a : Nat) : State :=
  let s := s.countDebug (s.lessee a)
  match domOf s.straps a with
  | some d =>
    if s.restOf d != .awake then { s.wakeDom d with debugHeld := s.debugHeld ++ [(off, a)] }
    else
      let (ok, s) := s.checkScr none none a
      s.emit (.regCpl off (if ok then word (s.rdNat a 8) else 0))
  | none => s.emit (.regCpl off 0)

/-- A naturally aligned 64-bit read of the debug range. -/
def State.debugRead (s : State) (off : Nat) : State :=
  match apertureAt off with
  | some (a, o) =>
    let (space, tile, base) := s.aperture a
    if space == 0 then
      let x := base + o
      match placeOf s.straps x with
      | .attached => s.debugAttached off x
      | .none => s.emit (.regCpl off 0)
      | _ => s.debugScratch off x
    else if space ≤ 2 ∧ tile < s.straps.tiles then
      let x := s.tile tile
      let f := if space == 1 then x.bankByte else x.stationaryByte s.cyc
      (s.countDebug x.lease).emit (.regCpl off (word (leNat ((List.range 8).map fun i => f (o + i)))))
    else s.emit (.regCpl off 0)
  | none =>
    let (v, s) := s.viewWindow off
    s.emit (.regCpl off v)

/-- May a debug write change scratch at this address (R454)? -/
def State.debugMayWrite (s : State) (a : Nat) : Bool :=
  match placeOf s.straps a with
  | .tile t _ => (s.tile t).lease.isNone && !(s.tile t).clearing
  | .cluster k o =>
    (s.lessee a).isNone && !((s.cluster k).zeroing.any fun z => decide (z.1 * 0x100000 ≤ o) && decide (o < (z.1 + z.2.1) * 0x100000))
  | _ => false

/-- A naturally aligned debug write of bytes at an offset (R454). -/
def State.debugStore (s : State) (off : Nat) (bs : List Byte) : State :=
  match apertureAt off with
  | some (a, o) =>
    let (space, _, base) := s.aperture a
    let x := base + o
    if space == 0 && s.debugMayWrite x then
      match domOf s.straps x with
      | some d => (if s.restOf d != .awake then s.wakeDom d else s).wrBytes x bs
      | none => s
    else s.regError off
  | none => s.regError off

end Sys2Proof.Machine
end

