-- ==== Sys2Proof/Machine/RegWrite.lean ====
section
/-!
DEFINITION. A write of a register: admission (R428, R430, R436, R444, R445, R451), rights (R412, R417, R447, R449), split halves (R9), access codes
and staging (R10 to R14, R33), and what each register does when it is written.
-/
namespace Sys2Proof.Machine

open Sys2Proof

/-- Who writes: with operator rights or without, and whether it is the Inspector carrying out a command (R411, R412, R447). -/
structure Who where
  operator : Bool
  inspector : Bool
  deriving DecidableEq, Repr, Inhabited

/-- May this writer write a field of a register? The gang job slot is not the kernel's, and ERR_LOG_CONSUMED is only while
ERR_CTRL.consumer is 0 (R449). -/
def State.mayWrite (s : State) (w : Who) (i : RegInst) (f : Field) : Bool :=
  match f.wr with
  | .inspector => w.inspector
  | .operator => w.operator
  | .host =>
    w.operator ||
      !((i.row.name == .errLogConsumed && s.flag Reg.errCtrl 3) ||
        ((i.row.name == .fabJobCfg || i.row.name == .fabJobMap) && nth i.ix 0 == 15 && s.ganged))

/-- The bits of the fields that satisfy a test. -/
def fieldMask (r : RegRow) (p : Field → Bool) : Nat := r.fields.foldl (fun m f => if p f then m + maskNat f.hi f.lo else m) 0

/-- The value and the bits that a write carries (R9). -/
def wVal : WForm → Nat
  | .full v => v.toNat
  | .lo v => v.toNat
  | .hi v => v.toNat * 2 ^ 32
  | .bad => 0
def wMask : WForm → Nat
  | .full _ => allBits
  | .lo _ => loHalf
  | .hi _ => hiHalf
  | .bad => 0

/-- The slot whose open group stages a register's SH fields (R12, R33). -/
def State.stagingSlot (s : State) (i : RegInst) : Option Nat := i.row.member.bind fun (m : List Nat → Nat) => s.openSlot (m i.ix)

/-- A register's value as a writer compares it (R449): the staged value of an SH field in the open group, else the value in force. -/
def State.stagedView (s : State) (off : Nat) (i : RegInst) : Nat :=
  let v := (s.view off).toNat
  match s.stagingSlot i with
  | some g =>
    ((s.group g).staged.filter fun w => w.off == off).foldl (fun (v : Nat) (w : Staged) => maskOr (maskDiff v w.mask) (maskAnd w.val w.mask)) v
  | none => v

/-- What a writer may write of a register with a write that carries the bits `m`: the bits it may, and whether the write is logged. A register
without writable fields ignores the write (R10); a role with no right on any field has it logged, but for fields of R412 alone only when the
value differs; a role with rights on some has it logged when the value of another differs (R412, R449). -/
def State.rights (s : State) (w : Who) (off : Nat) (i : RegInst) (m v : Nat) : Nat × Bool :=
  let mine := fieldMask i.row fun f => f.acc != .ro && s.mayWrite w i f
  let other := fieldMask i.row fun f => f.acc != .ro && !s.mayWrite w i f
  let fixed := w.operator && i.row.fields.all fun f => f.acc == .ro || f.wr == .inspector
  let differs := maskAnd (maskAnd other m) v != maskAnd (maskAnd other m) (s.stagedView off i)
  if other == 0 then (mine, false)
  else if mine == 0 && !fixed then (0, true)
  else (mine, differs)

/-! ## What each register does (R10 to R13 and the owning chapters) -/

/-- Mailbox commands that wait or run (INS_CMD_STATUS.busy). -/
def State.mailBusy (s : State) : Bool := s.flag Reg.insCmdStatus 0

/-- The first bytes of INS_CMD_BUF. -/
def State.mailBytes (s : State) (n : Nat) : List Byte :=
  ((List.range ((n + 7) / 8)).map fun i => leBytes 8 (s.reg (Reg.insCmdBuf i)).toNat).flatten.take n

/-- INS_CMD_DOOR written (R409, R419): a length of 40 to 4,096 submits the command; with the queue full the write is an access error. -/
def State.wrDoor (s : State) (v : Word) : State :=
  let n := bits v 12 0
  if n < 40 || 4096 < n || 8 ≤ s.insp.queue.length then s.regError Reg.insCmdDoor
  else s.updInsp fun i => { i with door := some (s.mailBytes n) }

/-- MEM_CTRL written (R316). -/
def State.wrMemCtrl (s : State) (new : Word) : State :=
  if s.flag Reg.memCtrl 0 then (if bit new 0 then s else s.regError Reg.memCtrl)
  else if bit new 0 && s.mapBad then s.regError Reg.memCtrl
  else s.setReg Reg.memCtrl new

/-- MEM_HPA written (R460). -/
def State.wrHpa (s : State) (new : Word) : State :=
  if 2 ^ 55 < bits new 54 12 * 4096 + s.dataBytes then s.regError Reg.memHpa else s.setReg Reg.memHpa new

/-- CTX_SUBMIT written (R213). -/
def State.wrSubmit (s : State) (c : Nat) (new : Word) : State :=
  let w := bits new 15 0
  if w < 1 || 60000 < w then s.regError (Reg.ctxSubmit c) else s.setReg (Reg.ctxSubmit c) new

/-- CTX_NUM_STATUS written (R103): a write that clears calib in the cycle of a calibration event leaves it set (R11). -/
def State.wrNumStatus (s : State) (a : Nat) (old new : Word) : State :=
  let clears := bit old 0 && !bit new 0
  if clears && (s.ctx a).calibSet == some s.cyc then s.setReg (Reg.ctxNumStatus a) (setBits new 0 0 1)
  else
    let s := s.setReg (Reg.ctxNumStatus a) new
    if clears then s.updCtx a fun x => { x with calibClr := some s.cyc } else s

/-- A register's action: `old` and `new` are its words before and after the RW, W1C and W1S fields take the write, `v` the bits written to
fields the writer may write. -/
def State.act (s : State) (w : Who) (off : Nat) (i : RegInst) (old new v : Word) : State :=
  let a := nth i.ix 0
  let b := nth i.ix 1
  match i.row.name with
  | .bellCtrl => (s.setReg off new).wroteBellCtrl (bits old 1 0)
  | .bellServo =>
    let code := bits new 7 0
    if code == 0xFF then s else if (s.derive .bellServo i.ix code).isSome then s.applyBasic off .bellServo i.ix code else s.regError off
  | .bellServoX => (s.setReg off new).markExpert Reg.bellServo
  | .cgOpen => s.wrCgOpen a v w.inspector
  | .cgArm => s.wrCgArm a v
  | .cgCancel => s.wrCgCancel a v
  | .xltDinvCtl => s.drainGo v
  | .xltCtrl | .xltPri =>
    let s := s.setReg off new
    s.sendPages (s.pageReqs.filter fun q => q.waiting)
  | .memMap => if s.memOn then s else (s.setReg off new).showPhy (List.range s.straps.channels)
  | .memCtrl => s.wrMemCtrl new
  | .memClearCtl => s.clearGo v
  | .memHpa => s.wrHpa new
  | .pwrCap => s.wrCap new
  | .pwrTherm => s.wrTherm new
  | .pwrRest => s.wrRest new
  | .pwrTest => s.wrPwrTest new
  | .ctxCmd => s.wrCmd v
  | .ctxAttn => s.clearAttn a v
  | .ctxRingBase => s.wrBase off (s.ringOn a b) new
  | .ctxRingCfg => s.wrRingCfg a b new
  | .ctxCqBase => s.wrBase off (s.flag (Reg.ctxCqCfg a) 0) new
  | .ctxCqCfg => s.wrCqCfg a new
  | .ctxSubmit => s.wrSubmit a new
  | .ctxKabort => s.wrAbort a true v
  | .ctxAbort => s.wrAbort a false v
  | .ctxDoorbell => s.doorbell a v
  | .ctxCqHead => s.wrCqHead a (bits new 31 0)
  | .ctxUndelStatus => s.ackUndel a v.toNat
  | .ctxNumStatus => s.wrNumStatus a old new
  | .errLogConsumed => s.wrLogConsumed (bits new 31 0)
  | .errInject => s.wrInject new
  | .errBreset => s.wrBreset v
  | .errHostport => s.wrHostport v
  | .errSampleEn => s.setReg off (word (new.toNat % 2 ^ s.straps.contexts))
  | .insOproot => if s.flag Reg.insCtrl 0 then s else s.setReg off new
  | .insCmdDoor => s.wrDoor v
  | .insCmdBuf => if s.mailBusy then s.regError off else s.setReg off new
  | .fabPortCfg => s.wrPort a new
  | _ => s.setReg off new

/-- Fields that a C1 lacks in a register it has: pt_en and hwalk, which read zero and ignore writes there (R266). -/
def deadBits (t : Straps) (i : RegInst) : Nat := if t.build == .c1 && i.row.name == .ctxXltCfg then maskNat 41 40 else 0

/-- A write of the value `v` under the bits `m` a writer may write and the write carries: SH fields are staged in the open group, or the write is
an access error (R12); the others act. -/
def State.perform (s : State) (w : Who) (off : Nat) (i : RegInst) (m v : Nat) : State :=
  let m := maskDiff m (deadBits s.straps i)
  let of := fun (a : Acc) => maskAnd m (fieldMask i.row fun f => f.acc == a)
  let (sh, rw, w1c, w1s, wo) := (of .sh, of .rw, of .w1c, of .w1s, of .wo)
  let s :=
    if sh == 0 then s
    else match s.stagingSlot i with
      | some g => s.stage g off sh (maskAnd v sh)
      | none => s.regError off
  let rest := maskOr (maskOr rw w1c) (maskOr w1s wo)
  if rest == 0 then s
  else
    let old := (s.reg off).toNat
    let x := maskOr (maskDiff old rw) (maskAnd v rw)
    let x := maskOr (maskDiff x (maskAnd v w1c)) (maskAnd v w1s)
    let x := if i.row.name == .insCmdBuf then maskOr (maskDiff x wo) (maskAnd v wo) else x
    s.act w off i (word old) (word x) (word (maskAnd v (maskOr wo (maskOr w1c w1s))))

/-- Does a slot's state stop a write of its pages (R451)? FREE and TEARDOWN slots take none; while a context reset is PENDING the RW and WO
fields of the kernel page take none. -/
def State.slotStops (s : State) (off : Nat) (i : RegInst) (m : Nat) : Option Bool :=
  match pageCtx off with
  | some (c, kernel) =>
    if s.slotGone c then some kernel
    else if kernel && (s.ctx c).rst.isSome && maskAnd m (fieldMask i.row fun f => f.acc == .rw || f.acc == .wo) != 0 then some true
    else none
  | none => none

/-- The half held for a register whose halves join (R9). -/
def State.latch (s : State) (off : Nat) : Option Nat := sparseGet none s.latches off
def State.setLatch (s : State) (off : Nat) (v : Option Nat) : State := { s with latches := sparseSet none s.latches off v }

/-- A write to a register of the map. -/
def State.writeReg (s : State) (w : Who) (off : Nat) (i : RegInst) (f : WForm) : State :=
  match s.slotStops off i (wMask f) with
  | some logged => if logged then s.regError off else s
  | none =>
    let (mine, log) := s.rights w off i (wMask f) (wVal f)
    let s := if log then s.regError off else s
    if maskAnd mine (wMask f) == 0 then s
    else if splitJoins i.row then
      match f with
      | .lo v => s.setLatch off (some v.toNat)
      | .hi v => (s.setLatch off none).perform w off i mine (v.toNat * 2 ^ 32 + (s.latch off).getD 0)
      | .full v => (s.setLatch off none).perform w off i mine v.toNat
      | .bad => s
    else s.perform w off i (maskAnd mine (wMask f)) (wVal f)

/-- Bytes of a write in the debug range, with their offset. -/
def wBytes : WForm → Nat × List Byte
  | .full v => (0, leBytes 8 v.toNat)
  | .lo v => (0, leBytes 4 v.toNat)
  | .hi v => (4, leBytes 4 v.toNat)
  | .bad => (0, [])

/-- Has an armed REG_ACCESS injection fired at the register of an offset (R344, R352)? The access is then treated as misaligned. -/
def State.accessInj (s : State) (off : Nat) : Bool :=
  match s.inject with
  | some j => j.det == 0x14 && j.param == off / 8 * 8
  | none => false
def State.injError (s : State) (off : Nat) : State :=
  s.disarm.detect { det := 0x14, sev := 0, place := 55, injected := true, addr := off, addrKind := 4 }

/-- A write at an offset of this block's own space. -/
def State.localWrite (s : State) (w : Who) (off : Nat) (f : WForm) : State :=
  if s.fld Reg.insBoot 3 0 != 6 && !(decide (0xC000 ≤ off) && decide (off < 0x10000)) then s
  else if s.breset.isSome && !(decide (0x8000 ≤ off) && decide (off < 0xA000)) then s
  else if s.accessInj off then s.injError off
  else if f == .bad || off % 8 != 0 then s.regError off
  else if 0x1000000 ≤ off then
    if w.operator then s.debugStore (off + (wBytes f).1) (wBytes f).2 else s.regError off
  else if absentQuiet s.straps off then s
  else
    match decodeReg s.straps off with
    | some i => s.writeReg w off i f
    | none => s.regError off

/-- A host-port write (R428, R444, R447): discarded while the port is frozen, but for ERR_HOSTPORT; forwarded to the member that address bits
27:25 name, or an access error beyond the gang. -/
def State.busWrite (s : State) (addr : Nat) (mark : Bool) (f : WForm) : State :=
  let m := addr / 2 ^ 25
  let off := addr % 2 ^ 25
  if !s.live || (s.pins.frozen && addr != s.gangM * 2 ^ 25 + Reg.errHostport) then s
  else if s.gangN ≤ m then s.regError addr
  else if m != s.gangM then s.emit (.relayWr m off mark f)
  else s.localWrite ⟨mark, false⟩ off f

/-- A host-port read of the debug range: all ones while the port is frozen (R428). -/
def State.busDebugRead (s : State) (addr : Nat) : State :=
  let m := addr / 2 ^ 25
  let off := addr % 2 ^ 25
  if !s.live || !s.pins.regsReady then s
  else if s.pins.frozen then s.emit (.regCpl addr (word allBits))
  else if s.gangN ≤ m then s.emit (.regCpl addr 0)
  else if m != s.gangM then s.emit (.relayRd m off)
  else if s.accessInj off then (s.injError off).emit (.regCpl off 0)
  else if off % 8 != 0 then (s.regError off).emit (.regCpl off 0)
  else if off < 0x1000000 then
    let s := s.settleRead off
    s.emit (.regCpl off (s.readReg true off))
  else s.debugRead off

/-! ## The commands that write one register

Each is a host-port write of its own register, in this block's space, so that every rule of admission and rights meets it. -/

def wrOut (s : State) (off : Nat) (mark : Bool) (f : WForm) : Host.Outcome State Fault Refusal :=
  .next (s.busWrite (s.gangM * 2 ^ 25 + off) mark f)

def execCtxDoorbell (ctx : Nat) (mark : Bool) (f : WForm) (s : State) : Host.Outcome State Fault Refusal := wrOut s (Reg.ctxDoorbell ctx) mark f
def execCtxAbort (ctx : Nat) (mark : Bool) (f : WForm) (s : State) : Host.Outcome State Fault Refusal := wrOut s (Reg.ctxAbort ctx) mark f
def execCtxKabort (ctx : Nat) (mark : Bool) (f : WForm) (s : State) : Host.Outcome State Fault Refusal := wrOut s (Reg.ctxKabort ctx) mark f
def execCtxCqHeadWrite (ctx : Nat) (mark : Bool) (f : WForm) (s : State) : Host.Outcome State Fault Refusal := wrOut s (Reg.ctxCqHead ctx) mark f
def execRingEnable (ctx ring : Nat) (mark : Bool) (f : WForm) (s : State) : Host.Outcome State Fault Refusal :=
  wrOut s (Reg.ctxRingCfg ctx ring) mark f
def execCqEnable (ctx : Nat) (mark : Bool) (f : WForm) (s : State) : Host.Outcome State Fault Refusal := wrOut s (Reg.ctxCqCfg ctx) mark f
def execUndelAck (ctx : Nat) (mark : Bool) (f : WForm) (s : State) : Host.Outcome State Fault Refusal := wrOut s (Reg.ctxUndelStatus ctx) mark f
def execDrainInvalidate (mark : Bool) (f : WForm) (s : State) : Host.Outcome State Fault Refusal := wrOut s Reg.xltDinvCtl mark f
def execPortEnable (port : Nat) (mark : Bool) (f : WForm) (s : State) : Host.Outcome State Fault Refusal := wrOut s (Reg.fabPortCfg port) mark f
def execMemClear (mark : Bool) (f : WForm) (s : State) : Host.Outcome State Fault Refusal := wrOut s Reg.memClearCtl mark f
def execMemEnable (mark : Bool) (f : WForm) (s : State) : Host.Outcome State Fault Refusal := wrOut s Reg.memCtrl mark f
def execMemHpaWrite (mark : Bool) (f : WForm) (s : State) : Host.Outcome State Fault Refusal := wrOut s Reg.memHpa mark f
def execMemInject (mark : Bool) (f : WForm) (s : State) : Host.Outcome State Fault Refusal := wrOut s Reg.memInject mark f

/-- A write of CTX_CMD with a slot and an op (R321, R340): the row gives the slot, the form its width; the op is the row's. -/
def ctxCmdForm (ctx op : Nat) : WForm → WForm
  | .full v => .full (word (v.toNat / 2 ^ 14 * 2 ^ 14 + ctx % 64 * 2 ^ 8 + v.toNat / 8 % 32 * 8 + op))
  | .lo v => .lo (BitVec.ofNat 32 (v.toNat / 2 ^ 14 * 2 ^ 14 + ctx % 64 * 2 ^ 8 + v.toNat / 8 % 32 * 8 + op))
  | .hi v => .hi v
  | .bad => .bad
def execCtxCreate (ctx : Nat) (mark : Bool) (f : WForm) (s : State) : Host.Outcome State Fault Refusal := wrOut s Reg.ctxCmd mark (ctxCmdForm ctx 1 f)
def execCtxResume (ctx : Nat) (mark : Bool) (f : WForm) (s : State) : Host.Outcome State Fault Refusal := wrOut s Reg.ctxCmd mark (ctxCmdForm ctx 2 f)
def execCtxStop (ctx : Nat) (mark : Bool) (f : WForm) (s : State) : Host.Outcome State Fault Refusal := wrOut s Reg.ctxCmd mark (ctxCmdForm ctx 3 f)
def execCtxReset (ctx : Nat) (mark : Bool) (f : WForm) (s : State) : Host.Outcome State Fault Refusal := wrOut s Reg.ctxCmd mark (ctxCmdForm ctx 4 f)
def execCtxDestroy (ctx : Nat) (mark : Bool) (f : WForm) (s : State) : Host.Outcome State Fault Refusal := wrOut s Reg.ctxCmd mark (ctxCmdForm ctx 5 f)

def execCtxAttnClear (ctx : Nat) (mark : Bool) (f : WForm) (s : State) : Host.Outcome State Fault Refusal := wrOut s (Reg.ctxAttn ctx) mark f
def execCtxIrqLineWrite (ctx : Nat) (mark : Bool) (f : WForm) (s : State) : Host.Outcome State Fault Refusal := wrOut s (Reg.ctxIrq ctx) mark f
def execErrInject (mark : Bool) (f : WForm) (s : State) : Host.Outcome State Fault Refusal := wrOut s Reg.errInject mark f
def execErrLogConsumedWrite (mark : Bool) (f : WForm) (s : State) : Host.Outcome State Fault Refusal := wrOut s Reg.errLogConsumed mark f
def execErrBresetGo (mark : Bool) (f : WForm) (s : State) : Host.Outcome State Fault Refusal := wrOut s Reg.errBreset mark f
def execPwrCapWrite (mark : Bool) (f : WForm) (s : State) : Host.Outcome State Fault Refusal := wrOut s Reg.pwrCap mark f
def execForceAlert (mark : Bool) (f : WForm) (s : State) : Host.Outcome State Fault Refusal := wrOut s Reg.pwrTest mark f
def execForceDroop (mark : Bool) (f : WForm) (s : State) : Host.Outcome State Fault Refusal := wrOut s Reg.pwrTest mark f
def execInsCtrlLock (mark : Bool) (f : WForm) (s : State) : Host.Outcome State Fault Refusal := wrOut s Reg.insCtrl mark f
def execHostportRelease (mark : Bool) (f : WForm) (s : State) : Host.Outcome State Fault Refusal := wrOut s Reg.errHostport mark f
def execCgOpen (slot : Nat) (mark : Bool) (f : WForm) (s : State) : Host.Outcome State Fault Refusal := wrOut s (Reg.cgOpen slot) mark f
def execCgArm (slot : Nat) (mark : Bool) (f : WForm) (s : State) : Host.Outcome State Fault Refusal := wrOut s (Reg.cgArm slot) mark f

/-- DEBUG_READ and DEBUG_WRITE (R452 to R454): accesses of the debug range with the operator mark. -/
def execDebugRead (off : Nat) (s : State) : Host.Outcome State Fault Refusal := .next (s.busDebugRead (s.gangM * 2 ^ 25 + off))
def execDebugWrite (off : Nat) (f : WForm) (s : State) : Host.Outcome State Fault Refusal := wrOut s off true f

end Sys2Proof.Machine
end

