-- ==== Sys2Proof/Machine/Inspector.lean ====
section
/-!
DEFINITION. The Inspector: its watchdog and self-check (R397 to R399), authenticated commands (R407 to R412), memory keys and job keys (R413 to
R416), and the commit-group commands and register writes that a command in progress may wait on.
-/
namespace Sys2Proof.Machine

open Sys2Proof

/-! ## Responses (R408, R418) -/

/-- A message of a kind sent to a fabric number in fragments of at most 256 bytes (R418). -/
def State.sendFrags (s : State) (dst kind ident count : Nat) (bs : List Byte) : List Nat → State
  | [] => s
  | i :: r =>
    (s.originate none 0 dst { src := 0, jgen := 0, gctx := 0, tag := 0, body := .mgmt ⟨kind, ident, i, count, (bs.drop (256 * i)).take 256⟩ }).sendFrags
      dst kind ident count bs r
def State.sendMgmt (s : State) (dst kind ident : Nat) (bs : List Byte) : State :=
  let n := max 1 ((bs.length + 255) / 256)
  s.sendFrags dst kind ident n bs (List.range n)

/-- Bytes put into INS_RSP_BUF, whose other bytes read zero. -/
def State.putRsp (s : State) : Nat → Nat → List Byte → State
  | 0, _, _ => s
  | n + 1, i, bs => (s.setReg (Reg.insRspBuf i) (eightAt bs 0)).putRsp n (i + 1) (bs.drop 8)

/-- The keys of the operator session, derived from its export master secret (R407). -/
def Inspector.cmdKey (i : Inspector) : List Byte := hkdfExpand i.secret (asciiBytes "tolzu command") 48
def Inspector.rspKey (i : Inspector) : List Byte := hkdfExpand i.secret (asciiBytes "tolzu response") 48
def Inspector.wrapKey (i : Inspector) : List Byte := hkdfExpand i.secret (asciiBytes "tolzu wrap") 32

/-- The bytes of a response before its tag (R408). -/
def rspHead (q : QCmd) (fabric status stage : Nat) (result : List Byte) : List Byte :=
  leBytes 2 (q.op + 0x8000) ++ leBytes 2 status ++ leBytes 4 result.length ++ leBytes 8 q.frame.counter ++ leBytes 4 q.frame.session ++
    leBytes 2 fabric ++ leBytes 2 stage ++ result

/-- A response sent the way its command came; the tag is zero for checks 1 to 4 and BUSY (R409). -/
def State.cmdRespond (s : State) (q : QCmd) (status stage : Nat) (result : List Byte) (tagged : Bool) : State :=
  let h := rspHead q (s.fld Reg.fabId 11 0) status stage result
  let bs := h ++ (if tagged then (hmac384 s.insp.rspKey h).take 16 else leBytes 16 0)
  let s := (s.setFld Reg.insCmdStatus 15 8 status).emit (.response (q.op + 0x8000) status q.frame.counter stage result)
  let s := if q.frame.mailbox then s.putRsp 512 0 bs else s
  let waiting := s.insp.queue.any fun (x : QCmd) => x.frame.mailbox
  let s := if q.frame.mailbox && stage == 2 && !waiting then s.setFld Reg.insCmdStatus 0 0 0 else s
  match q.msg with
  | some (src, ident) => s.sendMgmt src 2 ident bs
  | none => s

/-- The oldest message of a kind that waits for the Inspector: its source and identifier, and the state without it. -/
def State.takeMsg (s : State) (kind : Nat) : Option (Nat × Nat) × State :=
  match s.insp.messages.find? fun (m : Partial) => m.kind == kind with
  | some m => (some (m.src, m.ident), s.updInsp fun i => { i with messages := i.messages.erase m })
  | none => (none, s)

/-! ## The register accesses of a command (R411, R412) -/

def inspector : Who := ⟨true, true⟩

/-- A register read with operator rights; a read of the debug range gives the value as it stands. -/
def State.localRead (s : State) (off : Nat) : Word × State :=
  if s.accessInj off then (0, s.injError off)
  else if off % 8 != 0 then (0, s.regError off)
  else if off < 0x1000000 then
    let s := s.settleRead off
    (s.readReg true off, s)
  else
    match apertureAt off with
    | some (a, o) =>
      let (space, tile, base) := s.aperture a
      let x := base + o
      if space == 0 then
        match placeOf s.straps x with
        | .attached => let (ok, s) := s.walkLine 64 x; (if ok then word (s.rdNat x 8) else 0, s)
        | .none => (0, s)
        | _ => (word (s.rdNat x 8), s.countDebug (s.lessee x))
      else if space ≤ 2 ∧ tile < s.straps.tiles then
        let y := s.tile tile
        let f := if space == 1 then y.bankByte else y.stationaryByte s.cyc
        (word (leNat ((List.range 8).map fun i => f (o + i))), s.countDebug y.lease)
      else (0, s)
    | none => s.viewWindow off

/-- REG_WRITE's pairs in order; a write that is logged as a register access error stops it, and its index is answered. -/
def State.cmdWrites (s : State) (k : Nat) : List (Nat × BitVec 64) → State × Option Nat
  | [] => (s, none)
  | (off, v) :: r =>
    let p := (s.setFld (Reg.errCnt 0x14) 31 0 0).localWrite inspector off (.full v)
    let s := s.localWrite inspector off (.full v)
    if p.fld (Reg.errCnt 0x14) 31 0 != 0 then (s, some k) else s.cmdWrites (k + 1) r

/-- REG_READ's values in order. -/
def State.cmdReads (s : State) : List Nat → List Byte × State
  | [] => ([], s)
  | off :: r =>
    let (v, s) := s.localRead off
    let (l, s) := s.cmdReads r
    (leBytes 8 v.toNat ++ l, s)

/-- CG_RUN's writes of SH fields; an offset without one is a register access error. -/
def State.cgStages (s : State) : List (Nat × BitVec 64) → State
  | [] => s
  | (off, v) :: r =>
    (match decodeReg s.straps off with
     | some i => if i.row.member.isSome then s.localWrite inspector off (.full v) else s.regError off
     | none => s.regError off).cgStages r

/-- Do members of a slot's armed group have still to acknowledge? -/
def State.cgWaits (s : State) (slot : Nat) : Bool :=
  let g := s.group slot
  g.st == .armed && maskDiff g.members g.acked != 0

/-- The result of CG_RUN: CG_STATUS as it stands. -/
def State.cgResult (s : State) (slot : Nat) : List Byte := leBytes 8 (s.group slot).statusWord

/-- CG_RUN (R34, R39, R411): opened, staged and armed; nothing is staged when the slot does not open. -/
def State.cgStart (s : State) (slot ident members : Nat) (job : BitVec 64) (pairs : List (Nat × BitVec 64)) (tick : BitVec 64) : State :=
  let busy := (s.group slot).st.pending
  let s := s.localWrite inspector (Reg.cgOpen slot) (.full (word (ident % 2 ^ 16 * 2 ^ 32 + members % 2 ^ 32)))
  if busy || (s.group slot).st != .opened then s
  else
    let s := s.localWrite inspector (Reg.cgJob slot) (.full job)
    (s.cgStages pairs).localWrite inspector (Reg.cgArm slot) (.full tick)

/-! ## Keys (R413 to R416) -/

/-- JOB_KEY_LOAD. -/
def State.keyLoad (s : State) (k p : Nat) (wrapped : List Byte) : State × Nat × List Byte :=
  if p == s.keyInForce k then (s, 7, [Config.refuseCause 0])
  else if (s.keyPhase k p).until_.isSome then (s, 7, [Config.refuseCause 1])
  else
    match Config.keyUnwrap s.insp.wrapKey wrapped with
    | none => (s, 7, [Config.refuseCause 2])
    | some key =>
      ((s.updKey k p fun _ => { key := some key, count := 0, until_ := none }).updInsp fun i => { i with jobKeyLoads := i.jobKeyLoads + 1 }, 0, [])

/-- JOB_KEY_ERASE. -/
def State.keyErase (s : State) (k : Nat) : State × Nat × List Byte :=
  if (List.range s.straps.jobSlots).any fun j => s.flag (Reg.fabJobCfg j) 63 && s.fld (Reg.fabJobCfg j) 59 56 == k then (s, 7, [Config.refuseCause 0])
  else ((s.updKey k 0 fun _ => KeyPhase.empty).updKey k 1 fun _ => KeyPhase.empty, 0, [])

/-- MEM_KEY_ROTATE: the next slot CURRENT, the old one DRAINING (R414). -/
def State.keyRotate (s : State) : State × Nat × List Byte :=
  if s.draining.isSome then (s, 7, [Config.refuseCause 1])
  else
    let c := s.curSlot
    let (v, s) := s.draw
    (s.updMem fun m => { m with slots := put (put m.slots c 2) ((c + 1) % 16) 1, slotKeys := put m.slotKeys ((c + 1) % 16) v,
                                rotations := m.rotations + 1 }, 0, [])

/-! ## Commands (R408 to R411) -/

/-- The opcodes of R411, and the bodies they have. -/
def opcodes : List Nat := [0x01, 0x10, 0x11, 0x12, 0x20, 0x21, 0x30, 0x40]
def bodyOp : CmdBody → Nat
  | .echo _ => 0x01 | .regWrite _ => 0x10 | .regRead _ => 0x11 | .cgRun .. => 0x12 | .jobKeyLoad .. => 0x20 | .jobKeyErase _ => 0x21
  | .memKeyRotate => 0x30 | .blockReset => 0x40 | .other _ | .malformed => 0
/-- Does a payload of a length have its opcode's layout? -/
def bodyFits (n : Nat) : CmdBody → Bool
  | .echo b | .other b => n == b.length
  | .regWrite l => decide (l.length ≤ 336) && n == 12 * l.length
  | .regRead l => decide (l.length ≤ 500) && n == 4 * l.length
  | .cgRun slot _ _ _ l _ => decide (slot < 4) && decide (l.length ≤ 300)
  | .jobKeyLoad k p w => decide (k < 16) && decide (p < 2) && w.length == 40
  | .jobKeyErase k => decide (k < 16)
  | .memKeyRotate | .blockReset => n == 0
  | .malformed => false

/-- The payload of a command; the places of the fields of three opcodes are opaque (log entry 61). -/
def bodyBytes : CmdBody → List Byte
  | .echo b | .other b => b
  | .regWrite l => (l.map fun (p : Nat × BitVec 64) => leBytes 4 p.1 ++ leBytes 8 p.2.toNat).flatten
  | .regRead l => (l.map fun (o : Nat) => leBytes 4 o).flatten
  | .memKeyRotate | .blockReset | .malformed => []
  | .cgRun a b c d e f => Config.cmdPayload (.cgRun a b c d e f)
  | .jobKeyLoad k p w => Config.cmdPayload (.jobKeyLoad k p w)
  | .jobKeyErase k => Config.cmdPayload (.jobKeyErase k)

/-- Bytes cut into pieces of `n`; the last may be short. -/
def cutBytes (n : Nat) (bs : List Byte) : List (List Byte) := (List.range ((bs.length + n - 1) / n)).map fun i => (bs.drop (n * i)).take n

/-- The payload that an opcode reads from bytes. -/
def readBody (op : Nat) (bs : List Byte) : CmdBody :=
  if op = 0x01 then .echo bs
  else if op = 0x10 then
    if bs.length % 12 != 0 then .malformed
    else .regWrite ((cutBytes 12 bs).map fun p => (leNat (p.take 4), BitVec.ofNat 64 (leNat (p.drop 4))))
  else if op = 0x11 then if bs.length % 4 != 0 then .malformed else .regRead ((cutBytes 4 bs).map leNat)
  else if op = 0x30 then if bs.isEmpty then .memKeyRotate else .malformed
  else if op = 0x40 then if bs.isEmpty then .blockReset else .malformed
  else if opcodes.contains op then (let b := Config.cmdParse op bs; if bodyOp b == op then b else .malformed)
  else .other bs

/-- The bytes of a command before its tag (R408). -/
def cmdBytes (op : Nat) (c : CmdFrame) : List Byte :=
  leBytes 2 op ++ leBytes 2 0 ++ leBytes 4 c.length ++ leBytes 8 c.counter ++ leBytes 4 c.session ++ leBytes 2 c.target ++ leBytes 2 0 ++ bodyBytes c.body

/-- A command whose operands the sender gives. -/
def QCmd.of (op : Nat) (c : CmdFrame) (m : Option (Nat × Nat)) : QCmd := ⟨op, c, cmdBytes op c, m⟩

/-- A command read from its bytes: too short, a length that disagrees, or a nonzero byte where R408 has zero, is an inconsistent layout. -/
def QCmd.read (bs : List Byte) (mailbox : Bool) (m : Option (Nat × Nat)) : QCmd :=
  let at_ := fun (o n : Nat) => leNat ((bs.drop o).take n)
  let op := at_ 0 2
  let n := at_ 4 4
  let ok := bs.length == n + 40 && at_ 2 2 == 0 && at_ 0x16 2 == 0
  let body := if ok then readBody op ((bs.drop 0x18).take n) else .malformed
  ⟨op, { length := n, counter := at_ 8 8, session := at_ 0x10 4, target := at_ 0x14 2 % 2 ^ 12, body := body, tag := leNat (bs.drop (bs.length - 16)),
         mailbox := mailbox }, bs.take (bs.length - 16), m⟩

/-- The tag of a command's bytes: the leftmost 128 bits of HMAC-SHA-384 under cmd_key (R408). -/
def cmdTag (key bs : List Byte) : Nat := leNat ((hmac384 key bs).take 16)

/-- Check 1 of R409: length and layout. -/
def QCmd.fits (q : QCmd) : Bool :=
  (if opcodes.contains q.op then bodyOp q.frame.body == q.op else bodyOp q.frame.body == 0) && decide (q.frame.length ≤ 4056) &&
    bodyFits q.frame.length q.frame.body

/-- A command is DONE: its response is stored and sent. -/
def State.cmdDone (s : State) (status : Nat) (result : List Byte) : State :=
  match s.insp.last with
  | some l => (s.updInsp fun i => { i with last := some { l with status := status, result := result, state := 0 } }).cmdRespond l.cmd status 2 result true
  | none => s

/-- What an accepted command does (R411). CG_RUN is DONE once the members have acknowledged. -/
def State.carryOut (s : State) (b : CmdBody) : State :=
  match b with
  | .echo bs => s.cmdDone 0 bs
  | .regWrite l =>
    let (s, e) := s.cmdWrites 0 l
    s.cmdDone 0 (match e with | some k => leBytes 4 k | none => [])
  | .regRead l => let (r, s) := s.cmdReads l; s.cmdDone 0 r
  | .cgRun slot ident members job pairs tick =>
    let s := s.cgStart slot ident members job pairs tick
    if s.cgWaits slot then s else s.cmdDone 0 (s.cgResult slot)
  | .jobKeyLoad k p w => let (s, st, r) := s.keyLoad k p w; s.cmdDone st r
  | .jobKeyErase k => let (s, st, r) := s.keyErase k; s.cmdDone st r
  | .memKeyRotate => let (s, st, r) := s.keyRotate; s.cmdDone st r
  | .blockReset => (s.beginBlockReset 2).cmdDone 0 []
  | .other _ => s.cmdDone 10 []
  | .malformed => s

/-- Is the Inspector carrying out a command? -/
def State.cmdBusy (s : State) : Bool := s.insp.last.any fun (l : LastCmd) => l.state == 1

/-- Check 5 of R409 for a counter at or below the last accepted one: the stored response once more for the same command, else REPLAY. -/
def State.replay (s : State) (q : QCmd) : State :=
  match s.insp.last with
  | some l =>
    if l.cmd.frame.counter == q.frame.counter && l.cmd.frame.tag == q.frame.tag && s.reg Reg.insCmdLast == word q.frame.counter then
      if l.state == 0 then s.cmdRespond q l.status 2 l.result true
      else s.cmdRespond q (if l.state == 1 then 8 else 9) 2 [] true
    else ((s.incSat Reg.insCmdStatus 47 32 1).insEvent (2 ^ 2)).cmdRespond q 5 2 [] true
  | none => ((s.incSat Reg.insCmdStatus 47 32 1).insEvent (2 ^ 2)).cmdRespond q 5 2 [] true

/-- A command taken from the queue: the checks of R409 in order, then ACK and the command. -/
def State.takeCmd (s : State) (q : QCmd) : State :=
  let c := q.frame
  if !q.fits then s.cmdRespond q 1 2 [] false
  else if s.insp.session != some c.session then s.cmdRespond q 2 2 [] false
  else if cmdTag s.insp.cmdKey q.bytes != c.tag then
    ((s.incSat Reg.insCmdStatus 63 48 1).insEvent (2 ^ 1)).cmdRespond q 3 2 [] false
  else if c.target != s.fld Reg.fabId 11 0 then s.cmdRespond q 4 2 [] false
  else if c.counter ≤ (s.reg Reg.insCmdLast).toNat then s.replay q
  else
    let s := (s.setReg Reg.insCmdLast (word c.counter)).updInsp fun i => { i with last := some ⟨q, 0, [], 1⟩ }
    (s.cmdRespond q 0 1 [] true).carryOut c.body

/-- Commands that wait are taken while the Inspector runs and none is in progress. -/
def State.drainCmds : Nat → State → State
  | 0, s => s
  | n + 1, s =>
    if s.insp.st == 1 && !s.cmdBusy then
      match s.insp.queue with
      | q :: r => State.drainCmds n ((s.updInsp fun i => { i with queue := r }).takeCmd q)
      | [] => s
    else s

/-- A CG_RUN in progress whose members need not acknowledge any more is DONE; then the waiting commands follow. -/
def State.cgSettle (s : State) : State :=
  match s.insp.last with
  | some l =>
    if l.state == 1 then
      match l.cmd.frame.body with
      | .cgRun slot _ _ _ _ _ => if s.cgWaits slot then s else (s.cmdDone 0 (s.cgResult slot)).drainCmds 8
      | _ => s
    else s
  | none => s

/-- Does the Inspector accept commands? A halted one does not (R399), and neither does one that has not started. -/
def State.accepts (s : State) : Bool := s.live && s.insp.st != 0 && !(s.insp.st == 3 && !s.insp.wdOn)

/-- Is a command the one in progress, sent again? It is answered at once (log entry 61). -/
def State.repeats (s : State) (q : QCmd) : Bool :=
  s.insp.last.any fun (l : LastCmd) => l.state == 1 && l.cmd.frame.counter == q.frame.counter && l.cmd.frame.tag == q.frame.tag

/-- A command enters the queue of 8, and is taken at once where nothing precedes it; with the queue full a management command is answered BUSY
and a mailbox command is an access error (R409). -/
def State.cmdEnter (s : State) (q : QCmd) : State :=
  if 8 ≤ s.insp.queue.length then (if q.frame.mailbox then s.regError Reg.insCmdDoor else s.cmdRespond q 6 2 [] false)
  else
    let s := if q.frame.mailbox then s.setFld Reg.insCmdStatus 0 0 1 else s
    if s.insp.st == 1 && s.insp.queue.isEmpty && (!s.cmdBusy || s.repeats q) then s.takeCmd q
    else s.updInsp fun i => { i with queue := i.queue ++ [q] }

/-- Management messages that hold commands enter, oldest first. -/
def State.msgSettle : Nat → State → State
  | 0, s => s
  | n + 1, s =>
    match s.insp.messages.find? fun (m : Partial) => m.kind == 1 with
    | some m => State.msgSettle n ((s.updInsp fun i => { i with messages := i.messages.erase m }).cmdEnter (.read m.bytes false (some (m.src, m.ident))))
    | none => s

/-- What has reached the Inspector: the command in progress goes on, and those of the mailbox and of management messages enter. -/
def State.cmdSettle (s : State) : State :=
  let s := s.cgSettle
  if !s.accepts then s
  else
    let s := match s.insp.door with
      | some bs => (s.updInsp fun i => { i with door := none }).cmdEnter (.read bs true none)
      | none => s
    s.msgSettle s.insp.messages.length

/-- A command arrives whose operands its sender gives: through the mailbox, or as a whole management message without a source (log entry 61). -/
def State.cmdArrive (s : State) (op : Nat) (c : CmdFrame) : State :=
  let s := s.cmdSettle
  if s.accepts then s.cmdEnter (.of op c none) else s

def execEcho (c : CmdFrame) (s : State) : Host.Outcome State Fault Refusal := .next (s.cmdArrive 0x01 c)
def execRegWrite (c : CmdFrame) (s : State) : Host.Outcome State Fault Refusal := .next (s.cmdArrive 0x10 c)
def execRegRead (c : CmdFrame) (s : State) : Host.Outcome State Fault Refusal := .next (s.cmdArrive 0x11 c)
def execCgRun (c : CmdFrame) (s : State) : Host.Outcome State Fault Refusal := .next (s.cmdArrive 0x12 c)
def execJobKeyLoad (c : CmdFrame) (s : State) : Host.Outcome State Fault Refusal := .next (s.cmdArrive 0x20 c)
def execJobKeyErase (c : CmdFrame) (s : State) : Host.Outcome State Fault Refusal := .next (s.cmdArrive 0x21 c)
def execMemKeyRotate (c : CmdFrame) (s : State) : Host.Outcome State Fault Refusal := .next (s.cmdArrive 0x30 c)
def execBlockReset (c : CmdFrame) (s : State) : Host.Outcome State Fault Refusal := .next (s.cmdArrive 0x40 c)

/-! ## Register writes and group events that a command in progress may wait on -/

/-- REG_WR (R9). -/
def execRegWr (addr : Nat) (mark : Bool) (f : WForm) (s : State) : Host.Outcome State Fault Refusal := .next (s.busWrite addr mark f).cmdSettle

/-- CG_CANCEL (R36). -/
def execCgCancel (slot : Nat) (mark : Bool) (f : WForm) (s : State) : Host.Outcome State Fault Refusal :=
  .next (s.busWrite (s.gangM * 2 ^ 25 + Reg.cgCancel slot) mark f).cmdSettle

def execCgMemberAck (slot mask : Nat) (s : State) : Host.Outcome State Fault Refusal := .next (cgMemberAckS slot mask s).cmdSettle
def execCgDeadline (slot : Nat) (s : State) : Host.Outcome State Fault Refusal := .next (cgDeadlineS slot s).cmdSettle

/-! ## The watchdog and the self-check (R398, R399) -/

/-- Groups that the Inspector opened and that are not BOUND are cancelled (R398). -/
def State.cancelOwn (s : State) : List Nat → State
  | [] => s
  | i :: r =>
    let g := s.group i
    (if g.byInspector && (g.st == .opened || g.st == .armed) then s.cgAbort i 6 0 else s).cancelOwn r

/-- Samples in progress stop wherever they stand (R364, R398). -/
def State.stopSamples (s : State) : List Nat → State
  | [] => s
  | c :: r =>
    (match (s.ctx c).rst with
     | some x =>
       if x.phase == 1 then
         (let (v, s) := s.draw
          (s.writeDump c x x.words false (some v)).beginZero c x)
       else s
     | none => s).stopSamples r

/-- INS_WATCHDOG_EXPIRY (R398): timeout_ms have passed without a signal, or an injection acts. -/
def insWatchdogExpiryS (s : State) : State :=
  let inj := s.injHits 0x13 52
  if !s.live || !s.insp.wdOn || (!inj && decide (s.up < s.insp.watchFrom + s.fld Reg.pwrInswdt 15 0 * msT)) then s
  else
    let s := if inj then s.disarm else s
    let s := s.detect { det := 0x13, sev := 2, place := 52, injected := inj }
    let s := ((s.incSat Reg.insStatus 63 48 1).insEvent 1).setFld Reg.insStatus 2 0 2
    let s := (s.cancelOwn [0, 1, 2, 3]).stopSamples (List.range s.straps.contexts)
    let s := if s.cmdBusy && s.insp.last.any (fun (l : LastCmd) => l.cmd.frame.mailbox) then s.setFld Reg.insCmdStatus 0 0 0 else s
    s.updInsp fun i => { i with
      st := 2, restartFrom := s.up, wdOn := false
      last := i.last.map fun (l : LastCmd) => if l.state == 1 then { l with state := 2 } else l }

def execInsWatchdogExpiry (s : State) : Host.Outcome State Fault Refusal := .next (insWatchdogExpiryS s)

/-- INSPECTOR_RESTART_DONE (R398): at the earliest after the 10 us of reset; commands that waited are taken. -/
def inspectorRestartDoneS (s : State) : State :=
  if !s.live || s.insp.st != 2 || decide (s.up < s.insp.restartFrom + 10 * usT) then s
  else ((s.setFld Reg.insStatus 2 0 1).updInsp fun i => { i with st := 1, wdOn := true, watchFrom := s.up, lastCheck := s.up }).drainCmds 8

def execInspectorRestartDone (s : State) : Host.Outcome State Fault Refusal := .next (inspectorRestartDoneS s)

/-- ROM_SELF_CHECK (R399): every 60 s while running, where a mismatch halts the core under the armed watchdog; at a restart, where a mismatch
disarms it. -/
def romSelfCheckS (ok : Bool) (s : State) : State :=
  if !s.live then s
  else if s.insp.st == 1 then
    if s.up < s.insp.lastCheck + 60000 * msT then s
    else if ok then s.updInsp fun i => { i with lastCheck := s.up }
    else (s.setFld Reg.insStatus 2 0 3).updInsp fun i => { i with st := 3, lastCheck := s.up }
  else if s.insp.st == 2 && !ok then (s.setFld Reg.insStatus 2 0 3).updInsp fun i => { i with st := 3, wdOn := false }
  else s

def execRomSelfCheck (ok : Bool) (s : State) : Host.Outcome State Fault Refusal := .next (romSelfCheckS ok s)

end Sys2Proof.Machine
end

