-- ==== Sys2Proof/Machine/Spdm.lean ====
section
/-!
DEFINITION. Attestation: the SPDM responder, its measurements and the manifest of a context slot (R403 to R407). The response codes are SPDM's own
(PRESUMED, log entry 60); what a response holds beyond the rules of this spec is opaque.
-/
namespace Sys2Proof.Machine

open Sys2Proof

/-- A response sent, to the source of the oldest SPDM message that waits, if any (R404, R418). -/
def State.spdmSend (s : State) (code : Nat) (data : List Nat) : State :=
  let (m, s) := s.takeMsg 3
  let s := s.emit (.spdm code data)
  match m with
  | some (src, ident) => s.sendMgmt src 4 ident (packBytes 1 (code :: data))
  | none => s

/-- An SPDM error with its code. -/
def State.spdmError (s : State) (e : Nat) : State := s.spdmSend 0x7F [e]

/-- At a gang's lead a request through another member's DOE mailbox goes to it whole, over the management channel (R404). -/
def State.viaDoe (s : State) (code : Nat) (r : SpdmReq) (own : State) : State :=
  if r.doe == 0 then own
  else if s.live && s.ganged && s.gangM == 0 && decide (r.doe < s.gangN) then
    match s.jobMap 15 r.doe with
    | some f => let (v, s) := s.draw; s.sendMgmt f 3 (v % 2 ^ 16) (Config.spdmBytes code r)
    | none => s
  else s

/-- Does the Inspector answer (R399)? -/
def State.spdmOn (s : State) : Bool := s.live && s.insp.st == 1

/-- A request that needs the connection's algorithms: its response, or an error out of order. -/
def State.spdmAfter (s : State) (ready : Bool) (code : Nat) (r : SpdmReq) : State :=
  if !s.spdmOn then s else if ready then s.spdmSend code (Config.spdmData code r) else s.spdmError 4

/-- GET_VERSION: the connection begins again. -/
def getVersionS (r : SpdmReq) (s : State) : State :=
  if !s.spdmOn then s
  else (s.updInsp fun i => { i with spdmVer := true, spdmCap := false, spdmAlg := false, kex := none }).spdmSend 0x04 (Config.spdmData 0x04 r)
def execGetVersion (r : SpdmReq) (s : State) : Host.Outcome State Fault Refusal := .next (s.viaDoe 0x84 r (getVersionS r s))

def getCapabilitiesS (r : SpdmReq) (s : State) : State :=
  if !s.spdmOn then s
  else if s.insp.spdmVer then (s.updInsp fun i => { i with spdmCap := true, spdmAlg := false }).spdmSend 0x61 (Config.spdmData 0x61 r)
  else s.spdmError 4
def execGetCapabilities (r : SpdmReq) (s : State) : Host.Outcome State Fault Refusal := .next (s.viaDoe 0xE1 r (getCapabilitiesS r s))

def negotiateAlgorithmsS (r : SpdmReq) (s : State) : State :=
  if !s.spdmOn then s
  else if s.insp.spdmCap then (s.updInsp fun i => { i with spdmAlg := true }).spdmSend 0x63 (Config.spdmData 0x63 r)
  else s.spdmError 4
def execNegotiateAlgorithms (r : SpdmReq) (s : State) : Host.Outcome State Fault Refusal := .next (s.viaDoe 0xE3 r (negotiateAlgorithmsS r s))

def execGetDigests (r : SpdmReq) (s : State) : Host.Outcome State Fault Refusal := .next (s.viaDoe 0x81 r (s.spdmAfter s.insp.spdmAlg 0x01 r))

/-- GET_CERTIFICATE and CHALLENGE: slot 0 alone holds a chain. -/
def State.spdmSlot (s : State) (code : Nat) (r : SpdmReq) : State :=
  if s.spdmOn && s.insp.spdmAlg && r.param1 % 16 != 0 then s.spdmError 1 else s.spdmAfter s.insp.spdmAlg code r
def execGetCertificate (r : SpdmReq) (s : State) : Host.Outcome State Fault Refusal := .next (s.viaDoe 0x82 r (s.spdmSlot 0x02 r))
def execChallenge (r : SpdmReq) (s : State) : Host.Outcome State Fault Refusal := .next (s.viaDoe 0x83 r (s.spdmSlot 0x03 r))

/-! ## Measurements (R405, R406) -/

/-- One manifest entry: physical cluster, digest slot, length, digest. -/
def manifestEntry (k : Nat) (d : Digest) : List Byte :=
  leBytes 1 (k / 4) ++ leBytes 1 (k % 4) ++ leBytes 6 0 ++ leBytes 8 d.length ++ leBytes 48 (sha384 d.bytes)

/-- The manifest of a context slot (R406): final digest slots in cluster and then slot order; a FREE slot yields the header alone. -/
def State.manifest (s : State) (c : Nat) : List Byte :=
  let x := s.ctx c
  let es := if x.st == .free then [] else (List.range 16).filter fun k => (nth x.digests k).fin
  leBytes 1 c ++ leBytes 1 x.gen ++ leBytes 1 (ctxStCode x.st) ++ leBytes 1 es.length ++ leBytes 4 0 ++ leBytes 8 x.debugReads ++
    leBytes 8 (s.bell.now / 4000) ++ (es.map fun k => manifestEntry k (nth x.digests k)).flatten

/-- Words one after another, 8 bytes each. -/
def wordBytes (l : List Nat) : List Byte := packBytes 8 l

/-- The contents of a measurement index (R405); none where there is no such index. Where the rule gives no layout the figures stand in its order,
8 bytes each (DESIGN CHOICE, log entry 61). -/
def State.measurement (s : State) (i : Nat) : Option (List Byte) :=
  let tiles := List.range s.straps.tiles
  if i = 1 then some (leBytes 48 Config.romDigest)
  else if i = 2 then some (leBytes 48 (Config.bodyDigest s.insp.svn) ++ leBytes 4 s.insp.svn)
  else if i = 3 then
    let src := s.fld Reg.insStatus 11 10
    some (leBytes 8 src ++ (if src = 2 then leBytes 48 Config.recordDigest
      else wordBytes (tiles.map fun t => (s.reg (Reg.sthArmRepair (t / 4) (t % 4))).toNat)))
  else if i = 4 then
    some (wordBytes [match s.straps.build with | .c1 => 1 | .c2 => 2 | .c4 => 3, (tiles.filter fun t => !s.tileDisabled t).length, strapsWord s.straps,
      s.straps.gangSize, s.straps.gangMember, (s.reg Reg.xltFmt).toNat, (s.reg Reg.memMap).toNat, (s.reg Reg.errCtrl).toNat, 1])
  else if i = 5 then some (wordBytes [s.mem.rotations, s.insp.jobKeyLoads])
  else if 0x40 ≤ i ∧ i < 0x40 + s.straps.contexts then some (s.manifest (i - 0x40))
  else none

/-- A DMTF measurement block of raw bit-stream type (R405): index, specification 1, size; value type with bit 7, value size, value (PRESUMED, log
entry 61). -/
def measBlock (i : Nat) (bs : List Byte) : List Byte :=
  let kind := if i = 1 then 0 else if i = 2 then 1 else if i < 0x40 then 2 else 4
  leBytes 1 i ++ leBytes 1 1 ++ leBytes 2 (bs.length + 3) ++ leBytes 1 (0x80 + kind) ++ leBytes 2 bs.length ++ bs

/-- Every index that a build has. -/
def State.indices (s : State) : List Nat := [1, 2, 3, 4, 5] ++ (List.range s.straps.contexts).map (0x40 + ·)

/-- GET_MEASUREMENTS: param2 0 asks for the number of blocks, 0xFF for all, another value for one index; the signature is opaque. -/
def getMeasurementsS (r : SpdmReq) (s : State) : State :=
  if !s.spdmOn then s
  else if !s.insp.spdmAlg then s.spdmError 4
  else
    let sig := Config.spdmData 0x60 r
    let nums := fun (l : List Byte) => l.map fun b => b.toNat
    if r.param2 = 0 then s.spdmSend 0x60 (s.indices.length :: sig)
    else if r.param2 = 0xFF then s.spdmSend 0x60 ((s.indices.map fun i => nums (measBlock i ((s.measurement i).getD []))).flatten ++ sig)
    else match s.measurement r.param2 with
      | some l => s.spdmSend 0x60 (nums (measBlock r.param2 l) ++ sig)
      | none => s.spdmError 1
def execGetMeasurements (r : SpdmReq) (s : State) : Host.Outcome State Fault Refusal := .next (s.viaDoe 0xE0 r (getMeasurementsS r s))

/-! ## The operator session (R403, R407) -/

/-- KEY_EXCHANGE: refused with a failed identity, and while INS_CTRL.lock is 0; the responder's half of the session ID is free. -/
def keyExchangeS (r : SpdmReq) (s : State) : State :=
  if !s.spdmOn then s
  else if !s.insp.spdmAlg || s.fld Reg.insStatus 5 4 != 1 || !s.flag Reg.insCtrl 0 then s.spdmError 4
  else
    let (v, s) := s.draw
    let id := leNat (r.bytes.take 2) + v % 2 ^ 16 * 2 ^ 16
    (s.updInsp fun i => { i with kex := some id }).spdmSend 0x64 (Config.spdmData 0x64 r)
def execKeyExchange (r : SpdmReq) (s : State) : Host.Outcome State Fault Refusal := .next (s.viaDoe 0xE4 r (keyExchangeS r s))

/-- INS_OPROOT0 to INS_OPROOT5. -/
def State.oproot (s : State) : List Word := (List.range 6).map fun i => s.reg (Reg.insOproot i)

/-- FINISH: a verified exchange opens the operator session, which replaces the old one; the last accepted counter becomes 0. -/
def finishS (r : SpdmReq) (s : State) : State :=
  if !s.spdmOn then s
  else
    match s.insp.kex with
    | none => s.spdmError 4
    | some id =>
      if !Config.spdmFinishOk r s.oproot then (s.updInsp fun i => { i with kex := none }).spdmError 6
      else
        let (v, s) := s.draw
        let s := s.updInsp fun i => { i with kex := none, session := some id, secret := leBytes 48 v, keyEpoch := 0, last := none }
        (((s.setReg Reg.insCmdLast 0).setReg Reg.insSession (word (id % 2 ^ 32 * 2 ^ 32 + 1))).insEvent (2 ^ 3)).spdmSend 0x65 (Config.spdmData 0x65 r)
def execFinish (r : SpdmReq) (s : State) : Host.Outcome State Fault Refusal := .next (s.viaDoe 0xE5 r (finishS r s))

/-- A request inside the session. -/
def State.inSession (s : State) (r : SpdmReq) : Bool := s.insp.session.isSome && r.session == s.insp.session

def keyUpdateS (r : SpdmReq) (s : State) : State :=
  if !s.spdmOn then s
  else if s.inSession r then (s.updInsp fun i => { i with keyEpoch := i.keyEpoch + 1 }).spdmSend 0x69 (Config.spdmData 0x69 r)
  else s.spdmError 2
def execKeyUpdate (r : SpdmReq) (s : State) : Host.Outcome State Fault Refusal := .next (s.viaDoe 0xE9 r (keyUpdateS r s))

def heartbeatS (r : SpdmReq) (s : State) : State :=
  if !s.spdmOn then s else if s.inSession r then s.spdmSend 0x68 (Config.spdmData 0x68 r) else s.spdmError 2
def execHeartbeat (r : SpdmReq) (s : State) : Host.Outcome State Fault Refusal := .next (s.viaDoe 0xE8 r (heartbeatS r s))

def endSessionS (r : SpdmReq) (s : State) : State :=
  if !s.spdmOn then s
  else if s.inSession r then
    ((s.updInsp fun i => { i with session := none }).setReg Reg.insSession 0).spdmSend 0x6C (Config.spdmData 0x6C r)
  else s.spdmError 2
def execEndSession (r : SpdmReq) (s : State) : Host.Outcome State Fault Refusal := .next (s.viaDoe 0xEC r (endSessionS r s))

end Sys2Proof.Machine
end

