-- ==== Sys2Proof/Machine/Dispatch.lean ====
section
/-!
DEFINITION. The meaning of every command: one arm per constructor of Instr.
-/
namespace Sys2Proof.Machine

open Sys2Proof

def exec (i : Instr) (s : State) : Host.Outcome State Fault Refusal :=
  match i with
  | .regWr addr mark f => Sys2Proof.Machine.execRegWr addr mark f s
  | .bellNowRead part => Sys2Proof.Machine.execBellNowRead part s
  | .ppsEdge seconds nanos valid => Sys2Proof.Machine.execPpsEdge seconds nanos valid s
  | .ppsMissing => Sys2Proof.Machine.execPpsMissing s
  | .timeExchange => Sys2Proof.Machine.execTimeExchange s
  | .timeReq k => Sys2Proof.Machine.execTimeReq k s
  | .timeResp k => Sys2Proof.Machine.execTimeResp k s
  | .linkTimeLost => Sys2Proof.Machine.execLinkTimeLost s
  | .holdoverLimit => Sys2Proof.Machine.execHoldoverLimit s
  | .cgOpen slot mark f => Sys2Proof.Machine.execCgOpen slot mark f s
  | .cgArm slot mark f => Sys2Proof.Machine.execCgArm slot mark f s
  | .cgMemberAck slot mask => Sys2Proof.Machine.execCgMemberAck slot mask s
  | .cgDeadline slot => Sys2Proof.Machine.execCgDeadline slot s
  | .cgApply slot => Sys2Proof.Machine.execCgApply slot s
  | .cgCancel slot mark f => Sys2Proof.Machine.execCgCancel slot mark f s
  | .cgStaged k => Sys2Proof.Machine.execCgStaged k s
  | .cgRefused k => Sys2Proof.Machine.execCgRefused k s
  | .cgCommit k => Sys2Proof.Machine.execCgCommit k s
  | .cgAbort k => Sys2Proof.Machine.execCgAbort k s
  | .verdictLost slot => Sys2Proof.Machine.execVerdictLost slot s
  | .armMode l w => Sys2Proof.Machine.execArmMode l w s
  | .armLoad l w => Sys2Proof.Machine.execArmLoad l w s
  | .armStream l w => Sys2Proof.Machine.execArmStream l w s
  | .armDrain l w => Sys2Proof.Machine.execArmDrain l w s
  | .rowQuadEntry tile => Sys2Proof.Machine.execRowQuadEntry tile s
  | .rowQuadResult tile => Sys2Proof.Machine.execRowQuadResult tile s
  | .armShadowLoad tile => Sys2Proof.Machine.execArmShadowLoad tile s
  | .gapStart tile => Sys2Proof.Machine.execGapStart tile s
  | .fillerLimitExpiry tile => Sys2Proof.Machine.execFillerLimitExpiry tile s
  | .tileClearDone tile => Sys2Proof.Machine.execTileClearDone tile s
  | .bookWriteValidate tile book => Sys2Proof.Machine.execBookWriteValidate tile book s
  | .tableWriteValidate tile table => Sys2Proof.Machine.execTableWriteValidate tile table s
  | .calibrationEvent l => Sys2Proof.Machine.execCalibrationEvent l s
  | .leaseZeroDone area => Sys2Proof.Machine.execLeaseZeroDone area s
  | .laneLaunchStart l => Sys2Proof.Machine.execLaneLaunchStart l s
  | .instructionFetch l host => Sys2Proof.Machine.execInstructionFetch l host s
  | .addI l w => Sys2Proof.Machine.execAddI l w s
  | .subI l w => Sys2Proof.Machine.execSubI l w s
  | .mulI l w => Sys2Proof.Machine.execMulI l w s
  | .mulh l w => Sys2Proof.Machine.execMulh l w s
  | .mulhu l w => Sys2Proof.Machine.execMulhu l w s
  | .divu l w => Sys2Proof.Machine.execDivu l w s
  | .remu l w => Sys2Proof.Machine.execRemu l w s
  | .andI l w => Sys2Proof.Machine.execAndI l w s
  | .orI l w => Sys2Proof.Machine.execOrI l w s
  | .xorI l w => Sys2Proof.Machine.execXorI l w s
  | .shl l w => Sys2Proof.Machine.execShl l w s
  | .shr l w => Sys2Proof.Machine.execShr l w s
  | .sra l w => Sys2Proof.Machine.execSra l w s
  | .minI l w => Sys2Proof.Machine.execMinI l w s
  | .maxI l w => Sys2Proof.Machine.execMaxI l w s
  | .minu l w => Sys2Proof.Machine.execMinu l w s
  | .maxu l w => Sys2Proof.Machine.execMaxu l w s
  | .cmpEq l w => Sys2Proof.Machine.execCmpEq l w s
  | .cmpNe l w => Sys2Proof.Machine.execCmpNe l w s
  | .cmpLt l w => Sys2Proof.Machine.execCmpLt l w s
  | .cmpLe l w => Sys2Proof.Machine.execCmpLe l w s
  | .cmpGt l w => Sys2Proof.Machine.execCmpGt l w s
  | .cmpGe l w => Sys2Proof.Machine.execCmpGe l w s
  | .cmpLtu l w => Sys2Proof.Machine.execCmpLtu l w s
  | .cmpLeu l w => Sys2Proof.Machine.execCmpLeu l w s
  | .cmpGtu l w => Sys2Proof.Machine.execCmpGtu l w s
  | .cmpGeu l w => Sys2Proof.Machine.execCmpGeu l w s
  | .selI l w => Sys2Proof.Machine.execSelI l w s
  | .pand l w => Sys2Proof.Machine.execPand l w s
  | .por l w => Sys2Proof.Machine.execPor l w s
  | .pxor l w => Sys2Proof.Machine.execPxor l w s
  | .pandn l w => Sys2Proof.Machine.execPandn l w s
  | .br l w => Sys2Proof.Machine.execBr l w s
  | .call l w => Sys2Proof.Machine.execCall l w s
  | .jr l w => Sys2Proof.Machine.execJr l w s
  | .jalr l w => Sys2Proof.Machine.execJalr l w s
  | .loopI l w => Sys2Proof.Machine.execLoopI l w s
  | .krd l w => Sys2Proof.Machine.execKrd l w s
  | .ldB l w => Sys2Proof.Machine.execLdB l w s
  | .ldBs l w => Sys2Proof.Machine.execLdBs l w s
  | .ldH l w => Sys2Proof.Machine.execLdH l w s
  | .ldHs l w => Sys2Proof.Machine.execLdHs l w s
  | .ldW l w => Sys2Proof.Machine.execLdW l w s
  | .ldWs l w => Sys2Proof.Machine.execLdWs l w s
  | .ldD l w => Sys2Proof.Machine.execLdD l w s
  | .stB l w => Sys2Proof.Machine.execStB l w s
  | .stH l w => Sys2Proof.Machine.execStH l w s
  | .stW l w => Sys2Proof.Machine.execStW l w s
  | .stD l w => Sys2Proof.Machine.execStD l w s
  | .ldcW l w => Sys2Proof.Machine.execLdcW l w s
  | .ldcWs l w => Sys2Proof.Machine.execLdcWs l w s
  | .ldcD l w => Sys2Proof.Machine.execLdcD l w s
  | .dld l w => Sys2Proof.Machine.execDld l w s
  | .dst l w => Sys2Proof.Machine.execDst l w s
  | .dldc l w => Sys2Proof.Machine.execDldc l w s
  | .dmov l w => Sys2Proof.Machine.execDmov l w s
  | .dadv l w => Sys2Proof.Machine.execDadv l w s
  | .dclip l w => Sys2Proof.Machine.execDclip l w s
  | .dset l w => Sys2Proof.Machine.execDset l w s
  | .dget l w => Sys2Proof.Machine.execDget l w s
  | .nop l w => Sys2Proof.Machine.execNop l w s
  | .endI l w => Sys2Proof.Machine.execEndI l w s
  | .endRetire l => Sys2Proof.Machine.execEndRetire l s
  | .trap l w => Sys2Proof.Machine.execTrap l w s
  | .operationStart op => Sys2Proof.Machine.execOperationStart op s
  | .operationComplete op => Sys2Proof.Machine.execOperationComplete op s
  | .vecAdd l w => Sys2Proof.Machine.execVecAdd l w s
  | .vecSub l w => Sys2Proof.Machine.execVecSub l w s
  | .vecMul l w => Sys2Proof.Machine.execVecMul l w s
  | .vecFma l w => Sys2Proof.Machine.execVecFma l w s
  | .vecMin l w => Sys2Proof.Machine.execVecMin l w s
  | .vecMax l w => Sys2Proof.Machine.execVecMax l w s
  | .vecCmp l w => Sys2Proof.Machine.execVecCmp l w s
  | .vecSel l w => Sys2Proof.Machine.execVecSel l w s
  | .vecCvt l w => Sys2Proof.Machine.execVecCvt l w s
  | .vecSum l w => Sys2Proof.Machine.execVecSum l w s
  | .vecRqi l w => Sys2Proof.Machine.execVecRqi l w s
  | .vecRqf l w => Sys2Proof.Machine.execVecRqf l w s
  | .vecQmx l w => Sys2Proof.Machine.execVecQmx l w s
  | .vecSctag l w => Sys2Proof.Machine.execVecSctag l w s
  | .vecCbenc l w => Sys2Proof.Machine.execVecCbenc l w s
  | .vecTab l w => Sys2Proof.Machine.execVecTab l w s
  | .vecPoolmax l w => Sys2Proof.Machine.execVecPoolmax l w s
  | .vecPoolsum l w => Sys2Proof.Machine.execVecPoolsum l w s
  | .vecArgmax l w => Sys2Proof.Machine.execVecArgmax l w s
  | .vecArgmin l w => Sys2Proof.Machine.execVecArgmin l w s
  | .vecTopk l w => Sys2Proof.Machine.execVecTopk l w s
  | .vecBoxdec l w => Sys2Proof.Machine.execVecBoxdec l w s
  | .vecDot l w => Sys2Proof.Machine.execVecDot l w s
  | .vecSqdist l w => Sys2Proof.Machine.execVecSqdist l w s
  | .vecIou l w => Sys2Proof.Machine.execVecIou l w s
  | .barMove l w => Sys2Proof.Machine.execBarMove l w s
  | .barCrop l w => Sys2Proof.Machine.execBarCrop l w s
  | .barReduce l w => Sys2Proof.Machine.execBarReduce l w s
  | .barDigest l w => Sys2Proof.Machine.execBarDigest l w s
  | .sig l w => Sys2Proof.Machine.execSig l w s
  | .waitI l w => Sys2Proof.Machine.execWaitI l w s
  | .waitRelease ctx sem => Sys2Proof.Machine.execWaitRelease ctx sem s
  | .fence l w => Sys2Proof.Machine.execFence l w s
  | .barrier l w => Sys2Proof.Machine.execBarrier l w s
  | .barrierRelease group => Sys2Proof.Machine.execBarrierRelease group s
  | .twait l w => Sys2Proof.Machine.execTwait l w s
  | .twaitC l w => Sys2Proof.Machine.execTwaitC l w s
  | .timeWaitRelease op => Sys2Proof.Machine.execTimeWaitRelease op s
  | .tslot l w => Sys2Proof.Machine.execTslot l w s
  | .pace l w => Sys2Proof.Machine.execPace l w s
  | .ctxDoorbell ctx mark f => Sys2Proof.Machine.execCtxDoorbell ctx mark f s
  | .ringScan ctx ring => Sys2Proof.Machine.execRingScan ctx ring s
  | .recordFetch ctx ring bytes => Sys2Proof.Machine.execRecordFetch ctx ring bytes s
  | .recordFetchFault ctx ring => Sys2Proof.Machine.execRecordFetchFault ctx ring s
  | .notBeforeRelease ctx ring => Sys2Proof.Machine.execNotBeforeRelease ctx ring s
  | .dispatch d => Sys2Proof.Machine.execDispatch d s
  | .endReport ctx r => Sys2Proof.Machine.execEndReport ctx r s
  | .exceptionReport ctx r => Sys2Proof.Machine.execExceptionReport ctx r s
  | .ctxAbort ctx mark f => Sys2Proof.Machine.execCtxAbort ctx mark f s
  | .ctxKabort ctx mark f => Sys2Proof.Machine.execCtxKabort ctx mark f s
  | .abortRequestArrive ctx kernel => Sys2Proof.Machine.execAbortRequestArrive ctx kernel s
  | .completionRecordWrite ctx => Sys2Proof.Machine.execCompletionRecordWrite ctx s
  | .completionWriteFault ctx => Sys2Proof.Machine.execCompletionWriteFault ctx s
  | .ctxCqHeadWrite ctx mark f => Sys2Proof.Machine.execCtxCqHeadWrite ctx mark f s
  | .ringEnable ctx ring mark f => Sys2Proof.Machine.execRingEnable ctx ring mark f s
  | .cqEnable ctx mark f => Sys2Proof.Machine.execCqEnable ctx mark f s
  | .undelAck ctx mark f => Sys2Proof.Machine.execUndelAck ctx mark f s
  | .watchSample => Sys2Proof.Machine.execWatchSample s
  | .descriptorQueue op => Sys2Proof.Machine.execDescriptorQueue op s
  | .frameTranslated barrow op page => Sys2Proof.Machine.execFrameTranslated barrow op page s
  | .barrowOpStart barrow => Sys2Proof.Machine.execBarrowOpStart barrow s
  | .segmentIssue barrow => Sys2Proof.Machine.execSegmentIssue barrow s
  | .budgetGrant => Sys2Proof.Machine.execBudgetGrant s
  | .segmentComplete barrow op seg => Sys2Proof.Machine.execSegmentComplete barrow op seg s
  | .barrowReplay barrow => Sys2Proof.Machine.execBarrowReplay barrow s
  | .atsTcpl req status r => Sys2Proof.Machine.execAtsTcpl req status r s
  | .hwWalk req host => Sys2Proof.Machine.execHwWalk req host s
  | .prgRsp index code => Sys2Proof.Machine.execPrgRsp index code s
  | .priTimeout index => Sys2Proof.Machine.execPriTimeout index s
  | .atsInv itag pasid page pages => Sys2Proof.Machine.execAtsInv itag pasid page pages s
  | .engineInvalAck wd engine => Sys2Proof.Machine.execEngineInvalAck wd engine s
  | .invalAbandon wd tag => Sys2Proof.Machine.execInvalAbandon wd tag s
  | .drainInvalidate mark f => Sys2Proof.Machine.execDrainInvalidate mark f s
  | .portEnable port mark f => Sys2Proof.Machine.execPortEnable port mark f s
  | .portUp port => Sys2Proof.Machine.execPortUp port s
  | .linkReplay port => Sys2Proof.Machine.execLinkReplay port s
  | .headArrive port h => Sys2Proof.Machine.execHeadArrive port h s
  | .fabWrite k => Sys2Proof.Machine.execFabWrite k s
  | .fabReduce k => Sys2Proof.Machine.execFabReduce k s
  | .fabRead k => Sys2Proof.Machine.execFabRead k s
  | .fabAck k => Sys2Proof.Machine.execFabAck k s
  | .fabData k => Sys2Proof.Machine.execFabData k s
  | .fabRefuse k => Sys2Proof.Machine.execFabRefuse k s
  | .fabError k => Sys2Proof.Machine.execFabError k s
  | .linkRequestTimeout tag => Sys2Proof.Machine.execLinkRequestTimeout tag s
  | .creditStall port => Sys2Proof.Machine.execCreditStall port s
  | .arrive k => Sys2Proof.Machine.execArrive k s
  | .confirm k => Sys2Proof.Machine.execConfirm k s
  | .missing k => Sys2Proof.Machine.execMissing k s
  | .straggler k => Sys2Proof.Machine.execStraggler k s
  | .missingTimer group => Sys2Proof.Machine.execMissingTimer group s
  | .stragglerSilence group => Sys2Proof.Machine.execStragglerSilence group s
  | .keyPhaseExpire slot => Sys2Proof.Machine.execKeyPhaseExpire slot s
  | .mgmt k => Sys2Proof.Machine.execMgmt k s
  | .mgmtReassemblyTimeout src ident => Sys2Proof.Machine.execMgmtReassemblyTimeout src ident s
  | .memCommandSlot ch => Sys2Proof.Machine.execMemCommandSlot ch s
  | .memReadReturn ch tag link => Sys2Proof.Machine.execMemReadReturn ch tag link s
  | .refreshDue ch bank => Sys2Proof.Machine.execRefreshDue ch bank s
  | .mr4Poll ch report hot => Sys2Proof.Machine.execMr4Poll ch report hot s
  | .channelTrained ch => Sys2Proof.Machine.execChannelTrained ch s
  | .trainTimeout ch => Sys2Proof.Machine.execTrainTimeout ch s
  | .phyUpdate ch => Sys2Proof.Machine.execPhyUpdate ch s
  | .qosSlotBoundary => Sys2Proof.Machine.execQosSlotBoundary s
  | .memClear mark f => Sys2Proof.Machine.execMemClear mark f s
  | .memClearDone => Sys2Proof.Machine.execMemClearDone s
  | .memEnable mark f => Sys2Proof.Machine.execMemEnable mark f s
  | .memHpaWrite mark f => Sys2Proof.Machine.execMemHpaWrite mark f s
  | .memInject mark f => Sys2Proof.Machine.execMemInject mark f s
  | .sweepPage ch page => Sys2Proof.Machine.execSweepPage ch page s
  | .keySlotZero => Sys2Proof.Machine.execKeySlotZero s
  | .ctxCreate ctx mark f => Sys2Proof.Machine.execCtxCreate ctx mark f s
  | .ctxResume ctx mark f => Sys2Proof.Machine.execCtxResume ctx mark f s
  | .ctxStop ctx mark f => Sys2Proof.Machine.execCtxStop ctx mark f s
  | .ctxReset ctx mark f => Sys2Proof.Machine.execCtxReset ctx mark f s
  | .ctxDestroy ctx mark f => Sys2Proof.Machine.execCtxDestroy ctx mark f s
  | .awningAck ctx engine => Sys2Proof.Machine.execAwningAck ctx engine s
  | .sampleDone ctx => Sys2Proof.Machine.execSampleDone ctx s
  | .sampleTimeout ctx => Sys2Proof.Machine.execSampleTimeout ctx s
  | .genClean ctx => Sys2Proof.Machine.execGenClean ctx s
  | .contextResetComplete ctx => Sys2Proof.Machine.execContextResetComplete ctx s
  | .modTimer ctx => Sys2Proof.Machine.execModTimer ctx s
  | .ctxAttnClear ctx mark f => Sys2Proof.Machine.execCtxAttnClear ctx mark f s
  | .ctxIrqLineWrite ctx mark f => Sys2Proof.Machine.execCtxIrqLineWrite ctx mark f s
  | .errInject mark f => Sys2Proof.Machine.execErrInject mark f s
  | .errLogConsumedWrite mark f => Sys2Proof.Machine.execErrLogConsumedWrite mark f s
  | .errBresetGo mark f => Sys2Proof.Machine.execErrBresetGo mark f s
  | .blockResetReady => Sys2Proof.Machine.execBlockResetReady s
  | .pmbusPoll rail r => Sys2Proof.Machine.execPmbusPoll rail r s
  | .voltageSettled => Sys2Proof.Machine.execVoltageSettled s
  | .pllLocked => Sys2Proof.Machine.execPllLocked s
  | .droopWarning tile mv => Sys2Proof.Machine.execDroopWarning tile mv s
  | .droopRelease => Sys2Proof.Machine.execDroopRelease s
  | .capControl => Sys2Proof.Machine.execCapControl s
  | .tempSample readings => Sys2Proof.Machine.execTempSample readings s
  | .thermalCeilingStep => Sys2Proof.Machine.execThermalCeilingStep s
  | .alertAssert => Sys2Proof.Machine.execAlertAssert s
  | .alertStatusRead words => Sys2Proof.Machine.execAlertStatusRead words s
  | .alertCeilingStep => Sys2Proof.Machine.execAlertCeilingStep s
  | .ledgerWindow => Sys2Proof.Machine.execLedgerWindow s
  | .restEntry dom => Sys2Proof.Machine.execRestEntry dom s
  | .restWake dom => Sys2Proof.Machine.execRestWake dom s
  | .wakeReady dom => Sys2Proof.Machine.execWakeReady dom s
  | .pwrCapWrite mark f => Sys2Proof.Machine.execPwrCapWrite mark f s
  | .forceAlert mark f => Sys2Proof.Machine.execForceAlert mark f s
  | .forceDroop mark f => Sys2Proof.Machine.execForceDroop mark f s
  | .insWatchdogExpiry => Sys2Proof.Machine.execInsWatchdogExpiry s
  | .romSelfCheck ok => Sys2Proof.Machine.execRomSelfCheck ok s
  | .echo c => Sys2Proof.Machine.execEcho c s
  | .regWrite c => Sys2Proof.Machine.execRegWrite c s
  | .regRead c => Sys2Proof.Machine.execRegRead c s
  | .cgRun c => Sys2Proof.Machine.execCgRun c s
  | .jobKeyLoad c => Sys2Proof.Machine.execJobKeyLoad c s
  | .jobKeyErase c => Sys2Proof.Machine.execJobKeyErase c s
  | .memKeyRotate c => Sys2Proof.Machine.execMemKeyRotate c s
  | .blockReset c => Sys2Proof.Machine.execBlockReset c s
  | .getVersion r => Sys2Proof.Machine.execGetVersion r s
  | .getCapabilities r => Sys2Proof.Machine.execGetCapabilities r s
  | .negotiateAlgorithms r => Sys2Proof.Machine.execNegotiateAlgorithms r s
  | .getDigests r => Sys2Proof.Machine.execGetDigests r s
  | .getCertificate r => Sys2Proof.Machine.execGetCertificate r s
  | .challenge r => Sys2Proof.Machine.execChallenge r s
  | .getMeasurements r => Sys2Proof.Machine.execGetMeasurements r s
  | .keyExchange r => Sys2Proof.Machine.execKeyExchange r s
  | .finish r => Sys2Proof.Machine.execFinish r s
  | .keyUpdate r => Sys2Proof.Machine.execKeyUpdate r s
  | .heartbeat r => Sys2Proof.Machine.execHeartbeat r s
  | .endSession r => Sys2Proof.Machine.execEndSession r s
  | .insCtrlLock mark f => Sys2Proof.Machine.execInsCtrlLock mark f s
  | .debugRead off => Sys2Proof.Machine.execDebugRead off s
  | .debugWrite off f => Sys2Proof.Machine.execDebugWrite off f s
  | .cpl tag status bytes => Sys2Proof.Machine.execCpl tag status bytes s
  | .bmeChange on => Sys2Proof.Machine.execBmeChange on s
  | .flr => Sys2Proof.Machine.execFlr s
  | .linkDown => Sys2Proof.Machine.execLinkDown s
  | .hostportRelease mark f => Sys2Proof.Machine.execHostportRelease mark f s
  | .powerOnReset => Sys2Proof.Machine.execPowerOnReset s
  | .startUp t => Sys2Proof.Machine.execStartUp t s
  | .gangReadyTimeout => Sys2Proof.Machine.execGangReadyTimeout s
  | .wsBypass => Sys2Proof.Machine.execWsBypass s
  | .wsExtest => Sys2Proof.Machine.execWsExtest s
  | .wsIntest => Sys2Proof.Machine.execWsIntest s
  | .wsSafe => Sys2Proof.Machine.execWsSafe s
  | .wpScan => Sys2Proof.Machine.execWpScan s
  | .tzSelftest r => Sys2Proof.Machine.execTzSelftest r s
  | .testModeEntry => Sys2Proof.Machine.execTestModeEntry s
  | .restEntryComplete dom => Sys2Proof.Machine.execRestEntryComplete dom s
  | .alertRelease => Sys2Proof.Machine.execAlertRelease s
  | .inspectorRestartDone => Sys2Proof.Machine.execInspectorRestartDone s
  | .endpointFatal => Sys2Proof.Machine.execEndpointFatal s
  | .linkDownClear => Sys2Proof.Machine.execLinkDownClear s
  | .linkRateToken ctx => Sys2Proof.Machine.execLinkRateToken ctx s
  | .alignedGuardTick op => Sys2Proof.Machine.execAlignedGuardTick op s

end Sys2Proof.Machine
end

