-- ==== Sys2Proof/Machine/Relay.lean ====
section
/-!
DEFINITION. What a clock tick brings besides time: the heads that leave the ports, those for this block itself, and in a gang the transactions of
the host port that go over the ring (R267 to R274, R291).
-/
namespace Sys2Proof.Machine

open Sys2Proof

/-! ## The gang's relay (R291) -/

/-- A transaction sent to another member as a management message: a request (5) or a response (6) of R418. -/
def State.toMember (s : State) (m kind : Nat) (bs : List Byte) : State :=
  match s.jobMap 15 m with
  | some f => s.sendMgmt f kind (s.relayNext % 2 ^ 16) bs
  | none => s

/-- What goes over the ring of an output: every host-bound transaction of a member other than the lead, with its member in the tag; at the lead,
register accesses of other members and answers to their transactions. -/
def State.relayOut (s : State) (o : Out) : State :=
  if s.gangM != 0 then
    match o.hostTx with
    | some t => s.toMember 0 (if t.kind == 0x05 || t.kind == 0x07 then 6 else 5) { t with tag := t.tag % 4096 + 4096 * s.gangM }.bytes
    | none => s
  else
    match o with
    | .ring m kind bs => s.toMember m kind bs
    | .relayWr m off mark f =>
      let (fs, d) := formFields mark f
      s.toMember m 5 ({ kind := 0x13, addr := off, len := 8, fields := fs, data := d } : HostTx).bytes
    | .relayRd m off => s.toMember m 5 ({ kind := 0x12, addr := off, len := 8, fields := [1] } : HostTx).bytes
    | _ => s

/-- The lead issues a member's transaction as its own; while host-bound requests are held it waits (R429). -/
def State.issueFor (s : State) (m : Nat) (t : HostTx) : Option State :=
  let theirs := t.tag % 4096
  let pasid := if 2 ^ 31 ≤ t.pasid then some (t.pasid % 2 ^ 20) else none
  match t.kind with
  | 0x01 =>
    if s.hostHeld then none
    else
      let n := s.nextTag
      some ({ s with nextTag := n + 1, relays := s.relays ++ [(⟨1, n, m, theirs⟩ : Relay)] }.emit
        (match pasid with | some p => .utRead n p t.addr t.len | none => .mrd n t.addr t.len))
  | 0x02 => if s.hostHeld then none else some (s.emit (match pasid with | some p => .utWrite p t.addr t.data | none => .mwr t.addr t.data))
  | 0x03 =>
    if s.hostHeld then none
    else
      let n := s.nextX
      some ({ s with nextX := n + 1, relays := s.relays ++ [(⟨3, n, m, theirs⟩ : Relay)] }.emit
        (.atsReq n (pasid.getD 0) t.addr (decide (2 ^ 30 ≤ t.pasid % 2 ^ 31))))
  | 0x04 =>
    let used := ((s.pageReqs.filter fun p => !p.waiting).map fun p => p.index) ++ ((s.relays.filter fun r => r.kind == 4).map fun r => r.tag)
    match (List.range (min 512 (s.fld Reg.xltPri 9 0))).find? fun i => !used.contains i with
    | some i =>
      if s.hostHeld then none
      else some ({ s with relays := s.relays ++ [(⟨4, i, m, theirs⟩ : Relay)] }.emit (.pageReq i (pasid.getD 0) t.addr (nth t.fields 0 == 1)))
    | none => none
  | 0x05 => some (s.memberInvCpl m theirs)
  | 0x06 => some (s.emit (.flashRd t.addr t.len))
  | 0x07 => some (s.emit (.regCpl (m * 2 ^ 25 + t.addr) (word (leNat t.data))))
  | _ => some s

/-- What a member does with a transaction that the lead passes on: an answer to its own request, an invalidation, or a register access. -/
def State.takeFor (s : State) (t : HostTx) : State :=
  match t.kind with
  | 0x10 =>
    match s.reqs.find? fun r => r.path == .host && r.tag % 4096 == t.tag % 4096 with
    | some r => cplS r.tag t.status t.data s
    | none => s
  | 0x11 =>
    match s.xreqs.find? fun x => x.id % 4096 == t.tag % 4096 && !x.walk && !x.held with
    | some x => atsTcplS x.id t.status { addr := t.addr, size := nth t.fields 0, r := nth t.fields 1 == 1, w := nth t.fields 2 == 1, u := nth t.fields 3 == 1 } s
    | none => s
  | 0x12 => s.busDebugRead (s.gangM * 2 ^ 25 + t.addr)
  | 0x13 => s.localWrite ⟨nth t.fields 0 == 1, false⟩ t.addr (formOf t.fields t.data)
  | 0x14 => atsInvS t.tag (if 2 ^ 31 ≤ t.pasid then some (t.pasid % 2 ^ 20) else none) (t.addr / 4096) (nth t.fields 0) s
  | 0x15 =>
    prgRspS (t.tag % 4096) (match nth t.fields 0 with | 0 => .success | 1 => .invalidRequest | _ => .responseFailure) s
  | _ => s

/-- The oldest transaction from another member. -/
def State.relayIn (s : State) : State :=
  match s.relayHeld with
  | [] => s
  | (fab, bs) :: r =>
    let t := HostTx.read bs
    let s1 : State := { s with relayHeld := r }
    match s.memberOf fab with
    | none => s1
    | some m => if s.gangM == 0 then (s1.issueFor m t).getD s else s1.takeFor t

def State.relayTick (s : State) : State :=
  if !s.ganged then s
  else
    let s := match s.out[s.relayNext]? with
      | some o => { s with relayNext := s.relayNext + 1 }.relayOut o
      | none => s
    s.relayIn

/-! ## A tick -/

/-- A tick of 0.25 ns (log entry 3): time, then the ports, then what the block has sent itself, the gang's relay, and the commands that have
reached the Inspector. -/
def State.idle (s : State) : State := (s.tick.portsTick (List.range 8)).loopTick.relayTick.cmdSettle

end Sys2Proof.Machine
end

