-- ==== Sys2Proof/Machine/Step.lean ====
section
/-!
DEFINITION. One step of the block: the command at the front of the queue, carried out on the state with the rest of the queue;
on an empty queue a tick of the clock while power is good (log entry 3).
-/
namespace Sys2Proof.Machine

open Sys2Proof

/-- One step. DESIGN CHOICE (log entry 3): on an empty queue a powered block advances by one tick of 0.25 ns, and a block
without power idles. -/
def step (s : State) : Host.Outcome State Fault Refusal :=
  match s.pending with
  | c :: rest => exec c { s with pending := rest }
  | [] => .next (if s.live then s.idle else s)

/-- The state with the command that a word spells put at the front of its queue; unchanged where the word spells none. -/
def State.withFetchWord (s : State) (nbits w : Nat) : State :=
  match decodeTableWord nbits w with
  | some c => { s with pending := c :: s.pending }
  | none => s

end Sys2Proof.Machine
end

