-- ==== Sys2Proof/Safety.lean ====
section
/-!
DEFINITION. The terms in which statements about the block are made: when a command is answered, when an instruction issues with its own
effect, and what a command leaves alone.
-/
namespace Sys2Proof.Machine

open Sys2Proof

/-! ## Commands -/

/-- A command is answered with a next state. -/
def Answers (c : Instr) (s : State) : Prop := ∃ t, exec c s = .next t

/-- A safe step: neither a fault nor a refusal. -/
def SafeStep (s : State) : Prop := ∃ t, step s = .next t

/-- Nothing waits for the tick of the clock: no head at a port or for this block itself, no gang whose ring carries transactions, no command
that the Inspector has in hand or has not yet seen. -/
structure State.Quiet (s : State) : Prop where
  ports : ∀ p, p < 8 → (nth s.ports p).queue = []
  loop : s.loop = []
  alone : s.ganged = false
  inspector : s.insp.door = none ∧ s.insp.messages = [] ∧ s.cmdBusy = false

/-! ## Instructions on a lane -/

/-- An instruction of class `cls` and operation `op` issues on lane `l` with its own effect: the lane may issue (R127), no error injection
is armed (R352), the pc is aligned (R138), the cache holds the instruction there (R129), it is legal (R134), and neither its guard (R135)
nor a pending write (R149) holds it. -/
structure State.Issues (s : State) (l : LaneId) (i : IWord) (cls op : Nat) (regs : List Nat) : Prop where
  lane : s.laneOpen l = true
  noInjection : s.inject = none
  aligned : (s.lane l).pc % 8 = 0
  code : s.codeIs l i = true
  isCls : iCls i = cls
  isOp : iOp i = op
  isLegal : legal i = true
  guardReady : s.regReady l (rP (iGp i)) = true
  guarded : s.guard l i = true
  ready : ∀ r ∈ regs, s.regReady l r = true

/-- The instruction is not the last word of the innermost active body (R139), so the pc passes it. -/
def Lane.straight (x : Lane) (i : IWord) : Prop := ∀ e, x.loops.head? = some e → e.last ≠ (x.pc + iSize i - 8) % 2 ^ 64

/-- What an instruction that takes effect in the lane leaves alone: every other lane, memory, every register of the block, every context but
its launches' energy counts (R387), the power controller but its counts. -/
structure OnlyLane (l : LaneId) (s t : State) : Prop where
  rest : t = { s with lanes := t.lanes, ctxs := t.ctxs, power := t.power }
  others : ∀ m, laneIx m ≠ laneIx l → t.lane m = s.lane m
  ctxs : ∀ c, { t.ctx c with launches := [] } = { s.ctx c with launches := [] }
  launches : ∀ c, (t.ctx c).launches.map (fun x => { x with events := [] }) = (s.ctx c).launches.map (fun x => { x with events := [] })
  power : { t.power with msEvents := [] } = { s.power with msEvents := [] }

/-- What an instruction that enters unit queues leaves alone: as OnlyLane, but for the operations in hand. -/
structure OnlyIssue (l : LaneId) (s t : State) : Prop where
  rest : t = { s with lanes := t.lanes, ctxs := t.ctxs, power := t.power, ops := t.ops, nextOp := t.nextOp }
  others : ∀ m, laneIx m ≠ laneIx l → t.lane m = s.lane m
  ctxs : ∀ c, { t.ctx c with launches := [] } = { s.ctx c with launches := [] }
  launches : ∀ c, (t.ctx c).launches.map (fun x => { x with events := [] }) = (s.ctx c).launches.map (fun x => { x with events := [] })
  power : { t.power with msEvents := [] } = { s.power with msEvents := [] }

/-- The lane after an instruction that has issued: past it, ready to issue again `cost` cycles later, and with no register of its program
changed. -/
structure Passed (l : LaneId) (i : IWord) (s t : State) : Prop where
  issuing : (t.lane l).st = .issuing ∧ (t.lane l).wait = 0 ∧ (t.lane l).waitArg = 0
  next : (t.lane l).nextIssue = s.cyc + 1
  straight : (s.lane l).straight i →
    (t.lane l).pc = ((s.lane l).pc + iSize i) % 2 ^ 64 ∧ (t.lane l).loops = (s.lane l).loops ∧ (t.lane l).k = (s.lane l).k
  launch : (t.lane l).ctx = (s.lane l).ctx ∧ (t.lane l).gen = (s.lane l).gen ∧ (t.lane l).seq = (s.lane l).seq ∧
    (t.lane l).s3 = (s.lane l).s3 ∧ (t.lane l).s4 = (s.lane l).s4 ∧ (t.lane l).consts = (s.lane l).consts ∧
    (t.lane l).waiting = (s.lane l).waiting ∧ (t.lane l).pace = (s.lane l).pace

/-- The scalar, predicate and descriptor registers of a lane are as before. -/
def SameS (l : LaneId) (s t : State) : Prop := ∀ r, (t.lane l).sv r = (s.lane l).sv r
def SameP (l : LaneId) (s t : State) : Prop := ∀ r, (t.lane l).pv r = (s.lane l).pv r
def SameD (l : LaneId) (s t : State) : Prop := ∀ r, (t.lane l).dv r = (s.lane l).dv r

/-- Operations numbered from `n` upwards. -/
def numbered (n : Nat) : List Op → List Op
  | [] => []
  | o :: r => { o with id := n } :: numbered (n + 1) r

/-- The lane passes an instruction that becomes operations in unit queues: they stand last in issue order, and nothing else changes. -/
structure Entered (l : LaneId) (i : IWord) (s t : State) (os : List Op) : Prop where
  passed : Passed l i s t
  frame : OnlyIssue l s t
  ops : t.ops = s.ops ++ numbered s.nextOp os
  next : t.nextOp = s.nextOp + os.length
  scalars : SameS l s t
  predicates : SameP l s t
  descriptors : SameD l s t

/-- An exception raised at issue by the instruction at the lane's pc (R155): it stands last in its launch's list with its code and argument, the
launch is stopping and the lane issues no more; no register of the lane or of the block changes, and no byte of memory. -/
structure Raised (l : LaneId) (s t : State) (code arg : Nat) : Prop where
  stopped : (t.lane l).stopped = true
  stays : (t.lane l).pc = (s.lane l).pc ∧ (t.lane l).loops = (s.lane l).loops ∧ (t.lane l).k = (s.lane l).k
  listed : ∃ y, (t.ctx (s.lane l).ctx).launch? (s.lane l).seq = some y ∧ y.stage = .stopping ∧
    (y.excs.getLast?.map fun e => (e.exc.code, e.exc.pc, e.exc.arg)) = some (code, (s.lane l).pc, arg)
  scalars : SameS l s t
  predicates : SameP l s t
  descriptors : SameD l s t
  memory : t.cells = s.cells
  regs : t.regs = s.regs

/-- The lane runs a launch that is not decided, and no operation stands in a unit. -/
def State.RunsAlone (s : State) (l : LaneId) : Prop :=
  s.ops = [] ∧ ∃ x, (s.ctx (s.lane l).ctx).launch? (s.lane l).seq = some x ∧ x.decision = none

/-- An operation but for the streams' notes of their readers, and but for the slots that it has taken (R151). -/
def Op.unnoted (o : Op) : Op := { o with uses := [] }
def Op.untaken (o : Op) : Op := { o with slotsIn := [] }

/-- There is room for operations of a lane: fewer than 8 wait in each queue (R149), and at most 64 are unfinished with them (R152). -/
def Room (s : State) (l : LaneId) (os : List Op) : Prop :=
  (∀ o ∈ os, s.queueLen o.unit l < 8) ∧ (s.laneOps l).length + os.length ≤ 64

/-! ## Registers -/

/-- The registers take accesses: power is good and the port not frozen, start-up is READY, no block soft reset runs, no injection is armed, and
the block's number lies in its gang (R428, R430, R436, R444). -/
structure State.Accepts (s : State) : Prop where
  powered : s.live = true
  thawed : s.pins.frozen = false
  ready : s.fld Reg.insBoot 3 0 = 6
  noReset : s.breset = none
  noInjection : s.inject = none
  member : s.gangM < s.gangN

/-- A context slot whose pages take writes: in the build, neither FREE nor in TEARDOWN, and with no context reset pending (R451). -/
structure State.PageOpen (s : State) (c : Nat) : Prop where
  inBuild : c < s.straps.contexts
  taken : (s.ctx c).st ≠ .free
  standing : (s.ctx c).st ≠ .teardown
  noReset : (s.ctx c).rst = none

/-! ## Memory -/

/-- Every byte of memory reads as before. -/
def SameMem (s t : State) : Prop := ∀ a, t.rd a = s.rd a

/-- Every register but those at the offsets listed holds the word it held. -/
def SameRegs (except : List Nat) (s t : State) : Prop := ∀ o, o ∉ except → t.reg o = s.reg o

/-! ## Barrows and the fabric -/

/-- No barrow has anything in hand. -/
def State.IdleBarrows (s : State) : Prop := ∀ b, (s.barrow b).q = [] ∧ (s.barrow b).st ≠ .stalledBudget

/-- One operation is in hand in the block, on barrow `b`, with one segment in flight, for a launch that is not decided. -/
structure State.OneSegment (s : State) (b : Nat) (q : QDesc) (g : Seg) (o : Op) (x : Launch) : Prop where
  queue : (s.barrow b).q = [q]
  others : ∀ a, a ≠ b → (s.barrow a).q = []
  segs : q.segs = [g]
  goesOn : q.failing = none
  ops : s.ops = [o]
  number : o.id = q.op
  launch : (s.ctx o.ctx).launch? o.seq = some x
  undecided : x.decision = none

/-- The request with a tag is the last one of a segment that an answer is due for. -/
def State.LastOf (s : State) (b op k tag : Nat) : Prop :=
  ∀ y ∈ s.reqs, y.tag ≠ tag → (∀ i, y.dest ≠ .seg b op k i) ∧ y.dest ≠ .ackSeg b op k

/-- A barrow operation has ended with an exception: it has left its barrow, and its launch stops with that exception as its latest. -/
def State.EndedWith (t : State) (b : Nat) (o : Op) (code arg : Nat) : Prop :=
  (t.barrow b).q = [] ∧ t.op? o.id = none ∧
    ∃ y, (t.ctx o.ctx).launch? o.seq = some y ∧ y.stage = .stopping ∧
      (y.excs.getLast?.map fun e => (e.exc.code, e.exc.pc, e.exc.arg)) = some (code, o.pc, arg)

/-- The answer to a message of a job that a slot here carries waits at the output that the origin table gives, for the block it came from, with
the message's identity (R271, R274). -/
def AnsweredTo (d : Delivered) (body : MsgBody) (s t : State) : Prop :=
  ∀ j p, s.slotOfJob d.job = some j → s.straps.build ≠ .c1 → d.srcFab ≠ s.fld Reg.fabId 11 0 → s.route 8 d.srcFab = some p → s.portUp p = true →
    p < s.ports.length →
    ∃ q, (nth t.ports p).queue = (nth s.ports p).queue ++ [q] ∧ q.slot = some j ∧ q.own = true ∧ q.head.dst = d.srcFab ∧ q.head.job = d.job ∧
      q.head.msgs = [{ src := s.fld (Reg.fabJobCfg j) 39 28, jgen := d.msg.jgen, gctx := d.msg.gctx, tag := d.msg.tag, body := body }]

/-- A message of job slot `j` to job block `b`, another block, waits at the output that the origin table gives (R274, R275). -/
def SendsTo (j b : Nat) (body : MsgBody) (s t : State) : Prop :=
  ∀ f p, s.jobMap j b = some f → s.straps.build ≠ .c1 → f ≠ s.fld Reg.fabId 11 0 → s.route 8 f = some p → s.portUp p = true → p < s.ports.length →
    ∃ q ∈ (nth t.ports p).queue, ∃ m, q.slot = some j ∧ q.head.dst = f ∧ q.head.msgs = [m] ∧ m.body = body

/-! ## The Inspector -/

/-- The Inspector has no command in hand, and none waits to be taken. -/
structure State.InspectorQuiet (s : State) : Prop where
  free : s.cmdBusy = false
  door : s.insp.door = none
  messages : ∀ m ∈ s.insp.messages, m.kind ≠ 1

/-- The Inspector takes a mailbox command at once and accepts it: it runs with nothing in hand and nothing waiting, and checks 1 to 5 of R409
hold. -/
structure State.TakesCommand (s : State) (op : Nat) (c : CmdFrame) : Prop where
  running : s.live = true ∧ s.insp.st = 1
  ready : s.cmdBusy = false ∧ s.insp.queue = [] ∧ s.insp.door = none ∧ ∀ m ∈ s.insp.messages, m.kind ≠ 1
  mailbox : c.mailbox = true
  fits : (QCmd.of op c none).fits = true
  session : s.insp.session = some c.session
  tag : cmdTag s.insp.cmdKey (cmdBytes op c) = c.tag
  target : c.target = s.fld Reg.fabId 11 0
  counter : (s.reg Reg.insCmdLast).toNat < c.counter ∧ c.counter < 2 ^ 64

/-- A command has been accepted, acknowledged and done with a status and a result (R408 to R410): its counter is the last accepted one, its
response is kept, and ACK and DONE have been answered. -/
structure CommandDone (op : Nat) (c : CmdFrame) (status : Nat) (result : List Byte) (s t : State) : Prop where
  last : t.insp.last = some ⟨.of op c none, status, result, 0⟩
  counter : t.reg Reg.insCmdLast = word c.counter
  shown : t.fld Reg.insCmdStatus 15 8 = status
  answers : ∃ between, t.out = s.out ++ [.response (op + 0x8000) 0 c.counter 1 []] ++ between ++ [.response (op + 0x8000) status c.counter 2 result]

end Sys2Proof.Machine
end

