-- ==== Sys2Proof/Certificates/Slice0/Obligations.lean ====
section
/-!
DEFINITION. The statements of this block for the provers. Each docstring says what the statement says; OBLIGATIONS.json says which rule of
spec/ it formalises.
-/
namespace Sys2Proof

open Sys2Proof.Machine

/-! ## Tables that the statements go through -/

/-- The operations of class 0x01 and what each computes from a and b (R136). -/
def aluTable : List (Nat × (LaneId → IWord → Instr) × (Word → Word → Word)) :=
  [ (0x00, .addI, fun a b => a + b),
    (0x01, .subI, fun a b => a - b),
    (0x02, .mulI, fun a b => a * b),
    (0x03, .mulh, fun a b => BitVec.ofInt 64 (a.toInt * b.toInt / 2 ^ 64)),
    (0x04, .mulhu, fun a b => BitVec.ofNat 64 (a.toNat * b.toNat / 2 ^ 64)),
    (0x05, .divu, fun a b => if b = 0 then BitVec.ofNat 64 (2 ^ 64 - 1) else BitVec.ofNat 64 (a.toNat / b.toNat)),
    (0x06, .remu, fun a b => if b = 0 then a else BitVec.ofNat 64 (a.toNat % b.toNat)),
    (0x07, .andI, fun a b => a &&& b),
    (0x08, .orI, fun a b => a ||| b),
    (0x09, .xorI, fun a b => a ^^^ b),
    (0x0A, .shl, fun a b => BitVec.ofNat 64 (a.toNat * 2 ^ (b.toNat % 64))),
    (0x0B, .shr, fun a b => BitVec.ofNat 64 (a.toNat / 2 ^ (b.toNat % 64))),
    (0x0C, .sra, fun a b => BitVec.ofInt 64 (a.toInt / 2 ^ (b.toNat % 64))),
    (0x0D, .minI, fun a b => BitVec.ofInt 64 (min a.toInt b.toInt)),
    (0x0E, .maxI, fun a b => BitVec.ofInt 64 (max a.toInt b.toInt)),
    (0x0F, .minu, fun a b => BitVec.ofNat 64 (min a.toNat b.toNat)),
    (0x10, .maxu, fun a b => BitVec.ofNat 64 (max a.toNat b.toNat)) ]

/-- The comparisons of class 0x02 (R137). -/
def cmpTable : List (Nat × (LaneId → IWord → Instr) × (Word → Word → Prop)) :=
  [ (0x00, .cmpEq, fun a b => a = b),
    (0x01, .cmpNe, fun a b => a ≠ b),
    (0x02, .cmpLt, fun a b => a.toInt < b.toInt),
    (0x03, .cmpLe, fun a b => a.toInt ≤ b.toInt),
    (0x04, .cmpGt, fun a b => a.toInt > b.toInt),
    (0x05, .cmpGe, fun a b => a.toInt ≥ b.toInt),
    (0x06, .cmpLtu, fun a b => a.toNat < b.toNat),
    (0x07, .cmpLeu, fun a b => a.toNat ≤ b.toNat),
    (0x08, .cmpGtu, fun a b => a.toNat > b.toNat),
    (0x09, .cmpGeu, fun a b => a.toNat ≥ b.toNat) ]

/-- The predicate operations of class 0x02 (R137). -/
def predTable : List (Nat × (LaneId → IWord → Instr) × (Bool → Bool → Bool)) :=
  [ (0x0B, .pand, fun a b => a && b),
    (0x0C, .por, fun a b => a || b),
    (0x0D, .pxor, fun a b => a != b),
    (0x0E, .pandn, fun a b => a && !b) ]

/-- The four branches: operation, the command, the target, and whether s[fa] takes pc + 8 (R138). -/
def branchTable : List (Nat × (LaneId → IWord → Instr) × (Lane → IWord → Word) × Bool) :=
  [ (0, .br, fun x i => BitVec.ofNat 64 x.pc + 8 * iVal i, false),
    (1, .call, fun x i => BitVec.ofNat 64 x.pc + 8 * iVal i, true),
    (2, .jr, fun x i => x.sv (iRa i) + iVal i, false),
    (3, .jalr, fun x i => x.sv (iRa i) + iVal i, true) ]

/-- The loads of class 0x05: operation, command and bytes (R141). -/
def loadTable : List (Nat × (LaneId → IWord → Instr) × Nat) :=
  [(0, .ldB, 1), (1, .ldBs, 1), (2, .ldH, 2), (3, .ldHs, 2), (4, .ldW, 4), (5, .ldWs, 4), (6, .ldD, 8)]

/-- The stores of class 0x05 (R141). -/
def storeTable : List (Nat × (LaneId → IWord → Instr) × Nat) := [(8, .stB, 1), (9, .stH, 2), (10, .stW, 4), (11, .stD, 8)]

/-- An address that LD, ST, DLD and DST of `n` bytes may access: tag 0x3, within the context's range of the lane's own cluster scratch, a
multiple of `n`. -/
def reaches (s : State) (l : LaneId) (v n : Nat) : Prop :=
  let base := 0x4000000 + s.clusterOrd (s.lane l).ctx l.cl * 0x1000000
  v / 2 ^ 60 = 3 ∧ tagOk v = true ∧ base ≤ v % 2 ^ 60 ∧ v % 2 ^ 60 < base + (s.clusterRange (s.lane l).ctx l.cl).2 ∧
    l.cl ∈ s.leaseClusters (s.lane l).ctx ∧ v % 2 ^ 60 % n = 0

/-- The local address that such an address names. -/
def portAddress (s : State) (l : LaneId) (v : Nat) : Nat :=
  clusterAddr l.cl + (s.clusterRange (s.lane l).ctx l.cl).1 + (v % 2 ^ 60 - (0x4000000 + s.clusterOrd (s.lane l).ctx l.cl * 0x1000000))

/-- The values that descriptor field `f` can hold (R143, R146): extents 1 to 2^24 or 65,536, the element stride 1 to 255, the byte strides 30
bits signed, the others their widths. -/
def fieldFits (f : Nat) (v : Word) : Prop :=
  match f with
  | 0 => True
  | 1 => 1 ≤ v.toNat ∧ v.toNat ≤ 2 ^ 24
  | 2 | 3 | 4 => 1 ≤ v.toNat ∧ v.toNat ≤ 65536
  | 5 => 1 ≤ v.toNat ∧ v.toNat ≤ 255
  | 6 | 7 | 8 => -(2 ^ 29) ≤ v.toInt ∧ v.toInt < 2 ^ 29
  | 9 | 11 => v.toNat < 32
  | 10 => v.toNat < 16
  | _ => v.toNat < 256

/-- The VEC commands and their operation codes (R170 to R174). -/
def vecTable : List (Nat × (LaneId → IWord → Instr)) :=
  [ (0x00, .vecAdd), (0x01, .vecSub), (0x02, .vecMul), (0x03, .vecFma), (0x04, .vecMin), (0x05, .vecMax), (0x06, .vecCmp), (0x07, .vecSel),
    (0x08, .vecCvt), (0x09, .vecSum), (0x10, .vecRqi), (0x11, .vecRqf), (0x12, .vecQmx), (0x13, .vecSctag), (0x14, .vecCbenc), (0x18, .vecTab),
    (0x20, .vecPoolmax), (0x21, .vecPoolsum), (0x28, .vecArgmax), (0x29, .vecArgmin), (0x2A, .vecTopk), (0x30, .vecBoxdec), (0x31, .vecDot),
    (0x32, .vecSqdist), (0x33, .vecIou) ]

end Sys2Proof

section Statements

open Sys2Proof Sys2Proof.Machine

/-! ## The queue, reset, memory and registers -/

/-- A step takes the command at the front of the queue and carries it out on the state with the queue's rest. -/
def Obligations.StepRunsFront : Prop :=
  ∀ (c : Instr) (rest : List Instr) (s : State), step { s with pending := c :: rest } = exec c { s with pending := rest }

/-- On an empty queue a step is always safe. A block without power stays as it is; while power is good the step is a tick of 0.25 ns (the model's
choice, log entry 3). Where nothing waits for the tick, uptime and, at the nominal rate, station time advance by one, the arithmetic clock by its
rate, two thirds of it in a stretch, and besides these only the leakage accounts of the Ledger and the running times of launches go on. -/
def Obligations.StepOnEmptyQueue : Prop :=
  ∀ s : State, s.pending = [] → SafeStep s ∧ (s.live = false → step s = .next s) ∧
    (s.live = true → s.Quiet → ∃ t, step s = .next t ∧
      t = { s with up := s.up + 1, bell := t.bell, cycAcc := s.cycAcc + (if s.power.stretch.isSome then 2 else 3) * oppFreq s.power.clk,
                   tiles := t.tiles, clusters := t.clusters, power := t.power, ctxs := t.ctxs } ∧
      (s.rateAdj = 0 → s.bell.rateAcc = 0 → t.bell = { s.bell with now := (s.bell.now + 1) % 2 ^ 64 }) ∧
      (∀ k, { t.tile k with leakOwn := 0, leakFree := 0 } = { s.tile k with leakOwn := 0, leakFree := 0 }) ∧
      (∀ k, { t.cluster k with leak := 0 } = { s.cluster k with leak := 0 }) ∧
      { t.power with frontMv := 0, quadT := 0, linkT := 0 } = { s.power with frontMv := 0, quadT := 0, linkT := 0 } ∧
      ∀ c, { t.ctx c with launches := [] } = { s.ctx c with launches := [] } ∧
        (t.ctx c).launches.map (fun x => { x with runSt := 0, thrSt := 0 }) = (s.ctx c).launches.map (fun x => { x with runSt := 0, thrSt := 0 }))

/-- Bytes stored from an address upwards read as stored, every other byte as before, and the memory stays in canonical form. -/
def Obligations.MemoryReadAfterWrite : Prop :=
  ∀ (s : State) (a : Nat) (bs : List Byte),
    (∀ a', (s.wrBytes a bs).rd a' = if a ≤ a' ∧ a' < a + bs.length then bs.getD (a' - a) 0 else s.rd a') ∧
    (s.wrBytes a bs).rdNat a bs.length = leNat bs ∧
    (Memory.wf s.cells = true → Memory.wf (s.wrBytes a bs).cells = true) ∧
    { s.wrBytes a bs with cells := s.cells } = s

/-! ## Scalar instructions -/

/-- Each ALU instruction that issues writes its result to s[fa] (a write to s0 is discarded), passes, and changes nothing else. A division
issues only once the lane's divider is free. -/
def Obligations.AluResult : Prop :=
  ∀ p ∈ aluTable, ∀ (l : LaneId) (i : IWord) (s : State), s.Issues l i 1 p.1 (formRegs i) →
    (p.1 = 0x05 ∨ p.1 = 0x06 → (s.lane l).divFree ≤ s.cyc) →
    ∃ t, exec (p.2.1 l i) s = .next t ∧ Passed l i s t ∧ OnlyLane l s t ∧ SameP l s t ∧ SameD l s t ∧
      ∀ r, (t.lane l).sv r =
        if r = iFa i ∧ r ≠ 0 then p.2.2 ((s.lane l).sv (iRa i)) ((s.lane l).sv (iRb i) + iVal i) else (s.lane l).sv r

/-- Each comparison that issues writes p[fa] (a write to p0 is discarded), passes, and changes nothing else. -/
def Obligations.CompareResult : Prop :=
  ∀ p ∈ cmpTable, ∀ (l : LaneId) (i : IWord) (s : State), s.Issues l i 2 p.1 (formRegs i) →
    ∃ t, exec (p.2.1 l i) s = .next t ∧ Passed l i s t ∧ OnlyLane l s t ∧ SameS l s t ∧ SameD l s t ∧
      (iFa i ≠ 0 → ((t.lane l).pv (iFa i) = true ↔ p.2.2 ((s.lane l).sv (iRa i)) ((s.lane l).sv (iRb i) + iVal i))) ∧
      ∀ r, r ≠ iFa i ∨ r = 0 → (t.lane l).pv r = (s.lane l).pv r

/-- Predicate logic writes p[fa]; SEL writes s[fa] with s[ra] where p[imm 2:0] holds and s[rb] where it does not. -/
def Obligations.PredicateAndSelect : Prop :=
  (∀ p ∈ predTable, ∀ (l : LaneId) (i : IWord) (s : State), s.Issues l i 2 p.1 (formRegs i) →
    ∃ t, exec (p.2.1 l i) s = .next t ∧ Passed l i s t ∧ OnlyLane l s t ∧ SameS l s t ∧ SameD l s t ∧
      ∀ r, (t.lane l).pv r = if r = iFa i ∧ r ≠ 0 then p.2.2 ((s.lane l).pv (iRa i)) ((s.lane l).pv (iRb i)) else (s.lane l).pv r) ∧
  (∀ (l : LaneId) (i : IWord) (s : State), s.Issues l i 2 0x0A (rP ((iVal i).toNat % 8) :: formRegs i) →
    ∃ t, exec (.selI l i) s = .next t ∧ Passed l i s t ∧ OnlyLane l s t ∧ SameP l s t ∧ SameD l s t ∧
      ∀ r, (t.lane l).sv r =
        if r = iFa i ∧ r ≠ 0 then (if (s.lane l).pv ((iVal i).toNat % 8) = true then (s.lane l).sv (iRa i) else (s.lane l).sv (iRb i))
        else (s.lane l).sv r)

/-! ## Branches and loops -/

/-- A branch whose target is a multiple of 8 and that does not stand as the last word of an active body is taken: the pc is the target, the link
register, if any, holds pc + 8, and the next instruction issues 3 cycles later. Of the active loops exactly those stay that hold the target
together with every loop around them; no counter, predicate or descriptor changes. As the last word of an active body, or with a target that is
no multiple of 8, it has no effect and raises LOOP-INVALID (code 0x0A) or MISALIGNED-PC (0x02). -/
def Obligations.BranchTaken : Prop :=
  ∀ p ∈ branchTable, ∀ (l : LaneId) (i : IWord) (s : State), s.Issues l i 3 p.1 (formRegs i) →
    let target := (p.2.2.1 (s.lane l) i).toNat
    let holds := fun (e : LoopEnt) => e.start ≤ target ∧ target ≤ e.last
    ((∀ e ∈ (s.lane l).loops, e.last ≠ (s.lane l).pc) → target % 8 = 0 →
      ∃ t, exec (p.2.1 l i) s = .next t ∧ OnlyLane l s t ∧ SameP l s t ∧ SameD l s t ∧
        (t.lane l).pc = target ∧ (t.lane l).nextIssue = s.cyc + 3 ∧ (t.lane l).k = (s.lane l).k ∧
        ((t.lane l).st = .issuing ∧ (t.lane l).wait = 0 ∧ (t.lane l).ctx = (s.lane l).ctx ∧ (t.lane l).seq = (s.lane l).seq) ∧
        (∀ r, (t.lane l).sv r =
          if p.2.2.2 = true ∧ r = iFa i ∧ r ≠ 0 then BitVec.ofNat 64 ((s.lane l).pc + 8) else (s.lane l).sv r) ∧
        (∃ gone, (s.lane l).loops = gone ++ (t.lane l).loops) ∧ (∀ e ∈ (t.lane l).loops, holds e) ∧
        ∀ gone left, (s.lane l).loops = gone ++ left → (∀ e ∈ left, holds e) → left.length ≤ (t.lane l).loops.length) ∧
    (s.RunsAlone l →
      ((∃ e ∈ (s.lane l).loops, e.last = (s.lane l).pc) → ∃ t, exec (p.2.1 l i) s = .next t ∧ Raised l s t 0x0A 0) ∧
      ((∀ e ∈ (s.lane l).loops, e.last ≠ (s.lane l).pc) → target % 8 ≠ 0 → ∃ t, exec (p.2.1 l i) s = .next t ∧ Raised l s t 0x02 0))

/-- LOOP opens a loop: k[fa] takes the count, the pc goes to the body's first word, and the loop stands innermost; with a count of 0 the pc goes
past the body and nothing else changes. A count of 2^32 or more, four active loops, a k register in use, a body that ends beyond the enclosing one,
and a LOOP that is the last word of an active body raise LOOP-INVALID (code 0x0A). At the final word of the innermost body the count falls by one:
while it is not 0 the pc goes back to the body's start, and at 0 the loop ends. Stated with NOP as that final word, in a single loop. -/
def Obligations.LoopsRun : Prop :=
  (∀ (l : LaneId) (i : IWord) (s : State), s.Issues l i 4 0 (formRegs i) →
     (∀ e ∈ (s.lane l).loops, e.last ≠ (s.lane l).pc ∧ e.k ≠ iFa i) → (s.lane l).loops.length < 4 →
     0 < ((s.lane l).sv (iRa i)).toNat + iImm i / 2 ^ 16 → ((s.lane l).sv (iRa i)).toNat + iImm i / 2 ^ 16 < 2 ^ 32 →
     0 < iImm i % 2 ^ 16 → (∀ e, (s.lane l).loops.head? = some e → (s.lane l).pc + 8 * (iImm i % 2 ^ 16) ≤ e.last) →
     ∃ t, exec (.loopI l i) s = .next t ∧ OnlyLane l s t ∧ SameS l s t ∧ SameP l s t ∧ SameD l s t ∧
       (t.lane l).pc = ((s.lane l).pc + 8) % 2 ^ 64 ∧
       (t.lane l).kv (iFa i) = ((s.lane l).sv (iRa i)).toNat + iImm i / 2 ^ 16 ∧
       (∀ r, r ≠ iFa i → (t.lane l).kv r = (s.lane l).kv r) ∧
       (t.lane l).loops = ⟨iFa i, (s.lane l).pc + 8, (s.lane l).pc + 8 * (iImm i % 2 ^ 16)⟩ :: (s.lane l).loops) ∧
  (∀ (l : LaneId) (i : IWord) (s : State), s.Issues l i 4 0 (formRegs i) →
     (∀ e ∈ (s.lane l).loops, e.last ≠ (s.lane l).pc ∧ e.k ≠ iFa i) → (s.lane l).loops.length < 4 → (s.lane l).sv (iRa i) = 0 → iImm i < 2 ^ 16 →
     0 < iImm i → (∀ e, (s.lane l).loops.head? = some e → (s.lane l).pc + 8 * iImm i ≤ e.last) →
     ∃ t, exec (.loopI l i) s = .next t ∧ OnlyLane l s t ∧ SameS l s t ∧ SameP l s t ∧ SameD l s t ∧
       (t.lane l).pc = ((s.lane l).pc + 8 * iImm i + 8) % 2 ^ 64 ∧ (t.lane l).loops = (s.lane l).loops ∧ (t.lane l).k = (s.lane l).k) ∧
  (∀ (l : LaneId) (i : IWord) (s : State), s.Issues l i 4 0 (formRegs i) → s.RunsAlone l →
     let count := ((s.lane l).sv (iRa i)).toNat + iImm i / 2 ^ 16
     (2 ^ 32 ≤ count ∧ count < 2 ^ 64) ∨ 4 ≤ (s.lane l).loops.length ∨ (∃ e ∈ (s.lane l).loops, e.k = iFa i ∨ e.last = (s.lane l).pc) ∨
       (∃ e, (s.lane l).loops.head? = some e ∧ e.last < (s.lane l).pc + 8 * (iImm i % 2 ^ 16)) →
     ∃ t, exec (.loopI l i) s = .next t ∧ Raised l s t 0x0A 0) ∧
  (∀ (l : LaneId) (i : IWord) (s : State) (e : LoopEnt), s.Issues l i 0xD 0 [] → (s.lane l).loops = [e] →
     e.last = (s.lane l).pc → (s.lane l).pc < 2 ^ 64 - 8 → 0 < (s.lane l).kv e.k → (s.lane l).kv e.k < 2 ^ 32 →
     ∃ t, exec (.nop l i) s = .next t ∧ OnlyLane l s t ∧ SameS l s t ∧ SameP l s t ∧ SameD l s t ∧
       (t.lane l).kv e.k = (s.lane l).kv e.k - 1 ∧
       (1 < (s.lane l).kv e.k → (t.lane l).pc = e.start ∧ (t.lane l).loops = [e]) ∧
       ((s.lane l).kv e.k = 1 → (t.lane l).pc = (s.lane l).pc + 8 ∧ (t.lane l).loops = []))

/-- NOP passes and changes nothing; KRD writes s[fa] := k[rb]; END passes and leaves the lane ENDING, waiting for its operations. -/
def Obligations.ControlInstructions : Prop :=
  (∀ (l : LaneId) (i : IWord) (s : State), s.Issues l i 0xD 0 [] →
    ∃ t, exec (.nop l i) s = .next t ∧ Passed l i s t ∧ OnlyLane l s t ∧ SameS l s t ∧ SameP l s t ∧ SameD l s t) ∧
  (∀ (l : LaneId) (i : IWord) (s : State), s.Issues l i 4 1 (formRegs i) →
    ∃ t, exec (.krd l i) s = .next t ∧ Passed l i s t ∧ OnlyLane l s t ∧ SameP l s t ∧ SameD l s t ∧
      ∀ r, (t.lane l).sv r = if r = iFa i ∧ r ≠ 0 then BitVec.ofNat 64 ((s.lane l).kv (iRb i)) else (s.lane l).sv r) ∧
  (∀ (l : LaneId) (i : IWord) (s : State), s.Issues l i 0xD 1 [] →
    ∃ t, exec (.endI l i) s = .next t ∧ OnlyLane l s t ∧ SameS l s t ∧ SameP l s t ∧ SameD l s t ∧
      (t.lane l).st = .ending ∧ (t.lane l).wait = 12)

/-- An exception raised at issue: it is recorded with its address and argument, the launch is stopping, and the lane issues no more. TRAP raises
code 0x0B with imm 15:0. A word of class 0x01 and an assigned operation whose other fields break the rules of its form raises ILLEGAL (code 0x01). -/
def Obligations.TrapAndIllegalRaise : Prop :=
  (∀ (l : LaneId) (i : IWord) (s : State), s.Issues l i 0xD 2 [] → s.RunsAlone l →
     ∃ t, exec (.trap l i) s = .next t ∧ Raised l s t 0x0B (iImm i % 2 ^ 16)) ∧
  (∀ p ∈ aluTable, ∀ (l : LaneId) (i : IWord) (s : State), s.laneOpen l = true → s.inject = none → (s.lane l).pc % 8 = 0 →
     s.codeIs l i = true → iCls i = 1 → iOp i = p.1 → legal i = false → s.RunsAlone l →
     ∃ t, exec (p.2.1 l i) s = .next t ∧ Raised l s t 0x01 0)

/-- A guard that does not hold turns the instruction into one that only passes (R135): stated for ADD, LD.D, CALL and END. An instruction that
reads or writes a register with a pending write does not issue: the lane waits with cause 2 and its pc stays. -/
def Obligations.IssueHolds : Prop :=
  (∀ p ∈ ([(1, 0, .addI), (5, 6, .ldD), (3, 1, .call), (0xD, 1, .endI)] : List (Nat × Nat × (LaneId → IWord → Instr))),
     ∀ (l : LaneId) (i : IWord) (s : State), s.laneOpen l = true → s.inject = none → (s.lane l).pc % 8 = 0 → s.codeIs l i = true →
       iCls i = p.1 → iOp i = p.2.1 → legal i = true → s.regReady l (rP (iGp i)) = true → s.guard l i = false →
       ∃ t, exec (p.2.2 l i) s = .next t ∧ Passed l i s t ∧ OnlyLane l s t ∧ SameS l s t ∧ SameP l s t ∧ SameD l s t) ∧
  (∀ p ∈ aluTable, ∀ (l : LaneId) (i : IWord) (s : State), s.laneOpen l = true → s.inject = none → (s.lane l).pc % 8 = 0 →
     s.codeIs l i = true → iCls i = 1 → iOp i = p.1 → legal i = true → s.regReady l (rP (iGp i)) = true → s.guard l i = true →
     (∃ r ∈ formRegs i, s.regReady l r = false) →
     ∃ t, exec (p.2.1 l i) s = .next t ∧ (t.lane l).wait = 2 ∧ (t.lane l).pc = (s.lane l).pc ∧ (t.lane l).nextIssue = (s.lane l).nextIssue ∧
       t = { s with lanes := t.lanes } ∧ SameS l s t ∧ SameP l s t ∧ SameD l s t)

/-! ## Loads, stores, constants and descriptors -/

/-- A load or store that issues with room in the lane's port becomes one operation there: a load names its register (none for s0), a store
holds the low bytes of s[fa], or all of d[fa], for the addresses it writes. No byte of memory changes yet. DLD and DST move 32 bytes. -/
def Obligations.PortInstructionsIssue : Prop :=
  (∀ p ∈ loadTable, ∀ (l : LaneId) (i : IWord) (s : State), s.Issues l i 5 p.1 (formRegs i) →
    let v := ((s.lane l).sv (iRa i) + iVal i).toNat
    let a := portAddress s l v
    let o : Op := { s.newOp l i .port with dst := if iFa i = 0 then none else some (iFa i), tick := a, total := p.2.2,
                                           ivals := [⟨16 + l.cl, a - clusterAddr l.cl, a - clusterAddr l.cl + p.2.2 - 1, false⟩] }
    reaches s l v p.2.2 → Room s l [o] → ∃ t, exec (p.2.1 l i) s = .next t ∧ Entered l i s t [o] ∧ SameMem s t) ∧
  (∀ p ∈ storeTable, ∀ (l : LaneId) (i : IWord) (s : State), s.Issues l i 5 p.1 (formRegs i) →
    let v := ((s.lane l).sv (iRa i) + iVal i).toNat
    let a := portAddress s l v
    let o : Op := { s.newOp l i .port with tick := a, total := p.2.2,
                                           ivals := [⟨16 + l.cl, a - clusterAddr l.cl, a - clusterAddr l.cl + p.2.2 - 1, true⟩],
                                           pendBytes := (List.range p.2.2).map fun k => (a + k, BitVec.ofNat 8 (((s.lane l).sv (iFa i)).toNat / 256 ^ k)) }
    reaches s l v p.2.2 → Room s l [o] → ∃ t, exec (p.2.1 l i) s = .next t ∧ Entered l i s t [o] ∧ SameMem s t) ∧
  (∀ (l : LaneId) (i : IWord) (s : State), s.Issues l i 7 0 (formRegs i) →
    let v := ((s.lane l).sv (iRa i) + iVal i).toNat
    let a := portAddress s l v
    let o : Op := { s.newOp l i .port with dst := some (32 + iFa i), tick := a, total := 32,
                                           ivals := [⟨16 + l.cl, a - clusterAddr l.cl, a - clusterAddr l.cl + 31, false⟩] }
    reaches s l v 32 → Room s l [o] → ∃ t, exec (.dld l i) s = .next t ∧ Entered l i s t [o] ∧ SameMem s t) ∧
  (∀ (l : LaneId) (i : IWord) (s : State), s.Issues l i 7 1 (formRegs i) →
    let v := ((s.lane l).sv (iRa i) + iVal i).toNat
    let a := portAddress s l v
    let o : Op := { s.newOp l i .port with tick := a, total := 32,
                                           ivals := [⟨16 + l.cl, a - clusterAddr l.cl, a - clusterAddr l.cl + 31, true⟩],
                                           pendBytes := (List.range 32).map fun k => (a + k, BitVec.ofNat 8 (((s.lane l).dv (iFa i)).toNat / 256 ^ k)) }
    reaches s l v 32 → Room s l [o] → ∃ t, exec (.dst l i) s = .next t ∧ Entered l i s t [o] ∧ SameMem s t)

/-- A store of the port completes, at least 12 cycles after its start: the bytes it holds stand at their addresses, every other byte is as before,
the operation is gone, and no register of any lane changes. A load of the port completes: s[fa] takes the bytes, zero-extended, or sign-extended
for LD.BS, LD.HS and LD.WS (operations 1, 3 and 5); memory and every other register of the lane are as before. -/
def Obligations.StoresAndLoads : Prop :=
  (∀ (s : State) (id a : Nat) (o : Op) (bs : List Byte), s.op? id = some o → o.st = .running → o.unit = .port →
     o.startCyc + 12 ≤ s.cyc → 0 < bs.length → o.pendBytes = (List.range bs.length).map (fun k => (a + k, bs.getD k 0)) →
     ∃ t, exec (.operationComplete id) s = .next t ∧
       (∀ a', t.rd a' = if a ≤ a' ∧ a' < a + bs.length then bs.getD (a' - a) 0 else s.rd a') ∧
       t.ops = s.ops.filter (fun x => x.id != o.id) ∧ t.lanes = s.lanes ∧ t.regs = s.regs) ∧
  (∀ (s : State) (id r : Nat) (o : Op), s.op? id = some o → o.st = .running → o.unit = .port → s.inject = none →
     o.startCyc + 12 ≤ s.cyc → o.pendBytes = [] → o.dst = some r → 0 < r → r < 32 → 0 < o.total → o.total ≤ 8 →
     ∃ t, exec (.operationComplete id) s = .next t ∧
       (t.lane o.lane).sv r =
         (if iOp o.iw = 1 ∨ iOp o.iw = 3 ∨ iOp o.iw = 5 then BitVec.ofInt 64 (signed (8 * o.total) (s.rdNat o.tick o.total))
          else BitVec.ofNat 64 (s.rdNat o.tick o.total)) ∧
       (∀ r', r' ≠ r → (t.lane o.lane).sv r' = (s.lane o.lane).sv r') ∧ SameP o.lane s t ∧ SameD o.lane s t ∧
       (∀ m, laneIx m ≠ laneIx o.lane → t.lane m = s.lane m) ∧ t.cells = s.cells ∧ t.regs = s.regs ∧
       t.ops = s.ops.filter (fun x => x.id != o.id))

/-- LDC writes s[fa] with 4 or 8 bytes of the constant buffer and DLDC writes d[fa] with 32, where the address is aligned and within the 192
bytes. DMOV copies a descriptor; DGET reads an extent as the extent and a stride sign-extended; DSET writes one field, which reads back, and no
other; DCLIP lowers an extent to s[ra] where s[ra] is not 0; DADV moves the base by the stride of its axis. -/
def Obligations.ConstantsAndDescriptors : Prop :=
  ((∀ p ∈ ([(0, .ldcW, 4, false), (1, .ldcWs, 4, true), (2, .ldcD, 8, false)] : List (Nat × (LaneId → IWord → Instr) × Nat × Bool)),
     ∀ (l : LaneId) (i : IWord) (s : State), s.Issues l i 6 p.1 (formRegs i) →
       let a := ((s.lane l).sv (iRa i) + iVal i).toNat
       a % p.2.2.1 = 0 → a + p.2.2.1 ≤ 192 →
       let v := leNat (((s.lane l).consts.drop a).take p.2.2.1)
       ∃ t, exec (p.2.1 l i) s = .next t ∧ Passed l i s t ∧ OnlyLane l s t ∧ SameP l s t ∧ SameD l s t ∧
         ∀ r, (t.lane l).sv r =
           if r = iFa i ∧ r ≠ 0 then (if p.2.2.2 = true then BitVec.ofInt 64 (signed 32 v) else BitVec.ofNat 64 v) else (s.lane l).sv r) ∧
   (∀ (l : LaneId) (i : IWord) (s : State), s.Issues l i 7 2 (formRegs i) →
       let a := ((s.lane l).sv (iRa i) + iVal i).toNat
       a % 8 = 0 → a ≤ 160 →
       ∃ t, exec (.dldc l i) s = .next t ∧ Passed l i s t ∧ OnlyLane l s t ∧ SameS l s t ∧ SameP l s t ∧
         ∀ r, (t.lane l).dv r = if r = iFa i then BitVec.ofNat 256 (leNat (((s.lane l).consts.drop a).take 32)) else (s.lane l).dv r)) ∧
  ((∀ (l : LaneId) (i : IWord) (s : State), s.Issues l i 7 3 (formRegs i) →
     ∃ t, exec (.dmov l i) s = .next t ∧ Passed l i s t ∧ OnlyLane l s t ∧ SameS l s t ∧ SameP l s t ∧
       ∀ r, (t.lane l).dv r = if r = iFa i then (s.lane l).dv (iRb i) else (s.lane l).dv r) ∧
   (∀ (l : LaneId) (i : IWord) (s : State) (f : Nat), f ≤ 12 → s.Issues l i 7 (0x20 + f) (formRegs i) →
     ∃ t, exec (.dget l i) s = .next t ∧ Passed l i s t ∧ OnlyLane l s t ∧ SameP l s t ∧ SameD l s t ∧
       ∀ r, (t.lane l).sv r = if r = iFa i ∧ r ≠ 0 then
         (let d := ((s.lane l).dv (iRb i)).toNat
          match f with
          | 0 => BitVec.ofNat 64 (d % 2 ^ 64)
          | 1 => BitVec.ofNat 64 (d / 2 ^ 64 % 2 ^ 24 + 1)
          | 2 => BitVec.ofNat 64 (d / 2 ^ 88 % 2 ^ 16 + 1)
          | 3 => BitVec.ofNat 64 (d / 2 ^ 104 % 2 ^ 16 + 1)
          | 4 => BitVec.ofNat 64 (d / 2 ^ 128 % 2 ^ 16 + 1)
          | 5 => BitVec.ofNat 64 (d / 2 ^ 120 % 2 ^ 8)
          | 6 => BitVec.ofInt 64 (signed 30 (d / 2 ^ 144 % 2 ^ 30))
          | 7 => BitVec.ofInt 64 (signed 30 (d / 2 ^ 192 % 2 ^ 30))
          | 8 => BitVec.ofInt 64 (signed 30 (d / 2 ^ 222 % 2 ^ 30))
          | 9 => BitVec.ofNat 64 (d / 2 ^ 182 % 2 ^ 5)
          | 10 => BitVec.ofNat 64 (d / 2 ^ 187 % 2 ^ 4)
          | 11 => BitVec.ofNat 64 (16 * (d / 2 ^ 191 % 2) + d / 2 ^ 252 % 2 ^ 4)
          | _ => BitVec.ofNat 64 (d / 2 ^ 174 % 2 ^ 8)) else (s.lane l).sv r) ∧
   (∀ (l : LaneId) (i : IWord) (s : State) (f : Nat), f ≤ 12 → s.Issues l i 7 (0x10 + f) (formRegs i) →
     let v := (s.lane l).sv (iRa i) + iVal i
     fieldFits f v →
     ∃ t, exec (.dset l i) s = .next t ∧ Passed l i s t ∧ OnlyLane l s t ∧ SameS l s t ∧ SameP l s t ∧
       (∀ r, r ≠ iFa i → (t.lane l).dv r = (s.lane l).dv r) ∧ getField ((t.lane l).dv (iFa i)) f = v ∧
       ∀ g, g ≤ 12 → g ≠ f → getField ((t.lane l).dv (iFa i)) g = getField ((s.lane l).dv (iFa i)) g) ∧
   (∀ (l : LaneId) (i : IWord) (s : State), s.Issues l i 7 5 (formRegs i) → (s.lane l).sv (iRa i) ≠ 0 →
     let x := iImm i % 4
     ∃ t, exec (.dclip l i) s = .next t ∧ Passed l i s t ∧ OnlyLane l s t ∧ SameS l s t ∧ SameP l s t ∧
       (∀ r, r ≠ iFa i → (t.lane l).dv r = (s.lane l).dv r) ∧
       dExt ((t.lane l).dv (iFa i)) x = min (dExt ((s.lane l).dv (iFa i)) x) ((s.lane l).sv (iRa i)).toNat ∧
       (∀ y, y < 4 → y ≠ x → dExt ((t.lane l).dv (iFa i)) y = dExt ((s.lane l).dv (iFa i)) y) ∧
       dBase ((t.lane l).dv (iFa i)) = dBase ((s.lane l).dv (iFa i))) ∧
   (∀ (l : LaneId) (i : IWord) (s : State), s.Issues l i 7 4 (formRegs i) → iImm i % 4 ≠ 0 →
     let d := (s.lane l).dv (iFa i)
     ∃ t, exec (.dadv l i) s = .next t ∧ Passed l i s t ∧ OnlyLane l s t ∧ SameS l s t ∧ SameP l s t ∧
       (∀ r, r ≠ iFa i → (t.lane l).dv r = (s.lane l).dv r) ∧
       dBase ((t.lane l).dv (iFa i)) = unsignedOf 64 ((dBase d : Int) + ((s.lane l).sv (iRa i)).toInt * dStr d (iImm i % 4)) ∧
       ((t.lane l).dv (iFa i)).toNat / 2 ^ 64 = d.toNat / 2 ^ 64) ∧
   (∀ (l : LaneId) (i : IWord) (s : State) (w : Nat), s.Issues l i 7 4 (formRegs i) → iImm i % 4 = 0 →
     let d := (s.lane l).dv (iFa i)
     let n := ((s.lane l).sv (iRa i)).toNat * dStr0 d * w
     fmtBits (dFmt d) = some w → n % 8 = 0 →
     ∃ t, exec (.dadv l i) s = .next t ∧ Passed l i s t ∧ OnlyLane l s t ∧ SameS l s t ∧ SameP l s t ∧
       (∀ r, r ≠ iFa i → (t.lane l).dv r = (s.lane l).dv r) ∧
       dBase ((t.lane l).dv (iFa i)) = (dBase d + n / 8) % 2 ^ 64 ∧ ((t.lane l).dv (iFa i)).toNat / 2 ^ 64 = d.toNat / 2 ^ 64))

/-! ## Instructions that become operations -/

/-- SIG, WAIT, FENCE, BARRIER (local, or on a group bound for the context), TWAIT and PACE enter the lane's queue of their unit with what they read at issue. -/
def Obligations.SyncAndTimeIssue : Prop :=
  (∀ p ∈ ([(0, .sig), (1, .waitI)] : List (Nat × (LaneId → IWord → Instr))), ∀ (l : LaneId) (i : IWord) (s : State),
    s.Issues l i 0xB p.1 [rS (sRa i)] →
    let o : Op := { s.newOp l i .sync with slotNo := bits i.w 46 41, total := (((s.lane l).sv (bits i.w 39 35)).toNat + bits i.w 31 0) % 2 ^ 32 }
    Room s l [o] → ∃ t, exec (p.2 l i) s = .next t ∧ Entered l i s t [o]) ∧
  (∀ (l : LaneId) (i : IWord) (s : State), s.Issues l i 0xB 2 [] → Room s l [s.newOp l i .sync] →
    ∃ t, exec (.fence l i) s = .next t ∧ Entered l i s t [s.newOp l i .sync]) ∧
  (∀ (l : LaneId) (i : IWord) (s : State), s.Issues l i 0xB 3 [rS (sBarRa i)] → bit i.w 38 = true →
    let o : Op := { s.newOp l i .sync with sc := [(s.lane l).sv (bits i.w 37 33)] }
    Room s l [o] → ∃ t, exec (.barrier l i) s = .next t ∧ Entered l i s t [o]) ∧
  (∀ (l : LaneId) (i : IWord) (s : State), s.Issues l i 0xB 3 [rS (sBarRa i)] → bit i.w 38 = false →
    s.barCtx (bits i.w 46 39) = some (s.lane l).ctx →
    let e := (s.lane l).sv (bits i.w 37 33)
    let o : Op := { s.newOp l i .sync with
      sc := [e], tick := if s.barMode (bits i.w 46 39) = 2 ∧ bits i.w 37 33 ≠ 0 then e.toNat + s.fld (Reg.fabBarCfg (bits i.w 46 39)) 63 40 else 0 }
    Room s l [o] → ∃ t, exec (.barrier l i) s = .next t ∧ Entered l i s t [o]) ∧
  (∀ (l : LaneId) (i : IWord) (s : State), s.Issues l i 0xC 0 [rS (iRa i)] →
    let o : Op := { s.newOp l i .time with tick := ((s.lane l).sv (iRa i) + iVal i).toNat, slotNo := 0xFFFF }
    Room s l [o] → ∃ t, exec (.twait l i) s = .next t ∧ Entered l i s t [o]) ∧
  (∀ (l : LaneId) (i : IWord) (s : State), s.Issues l i 0xC 3 [] → Room s l [s.newOp l i .time] →
    ∃ t, exec (.pace l i) s = .next t ∧ Entered l i s t [s.newOp l i .time])

/-- TWAIT.C and TSLOT on a cadence that is enabled and granted to the context enter the time unit; TWAIT.C waits for the first instant
s(n) + f at or after the issue instant. -/
def Obligations.CadenceInstructionsIssue : Prop :=
  (∀ (l : LaneId) (i : IWord) (s : State) (origin period : Nat), s.Issues l i 0xC 1 [rS (iRa i), rS (iFa i)] →
    s.cadFor (s.lane l).ctx (bits i.w 36 33) = some (origin, period) →
    let f := ((s.lane l).sv (iRa i) + iVal i).toInt
    (∀ o : Op, o.unit = .time → Room s l [o]) →
    ∃ t o, exec (.twaitC l i) s = .next t ∧ Entered l i s t [o] ∧ o.unit = .time ∧ o.dst = (if iFa i = 0 then none else some (iFa i)) ∧
      (o.tick : Int) = origin + o.slotNo * period / 2 ^ 32 + f ∧ s.bell.now ≤ o.tick ∧
      ∀ n : Nat, n < o.slotNo → (origin : Int) + n * period / 2 ^ 32 + f < s.bell.now) ∧
  (∀ (l : LaneId) (i : IWord) (s : State) (c : Nat × Nat), s.Issues l i 0xC 2 [rS (iFa i)] →
    s.cadFor (s.lane l).ctx (bits i.w 36 33) = some c →
    let o : Op := { s.newOp l i .time with dst := if iFa i = 0 then none else some (iFa i) }
    Room s l [o] → ∃ t, exec (.tslot l i) s = .next t ∧ Entered l i s t [o])

/-- A VEC instruction whose operands pass its checks on every target becomes one operation in the queue of each target tile: the leased tiles
of the cluster that its mask names, or all of them for a mask of 0. Of the operations before it only the streams whose slots it reads note it as
their reader. -/
def Obligations.VectorInstructionsIssue : Prop :=
  ∀ p ∈ vecTable, ∀ (l : LaneId) (i : IWord) (s : State) (os : List Op), s.Issues l i 9 p.1 (s.vecRegs l i) →
    s.tileOps l i s.checkVec = .ok os → Room s l os →
    ∃ t ts, exec (p.2 l i) s = .next t ∧ Passed l i s t ∧ OnlyIssue l s t ∧ SameS l s t ∧ SameP l s t ∧ SameD l s t ∧ SameMem s t ∧
      t.ops.map Op.unnoted = (s.ops ++ numbered s.nextOp os).map Op.unnoted ∧ t.nextOp = s.nextOp + os.length ∧
      s.targets l (bits i.w 46 43) = .ok ts ∧
      os.map (fun o => o.unit) = ts.map UnitId.tile ∧ (∀ o ∈ os, o.iw = i ∧ o.st = .queued ∧ o.lane = l)

/-- ARM.MODE becomes one operation for each target and is the mode that later instructions of the lane are judged by; ARM.LOAD enters each
target's queue and changes no mode of a tile. ARM.STREAM and ARM.DRAIN enter each target's queue; after ARM.DRAIN no chain is open for later
instructions on a target. -/
def Obligations.ArmatureInstructionsIssue : Prop :=
  ((∀ (l : LaneId) (i : IWord) (s : State) (ts : List Nat), s.Issues l i 8 0 [] →
     s.targets l (bits i.w 46 43) = .ok ts → (∀ t ∈ ts, (s.tile t).chainIssued = none) →
     let m : Mode := ⟨bits i.w 20 19, bits i.w 18 14, bits i.w 13 9, bit i.w 8⟩
     actFmt m.fmtA = true → weightFmt m.fmtB = true → pairOk m.fmtA m.fmtB m.cbw = true →
     (∀ t ∈ ts, s.queueLen (.tile t) l < 8) → (s.laneOps l).length + ts.length ≤ 64 →
     ∃ u os, exec (.armMode l i) s = .next u ∧ u.ops = s.ops ++ numbered s.nextOp os ∧ os.map (fun o => o.unit) = ts.map UnitId.tile ∧
       (∀ o ∈ os, o.mode = m) ∧ Passed l i s u ∧ SameMem s u ∧ u.regs = s.regs ∧
       (∀ t, (u.tile t).issuedMode = if t ∈ ts then m else (s.tile t).issuedMode) ∧ (∀ t, (u.tile t).mode = (s.tile t).mode)) ∧
   (∀ (l : LaneId) (i : IWord) (s : State) (os : List Op), s.Issues l i 8 1 (s.tensorRegs l i [tDa i] []) →
     s.tileOps l i s.checkLoad = .ok os → Room s l os →
     ∃ u, exec (.armLoad l i) s = .next u ∧ u.ops = s.ops ++ numbered s.nextOp os ∧ u.nextOp = s.nextOp + os.length ∧ Passed l i s u ∧
       SameMem s u ∧ u.regs = s.regs ∧ (∀ t, (u.tile t).mode = (s.tile t).mode ∧ (u.tile t).issuedMode = (s.tile t).issuedMode))) ∧
  ((∀ (l : LaneId) (i : IWord) (s : State) (os : List Op),
     s.Issues l i 8 2 (s.tensorRegs l i (if s.streamsDb l i then [tDa i, tDb i] else [tDa i]) [tRs i]) →
     s.tileOps l i s.checkStream = .ok os → Room s l os →
     ∃ u, exec (.armStream l i) s = .next u ∧ u.ops = s.ops ++ numbered s.nextOp os ∧ u.nextOp = s.nextOp + os.length ∧ Passed l i s u ∧
       SameMem s u ∧ u.regs = s.regs ∧ (∀ t, (u.tile t).mode = (s.tile t).mode ∧ (u.tile t).banks = (s.tile t).banks)) ∧
   (∀ (l : LaneId) (i : IWord) (s : State) (ts : List Nat), s.Issues l i 8 3 [] → s.targets l (bits i.w 46 43) = .ok ts →
     (∀ t ∈ ts, s.queueLen (.tile t) l < 8) → (s.laneOps l).length + ts.length ≤ 64 →
     ∃ u os, exec (.armDrain l i) s = .next u ∧ u.ops = s.ops ++ numbered s.nextOp os ∧ os.map (fun o => o.unit) = ts.map UnitId.tile ∧
       Passed l i s u ∧ SameMem s u ∧ u.regs = s.regs ∧ (∀ t ∈ ts, (u.tile t).chainIssued = none) ∧
       (∀ t, t ∉ ts → u.tile t = s.tile t)))

/-- A BAR instruction whose operands pass its checks becomes one operation in the queue of the barrow it names; BAR.MOVE, BAR.CROP, BAR.REDUCE
and BAR.DIGEST alike. -/
def Obligations.BarrowInstructionsIssue : Prop :=
  ∀ p ∈ ([(0, .barMove), (1, .barCrop), (2, .barReduce), (3, .barDigest)] : List (Nat × (LaneId → IWord → Instr))),
    ∀ (l : LaneId) (i : IWord) (s : State) (b : Nat) (o : Op), s.Issues l i 0xA p.1 (barRegs i) → s.pickBarrow l i = .ok b →
      s.checkBar { s.newOp l i (.barrow b) with
        dd := (s.lane l).dv (bits i.w 43 40), da := (s.lane l).dv (bits i.w 39 36),
        planes := if p.1 = 1 then (List.range (cropPlanes (bits i.w 21 19) - 1)).map (fun k => (s.lane l).dv (bits i.w 39 36 + 1 + k)) else [],
        sc := if p.1 = 1 then [(s.lane l).sv (bits i.w 35 31), if bits i.w 35 31 ≤ 30 then (s.lane l).sv (bits i.w 35 31 + 1) else 0] else [] } =
        .ok o →
      Room s l [o] →
      ∃ t, exec (p.2 l i) s = .next t ∧ Entered l i s t [o] ∧ SameMem s t ∧ o.unit = .barrow b

/-! ## Operations in their units -/

/-- An operation that may start (nothing earlier in its queue, no conflicting interval, no gate before it) begins: stated for the port, for vector
operations, for ARM.LOAD and ARM.STREAM and for TWAIT and TWAIT.C; nothing but the operation changes, except that with a vector operation the
readers of its tile may take slots that are in force. PACE takes effect when it starts: the lane states the operating point of bits 2:0, or none
for 7. -/
def Obligations.OperationsStart : Prop :=
  (∀ (s : State) (id : Nat) (o : Op), s.op? id = some o → s.mayStart o = true →
     (o.unit = .port ∨ (∃ t, o.unit = .tile t ∧ iCls o.iw = 8 ∧ (iOp o.iw = 1 ∨ iOp o.iw = 2)) ∨ (o.unit = .time ∧ iOp o.iw ≤ 1)) →
     ∃ t, exec (.operationStart id) s = .next t ∧ t = { s with ops := t.ops } ∧
       t.op? id = some { o with st := .running, startCyc := s.cyc } ∧
       ∀ k, k ≠ id → t.op? k = s.op? k) ∧
  (∀ (s : State) (id k : Nat) (o : Op), s.op? id = some o → s.mayStart o = true → o.unit = .tile k → iCls o.iw = 9 →
     ∃ t, exec (.operationStart id) s = .next t ∧ t = { s with ops := t.ops } ∧
       (t.op? id).map Op.untaken = some { o with st := .running, startCyc := s.cyc, slotsIn := [] } ∧
       ∀ k, k ≠ id → (t.op? k).map Op.untaken = (s.op? k).map Op.untaken) ∧
  (∀ (s : State) (id : Nat) (o : Op), s.op? id = some o → s.mayStart o = true → o.unit = .time → iOp o.iw = 3 →
     ∃ t, exec (.operationStart id) s = .next t ∧
       (t.lane o.lane).pace = (if bits o.iw.w 2 0 = 7 then none else some (bits o.iw.w 2 0)) ∧
       (∀ m, laneIx m ≠ laneIx o.lane → t.lane m = s.lane m) ∧ SameMem s t ∧ t.ctxs = s.ctxs)

/-- A SIG that completes adds its value to its semaphore where the sum stays below 2^32; every other semaphore keeps its count, and the launch's
Tally advances by one; it waits while one that the order of a cycle puts behind it has reached the semaphore in this cycle. The first WAIT that stands on a semaphore completes when the count has reached its value, and takes the value unless keep
is 1; while the count is below it, nothing changes, and later WAITs on the semaphore stay behind it. -/
def Obligations.SemaphoresRun : Prop :=
  (∀ (s : State) (id : Nat) (o : Op) (x : Launch), s.op? id = some o → o.st = .running → o.unit = .sync → iOp o.iw = 0 → s.semTurn o = true →
     nth (s.ctx o.ctx).sems o.slotNo + o.total < 2 ^ 32 → (s.ctx o.ctx).launch? o.seq = some x →
     ∃ t, exec (.operationComplete id) s = .next t ∧
       (∀ n, nth (t.ctx o.ctx).sems n = if n = o.slotNo then nth (s.ctx o.ctx).sems n + o.total else nth (s.ctx o.ctx).sems n) ∧
       (∀ c, c ≠ o.ctx → t.ctx c = s.ctx c) ∧ ((t.ctx o.ctx).launch? o.seq).map (fun y => y.tally) = some ((x.tally + 1) % 2 ^ 64) ∧
       t.ops = s.ops.filter (fun y => y.id != o.id) ∧ t.lanes = s.lanes ∧ t.regs = s.regs ∧ t.cells = s.cells) ∧
  (∀ (s : State) (id : Nat) (o : Op), s.op? id = some o → o.st = .running → o.unit = .sync → iOp o.iw = 0 → s.semTurn o = false →
     exec (.operationComplete id) s = .next s) ∧
  (∀ (s : State) (c sem : Nat) (w : SemWait) (o : Op), (s.ctx c).semWaits.find? (fun w => w.sem == sem) = some w → s.op? w.op = some o →
     (w.value ≤ nth (s.ctx c).sems sem →
       ∃ t, exec (.waitRelease c sem) s = .next t ∧
         nth (t.ctx c).sems sem = (if w.keep = true then nth (s.ctx c).sems sem else nth (s.ctx c).sems sem - w.value) ∧
         (∀ n, n ≠ sem → nth (t.ctx c).sems n = nth (s.ctx c).sems n) ∧ (t.ctx c).semWaits = (s.ctx c).semWaits.erase w ∧
         t.ops = s.ops.filter (fun y => y.id != o.id) ∧ t.lanes = s.lanes ∧ t.cells = s.cells ∧ t.regs = s.regs) ∧
     (nth (s.ctx c).sems sem < w.value → exec (.waitRelease c sem) s = .next s))

/-- A group barrier completes at its release tick: the epoch advances, the missing mark is cleared, the group's epoch is closed, and the
BARRIER operations that waited are gone. -/
def Obligations.BarrierReleases : Prop :=
  ∀ (s : State) (g : Nat) (x : BarGroup) (rel : Nat), s.barGroup? g = some x → x.release = some rel → rel ≤ s.bell.now →
    ∃ t, exec (.barrierRelease g) s = .next t ∧ t.fld (Reg.fabBarStatus g) 63 49 = (s.fld (Reg.fabBarStatus g) 63 49 + 1) % 2 ^ 15 ∧
      t.fld (Reg.fabBarStatus g) 48 48 = 0 ∧ t.fld (Reg.fabBarStatus g) 47 36 = 0 ∧
      t.fld (Reg.fabBarStatus g) 34 0 = s.fld (Reg.fabBarStatus g) 34 0 ∧ SameRegs [Reg.fabBarStatus g] s t ∧
      t.barGroups = s.barGroups.filter (fun y => y.group != g) ∧ (∀ o ∈ t.ops, o.id ∉ x.ops ∧ o ∈ s.ops) ∧
      (∀ o ∈ s.ops, o.id ∉ x.ops → o ∈ t.ops) ∧ t.cells = s.cells ∧ t.lanes = s.lanes

/-- A time wait that runs is released at its tick, or at once when that has passed: TWAIT.C leaves its slot number in its register. Before its
tick nothing changes. An ALIGNED barrier whose guard tick passes without a CONFIRM: the operation waits on no tick any more, and the gap of every
tile of its lane begins anew as an unknown one. -/
def Obligations.TimedWaitsEnd : Prop :=
  (∀ (s : State) (id : Nat) (o : Op), s.op? id = some o → iCls o.iw = 0xC → iOp o.iw ≤ 1 → o.st = .running →
     (s.bell.now < o.tick → exec (.timeWaitRelease id) s = .next s) ∧
     (o.tick ≤ s.bell.now → ∃ t, exec (.timeWaitRelease id) s = .next t ∧ t.ops = s.ops.filter (fun y => y.id != o.id) ∧
       (∀ r, (t.lane o.lane).sv r = if o.dst = some r ∧ r ≠ 0 then BitVec.ofNat 64 o.slotNo else (s.lane o.lane).sv r) ∧
       SameP o.lane s t ∧ SameD o.lane s t ∧ t.cells = s.cells ∧ t.regs = s.regs)) ∧
  (∀ (s : State) (id : Nat) (o : Op), s.op? id = some o → iCls o.iw = 0xB → iOp o.iw = 3 → bit o.iw.w 38 = false → o.st = .running →
     0 < o.tick → o.tick ≤ s.bell.now → (∀ x, s.barGroup? (bits o.iw.w 46 39) = some x → x.release = none) →
     ∃ t, exec (.alignedGuardTick id) s = .next t ∧ t.op? id = some { o with tick := 0 } ∧ (∀ k, k ≠ id → t.op? k = s.op? k) ∧
       t.lanes = s.lanes ∧ t.cells = s.cells ∧
       ∀ k, if k / 4 = o.lane.cl ∧ k ∈ s.leaseTiles (s.lane o.lane).ctx ∧ (s.tile k).gap.isSome then
           ∃ g, (t.tile k).gap = some g ∧ g.start = s.cyc ∧ g.up = s.up ∧ g.known = none ∧ g.sent = 0
         else (t.tile k).gap = (s.tile k).gap)

/-! ## Launches on a lane -/

/-- The data of a lane's outstanding instruction read arrive: the line stands in the cluster's instruction cache for the context and
generation, and the read is no longer outstanding. -/
def Obligations.InstructionLineArrives : Prop :=
  ∀ (l : LaneId) (s : State) (a : Nat) (r : Req) (bs : List Byte), (s.lane l).st ≠ .idle → (s.lane l).st ≠ .ending →
    (s.lane l).stopped = false → s.fetchLine l = some a →
    s.reqs.find? (fun r => r.dest == .fetch l a && r.ctx == (s.lane l).ctx && r.gen == (s.lane l).gen && !r.dropped) = some r →
    r.path = .host → bs.length = 64 →
    ∃ t, exec (.instructionFetch l bs) s = .next t ∧
      (t.cluster l.cl).icache.head? = some ⟨a, (s.lane l).ctx, (s.lane l).gen, bs⟩ ∧ (t.cluster l.cl).icache.length ≤ 512 ∧
      (∀ q ∈ t.reqs, q ∈ s.reqs ∧ q.tag ≠ r.tag) ∧ (∀ m, laneIx m ≠ laneIx l → t.lane m = s.lane m) ∧ t.cells = s.cells ∧
      (∀ q, (t.lane l).sv q = (s.lane l).sv q) ∧ (t.lane l).pc = (s.lane l).pc

/-- A launch that a lane holds in line and may start does: the registers of R128, the constant buffer, the pc at the entry, every other register
of the lane at its starting value, no loop, and no pending write; without keep_code no line of the context stays in the cluster's instruction
cache. Other lanes and memory are untouched. END retires when every operation that its lane issued has
completed: the lane is idle and states no operating point, and its launch counts the cluster's share as ended. -/
def Obligations.LaunchesStartAndRetire : Prop :=
  (∀ (l : LaneId) (s : State) (seq : Nat) (rest : List Nat) (x : Launch), (s.lane l).waiting = seq :: rest →
     (s.ctx (s.lane l).ctx).launch? seq = some x → x.decision = none → x.stage ≠ .stopping → s.mayLaunch l x = true →
     let c := (s.lane l).ctx
     ∃ t, exec (.laneLaunchStart l) s = .next t ∧
       (t.lane l).st = .issuing ∧ (t.lane l).ctx = c ∧ (t.lane l).gen = x.gen ∧ (t.lane l).seq = seq ∧ (t.lane l).pc = x.entry ∧
       (t.lane l).consts = x.consts ∧ (t.lane l).waiting = rest ∧ (t.lane l).loops = [] ∧ (t.lane l).ready = [] ∧
       (t.lane l).sv 1 = BitVec.ofNat 64 (x.gangBefore + s.clusterOrd c l.cl) ∧
       (t.lane l).sv 2 = BitVec.ofNat 64 (x.clusters.length + x.gangMore) ∧
       (t.lane l).sv 7 = BitVec.ofNat 64 (if s.ganged then s.straps.gangMember else 0) ∧
       (t.lane l).sv 3 = BitVec.ofNat 64 ((s.leaseTiles c).filter fun k => decide (k / 4 < l.cl)).length ∧
       (t.lane l).sv 4 = BitVec.ofNat 64 ((s.leaseTiles c).filter fun k => k / 4 == l.cl).length ∧ (t.lane l).sv 5 = BitVec.ofNat 64 x.seq ∧
       (t.lane l).sv 6 = BitVec.ofNat 64 (3 * 2 ^ 60 + 0x4000000 + s.clusterOrd c l.cl * 0x1000000) ∧
       (∀ r, r = 0 ∨ 8 ≤ r → (t.lane l).sv r = 0) ∧ (∀ r, 0 < r → (t.lane l).pv r = false) ∧ (∀ r, (t.lane l).dv r = 0) ∧
       (∀ r, (t.lane l).kv r = 0) ∧
       (x.keep = false → ∀ i ∈ (t.cluster l.cl).icache, i.ctx ≠ c) ∧ (x.keep = true → (t.cluster l.cl).icache = (s.cluster l.cl).icache) ∧
       (∀ m, laneIx m ≠ laneIx l → t.lane m = s.lane m) ∧ t.cells = s.cells ∧ t.regs = s.regs ∧ t.ops = s.ops) ∧
  (∀ (l : LaneId) (s : State) (x : Launch), (s.lane l).st = .ending → (s.lane l).stopped = false → s.laneOps l = [] →
     (∀ o ∈ s.ops, ¬ (o.ctx = (s.lane l).ctx ∧ o.seq = (s.lane l).seq)) →
     (∀ t ∈ s.leaseTiles (s.lane l).ctx, t / 4 = l.cl → (s.tile t).chain = none) →
     (s.ctx (s.lane l).ctx).launch? (s.lane l).seq = some x →
     ∃ t y, exec (.endRetire l) s = .next t ∧ (t.lane l).st = .idle ∧ (t.lane l).pace = none ∧
       (t.ctx (s.lane l).ctx).launch? (s.lane l).seq = some y ∧ l.cl ∈ y.ended ∧ y.tally = (x.tally + 1) % 2 ^ 64 ∧
       (∀ m, laneIx m ≠ laneIx l → t.lane m = s.lane m) ∧ t.cells = s.cells ∧ t.ops = s.ops)

/-- A launch's saturation counts on a cluster reach the threshold it sampled: the context's numeric status shows a calibration event; launch and
cluster are those of the first, which is this one where none was pending and none was cleared in this cycle. The calibration attention of the
context is raised only where the launch asked for it. -/
def Obligations.CalibrationIsReported : Prop :=
  ∀ (l : LaneId) (s : State), (s.lane l).st ≠ .idle → (s.lane l).calib = false → 0 < (s.lane l).threshold →
    (s.lane l).threshold ≤ (s.lane l).accSat + (s.lane l).convSat →
    let c := (s.lane l).ctx
    ∃ t, exec (.calibrationEvent l) s = .next t ∧ (t.lane l).calib = true ∧ bits (t.reg (Reg.ctxNumStatus c)) 0 0 = 1 ∧
      (bits (s.reg (Reg.ctxNumStatus c)) 0 0 = 0 → (s.ctx c).calibClr ≠ some s.cyc →
        bits (t.reg (Reg.ctxNumStatus c)) 11 8 = s.clusterOrd c l.cl % 16 ∧ bits (t.reg (Reg.ctxNumStatus c)) 47 32 = (s.lane l).seq % 2 ^ 16) ∧
      (bits (s.reg (Reg.ctxNumStatus c)) 0 0 = 1 ∨ (s.ctx c).calibClr = some s.cyc →
        bits (t.reg (Reg.ctxNumStatus c)) 63 1 = bits (s.reg (Reg.ctxNumStatus c)) 63 1) ∧
      (∀ o, o ≠ Reg.ctxNumStatus c → o ≠ Reg.ctxAttn c → t.reg o = s.reg o) ∧
      ((s.lane l).irqEn = true → bits (t.reg (Reg.ctxAttn c)) 2 2 = 1) ∧ ((s.lane l).irqEn = false → t.reg (Reg.ctxAttn c) = s.reg (Reg.ctxAttn c)) ∧
      t.cells = s.cells ∧ t.ops = s.ops

/-! ## The array -/

/-- A row quad that may enter does, where the scale tags it meets match: its operation has entered one more. In WS and IS its results will be in
force 40 cycles later in the slot after the last one, modulo 128, as one flight, or in the 16-bit class as four, each row a cycle after the row
before it. In OS nothing leaves the accumulators but with the last row quad of a pass that is not continued, which is bound for sixteen slots, one
cycle after another. The oldest row quad that is due puts its results in force: the values of its rows in its slot, and no other value of the
tile's banks; an overwrite that brings a slot's last row ends its poisoning. A pass that accumulates on a poisoned slot writes nothing. Stated with
no injection armed. -/
def Obligations.RowQuads : Prop :=
  (∀ (s : State) (t : Nat) (o : Op), s.streamOf t = some o → s.op? o.id = some o → s.mayEnter t o = true → s.inject = none →
     s.quadTag o (s.src o.ctx o.da o.scDa) o.done false = none →
     (o.mode.kind = 2 → s.quadTag o (s.src o.ctx o.db o.scDb) o.done false = none) →
     ∃ u fs, exec (.rowQuadEntry t) s = .next u ∧ (u.op? o.id).map (fun p => p.done) = some (o.done + 1) ∧
       (u.tile t).flights = (s.tile t).flights ++ fs ∧ (u.tile t).lastEntry = s.cyc ∧ (u.tile t).gap = none ∧
       (u.tile t).banks = (s.tile t).banks ∧ (∀ k, k ≠ t → u.tile k = s.tile k) ∧ u.cells = s.cells ∧
       (∀ f ∈ fs, f.op = o.id ∧ f.bank = o.slotNo / 128 ∧ f.acc = bit o.iw.w 17) ∧
       (o.mode.kind ≠ 2 → fs.length = (if o.mode.cls = 16 then 4 else 1) ∧
         ∀ (r : Nat) (f : Flight), fs[r]? = some f → f.ready = s.cyc + 40 + r ∧ f.slot = (o.slotNo % 128 + o.done) % 128 ∧
           f.rows = (if o.mode.cls = 16 then [r] else [0, 1, 2, 3])) ∧
       (o.mode.kind = 2 → fs.length = (if o.done + 1 = o.total ∧ bit o.iw.w 16 = false then 16 else 0) ∧
         ∀ (g : Nat) (f : Flight), fs[g]? = some f → f.ready = s.cyc + 40 + g ∧ f.slot = (o.slotNo % 128 + g) % 128 ∧ f.rows = [0, 1, 2, 3])) ∧
  (∀ (s : State) (t : Nat) (f : Flight) (o : Op), (s.tile t).flights.find? (fun f => decide (f.ready ≤ s.cyc)) = some f →
     s.op? f.op = some o →
     let slot := f.bank * 128 + f.slot
     let key := f.bank * 32768 + f.slot * 256
     (f.acc = false ∨ (s.inject = none ∧ slot ∉ (s.tile t).poison) →
       ∃ u, exec (.rowQuadResult t) s = .next u ∧
         (∀ i, i < 256 → sparseGet 0 (u.tile t).banks (key + i) =
           if i / 64 ∈ f.rows then
             BitVec.ofNat 32 (slotWrite f.isInt f.slotInt f.acc (s.bankBits t f.bank f.slot (i / 64) (i % 64))
               ((nth f.vals (i / 64)).getD (i % 64) 0)).code
           else sparseGet 0 (s.tile t).banks (key + i)) ∧
         (∀ k, k < key ∨ key + 256 ≤ k → sparseGet 0 (u.tile t).banks k = sparseGet 0 (s.tile t).banks k) ∧
         (f.acc = false → 3 ∈ f.rows → slot ∉ (u.tile t).poison) ∧ (u.tile t).flights = (s.tile t).flights.erase f ∧
         (∀ k, k ≠ t → u.tile k = s.tile k) ∧ u.cells = s.cells ∧ u.ops.map Op.untaken = s.ops.map Op.untaken) ∧
     (f.acc = true → slot ∈ (s.tile t).poison → s.ops = [o] → o.unit = .tile t → iCls o.iw = 8 →
       ∀ x, (s.ctx o.ctx).launch? o.seq = some x → x.decision = none →
       ∃ u y, exec (.rowQuadResult t) s = .next u ∧ (u.tile t).banks = (s.tile t).banks ∧ u.cells = s.cells ∧
         (u.ctx o.ctx).launch? o.seq = some y ∧ y.stage = .stopping ∧
         (y.excs.getLast?.map fun e => (e.exc.code, e.exc.pc)) = some (0x0D, o.pc)))

/-- A load that may begin does, where the scale tags it meets match: an operand waits in the shadows, complete 31 cycles later in an 8-bit class and
47 in the 16-bit class, and one more where one of the 16 cube rows in use stands behind the faulty one. Stated with no injection armed. -/
def Obligations.ShadowLoadBegins : Prop :=
  ∀ (s : State) (t : Nat) (o : Op), s.loadOf t = some o → s.op? o.id = some o → s.mayLoad t o = true → s.inject = none →
    s.badTag (s.src o.ctx o.da o.scDa) false = none →
    ∃ u, exec (.armShadowLoad t) s = .next u ∧ (u.tile t).shadow.isSome = true ∧ (u.tile t).loadStart = s.cyc ∧
      (u.tile t).loadDone = s.cyc + (if o.mode.cls = 16 then 47 else 31) +
        (match (s.tile t).faulty with | some r => if r ≤ 15 then 1 else 0 | none => 0) ∧
      (u.op? o.id).map (fun p => p.done) = some 1 ∧ (u.tile t).active = (s.tile t).active ∧ (u.tile t).banks = (s.tile t).banks ∧
      (∀ k, k ≠ t → u.tile k = s.tile k) ∧ u.cells = s.cells

/-- A leased, waking tile with no row quad that may enter begins a gap with the filler settings as they stand, its reference the array's activity of
the last 1 us, and nothing else changes; an unknown gap with the filler enabled that has lasted its limit begins to fall, and not before. -/
def Obligations.GapsStartAndFall : Prop :=
  (∀ (s : State) (t : Nat), (s.tile t).lease ≠ none → (s.tile t).gap = none → (s.tile t).rest = .awake →
    (∀ o, s.streamOf t = some o → s.mayEnter t o = false) → (s.tile t).lastEntry + (s.tile t).passMode.cyc ≤ s.cyc →
    let r := s.reg (Reg.sthArmFillX (t / 4))
    ∃ u g, exec (.gapStart t) s = .next u ∧ (u.tile t).gap = some g ∧ g.start = s.cyc ∧ g.up = s.up ∧ g.enable = bit r 0 ∧
      g.band = bits r 15 8 ∧ g.limit = bits r 31 16 ∧ g.ramp = bits r 47 32 ∧ g.falling = false ∧ g.known = s.knownTick t ∧
      g.ref = s.activity t ∧ (∀ k, k ≠ t → u.tile k = s.tile k) ∧ u = { s with tiles := u.tiles }) ∧
  (∀ (s : State) (t : Nat) (g : Gap), (s.tile t).gap = some g → g.enable = true → g.known = none → g.falling = false →
    (g.up + 4 * g.limit ≤ s.up →
      ∃ u, exec (.fillerLimitExpiry t) s = .next u ∧ u = { s with tiles := u.tiles } ∧ (u.tile t).gap = some { g with falling := true } ∧
        ∀ k, k ≠ t → u.tile k = s.tile k) ∧
    (s.up < g.up + 4 * g.limit → exec (.fillerLimitExpiry t) s = .next s))

/-- Clearing and zeroing end: the array's banks, flights, chain and operands are empty; a tile's scratch, tables and books read zero and its
books and tables are invalid; a range of a cluster's scratch reads zero. Every byte outside reads as before. -/
def Obligations.ClearingAndZeroingEnd : Prop :=
  (∀ (s : State) (t n : Nat), (s.tile t).clearArr = some n → n ≤ s.cyc →
    ∃ u, exec (.tileClearDone t) s = .next u ∧ (u.tile t).clearArr = none ∧ (∀ k, sparseGet 0 (u.tile t).banks k = 0) ∧
      (u.tile t).poison = [] ∧ (u.tile t).flights = [] ∧ (u.tile t).chain = none ∧ (u.tile t).shadow = none ∧
      (∀ k, k ≠ t → u.tile k = s.tile k) ∧ u = { s with tiles := u.tiles }) ∧
  (∀ (s : State) (t n : Nat), (s.tile t).clearScr = some n → n ≤ s.cyc →
    ∃ u, exec (.leaseZeroDone (.tile t)) s = .next u ∧ (u.tile t).clearScr = none ∧ (∀ b, nth (u.tile t).books b = (false, false)) ∧
      (∀ b, nth (u.tile t).tables b = false) ∧
      (∀ a, u.rd a = if (tileAddr t ≤ a ∧ a < tileAddr t + 0x400000) ∨ (tableAddr t 0 ≤ a ∧ a < tableAddr t 0 + 0x10000) ∨
                        (bookAddr t 0 ≤ a ∧ a < bookAddr t 0 + 0x4000) then 0 else s.rd a) ∧
      (∀ k, k ≠ t → u.tile k = s.tile k) ∧ u.regs = s.regs ∧ u.lanes = s.lanes) ∧
  (∀ (s : State) (k base size n : Nat),
    (s.cluster k).zeroing.find? (fun z => z.1 == base && z.2.1 == size) = some (base, size, n) → n ≤ s.cyc →
    ∃ u, exec (.leaseZeroDone (.range k base size)) s = .next u ∧ (u.cluster k).zeroing = (s.cluster k).zeroing.erase (base, size, n) ∧
      (∀ a, u.rd a = if clusterAddr k + base * 0x100000 ≤ a ∧ a < clusterAddr k + base * 0x100000 + size * 0x100000 then 0 else s.rd a) ∧
      u.tiles = s.tiles ∧ u.regs = s.regs ∧ u.lanes = s.lanes)

/-- A book or a table slot that was written is judged when the write completes: it is valid exactly where its image is, and a book counts as
sorted only where it is valid and sorted. No other slot changes. -/
def Obligations.BooksAndTablesAreJudged : Prop :=
  (∀ (s : State) (t b : Nat), b ∈ (s.tile t).bookDirty →
    ∃ u, exec (.bookWriteValidate t b) s = .next u ∧ nth (u.tile t).books b = (s.bookValid t b, s.bookValid t b && s.bookSorted t b) ∧
      (∀ n, n ≠ b → nth (u.tile t).books n = nth (s.tile t).books n) ∧ (u.tile t).bookDirty = (s.tile t).bookDirty.erase b ∧
      (∀ k, k ≠ t → u.tile k = s.tile k) ∧ u = { s with tiles := u.tiles }) ∧
  (∀ (s : State) (t b : Nat), b ∈ (s.tile t).tableDirty →
    ∃ u, exec (.tableWriteValidate t b) s = .next u ∧ nth (u.tile t).tables b = s.tableValid t b ∧
      (∀ n, n ≠ b → nth (u.tile t).tables n = nth (s.tile t).tables n) ∧ (u.tile t).tableDirty = (s.tile t).tableDirty.erase b ∧
      (∀ k, k ≠ t → u.tile k = s.tile k) ∧ u = { s with tiles := u.tiles })

/-! ## Station time -/

/-- The Bell under src PORT: a 32-bit read of the lower half of BELL_NOW latches the upper half, which the next upper-half read returns; an
edge in its window with a matching time of day within step_limit captures the counter, moves only the rate, by at most slew_ppm, and takes the
reference; one beyond step_limit unlocks, and until the operator's step the next ones change neither state nor rate (R21); one outside the window,
one with no time of day that matches and a missed one set their events, and the second missed in a row loses the reference; in HOLDOVER past the
limit the event is set. -/
def Obligations.BellTimePort : Prop :=
  (∀ s : State, s.live = true → s.pins.regsReady = true → s.pins.frozen = false →
    exec (.bellNowRead .full) s = .next { s with out := s.out ++ [.regCpl Reg.bellNow (word s.bell.now)] } ∧
    exec (.bellNowRead .lo) s =
      .next { s with nowLatch := some (s.bell.now / 2 ^ 32), out := s.out ++ [.regCpl Reg.bellNow (word (s.bell.now % 2 ^ 32))] } ∧
    (∀ h, s.nowLatch = some h →
      exec (.bellNowRead .hi) s = .next { s with nowLatch := none, out := s.out ++ [.regCpl Reg.bellNow (word (h * 2 ^ 32))] }) ∧
    ∃ t, exec (.bellNowRead .bad) s = .next t ∧ t = { s with regs := t.regs, out := t.out } ∧ t.out.getLast? = some (.regCpl Reg.bellNow 0)) ∧
  (∀ (s : State) (sec nanos : Nat), s.bellSrc = 1 → (∀ e, s.bell.nextEdge = some e → e ≤ s.bell.now + 4000 ∧ s.bell.now ≤ e + 4000) →
    nearestSecond s.bell.now = sec → sec < 2 ^ 48 →
    let err : Int := (sec * 4000000000 + nanos * 4 : Nat) - (s.bell.now : Int)
    ∃ t, exec (.ppsEdge sec nanos true) s = .next t ∧ t = { s with regs := t.regs, bell := t.bell, free := t.free } ∧
      t.reg Reg.bellPps = word s.bell.now ∧ t.reg Reg.bellTod = word sec ∧ t.reg Reg.bellOffset = wordOfInt err ∧ t.bell.now = s.bell.now ∧
      t.bell.missed = 0 ∧ t.bell.nextEdge = some (s.bell.now + 4000000000) ∧
      SameRegs [Reg.bellPps, Reg.bellTod, Reg.bellOffset, Reg.bellFreq, Reg.bellStatus, Reg.bellEvent, Reg.ctxMgmt] s t ∧
      (err.natAbs ≤ s.fld Reg.bellServoX 63 40 → s.bell.awaitStep = true → t.bell.lock = s.bell.lock ∧ t.rateAdj = s.rateAdj) ∧
      (err.natAbs ≤ s.fld Reg.bellServoX 63 40 → s.bell.awaitStep = false →
        t.rateAdj.natAbs ≤ s.fld Reg.bellServoX 39 32 * 100000 ∧
        (s.bell.lock = .unlocked ∨ s.bell.lock = .holdover → t.bell.lock = .acquiring) ∧ (s.bell.lock = .locked → t.bell.lock = .locked) ∧
        (s.bell.lock = .acquiring → t.bell.lock = if err.natAbs ≤ 2 ∧ 15 ≤ s.bell.good then .locked else .acquiring)) ∧
      (s.fld Reg.bellServoX 63 40 < err.natAbs → t.bell.lock = .unlocked ∧ t.bell.awaitStep = true ∧ t.flag Reg.bellEvent 4 = true ∧
        (s.bell.lock ≠ .acquiring → t.rateAdj = s.rateAdj))) ∧
  (∀ (s : State) (sec nanos : Nat) (valid : Bool), s.bellSrc = 1 →
    (∀ e, s.bell.nextEdge = some e → e + 4000 < s.bell.now ∨ s.bell.now + 4000 < e →
      ∃ t, exec (.ppsEdge sec nanos valid) s = .next t ∧ t = { s with regs := t.regs } ∧ t.flag Reg.bellEvent 2 = true ∧
        SameRegs [Reg.bellEvent, Reg.ctxMgmt] s t) ∧
    ((∀ e, s.bell.nextEdge = some e → e ≤ s.bell.now + 4000 ∧ s.bell.now ≤ e + 4000) → nearestSecond s.bell.now ≠ sec ∨ valid = false →
      ∃ t, exec (.ppsEdge sec nanos valid) s = .next t ∧ t.flag Reg.bellEvent 3 = true ∧ t.rateAdj = s.rateAdj ∧ t.bell.lock = s.bell.lock ∧
        SameRegs [Reg.bellEvent, Reg.ctxMgmt] s t)) ∧
  (∀ (s : State) (e : Nat), s.bellSrc = 1 → s.bell.nextEdge = some e → e + 4000 < s.bell.now →
    ∃ t, exec .ppsMissing s = .next t ∧ t = { s with regs := t.regs, bell := t.bell } ∧ t.flag Reg.bellEvent 2 = true ∧
      t.bell.now = s.bell.now ∧ t.bell.missed = s.bell.missed + 1 ∧ t.bell.nextEdge = some (e + 4000000000) ∧
      (s.bell.missed = 0 → t.bell.lock = s.bell.lock) ∧
      (1 ≤ s.bell.missed → (s.bell.lock = .locked → t.bell.lock = .holdover ∧ t.rateAdj = s.rateAdj ∧ t.flag Reg.bellEvent 0 = true) ∧
        (s.bell.lock = .acquiring → t.bell.lock = .unlocked ∧ t.fld Reg.bellFreq 31 0 = unsignedOf 32 s.bell.acqAdj))) ∧
  (∀ s : State, s.bell.lock = .holdover → s.fld Reg.bellCtrl 63 48 < s.estError →
    ∃ t, exec .holdoverLimit s = .next t ∧ t = { s with regs := t.regs } ∧ t.flag Reg.bellEvent 5 = true ∧
      SameRegs [Reg.bellEvent, Reg.ctxMgmt] s t)

/-- Time over links: an exchange lets a TIME_REQ wait at every served port that is UP, and at no other; a TIME_REQ is answered with t1 and its
arrival, at the port it came from; one from the upstream port also disciplines the Bell to its time plus the link's measured delay; a TIME_RESP to
the exchange under way adds its delay to the port's last 64 and reports their mean; a time message that leaves bears the counter of its departure;
a millisecond without a time message from the upstream port loses the reference. -/
def Obligations.BellLinks : Prop :=
  (∀ s : State, ∃ t, exec .timeExchange s = .next t ∧ t.bell.now = s.bell.now ∧ t.bell.lock = s.bell.lock ∧ t.regs = s.regs ∧
    (∀ p, p < 8 → maskHas (s.fld Reg.bellCtrl 23 16) p = true → s.portUp p = true →
      nth t.bell.sent p = some s.bell.now ∧
      ∃ q, (nth t.ports p).queue = (nth s.ports p).queue ++ [q] ∧ q.own = true ∧ q.slot = none ∧ q.head.vc = 2 ∧
        q.head.msgs.map (fun m => m.body) = [.timeReq s.bell.now]) ∧
    ∀ p, ¬(p < 8 ∧ maskHas (s.fld Reg.bellCtrl 23 16) p = true ∧ s.portUp p = true) →
      nth t.bell.sent p = nth s.bell.sent p ∧ nth t.ports p = nth s.ports p) ∧
  (∀ (s : State) (k t1 : Nat) (d : Delivered), s.inbox[k]? = some d → d.msg.body = .timeReq t1 → s.isUpstream d.port = false →
    s.portUp d.port = true →
    ∃ t q, exec (.timeReq k) s = .next t ∧ t = { s with inbox := s.inbox.eraseIdx k, ports := t.ports } ∧
      (nth t.ports d.port).queue = (nth s.ports d.port).queue ++ [q] ∧ (∀ p, p ≠ d.port → nth t.ports p = nth s.ports p) ∧
      q.own = true ∧ q.head.vc = 2 ∧ q.head.msgs.map (fun m => m.body) = [.timeResp t1 d.at_ s.bell.now]) ∧
  (∀ (s : State) (k t1 : Nat) (d : Delivered), s.inbox[k]? = some d → d.msg.body = .timeReq t1 → s.isUpstream d.port = true →
    nth s.bell.samples d.port ≠ [] →
    let err : Int := (16 * (t1 : Int) + (s.fld (Reg.bellLink d.port) 31 0 : Nat) - 16 * (d.at_ : Int) + 8) / 16
    ∃ t, exec (.timeReq k) s = .next t ∧ t.inbox = s.inbox.eraseIdx k ∧ t.bell.lastMsg = s.up ∧ t.reg Reg.bellOffset = wordOfInt err ∧
      t.bell.now = s.bell.now ∧ (s.fld Reg.bellServoX 63 40 < err.natAbs → t.bell.lock = .unlocked)) ∧
  (∀ (s : State) (k t1 t2 t3 : Nat) (d : Delivered), s.inbox[k]? = some d → d.msg.body = .timeResp t1 t2 t3 →
    nth s.bell.sent d.port = some t1 → s.isUpstream d.port = false →
    let m : Int := (((t2 : Int) - t1) + ((d.at_ : Int) - t3)) * 8 + signed 16 (s.fld (Reg.bellLink d.port) 63 48)
    ∃ t, exec (.timeResp k) s = .next t ∧ t.inbox = s.inbox.eraseIdx k ∧ nth t.bell.samples d.port = (m :: nth s.bell.samples d.port).take 64 ∧
      nth t.bell.sent d.port = none ∧ t.fld (Reg.bellLink d.port) 31 0 = unsignedOf 32 (meanOf ((m :: nth s.bell.samples d.port).take 64)) ∧
      SameRegs [Reg.bellLink d.port] s t ∧ t = { s with regs := t.regs, bell := t.bell, inbox := t.inbox }) ∧
  (∀ (s : State) (p : Nat) (q : QHead) (m : Msg), q.own = true → q.slot = none → s.inject = none → (nth s.ports p).queue = [q] → q.head.msgs = [m] →
    (∃ a, m.body = .timeReq a) ∨ (∃ a b c, m.body = .timeResp a b c) →
    ∃ link h, (s.depart p q).out = s.out ++ [.flit p link h] ∧ h.msgs = [stampTime s.bell.now m] ∧ h.enc = q.head.enc ∧
      (nth (s.depart p q).ports p).queue = [] ∧ ((∃ a, m.body = .timeReq a) → nth (s.depart p q).bell.sent p = some s.bell.now)) ∧
  (∀ s : State, s.bellSrc = 2 → s.bell.lastMsg + 4000000 ≤ s.up →
    ∃ t, exec .linkTimeLost s = .next t ∧ t = { s with regs := t.regs, bell := t.bell } ∧ t.flag Reg.bellEvent 6 = true ∧
      (s.bell.lock = .locked → t.bell.lock = .holdover ∧ t.rateAdj = s.rateAdj) ∧ (s.bell.lock = .acquiring → t.bell.lock = .unlocked) ∧
      (s.bell.lock = .unlocked ∨ s.bell.lock = .holdover → t.bell.lock = s.bell.lock))

/-! ## Commit groups -/

/-- A commit group in one block. CG_OPEN with units of the build that no other open group has opens it; CG_ARM takes the tick (0: 12,000 st from now), or aborts it
within 8,000 st; the members that answer in time acknowledge together or the lowest that refuses gives the cause; the last one binds it; at
T - 8,000 st silent members abort it; CG_CANCEL aborts it before it is bound and does nothing to a bound one; at T a bound group is applied. -/
def Obligations.GroupRuns : Prop :=
  (∀ (s : State) (i : Nat) (mark : Bool) (v : Word), s.Accepts → i < 4 → (s.group i).st.pending = false →
    maskDiff (bits v 31 0) (unitMask s.straps) = 0 → (∀ j, j < 4 → j ≠ i → (s.group j).st.pending = false) →
    ∃ t, exec (.cgOpen i mark (.full v)) s = .next t ∧ t = { s with groups := t.groups, latches := t.latches } ∧ (t.group i).st = .opened ∧
      (t.group i).ident = bits v 47 32 ∧ (t.group i).members = bits v 31 0 ∧ (t.group i).staged = [] ∧ (t.group i).acked = 0 ∧
      ∀ j, j ≠ i → t.group j = s.group j) ∧
  (∀ (s : State) (i : Nat) (mark : Bool) (v : Word), s.Accepts → i < 4 → (s.group i).st = .opened →
    let tick := if v = 0 then s.bell.now + 12000 else v.toNat
    ∃ t, exec (.cgArm i mark (.full v)) s = .next t ∧ (t.group i).tick = tick ∧ (∀ j, j ≠ i → t.group j = s.group j) ∧
      (tick < s.bell.now + 8000 → (t.group i).st = .aborted ∧ (t.group i).cause = 5 ∧ (t.group i).failed = 0 ∧ (t.group i).staged = []) ∧
      (s.bell.now + 8000 ≤ tick → (s.group i).members ≠ 0 → (t.group i).st = .armed ∧ (t.group i).staged = (s.group i).staged ∧ t.regs = s.regs)) ∧
  (∀ (s : State) (i mask : Nat), s.InspectorQuiet → (s.group i).st = .armed → s.bell.now + 8000 ≤ (s.group i).tick → (s.group i).job.scope = false →
    let ms := maskBits 32 (maskDiff (maskAnd (s.group i).members mask) (s.group i).acked)
    (ms ≠ [] → (∀ m ∈ ms, s.memberCause i m = 0) →
      (5 ∈ ms → (s.preview (s.group i).staged).oppRun = s.power.run ∨ s.power.trans.isSome = true) →
      ∃ t, exec (.cgMemberAck i mask) s = .next t ∧ t = { s with groups := t.groups } ∧ (∀ j, j ≠ i → t.group j = s.group j) ∧
        (t.group i).acked = maskOr (s.group i).acked (maskOf ms) ∧ (t.group i).staged = (s.group i).staged ∧
        (t.group i).st = if maskDiff (s.group i).members (t.group i).acked = 0 then .bound else .armed) ∧
    (∀ m r, ms.filter (fun m => s.memberCause i m != 0) = m :: r → (s.group i).raised = false →
      ∃ t, exec (.cgMemberAck i mask) s = .next t ∧ t = { s with groups := t.groups, regs := t.regs } ∧
        (t.group i).st = .aborted ∧ (t.group i).cause = s.memberCause i m ∧ (t.group i).failed = maskOf (m :: r) ∧ (t.group i).staged = [] ∧
        t.flag Reg.ctxMgmt 0 = true ∧ SameRegs [Reg.ctxMgmt] s t)) ∧
  (∀ (s : State) (i : Nat), s.InspectorQuiet → (s.group i).st = .armed → (s.group i).tick ≤ s.bell.now + 8000 → (s.group i).job.scope = false →
    (s.group i).raised = false → maskDiff (s.group i).members (s.group i).acked ≠ 0 →
    ∃ t, exec (.cgDeadline i) s = .next t ∧ t = { s with groups := t.groups, regs := t.regs } ∧ (t.group i).st = .aborted ∧
      (t.group i).cause = 4 ∧ (t.group i).failed = maskDiff (s.group i).members (s.group i).acked ∧ (t.group i).staged = [] ∧
      SameRegs [Reg.ctxMgmt] s t ∧ ∀ j, j ≠ i → t.group j = s.group j) ∧
  (∀ (s : State) (i : Nat) (mark : Bool) (v : Word), s.Accepts → s.InspectorQuiet → i < 4 → bit v 0 = true → (s.group i).raised = false →
    ((s.group i).st = .opened ∨ (s.group i).st = .armed →
      ∃ t, exec (.cgCancel i mark (.full v)) s = .next t ∧ t = { s with groups := t.groups, regs := t.regs } ∧ (t.group i).st = .aborted ∧
        (t.group i).cause = 6 ∧ (t.group i).failed = 0 ∧ (t.group i).staged = [] ∧ SameRegs [Reg.ctxMgmt] s t ∧ ∀ j, j ≠ i → t.group j = s.group j) ∧
    ((s.group i).st = .bound → exec (.cgCancel i mark (.full v)) s = .next s)) ∧
  (∀ (s : State) (i : Nat), (s.group i).st = .bound → (s.group i).tick ≤ s.bell.now →
    ∃ t, exec (.cgApply i) s = .next t ∧ (t.group i).st = .applied ∧ (t.group i).staged = [] ∧ (∀ j, j ≠ i → t.group j = s.group j) ∧
      t.flag Reg.ctxMgmt 0 = true ∧
      ∀ n v, n < 16 → v < 2 ^ 64 → (s.group i).staged = [⟨Reg.bellCadPeriod n, allBits, v⟩] → s.power.trans = none → s.oppRun = s.power.run →
        t = { s with groups := t.groups, regs := t.regs } ∧ t.reg (Reg.bellCadPeriod n) = word v ∧
        SameRegs [Reg.bellCadPeriod n, Reg.ctxMgmt] s t)

/-- A job-scope group. At the coordinator each STAGED of a block counts; with the last of an armed group whose own members have acknowledged COMMIT
goes to every other block and the group is BOUND, or, past T - 8,000 st, ABORT goes out and it is ABORTED with JOB_ABORT. A REFUSED makes it send
ABORT to every other block and abort its own group. COMMIT binds a block that has sent STAGED, until T - 2,000 st. ABORT aborts an OPEN or ARMED
block with cause JOB_ABORT, and a block that has aborted keeps its cause and records the verdict. Without a verdict by T - 2,000 st the group is
aborted with VERDICT_LOST and its context is reset. A message for no such group is dropped. -/
def Obligations.GroupMessages : Prop :=
  (∀ (s : State) (k i j : Nat) (d : Delivered) (m : CgInfo), s.inbox[k]? = some d → d.msg.body = .cgStaged m →
    s.slotOfGroup m.ident d.job [.opened, .armed] = some i → s.isCoord i = true → s.slotOfJob d.job = some j →
    let g := s.group i
    let held := if d.msg.src ∈ g.held then g.held else g.held ++ [d.msg.src]
    let all := g.st = .armed ∧ g.sentStaged = true ∧ ∀ b, b < g.job.count → b ∈ held
    ∃ t, exec (.cgStaged k) s = .next t ∧ t.inbox = s.inbox.eraseIdx k ∧ (t.group i).held = held ∧ (∀ n, n ≠ i → t.group n = s.group n) ∧
      t.cells = s.cells ∧
      (¬all → t = { s with inbox := s.inbox.eraseIdx k, groups := t.groups } ∧ t.group i = { g with held := held }) ∧
      (all → s.bell.now + 8000 ≤ g.tick → t.group i = { g with held := held, st := .bound, verdict := 1 } ∧
        ∀ b, b < g.job.count → b ≠ g.job.coord → SendsTo j b (.cgCommit ⟨g.ident, g.tick, 0, 0, 0⟩) s t) ∧
      (all → g.tick < s.bell.now + 8000 → (t.group i).st = .aborted ∧ (t.group i).cause = 8 ∧ (t.group i).failed = 0 ∧ (t.group i).verdict = 2 ∧
        (t.group i).staged = [] ∧
        ∀ b, b < g.job.count → b ≠ g.job.coord → SendsTo j b (.cgAbort ⟨g.ident, g.tick, 8, (t.group i).firstMissing, (t.group i).missing⟩) s t)) ∧
  (∀ (s : State) (k i j : Nat) (d : Delivered) (m : CgInfo), s.inbox[k]? = some d → d.msg.body = .cgRefused m →
    s.slotOfGroup m.ident d.job [.opened, .armed] = some i → s.isCoord i = true → s.slotOfJob d.job = some j →
    let g := s.group i
    ∃ t, exec (.cgRefused k) s = .next t ∧ t.inbox = s.inbox.eraseIdx k ∧ (t.group i).st = .aborted ∧ (t.group i).cause = 8 ∧
      (t.group i).failed = 0 ∧ (t.group i).verdict = 2 ∧ (t.group i).staged = [] ∧ (∀ n, n ≠ i → t.group n = s.group n) ∧ t.cells = s.cells ∧
      ∀ b, b < (s.groupJob i).count → b ≠ (s.groupJob i).coord →
        SendsTo j b (.cgAbort ⟨g.ident, g.tick, 8, (t.group i).firstMissing, (t.group i).missing⟩) s t) ∧
  (∀ (s : State) (k i : Nat) (d : Delivered) (m : CgInfo), s.inbox[k]? = some d → d.msg.body = .cgCommit m →
    s.slotOfGroup m.ident d.job [.armed] = some i →
    ((s.group i).sentStaged = true → d.msg.src = (s.group i).job.coord → s.bell.now + 2000 ≤ (s.group i).tick →
      ∃ t, exec (.cgCommit k) s = .next t ∧ t = { s with inbox := s.inbox.eraseIdx k, groups := t.groups } ∧
        t.group i = { s.group i with st := .bound, verdict := 1 } ∧ ∀ n, n ≠ i → t.group n = s.group n) ∧
    ((s.group i).sentStaged = false ∨ d.msg.src ≠ (s.group i).job.coord ∨ (s.group i).tick < s.bell.now + 2000 →
      exec (.cgCommit k) s = .next { s with inbox := s.inbox.eraseIdx k })) ∧
  (∀ (s : State) (k i : Nat) (d : Delivered) (m : CgInfo), s.inbox[k]? = some d → d.msg.body = .cgAbort m →
    s.slotOfGroup m.ident d.job [.armed, .opened, .aborted] = some i → d.msg.src = (s.groupJob i).coord → (s.group i).verdict = 0 →
    ((s.group i).st = .armed → (s.group i).sentStaged = true → s.bell.now + 2000 ≤ (s.group i).tick) →
    ∃ t, exec (.cgAbort k) s = .next t ∧ t.inbox = s.inbox.eraseIdx k ∧ (t.group i).st = .aborted ∧ (t.group i).verdict = 2 ∧
      (t.group i).missing = m.missing ∧ (t.group i).firstMissing = m.first ∧
      ((s.group i).st ≠ .aborted → (t.group i).cause = 8 ∧ (t.group i).failed = 0 ∧ (t.group i).staged = [] ∧
        ((s.group i).raised = false → t = { s with inbox := s.inbox.eraseIdx k, groups := t.groups, regs := t.regs } ∧ SameRegs [Reg.ctxMgmt] s t)) ∧
      ((s.group i).st = .aborted → (t.group i).cause = (s.group i).cause ∧ (t.group i).failed = (s.group i).failed ∧
        t = { s with inbox := s.inbox.eraseIdx k, groups := t.groups }) ∧
      ∀ n, n ≠ i → t.group n = s.group n) ∧
  (∀ (s : State) (i : Nat), (s.group i).st = .armed → (s.group i).job.scope = true → (s.group i).sentStaged = true → s.isCoord i = false →
    (s.group i).tick ≤ s.bell.now + 2000 →
    ∃ t, exec (.verdictLost i) s = .next t ∧ (t.group i).st = .aborted ∧ (t.group i).cause = 9 ∧ (t.group i).verdict = 3 ∧
      (t.group i).staged = [] ∧ (∀ n, n ≠ i → t.group n = s.group n) ∧
      ((s.ctx (s.group i).job.ctx).st ≠ .free → (s.ctx (s.group i).job.ctx).rst = none →
        ((t.ctx (s.group i).job.ctx).rst.map fun r => r.cause) = some 3)) ∧
  (∀ (s : State) (k : Nat) (d : Delivered) (m : CgInfo), s.inbox[k]? = some d → (∀ sts, s.slotOfGroup m.ident d.job sts = none) →
    (d.msg.body = .cgStaged m → exec (.cgStaged k) s = .next { s with inbox := s.inbox.eraseIdx k }) ∧
    (d.msg.body = .cgRefused m → exec (.cgRefused k) s = .next { s with inbox := s.inbox.eraseIdx k }) ∧
    (d.msg.body = .cgCommit m → exec (.cgCommit k) s = .next { s with inbox := s.inbox.eraseIdx k }) ∧
    (d.msg.body = .cgAbort m → exec (.cgAbort k) s = .next { s with inbox := s.inbox.eraseIdx k }))

/-! ## Register writes -/

/-- Registers of RW fields take the write's value, whole or by the half written; a W1S field is set and stays; a value that R460, R296, R382 or
R348 refuses leaves the register as it was. -/
def Obligations.RegisterWrites : Prop :=
  (∀ (s : State) (c : Nat) (mark : Bool), s.Accepts → s.InspectorQuiet → s.PageOpen c →
    let a := s.gangM * 2 ^ 25 + Reg.ctxIrq c
    let old := s.reg (Reg.ctxIrq c)
    (∀ v, ∃ t, exec (.regWr a mark (.full v)) s = .next t ∧ t = { s with regs := t.regs } ∧ SameRegs [Reg.ctxIrq c] s t ∧
      t.fld (Reg.ctxIrq c) 47 32 = bits v 47 32 ∧ t.fld (Reg.ctxIrq c) 31 24 = bits v 31 24 ∧ t.fld (Reg.ctxIrq c) 1 0 = bits v 1 0) ∧
    (∀ v : BitVec 32, ∃ t, exec (.regWr a mark (.lo v)) s = .next t ∧ t = { s with regs := t.regs } ∧ SameRegs [Reg.ctxIrq c] s t ∧
      t.fld (Reg.ctxIrq c) 47 32 = bits old 47 32 ∧ t.fld (Reg.ctxIrq c) 31 24 = v.toNat / 2 ^ 24 ∧ t.fld (Reg.ctxIrq c) 1 0 = v.toNat % 4) ∧
    (∀ v : BitVec 32, ∃ t, exec (.regWr a mark (.hi v)) s = .next t ∧ t = { s with regs := t.regs } ∧ SameRegs [Reg.ctxIrq c] s t ∧
      t.fld (Reg.ctxIrq c) 47 32 = v.toNat % 2 ^ 16 ∧ t.fld (Reg.ctxIrq c) 31 0 = bits old 31 0) ∧
    (∃ t, exec (.regWr a mark .bad) s = .next t ∧ t = { s with regs := t.regs, out := t.out } ∧ t.reg (Reg.ctxIrq c) = old ∧
      t.fld (Reg.errCnt 0x14) 31 0 = min (s.fld (Reg.errCnt 0x14) 31 0 + 1) (2 ^ 32 - 1)) ∧
    (∀ v, ∃ t, exec (.ctxIrqLineWrite c mark (.full v)) s = .next t ∧ t = { s with regs := t.regs } ∧ SameRegs [Reg.ctxIrq c] s t ∧
      t.fld (Reg.ctxIrq c) 47 32 = bits v 47 32 ∧ t.fld (Reg.ctxIrq c) 31 24 = bits v 31 24 ∧ t.fld (Reg.ctxIrq c) 1 0 = bits v 1 0)) ∧
  (∀ (s : State) (c : Nat) (mark : Bool) (v : Word), s.Accepts → s.PageOpen c →
    ∃ t, exec (.ctxAttnClear c mark (.full v)) s = .next t ∧ t = { s with regs := t.regs, ctxs := t.ctxs } ∧ SameRegs [Reg.ctxAttn c] s t ∧
      (∀ j, j < 3 → t.flag (Reg.ctxAttn c) j = (s.flag (Reg.ctxAttn c) j && !bit v j)) ∧
      t.fld (Reg.ctxAttn c) 15 8 = s.fld (Reg.ctxAttn c) 15 8 ∧
      t.fld (Reg.ctxAttn c) 63 48 = (if bit v 0 = true then 0 else s.fld (Reg.ctxAttn c) 63 48) ∧
      (∀ d, d ≠ c → t.ctx d = s.ctx d) ∧ { t.ctx c with modFrom := none } = { s.ctx c with modFrom := none }) ∧
  (∀ (s : State) (v : Word), s.Accepts →
    (∃ t, exec (.memInject true (.full v)) s = .next t ∧ t = { s with regs := t.regs } ∧ SameRegs [Reg.memInject] s t ∧
      t.fld Reg.memInject 63 62 = bits v 63 62 ∧ t.fld Reg.memInject 42 6 = bits v 42 6) ∧
    (∃ t, exec (.insCtrlLock true (.full v)) s = .next t ∧ t = { s with regs := t.regs } ∧ SameRegs [Reg.insCtrl] s t ∧
      t.flag Reg.insCtrl 0 = (s.flag Reg.insCtrl 0 || bit v 0)) ∧
    (s.flag Reg.memCtrl 0 = false → s.mapBad = false → bit v 0 = true →
      ∃ t, exec (.memEnable true (.full v)) s = .next t ∧ t = { s with regs := t.regs } ∧ SameRegs [Reg.memCtrl] s t ∧ t.flag Reg.memCtrl 0 = true) ∧
    (s.flag Reg.memCtrl 0 = false → s.mapBad = true → bit v 0 = true →
      ∃ t, exec (.memEnable true (.full v)) s = .next t ∧ t = { s with regs := t.regs, out := t.out } ∧ t.reg Reg.memCtrl = s.reg Reg.memCtrl) ∧
    (s.flag Reg.memCtrl 0 = true → bit v 0 = false →
      ∃ t, exec (.memEnable true (.full v)) s = .next t ∧ t = { s with regs := t.regs, out := t.out } ∧ t.reg Reg.memCtrl = s.reg Reg.memCtrl)) ∧
  (∀ (s : State) (mark : Bool) (v : Word), s.Accepts →
    (bits v 54 12 * 4096 + s.dataBytes ≤ 2 ^ 55 →
      ∃ t, exec (.memHpaWrite mark (.full v)) s = .next t ∧ t = { s with regs := t.regs } ∧ SameRegs [Reg.memHpa] s t ∧
        t.fld Reg.memHpa 54 12 = bits v 54 12 ∧ t.flag Reg.memHpa 0 = bit v 0) ∧
    (2 ^ 55 < bits v 54 12 * 4096 + s.dataBytes →
      ∃ t, exec (.memHpaWrite mark (.full v)) s = .next t ∧ t = { s with regs := t.regs, out := t.out } ∧ t.reg Reg.memHpa = s.reg Reg.memHpa)) ∧
  (∀ (s : State) (v : Word), s.Accepts →
    (s.straps.peakPower ≤ 10 * bits v 15 0 → bits v 15 0 ≤ s.straps.peakPower →
      ∃ t, exec (.pwrCapWrite true (.full v)) s = .next t ∧ t = { s with regs := t.regs } ∧ SameRegs [Reg.pwrCap] s t ∧
        t.fld Reg.pwrCap 15 0 = bits v 15 0) ∧
    (10 * bits v 15 0 < s.straps.peakPower ∨ s.straps.peakPower < bits v 15 0 →
      ∃ t, exec (.pwrCapWrite true (.full v)) s = .next t ∧ t = { s with regs := t.regs, out := t.out } ∧ t.reg Reg.pwrCap = s.reg Reg.pwrCap) ∧
    (since32 (bits v 31 0) (s.fld Reg.errLogConsumed 31 0) ≤ since32 (s.fld Reg.errLogWritten 31 0) (s.fld Reg.errLogConsumed 31 0) →
      ∃ t, exec (.errLogConsumedWrite true (.full v)) s = .next t ∧ t = { s with regs := t.regs } ∧ SameRegs [Reg.errLogConsumed] s t ∧
        t.fld Reg.errLogConsumed 31 0 = bits v 31 0) ∧
    (since32 (s.fld Reg.errLogWritten 31 0) (s.fld Reg.errLogConsumed 31 0) < since32 (bits v 31 0) (s.fld Reg.errLogConsumed 31 0) →
      exec (.errLogConsumedWrite true (.full v)) s = .next s) ∧
    (injPlaceOk s.straps (bits v 63 56) (bits v 55 50) (bits v 49 44) (bits v 24 0) = true →
      (bits v 63 56 = 1 ∨ bits v 63 56 = 2 → bits v 43 42 = 1 ∨ bits v 43 42 = 2) →
      ∃ t, exec (.errInject true (.full v)) s = .next t ∧ t = { s with regs := t.regs, inject := t.inject } ∧ SameRegs [Reg.errInject] s t ∧
        t.inject = some ⟨bits v 63 56, bits v 55 50, bits v 49 44, bits v 43 42, bits v 24 0⟩ ∧ t.flag Reg.errInject 41 = true))

/-- The registers of submission. A doorbell sets the tail of an enabled ring within its size of the head, and is counted as refused otherwise;
an abort request stands PENDING unless one does already, which only marks it; CTX_CQ_HEAD moves between where it stands and written; enabling
a ring or the completion ring zeroes its counts; acknowledging undelivered slots frees them. -/
def Obligations.SubmissionRegisters : Prop :=
  (∀ (s : State) (c : Nat) (mark : Bool) (v : Word), s.Accepts → s.PageOpen c →
    let r := bits v 33 32
    (s.ringOn c r = true → since32 (bits v 31 0) (s.ring c r).head ≤ s.ringSize c r →
      ∃ t, exec (.ctxDoorbell c mark (.full v)) s = .next t ∧ t = { s with ctxs := t.ctxs, latches := t.latches } ∧
        t.ring c r = { s.ring c r with tail := bits v 31 0, pending := true, scanning := true } ∧
        (∀ q, q ≠ r → t.ring c q = s.ring c q) ∧ ∀ d, d ≠ c → t.ctx d = s.ctx d) ∧
    (s.ringOn c r = false ∨ s.ringSize c r < since32 (bits v 31 0) (s.ring c r).head →
      ∃ t, exec (.ctxDoorbell c mark (.full v)) s = .next t ∧ t = { s with regs := t.regs, latches := t.latches } ∧
        t.fld (Reg.ctxUstatus c) 63 48 = min (s.fld (Reg.ctxUstatus c) 63 48 + 1) (2 ^ 16 - 1) ∧ t.flag Reg.criEvent 2 = true ∧
        SameRegs [Reg.ctxUstatus c, Reg.criEvent] s t)) ∧
  (∀ (s : State) (c : Nat) (mark : Bool) (v : Word), s.Accepts → s.PageOpen c →
    (s.fld (Reg.ctxAbortStatus c) 2 0 ≠ 1 →
      ∃ t, exec (.ctxAbort c mark (.full v)) s = .next t ∧ t = { s with ctxs := t.ctxs, regs := t.regs, latches := t.latches } ∧
        (t.ctx c).abortT = some (bits v 33 0) ∧ t.fld (Reg.ctxAbortStatus c) 2 0 = 1 ∧ t.fld (Reg.ctxAbortStatus c) 63 30 = bits v 33 0 ∧
        SameRegs [Reg.ctxAbortStatus c] s t ∧ { t.ctx c with abortT := none } = { s.ctx c with abortT := none }) ∧
    (s.fld (Reg.ctxAbortStatus c) 2 0 = 1 →
      ∃ t, exec (.ctxAbort c mark (.full v)) s = .next t ∧ t = { s with regs := t.regs, latches := t.latches } ∧
        t.flag (Reg.ctxAbortStatus c) 8 = true ∧ t.fld (Reg.ctxAbortStatus c) 63 30 = s.fld (Reg.ctxAbortStatus c) 63 30 ∧
        SameRegs [Reg.ctxAbortStatus c] s t) ∧
    (s.fld (Reg.ctxKabortStatus c) 2 0 ≠ 1 →
      ∃ t, exec (.ctxKabort c mark (.full v)) s = .next t ∧ t = { s with ctxs := t.ctxs, regs := t.regs, latches := t.latches } ∧
        (t.ctx c).abortK = some (bits v 33 0) ∧ t.fld (Reg.ctxKabortStatus c) 2 0 = 1 ∧ t.fld (Reg.ctxKabortStatus c) 63 30 = bits v 33 0 ∧
        SameRegs [Reg.ctxKabortStatus c] s t ∧ { t.ctx c with abortK := none } = { s.ctx c with abortK := none }) ∧
    (s.fld (Reg.ctxKabortStatus c) 2 0 = 1 →
      ∃ t, exec (.ctxKabort c mark (.full v)) s = .next t ∧ t = { s with regs := t.regs, latches := t.latches } ∧
        t.flag (Reg.ctxKabortStatus c) 8 = true ∧ t.fld (Reg.ctxKabortStatus c) 63 30 = s.fld (Reg.ctxKabortStatus c) 63 30 ∧
        SameRegs [Reg.ctxKabortStatus c] s t)) ∧
  (∀ (s : State) (c : Nat) (mark : Bool) (v : Word), s.Accepts → s.PageOpen c →
    let old := s.fld (Reg.ctxCqHead c) 31 0
    (since32 (bits v 31 0) old ≤ since32 (s.ctx c).written old →
      ∃ t, exec (.ctxCqHeadWrite c mark (.full v)) s = .next t ∧ t = { s with regs := t.regs } ∧ t.fld (Reg.ctxCqHead c) 31 0 = bits v 31 0 ∧
        SameRegs [Reg.ctxCqHead c] s t) ∧
    (since32 (s.ctx c).written old < since32 (bits v 31 0) old → exec (.ctxCqHeadWrite c mark (.full v)) s = .next s)) ∧
  (∀ (s : State) (c r : Nat) (mark : Bool) (v : Word), s.Accepts → s.PageOpen c → r < 4 → s.ringOn c r = false → bit v 0 = true →
    (4 ≤ bits v 12 8 → bits v 12 8 ≤ 16 →
      ∃ t, exec (.ringEnable c r mark (.full v)) s = .next t ∧ t = { s with regs := t.regs, ctxs := t.ctxs } ∧ t.ringOn c r = true ∧
        t.fld (Reg.ctxRingCfg c r) 12 8 = bits v 12 8 ∧ t.ring c r = Ring.reset ∧ (∀ q, q ≠ r → t.ring c q = s.ring c q) ∧
        SameRegs [Reg.ctxRingCfg c r] s t) ∧
    (bits v 12 8 < 4 ∨ 16 < bits v 12 8 →
      ∃ t, exec (.ringEnable c r mark (.full v)) s = .next t ∧ t = { s with regs := t.regs, out := t.out } ∧ t.ringOn c r = false)) ∧
  (∀ (s : State) (c : Nat) (mark : Bool) (v : Word), s.Accepts → s.PageOpen c → s.flag (Reg.ctxCqCfg c) 0 = false → bit v 0 = true →
    4 ≤ bits v 12 8 → bits v 12 8 ≤ 16 →
    ∃ t, exec (.cqEnable c mark (.full v)) s = .next t ∧ t = { s with regs := t.regs, ctxs := t.ctxs } ∧ t.flag (Reg.ctxCqCfg c) 0 = true ∧
      t.fld (Reg.ctxCqCfg c) 12 8 = bits v 12 8 ∧ t.fld (Reg.ctxCqHead c) 31 0 = 0 ∧ (t.ctx c).written = 0 ∧ (t.ctx c).phase = true ∧
      SameRegs [Reg.ctxCqCfg c, Reg.ctxCqHead c] s t) ∧
  (∀ (s : State) (c : Nat) (mark : Bool) (v : Word), s.Accepts → s.PageOpen c →
    ∃ t, exec (.undelAck c mark (.full v)) s = .next t ∧ t = { s with regs := t.regs, ctxs := t.ctxs } ∧
      (∀ j, j < 4 → t.flag (Reg.ctxUndelStatus c) j = (s.flag (Reg.ctxUndelStatus c) j && !bit v j)) ∧
      (t.ctx c).reserved = (s.ctx c).reserved - ((List.range 4).filter fun j => s.flag (Reg.ctxUndelStatus c) j && bit v j).length ∧
      SameRegs [Reg.ctxUndelStatus c] s t ∧ ∀ d, d ≠ c → t.ctx d = s.ctx d)

/-- CTX_CMD: CREATE gives a FREE slot whose generation is clean, empties its pages and leaves it no tile; RESUME and STOP move it between STOPPED and ACTIVE;
RESET and DESTROY begin a context reset of an ACTIVE, STOPPED or FAULTED one. A command out of place is REFUSED with its cause and changes no context. -/
def Obligations.ContextCommands : Prop :=
  ∀ (s : State) (c : Nat) (mark : Bool) (v : Word), s.Accepts → c < s.straps.contexts → c < 64 → s.fld Reg.ctxCmdStatus 1 0 ≠ 1 →
    ((s.ctx c).st = .free → s.groupPending c = false → s.clean c (s.genOf c) = true →
      ∃ t, exec (.ctxCreate c mark (.full v)) s = .next t ∧
        t = { s with regs := t.regs, ctxs := t.ctxs, latches := t.latches, tiles := t.tiles } ∧ t.leaseTiles c = [] ∧
        (∀ k, (s.tile k).lease ≠ some c → t.tile k = s.tile k) ∧ t.ctx c = { Ctx.initial with st := .stopped, gen := (s.ctx c).gen, retired := (s.ctx c).retired } ∧ (∀ d, d ≠ c → t.ctx d = s.ctx d) ∧
        (∀ o, o < 0x1000 → t.reg (0x100000 + 0x1000 * c + o) = regReset s.straps (0x100000 + 0x1000 * c + o) ∧
          t.reg (0x200000 + 0x1000 * c + o) = regReset s.straps (0x200000 + 0x1000 * c + o)) ∧
        t.fld Reg.ctxCmdStatus 1 0 = 2 ∧ t.flag Reg.ctxMgmt 7 = true) ∧
    ((s.ctx c).st ≠ .free →
      ∃ t, exec (.ctxCreate c mark (.full v)) s = .next t ∧ t = { s with regs := t.regs } ∧ t.fld Reg.ctxCmdStatus 1 0 = 3 ∧
        t.fld Reg.ctxCmdStatus 23 16 = 1 ∧ SameRegs [Reg.ctxCmdStatus, Reg.ctxMgmt] s t) ∧
    ((s.ctx c).st = .stopped ∨ (s.ctx c).st = .faulted → (s.ctx c).rst = none → s.fld (Reg.ctxUndelStatus c) 3 0 = 0 → s.leaseTiles c ≠ [] →
      s.groupPending c = false →
      ∃ t, exec (.ctxResume c mark (.full v)) s = .next t ∧ t = { s with regs := t.regs, ctxs := t.ctxs } ∧
        t.ctx c = { s.ctx c with st := .active } ∧ (∀ d, d ≠ c → t.ctx d = s.ctx d) ∧ t.fld Reg.ctxCmdStatus 1 0 = 2 ∧
        SameRegs [Reg.ctxCmdStatus, Reg.ctxMgmt] s t) ∧
    ((s.ctx c).st = .active → (s.ctx c).rst = none →
      ∃ t, exec (.ctxStop c mark (.full v)) s = .next t ∧ t = { s with regs := t.regs, ctxs := t.ctxs } ∧
        t.ctx c = { s.ctx c with st := .stopped } ∧ (∀ d, d ≠ c → t.ctx d = s.ctx d) ∧ t.fld Reg.ctxCmdStatus 1 0 = 2 ∧
        SameRegs [Reg.ctxCmdStatus, Reg.ctxMgmt] s t) ∧
    ((s.ctx c).st = .active ∨ (s.ctx c).st = .stopped ∨ (s.ctx c).st = .faulted → (s.ctx c).rst = none →
      (∃ t r, exec (.ctxReset c mark (.full v)) s = .next t ∧ (t.ctx c).rst = some r ∧ r.cause = 1 ∧ r.destroy = false ∧
        (t.ctx c).st = (s.ctx c).st ∧ (t.ctx c).gen = ((s.ctx c).gen + 1) % 256 ∧ (t.ctx c).launches = [] ∧ (∀ o ∈ t.ops, o.ctx ≠ c) ∧
        t.fld Reg.ctxCmdStatus 1 0 = 1) ∧
      (∃ t r, exec (.ctxDestroy c mark (.full v)) s = .next t ∧ (t.ctx c).rst = some r ∧ r.cause = 2 ∧ r.destroy = true ∧
        (t.ctx c).st = .teardown ∧ (t.ctx c).gen = ((s.ctx c).gen + 1) % 256 ∧ (t.ctx c).launches = [] ∧ (∀ o ∈ t.ops, o.ctx ≠ c) ∧
        t.fld Reg.ctxCmdStatus 1 0 = 1))

/-- Registers that start an action: XLT_DINV_CTL begins a withdrawal or is refused for an address of another tag; FAB_PORTn_CFG takes a port down
or starts its training; MEM_CLEAR_CTL zeroes a range of the data region; ERR_BRESET begins a block soft reset; PWR_TEST asserts the alert or a
droop; ERR_HOSTPORT releases a frozen port. -/
def Obligations.ActionRegisters : Prop :=
  (∀ (s : State) (mark : Bool) (v : Word), s.Accepts → bit v 0 = true → (∀ w ∈ s.withdraws, w.drain = false) →
    let a := s.fld Reg.xltDinvAddr 63 12 * 4096
    (vaTag a = 1 ∨ vaTag a = 2 →
      ∃ t w, exec (.drainInvalidate mark (.full v)) s = .next t ∧ t.withdraws = s.withdraws ++ [w] ∧ w.itag = none ∧ w.drain = true ∧
        w.ctxs = [bits v 13 8] ∧ w.pages = bits v 47 16 ∧ w.engines = engineMask s.straps ∧ w.members = [] ∧
        ((∀ b ∈ s.barrows, b.q = []) → t.fld Reg.xltDinvStatus 1 0 = 1 ∧ t.cells = s.cells)) ∧
    (vaTag a ≠ 1 → vaTag a ≠ 2 →
      ∃ t, exec (.drainInvalidate mark (.full v)) s = .next t ∧ t = { s with regs := t.regs, latches := t.latches } ∧
        t.fld Reg.xltDinvStatus 1 0 = 3 ∧ SameRegs [Reg.xltDinvStatus] s t)) ∧
  (∀ (s : State) (p : Nat) (v : Word), s.Accepts → p < s.straps.ports →
    ∃ t, exec (.portEnable p true (.full v)) s = .next t ∧ t = { s with regs := t.regs, ports := t.ports } ∧
      t.flag (Reg.fabPortCfg p) 0 = bit v 0 ∧
      t.fld (Reg.fabPortCfg p) 2 1 = (if bit v 0 = false then 0 else if s.fld (Reg.fabPortCfg p) 2 1 = 0 then 1 else s.fld (Reg.fabPortCfg p) 2 1) ∧
      SameRegs [Reg.fabPortCfg p, Reg.fabEvent, Reg.fabDrops] s t ∧ (∀ q, q ≠ p → nth t.ports q = nth s.ports q) ∧
      (t.fld (Reg.fabPortCfg p) 2 1 ≠ s.fld (Reg.fabPortCfg p) 2 1 → nth t.ports p = Port.reset ∧ t.flag Reg.fabEvent 0 = true) ∧
      ((nth s.ports p).queue = [] ∨ t.fld (Reg.fabPortCfg p) 2 1 = s.fld (Reg.fabPortCfg p) 2 1 → t.reg Reg.fabDrops = s.reg Reg.fabDrops)) ∧
  (∀ (s : State) (mark : Bool) (v : Word), s.Accepts → bit v 0 = true → s.fld Reg.memClearStatus 2 0 ≠ 1 →
    let lo := s.fld Reg.memClearAddr 42 12 * 4096
    let n := bits v 39 8 * 4096
    (s.clearUnit ≠ 0 → lo % s.clearUnit = 0 → n % s.clearUnit = 0 → lo + n ≤ s.dataBytes →
      ∃ t, exec (.memClear mark (.full v)) s = .next t ∧ (∀ a, lo ≤ a → a < lo + n → t.rd a = 0) ∧
        (t.mem.clear.map fun j => (j.first, j.len)) = some (lo, n) ∧ t.fld Reg.memClearStatus 2 0 = 1) ∧
    (s.clearUnit = 0 ∨ lo % s.clearUnit ≠ 0 ∨ n % s.clearUnit ≠ 0 ∨ s.dataBytes < lo + n →
      ∃ t, exec (.memClear mark (.full v)) s = .next t ∧ t = { s with regs := t.regs, latches := t.latches } ∧
        t.fld Reg.memClearStatus 2 0 = 3 ∧ SameRegs [Reg.memClearStatus] s t)) ∧
  (∀ (s : State) (v : Word), s.Accepts → bit v 0 = true →
    ∃ t, exec (.errBresetGo true (.full v)) s = .next t ∧ t.breset = some s.up ∧ t.ops = [] ∧ t.bell.now = s.bell.now ∧
      (∀ l, (t.lane l).st = .idle) ∧ ∀ i, i < 4 → (t.group i).st = .idle) ∧
  (∀ (s : State) (v : Word), s.Accepts →
    (bit v 4 = true → ∃ t, exec (.forceAlert true (.full v)) s = .next t ∧ t.power.alertCeil = min 5 (s.power.run + 1) ∧
      t.power.statusDue = true ∧ t.lanes = s.lanes ∧ t.cells = s.cells) ∧
    (bit v 4 = false → bits v 3 0 < s.straps.tiles → (s.tile (bits v 3 0)).rest = .awake → s.power.stretch = none →
      ∃ t x, exec (.forceDroop true (.full v)) s = .next t ∧ t = { s with power := t.power, free := t.free } ∧ t.power.stretch = some x ∧
        x.tile = bits v 3 0 ∧ x.startTick = s.bell.now ∧ x.lastLow = s.up)) ∧
  (∀ (s : State) (v : Word), s.live = true → s.fld Reg.insBoot 3 0 = 6 → s.inject = none → s.gangM < s.gangN → bit v 3 = true → bit v 4 = false →
    ∃ t, exec (.hostportRelease true (.full v)) s = .next t ∧ t.pins.frozen = false ∧ t.pins.bme = s.pins.bme ∧
      t.pins.linkDown = s.pins.linkDown ∧ t.fld Reg.errHostport 39 32 = 0)

/-! ## Power -/

/-- A transition: the raised voltage arrives, then the PLL locks and the clock switches, a lowering writing its voltage after; a group's switch
waits for its tick and a raise waits for the end of a stretch. A reading below the warning level stretches the clock, and during a
stretch one that has not come above the return level prolongs it; settle_ns after the last one the stretch is counted and logged, and a raise
that waited for it takes place. A poll holds a rail's readings, or the last ones where the check failed. -/
def Obligations.TransitionsAndDroop : Prop :=
  (∀ (s : State) (tr : Transition), s.live = true → s.power.trans = some tr →
    (tr.stage = 0 → exec .voltageSettled s = .next { s with power := { s.power with trans := some { tr with stage := 1 } } }) ∧
    (tr.stage = 1 → tr.atTick = none → (s.power.stretch = none ∨ s.power.clk ≤ tr.target) →
      ∃ t, exec .pllLocked s = .next t ∧ t = { s with power := t.power, out := t.out } ∧ t.power.clk = tr.target ∧ t.power.trans = none ∧
        (s.power.clk < tr.target → t.power.voltMv = 10 * oppVolt tr.target ∧
          ∀ r, r < 4 → s.fld (Reg.pwrRailCfg r) 9 8 = 1 → Out.pmbus r 0x21 (10 * oppVolt tr.target) ∈ t.out) ∧
        (tr.target ≤ s.power.clk → t.power.voltMv = s.power.voltMv ∧ t.out = s.out)) ∧
    (tr.stage = 1 → tr.atTick ≠ none →
      exec .pllLocked s = .next { s with power := { s.power with trans := some { tr with stage := 2 } } }) ∧
    (tr.stage = 1 → tr.atTick = none → s.power.stretch ≠ none → tr.target < s.power.clk →
      exec .pllLocked s = .next { s with power := { s.power with trans := some ⟨tr.target, 2, s.up, none⟩ } })) ∧
  (∀ (s : State) (tile mv : Nat), s.live = true → tile < s.straps.tiles → (s.tile tile).rest = .awake →
    (100 * mv < 10 * oppVolt s.power.run * (100 - s.fld Reg.pwrDroopX 7 0) →
      (s.power.stretch = none →
        exec (.droopWarning tile mv) s = .next { s with power := { s.power with stretch := some ⟨s.bell.now, s.up, tile, mv, s.up⟩ } }) ∧
      (∀ x, s.power.stretch = some x →
        exec (.droopWarning tile mv) s =
          .next { s with power := { s.power with stretch := some { x with minMv := min x.minMv mv, lastLow := s.up } } })) ∧
    (10 * oppVolt s.power.run * (100 - s.fld Reg.pwrDroopX 7 0) ≤ 100 * mv →
      (∀ x, s.power.stretch = some x → 100 * mv ≤ 10 * oppVolt s.power.run * (100 + s.fld Reg.pwrDroopX 15 8 - s.fld Reg.pwrDroopX 7 0) →
        exec (.droopWarning tile mv) s =
          .next { s with power := { s.power with stretch := some { x with minMv := min x.minMv mv, lastLow := s.up } } }) ∧
      (s.power.stretch = none ∨ 10 * oppVolt s.power.run * (100 + s.fld Reg.pwrDroopX 15 8 - s.fld Reg.pwrDroopX 7 0) < 100 * mv →
        exec (.droopWarning tile mv) s = .next s))) ∧
  (∀ (s : State) (tile mv : Nat), s.straps.tiles ≤ tile ∨ (s.tile tile).rest ≠ .awake → exec (.droopWarning tile mv) s = .next s) ∧
  (∀ (s : State) (x : Stretch), s.live = true → s.power.stretch = some x →
    (x.lastLow + 4 * s.fld Reg.pwrDroopX 31 16 ≤ s.up → (∀ tr, s.power.trans = some tr → tr.stage ≠ 2 ∨ tr.atTick ≠ none) →
      let i := s.fld Reg.pwrDroopCnt 63 0 % 32
      ∃ t, exec .droopRelease s = .next t ∧ t = { s with regs := t.regs, power := { s.power with stretch := none } } ∧
        t.fld Reg.pwrDroopCnt 63 0 = (s.fld Reg.pwrDroopCnt 63 0 + 1) % 2 ^ 64 ∧ t.flag Reg.pwrEvent 0 = true ∧
        t.reg (Reg.pwrDlogT i) = word x.startTick ∧ t.fld (Reg.pwrDlogD i) 31 24 = x.tile % 256 ∧ t.fld (Reg.pwrDlogD i) 15 0 = x.minMv % 2 ^ 16 ∧
        SameRegs [Reg.pwrDroopCnt, Reg.pwrEvent, Reg.pwrDlogT i, Reg.pwrDlogD i] s t) ∧
    (∀ tr, x.lastLow + 4 * s.fld Reg.pwrDroopX 31 16 ≤ s.up → s.power.trans = some tr → tr.stage = 2 → tr.atTick = none →
      ∃ t, exec .droopRelease s = .next t ∧ t = { s with regs := t.regs, power := t.power, out := t.out } ∧ t.power.stretch = none ∧
        t.power.clk = tr.target ∧ t.power.trans = none ∧ t.flag Reg.pwrEvent 0 = true ∧
        t.fld Reg.pwrDroopCnt 63 0 = (s.fld Reg.pwrDroopCnt 63 0 + 1) % 2 ^ 64) ∧
    (s.up < x.lastLow + 4 * s.fld Reg.pwrDroopX 31 16 → exec .droopRelease s = .next s)) ∧
  (∀ (s : State) (rail : Nat) (r : RailRead), s.live = true → rail < 4 → s.fld (Reg.pwrRailCfg rail) 9 8 ≠ 0 →
    ∃ t, exec (.pmbusPoll rail r) s = .next t ∧ t = { s with regs := t.regs, power := t.power } ∧
      { t.power with winMeas := s.power.winMeas } = s.power ∧
      (r.ok = true → t.fld (Reg.pwrRailRead rail) 63 48 = r.vout % 2 ^ 16 ∧ t.fld (Reg.pwrRailRead rail) 47 32 = r.iout % 2 ^ 16 ∧
        t.fld (Reg.pwrRailRead rail) 31 24 = r.temp % 256 ∧ t.fld (Reg.pwrRailRead rail) 23 16 = s.fld (Reg.pwrRailRead rail) 23 16 ∧
        t.fld (Reg.pwrRailRead rail) 15 0 = r.pout % 2 ^ 16 ∧ SameRegs [Reg.pwrRailRead rail] s t) ∧
      (r.ok = false → t.flag Reg.pwrEvent 8 = true ∧ SameRegs [Reg.pwrEvent] s t))

/-- The ceilings. The alert ceiling is one step slower than run at an assertion, rises each millisecond it stands and falls after each ten of
release; the thermal ceiling rises while the hottest reading is at throttle_c and falls after ten cool milliseconds; at shutdown_c it is OPP5
and a shutdown is asked for; the cap ceiling rises by one when compute, scaled to a measured power above the estimate
(log entry 33: DEDUCED), exceeds all that the cap leaves. After each, run is what R374 decides. -/
def Obligations.Ceilings : Prop :=
  (∀ s : State, s.live = true →
    (s.pins.alertIn = false →
      (∃ t, exec .alertAssert s = .next t ∧ t.pins = { s.pins with alertIn := true } ∧ t.power.alertCeil = min 5 (s.power.run + 1) ∧
        t.power.statusDue = true ∧ t.power.run = t.oppRun ∧ t.power.clk = s.power.clk ∧ t.regs = s.regs ∧ t.lanes = s.lanes) ∧
      (s.power.alertCeil = 0 → exec .alertCeilingStep s = .next s) ∧
      (0 < s.power.alertCeil → s.power.alertFreeMs = 9 →
        ∃ t, exec .alertCeilingStep s = .next t ∧ t.power.alertCeil = s.power.alertCeil - 1 ∧ t.power.alertFreeMs = 0 ∧ t.power.run = t.oppRun ∧
          t.regs = s.regs) ∧
      (0 < s.power.alertCeil → s.power.alertFreeMs ≠ 9 →
        exec .alertCeilingStep s = .next { s with power := { s.power with alertFreeMs := s.power.alertFreeMs + 1 } })) ∧
    (s.pins.alertIn = true →
      (∃ t, exec .alertCeilingStep s = .next t ∧ t.power.alertCeil = min 5 (s.power.alertCeil + 1) ∧ t.power.run = t.oppRun ∧ t.regs = s.regs) ∧
      exec .alertRelease s = .next { s with pins := { s.pins with alertIn := false }, power := { s.power with alertFreeMs := 0 } }) ∧
    (s.power.statusDue = true → ∀ words : List Nat,
      ∃ t, exec (.alertStatusRead words) s = .next t ∧ t.power = { s.power with statusDue := false } ∧ t.flag Reg.pwrEvent 3 = true ∧
        (∀ r, r < 4 → s.fld (Reg.pwrRailCfg r) 9 8 ≠ 0 → t.fld (Reg.pwrRailRead r) 23 16 = words.getD r 0 % 256) ∧
        (∀ r, r < 4 → s.fld (Reg.pwrRailCfg r) 9 8 = 0 → t.reg (Reg.pwrRailRead r) = s.reg (Reg.pwrRailRead r)) ∧
        SameRegs [Reg.pwrEvent, Reg.pwrRailRead 0, Reg.pwrRailRead 1, Reg.pwrRailRead 2, Reg.pwrRailRead 3] s t)) ∧
  (∀ s : State, s.live = true →
    let th : Int := 16 * (s.fld Reg.pwrTherm 15 8 : Int)
    let back : Int := th - 16 * (s.fld Reg.pwrTherm 7 0 : Int)
    (th ≤ s.hottest → ∃ t, exec .thermalCeilingStep s = .next t ∧ t.power.thermCeil = min 5 (s.power.thermCeil + 1) ∧ t.power.coolMs = 0 ∧
      t.power.run = t.oppRun ∧ SameRegs [Reg.pwrEvent] s t) ∧
    (s.hottest < back → s.hottest < th → s.power.coolMs = 9 →
      ∃ t, exec .thermalCeilingStep s = .next t ∧ t.power.thermCeil = s.power.thermCeil - 1 ∧ t.power.coolMs = 0 ∧ t.power.run = t.oppRun ∧
        SameRegs [Reg.pwrEvent] s t) ∧
    (s.hottest < back → s.power.coolMs ≠ 9 → s.hottest < th →
      exec .thermalCeilingStep s = .next { s with power := { s.power with coolMs := s.power.coolMs + 1 } }) ∧
    (back ≤ s.hottest → s.hottest < th →
      exec .thermalCeilingStep s = .next { s with power := { s.power with coolMs := 0 } })) ∧
  (∀ (s : State) (readings : List Int), s.live = true →
    ∃ t, exec (.tempSample readings) s = .next t ∧ t.lanes = s.lanes ∧ t.cells = s.cells ∧ SameRegs [Reg.pwrTemp, Reg.pwrEvent] s t ∧
      (∀ k j v, k < s.straps.tiles → j < 3 → (s.tile k).rest = .awake → readings[3 * k + j]? = some v →
        nth (t.tile k).temps j = if v < -640 ∨ 2400 < v then none else some v) ∧
      (∀ p ∈ t.sensors, ∃ q ∈ t.sensors, p.2 ≤ q.2 ∧ t.fld Reg.pwrTemp 15 0 = unsignedOf 16 q.2) ∧
      (t.sensors ≠ [] → 16 * (s.fld Reg.pwrTherm 23 16 : Int) ≤ t.hottest → t.power.shutdown = true ∧ t.power.thermCeil = 5)) ∧
  (∀ s : State, s.live = true →
    s.fld Reg.pwrPolicyX 23 16 + s.fld Reg.pwrPolicyX 15 8 + s.fld Reg.pwrPolicyX 7 0 = 100 →
    let u := s.settleGaps (List.range s.straps.tiles)
    let k : Rat := match s.measuredMw with
      | some m => if u.partsMw.sum < m ∧ 0 < u.partsMw.sum then m / u.partsMw.sum else 1
      | none => 1
    let d := k * nth u.partsMw 0
    let st := k * nth u.partsMw 1
    let b : Rat := 100 * ((s.fld Reg.pwrCap 15 0 - s.fld Reg.pwrPolicyX 63 48 : Nat) : Rat)
    ∃ t, exec .capControl s = .next t ∧ t.power.cap = s.fld Reg.pwrCap 15 0 ∧ t.power.msUp = s.up ∧ (∀ k, nth t.power.msEvents k = 0) ∧
      t.power.run = t.oppRun ∧ SameRegs [Reg.pwrThrt] u t ∧ t.power.capCeil ≤ s.power.capCeil + 1 ∧ s.power.capCeil ≤ t.power.capCeil + 1 ∧
      (b < d + st → b < predictMw d st s.power.clk s.power.capCeil → s.power.capCeil < 5 → t.power.capCeil = s.power.capCeil + 1))

/-- The Ledger's window sets a scale between 1/2 and 2, 1 where no rail is measured, adds the window to the totals and begins the next. A tile
or cluster that may rest enters Rest, rests after its entry, wakes for a cause of R392 and is ready 120 µs later, when the debug reads that
waited for it are answered; a tile marked clearing begins to clear and to zero instead. -/
def Obligations.LedgerAndRest : Prop :=
  (∀ s : State, s.live = true →
    let u := s.settleGaps (List.range s.straps.tiles)
    ∃ t, exec .ledgerWindow s = .next t ∧ 1 / 2 ≤ t.power.scale ∧ t.power.scale ≤ 2 ∧ (s.measuredMw = none → t.power.scale = 1) ∧
      t.power.winMeas = 0 ∧ t.power.endedEst = 0 ∧ t.power.windowUp = s.up ∧
      t.power.ledgerMeas = (if s.measuredMw = none then s.power.ledgerMeas else s.power.ledgerMeas + s.power.winMeas) ∧
      t.reg Reg.pwrLedgerEst = word (microJ t.power.ledgerEst) ∧ t.reg Reg.pwrLedgerMeas = word (microJ t.power.ledgerMeas) ∧
      t.reg Reg.pwrLedgerIdle = word (microJ t.power.ledgerIdle) ∧
      t.fld Reg.pwrLedgerScale 15 0 = min (1024 * t.power.scale).floor.toNat (2 ^ 16 - 1) ∧
      SameRegs [Reg.pwrLedgerEst, Reg.pwrLedgerMeas, Reg.pwrLedgerIdle, Reg.pwrLedgerScale, Reg.pwrEvent] u t ∧ t.lanes = s.lanes ∧
      t.cells = s.cells) ∧
  (∀ (s : State) (k : Nat), s.live = true →
    (s.tileMayRest k = true → exec (.restEntry (.tile k)) s = .next (s.setRest (.tile k) (.entering s.up false))) ∧
    (s.tileMayRest k = false → exec (.restEntry (.tile k)) s = .next s) ∧
    (s.clusterMayRest k = true → exec (.restEntry (.cluster k)) s = .next (s.setRest (.cluster k) (.entering s.up false)))) ∧
  (∀ (s : State) (dom : RestDom), s.live = true →
    (∀ u w, s.restOf dom = .entering u w →
      exec (.restEntryComplete dom) s = .next (s.setRest dom (if w = true then .waking s.up else .resting))) ∧
    (s.restOf dom = .resting → s.wakeCause dom = true → exec (.restWake dom) s = .next (s.setRest dom (.waking s.up))) ∧
    (∀ u w, s.restOf dom = .entering u w → s.wakeCause dom = true → exec (.restWake dom) s = .next (s.setRest dom (.entering u true))) ∧
    (s.wakeCause dom = false → exec (.restWake dom) s = .next s)) ∧
  (∀ (s : State) (k since : Nat), s.live = true → s.restOf (.tile k) = .waking since →
    (since + 480000 ≤ s.up → (s.tile k).clearOnWake = true →
      ∃ t, exec (.wakeReady (.tile k)) s = .next t ∧ t = { s with tiles := t.tiles } ∧ (∀ j, j ≠ k → t.tile j = s.tile j) ∧
        t.tile k = { s.tile k with rest := .awake, clearOnWake := false, clearArr := some (s.cyc + 1100), clearScr := some (s.cyc + 2048),
                                   idleSince := s.up }) ∧
    (since + 480000 ≤ s.up → (s.tile k).clearOnWake = false →
      ∃ t, exec (.wakeReady (.tile k)) s = .next t ∧ t = { s with tiles := t.tiles, out := t.out, debugHeld := t.debugHeld } ∧
        (∀ j, j ≠ k → t.tile j = s.tile j) ∧ t.tile k = { s.tile k with rest := .awake, idleSince := s.up } ∧
        t.out = s.out ++ ((s.debugHeld.filter fun p => inDom s.straps (.tile k) p.2).map fun p => Out.regCpl p.1 (word (s.rdNat p.2 8))) ∧
        t.debugHeld = s.debugHeld.filter fun p => !inDom s.straps (.tile k) p.2) ∧
    (s.up < since + 480000 → exec (.wakeReady (.tile k)) s = .next s)) ∧
  (∀ (s : State) (k since : Nat), s.live = true → s.restOf (.cluster k) = .waking since →
    (since + 480000 ≤ s.up →
      ∃ t, exec (.wakeReady (.cluster k)) s = .next t ∧ t = { s with clusters := t.clusters, out := t.out, debugHeld := t.debugHeld } ∧
        (∀ j, j ≠ k → t.cluster j = s.cluster j) ∧ t.cluster k = { s.cluster k with rest := .awake } ∧
        t.out = s.out ++ ((s.debugHeld.filter fun p => inDom s.straps (.cluster k) p.2).map fun p => Out.regCpl p.1 (word (s.rdNat p.2 8))) ∧
        t.debugHeld = s.debugHeld.filter fun p => !inDom s.straps (.cluster k) p.2) ∧
    (s.up < since + 480000 → exec (.wakeReady (.cluster k)) s = .next s))

/-! ## Submission -/

/-- A ring's fetch engine goes idle in one step when no doorbell came, and else fetches the entry at its head; the record that arrives gives the
entry point, the constants, its header's fields and its not-before tick, absolute or of a cadence, or is decided RECORD_INVALID at the failing
byte or TIME-INVALID, unless it is decided already; a failed fetch, when every record before it is decided, decides its launch and leaves the
context FAULTED; a not-before tick releases the head record once it has come; a dispatch gives the next launch to the lanes of every cluster the
context leases, telling the other members of a gang, and reserves a completion entry, or places a launch that is decided already; a launch that
is late is counted. A member of a gang dispatches, stops and resets as its lead tells it. -/
def Obligations.CrierFetchesAndDispatches : Prop :=
  (∀ (s : State) (c r : Nat), (s.ring c r).scanning = true → (s.ring c r).head = (s.ring c r).tail →
    ∃ t, exec (.ringScan c r) s = .next t ∧ t = { s with ctxs := t.ctxs } ∧ (∀ d, d ≠ c → t.ctx d = s.ctx d) ∧
      t.ring c r = if (s.ring c r).pending = true then { s.ring c r with pending := false } else { s.ring c r with scanning := false }) ∧
  (∀ (s : State) (c r : Nat), s.wantsFetch c r = true → s.fetchTurn c = true → s.inject = none →
    ∃ t, exec (.ringScan c r) s = .next t ∧ (t.ring c r).head = ((s.ring c r).head + 1) % 2 ^ 32 ∧ (t.ring c r).tail = (s.ring c r).tail ∧
      (t.ring c r).recs.map (fun k => k.count) = (s.ring c r).recs.map (fun k => k.count) ++ [(s.ring c r).head] ∧ t.cells = s.cells ∧
      t.lanes = s.lanes) ∧
  (∀ (s : State) (c r : Nat) (bs : List Byte) (k : Rec) (q : Req), (s.ring c r).recs.find? (fun k => !k.here) = some k →
    s.reqs.find? (fun q => q.dest == .record c r k.count && q.gen == (s.ctx c).gen && !q.dropped) = some q → q.path = .host → bs.length = 256 →
    let w := fun i => word (leNat ((bs.drop (8 * i)).take 8))
    let cad := s.cadFor c (bits (w 2) 5 2)
    let good := headerBad w = none ∧ (bits (w 2) 1 0 = 2 → cad ≠ none)
    ∃ t x, exec (.recordFetch c r bs) s = .next t ∧ t = { s with reqs := t.reqs, ctxs := t.ctxs } ∧ (∀ y ∈ t.reqs, y.tag ≠ q.tag ∧ y ∈ s.reqs) ∧
      x ∈ (t.ring c r).recs ∧ x.count = k.count ∧ x.here = true ∧ x.fetchedAt = s.bell.now ∧ x.entry = (w 0).toNat ∧ x.consts = bs.drop 64 ∧
      x.irq = bit (w 2) 8 ∧ x.keep = bit (w 2) 7 ∧ x.watch = bits (w 2) 47 32 ∧
      (bits (w 2) 1 0 = 0 → x.nb = none) ∧ (bits (w 2) 1 0 = 1 → x.nb = some (w 1).toNat) ∧
      (∀ p, bits (w 2) 1 0 = 2 → cad = some p → x.nb = some (cadRelease p.1 p.2 (w 1).toInt s.bell.now).2) ∧
      (∀ d, k.bad = some d → x.bad = some d) ∧ (k.bad = none → good → x.bad = none) ∧
      (∀ o, k.bad = none → headerBad w = some o → (x.bad.map fun d => (d.status, d.arg)) = some (0x41, o)) ∧
      (k.bad = none → headerBad w = none → bits (w 2) 1 0 = 2 → cad = none → (x.bad.map fun d => (d.status, d.arg)) = some (xTIMEINVALID, 0)) ∧
      ((t.ring c r).decided = if good ∨ (s.ring c r).decidedAt k.count = true then (s.ring c r).decided else ((s.ring c r).decided + 1) % 2 ^ 32)) ∧
  (∀ (s : State) (c r n va : Nat) (before : List Rec) (k : Rec) (rest : List Rec), (s.ring c r).failed = some (n, va) →
    (s.ring c r).recs = before ++ k :: rest → (∀ b ∈ before, b.count ≠ n) → k.count = n → r < 4 → (s.ctx c).st ≠ .teardown →
    ((∃ b ∈ before, b.bad = none) → exec (.recordFetchFault c r) s = .next s) ∧
    ((∀ b ∈ before, b.bad ≠ none) →
      ∃ t ls l, exec (.recordFetchFault c r) s = .next t ∧ (t.ctx c).launches = (s.ctx c).launches ++ ls ++ [l] ∧
        ls.map (fun x => x.seq) = before.map (fun b => r * 2 ^ 32 + b.count) ∧ ls.map (fun x => x.decision) = before.map (fun b => b.bad) ∧
        l.seq = r * 2 ^ 32 + n ∧ (∀ d, k.bad = some d → l.decision = some d) ∧
        (k.bad = none → (l.decision.map fun d => (d.status, d.where_, d.arg)) = some (xTRANSLATIONFAULT, s.ringVa c r n, va)) ∧
        ((t.ring c r).decided = if k.bad = none then ((s.ring c r).decided + 1) % 2 ^ 32 else (s.ring c r).decided) ∧
        (t.ctx c).reserved = (s.ctx c).reserved + before.length + 1 ∧ (t.ring c r).head = (n + 1) % 2 ^ 32 ∧ (t.ring c r).failed = none ∧
        (t.ring c r).recs = [] ∧ (∀ i, i < 4 → i ≠ r → (t.ring c i).recs = (s.ring c i).recs.takeWhile fun k => k.bad.isSome && k.here) ∧
        (t.ctx c).st = .faulted ∧ (∀ d, d ≠ c → t.ctx d = s.ctx d) ∧ t.cells = s.cells ∧ t.lanes = s.lanes ∧ SameRegs [Reg.ctxAttn c] s t)) ∧
  (∀ (s : State) (c r T : Nat) (k : Rec), (s.ring c r).recs.head? = some k → k.nb = some T → k.here = true → k.released = false →
    (s.bell.now < T → exec (.notBeforeRelease c r) s = .next s) ∧
    (T ≤ s.bell.now → ∃ t b, exec (.notBeforeRelease c r) s = .next t ∧ t = { s with ctxs := t.ctxs } ∧
      (t.ring c r).recs.head? = some { k with released := true, onTime := b } ∧ (t.ring c r).recs.tail = (s.ring c r).recs.tail ∧
      (b = true ↔ s.bell.now = T ∧ k.fetchedAt + 8000 ≤ T ∧ s.mayDispatch c = true ∧
        ∀ x ∈ s.lanes, x.ctx ≠ c ∨ (x.st = .idle ∧ x.waiting = [])))) ∧
  (∀ (s : State) (c r : Nat) (k : Rec) (rest : List Rec), s.mayDispatch c = true → s.pickRing c = some r → (s.ring c r).recs = k :: rest →
    s.inject = none →
    (k.bad = none →
      ∃ t l, exec (.dispatch ⟨c, none⟩) s = .next t ∧
        t = { s with ctxs := t.ctxs, lanes := t.lanes, tiles := t.tiles, clusters := t.clusters, regs := t.regs, free := t.free, out := t.out } ∧
        (t.ctx c).launches = (s.ctx c).launches ++ [l] ∧ (t.ctx c).reserved = (s.ctx c).reserved + 1 ∧ (t.ring c r).recs = rest ∧
        (t.ring c r).decided = (s.ring c r).decided ∧ l.seq = r * 2 ^ 32 + k.count ∧ l.entry = k.entry ∧ l.consts = k.consts ∧ l.irq = k.irq ∧
        l.keep = k.keep ∧ l.clusters = s.leaseClusters c ∧ l.numCtrl = s.reg (Reg.ctxNumCtrl c) ∧ l.decision = none ∧ l.stage = .waiting ∧
        (∀ kk ∈ s.leaseClusters c, (t.lane (s.laneFor c kk)).waiting = (s.lane (s.laneFor c kk)).waiting ++ [l.seq]) ∧
        (∀ d, d ≠ c → t.ctx d = s.ctx d) ∧
        (s.ganged = false → t.out = s.out ∧ t.free = s.free ∧ l.gangLeft = []) ∧
        (∀ m ∈ l.gangLeft, ∃ g, Out.gangTell m c (.launch g) ∈ t.out ∧ g.seq = l.seq ∧ g.entry = k.entry ∧ g.consts = k.consts) ∧
        (k.nb = none → t.regs = s.regs) ∧
        (k.nb ≠ none → k.onTime = false →
          t.fld Reg.criLate 63 0 = (s.fld Reg.criLate 63 0 + 1) % 2 ^ 64 ∧ t.flag Reg.criEvent 3 = true ∧ SameRegs [Reg.criLate, Reg.criEvent] s t) ∧
        (s.startsLate c k = false → t.regs = s.regs)) ∧
    (∀ d, k.bad = some d →
      ∃ t l, exec (.dispatch ⟨c, none⟩) s = .next t ∧ t = { s with ctxs := t.ctxs } ∧ (t.ctx c).launches = (s.ctx c).launches ++ [l] ∧
        (t.ctx c).reserved = (s.ctx c).reserved + 1 ∧ l.seq = r * 2 ^ 32 + k.count ∧ l.decision = some d ∧ l.clusters = [] ∧
        (t.ring c r).recs = rest ∧ (t.ring c r).decided = (s.ring c r).decided)) ∧
  (∀ (s : State) (c q : Nat) (g : GangLaunch),
    (s.gangM = 0 → exec (.dispatch ⟨c, some (.launch g)⟩) s = .next s ∧ exec (.dispatch ⟨c, some (.stop q)⟩) s = .next s ∧
      exec (.dispatch ⟨c, some .reset⟩) s = .next s) ∧
    (s.gangM ≠ 0 → (s.ctx c).st = .active → (s.ctx c).rst = none → (s.ctx c).launch? g.seq = none →
      ∃ t l, exec (.dispatch ⟨c, some (.launch g)⟩) s = .next t ∧
        t = { s with ctxs := t.ctxs, lanes := t.lanes, tiles := t.tiles, clusters := t.clusters } ∧ (t.ctx c).launches = (s.ctx c).launches ++ [l] ∧
        l.seq = g.seq ∧ l.entry = g.entry ∧ l.consts = g.consts ∧ l.fromLead = true ∧ l.clusters = s.leaseClusters c ∧ l.decision = none ∧
        (∀ kk ∈ s.leaseClusters c, (t.lane (s.laneFor c kk)).waiting = (s.lane (s.laneFor c kk)).waiting ++ [g.seq])) ∧
    (∀ l, s.gangM ≠ 0 → s.ops = [] → (s.ctx c).launch? q = some l →
      ∃ t, exec (.dispatch ⟨c, some (.stop q)⟩) s = .next t ∧ (((t.ctx c).launch? q).map fun x => x.stage) = some .stopping ∧
        (∀ x ∈ t.lanes, x.st ≠ .idle → x.ctx = c → x.seq = q → x.stopped = true) ∧ t.cells = s.cells ∧ t.regs = s.regs) ∧
    (s.gangM ≠ 0 → (s.ctx c).st ≠ .free → (s.ctx c).rst = none →
      ∃ t, exec (.dispatch ⟨c, some .reset⟩) s = .next t ∧ ((t.ctx c).rst.map fun r => r.cause) = some 4 ∧
        (t.ctx c).gen = ((s.ctx c).gen + 1) % 256 ∧ (t.ctx c).launches = []))

/-- A launch is decided COMPLETED when every cluster has ended its share, on every member of a gang, by its first exception, or by an abort; a
member reports its share and its exceptions to the lead. An abort of a launch that is not yet fetched is kept as one of four marks; of one that
is decided it reports ALREADY_COMPLETE. The record of the oldest launch, once it is decided and every unit has stopped, is written to the next
entry of the completion ring, in scratch or in host memory, with its phase, sequence number, ring, status and words; a record that cannot be written goes to the lowest free undelivered slot and the context is FAULTED. A watch whose
window passes without an advance fires once; its window begins again while every lane waits on station time alone. -/
def Obligations.LaunchesEnd : Prop :=
  (∀ (s : State) (c seq : Nat) (l : Launch), (s.ctx c).launch? seq = some l → l.decision = none → l.fromLead = false →
    (l.dispatched = true → l.live = [] → l.gangLeft = [] → l.excs = [] →
      ∃ t, exec (.endReport c ⟨seq, none⟩) s = .next t ∧ t = { s with ctxs := t.ctxs } ∧
        (t.ctx c).launch? seq = some { l with decision := some ⟨0, s.bell.now / 4000, 0, 0, 0, 0⟩ } ∧
        (t.ring c (seq / 2 ^ 32)).decided = ((s.ring c (seq / 2 ^ 32)).decided + 1) % 2 ^ 32 ∧ ∀ d, d ≠ c → t.ctx d = s.ctx d) ∧
    (l.live ≠ [] ∨ l.gangLeft ≠ [] → exec (.endReport c ⟨seq, none⟩) s = .next s) ∧
    (∀ e, firstExc l.excs = some e →
      ∃ t, exec (.exceptionReport c ⟨seq, none⟩) s = .next t ∧ t = { s with ctxs := t.ctxs } ∧
        (t.ctx c).launch? seq = some { l with decision := some ⟨e.exc.code, e.exc.pc, e.exc.arg, e.exc.operand, e.exc.tile, e.cluster⟩ } ∧
        (t.ring c (seq / 2 ^ 32)).decided = ((s.ring c (seq / 2 ^ 32)).decided + 1) % 2 ^ 32 ∧ ∀ d, d ≠ c → t.ctx d = s.ctx d)) ∧
  (∀ (s : State) (c seq m : Nat) (l : Launch), (s.ctx c).launch? seq = some l →
    (∀ f, m ∈ l.gangLeft → ∃ t, exec (.endReport c ⟨seq, some (m, f)⟩) s = .next t ∧ t = { s with ctxs := t.ctxs } ∧
      (t.ctx c).launch? seq = some (l.takeFig m f) ∧ ∀ d, d ≠ c → t.ctx d = s.ctx d) ∧
    (∀ f, m ∉ l.gangLeft → exec (.endReport c ⟨seq, some (m, f)⟩) s = .next s) ∧
    (∀ e : GangExc, m ∈ l.gangLeft → l.decision = none → s.ops = [] →
      ∃ t x, exec (.exceptionReport c ⟨seq, some (m, some e)⟩) s = .next t ∧ (t.ctx c).launch? seq = some x ∧ x.stage = .stopping ∧ x.decision = none ∧
        x.excs = l.excs ++ [⟨e.time, 16 * m + e.cluster % 16, e.opNo, ⟨e.code, e.pc, e.arg, e.operand, e.tile⟩⟩] ∧
        (∀ y ∈ t.lanes, y.st ≠ .idle → y.ctx = c → y.seq = seq → y.stopped = true) ∧ t.cells = s.cells ∧ t.regs = s.regs)) ∧
  (∀ (s : State) (c seq : Nat) (l : Launch), (s.ctx c).launch? seq = some l → l.fromLead = true →
    (l.live = [] → s.launchStill c seq = true → s.lanesOf c seq = [] →
      ∃ t f, exec (.endReport c ⟨seq, none⟩) s = .next t ∧ (∀ x ∈ (t.ctx c).launches, x.seq ≠ seq) ∧ Out.gangEnd c seq f ∈ t.out ∧
        f.accSat = l.accSat ∧ f.convSat = l.convSat ∧ f.nan = l.nan ∧ f.calib = l.calib ∧ t.cells = s.cells) ∧
    (l.live ≠ [] → l.stage ≠ .stopping → exec (.endReport c ⟨seq, none⟩) s = .next s) ∧
    (∀ e, l.decision = none → firstExc l.excs = some e →
      ∃ t, exec (.exceptionReport c ⟨seq, none⟩) s = .next t ∧ t = { s with ctxs := t.ctxs, out := t.out } ∧
        (t.ctx c).launch? seq = some { l with decision := some ⟨e.exc.code, e.exc.pc, e.exc.arg, e.exc.operand, e.exc.tile, e.cluster⟩ } ∧
        t.out = s.out ++ [.gangReport c seq ⟨e.time, e.cluster % 16, e.opNo, e.exc.code, e.exc.pc, e.exc.arg, e.exc.operand, e.exc.tile⟩])) ∧
  (∀ (s : State) (c seq : Nat) (kernel : Bool), (if kernel = true then (s.ctx c).abortK else (s.ctx c).abortT) = some seq →
    let off := abortStatus c kernel
    let r := seq / 2 ^ 32
    let ahead := since32 (s.ring c r).tail (seq % 2 ^ 32)
    (s.ringOn c r = false ∨ ahead = 0 ∨ 2 ^ 31 < ahead →
      ∃ t, exec (.abortRequestArrive c kernel) s = .next t ∧ t = { s with ctxs := t.ctxs, regs := t.regs } ∧ t.fld off 2 0 = 4 ∧
        (if kernel = true then (t.ctx c).abortK else (t.ctx c).abortT) = none ∧ SameRegs [off] s t) ∧
    (s.ringOn c r = true → 0 < ahead → ahead ≤ 2 ^ 31 →
      (∀ l, (s.ctx c).launch? seq = some l → l.decision = none → s.ops = [] →
        ∃ t, exec (.abortRequestArrive c kernel) s = .next t ∧ t.fld off 2 0 = 2 ∧ t.fld off 5 4 = 2 ∧
          (((t.ctx c).launch? seq).map fun x => (x.decision.map fun d => (d.status, d.arg), x.stage)) =
            some (some (0x40, (if kernel = true then 2 else 1) + 32), .stopping) ∧
          (∀ x ∈ t.lanes, x.st ≠ .idle → x.ctx = c → x.seq = seq → x.stopped = true) ∧ t.cells = s.cells ∧ SameRegs [off] s t) ∧
      (∀ k, (s.ctx c).launch? seq = none → (s.ring c r).recs.find? (fun k => k.count == seq % 2 ^ 32) = some k → k.bad = none →
        ∃ t x, exec (.abortRequestArrive c kernel) s = .next t ∧ t.fld off 2 0 = 2 ∧ t.fld off 5 4 = k.abortStage ∧ x ∈ (t.ring c r).recs ∧
          x.count = k.count ∧ (x.bad.map fun d => d.status) = some 0x40 ∧ t.cells = s.cells ∧ t.lanes = s.lanes ∧ SameRegs [off] s t) ∧
      ((s.ctx c).launch? seq = none → (∀ k ∈ (s.ring c r).recs, k.count ≠ seq % 2 ^ 32) → ahead ≤ since32 (s.ring c r).tail (s.ring c r).head →
        (∀ m ∈ (s.ctx c).marks ++ (s.ctx c).kept, m.1 ≠ seq) →
        ((s.ctx c).marks.length < 4 →
          ∃ t d, exec (.abortRequestArrive c kernel) s = .next t ∧ t = { s with ctxs := t.ctxs, regs := t.regs } ∧ t.fld off 2 0 = 2 ∧
            t.fld off 5 4 = 0 ∧ (t.ctx c).marks = (s.ctx c).marks ++ [(seq, d)] ∧ d.status = 0x40 ∧ d.arg = (if kernel = true then 2 else 1) ∧
            (t.ring c r).decided = ((s.ring c r).decided + 1) % 2 ^ 32 ∧ SameRegs [off] s t) ∧
        (4 ≤ (s.ctx c).marks.length →
          ∃ t, exec (.abortRequestArrive c kernel) s = .next t ∧ t = { s with ctxs := t.ctxs, regs := t.regs } ∧ t.fld off 2 0 = 5 ∧
            (t.ctx c).marks = (s.ctx c).marks ∧ SameRegs [off] s t)) ∧
      ((∃ l, (s.ctx c).launch? seq = some l ∧ l.decision ≠ none) ∨
        ((s.ctx c).launch? seq = none ∧ ∃ k, (s.ring c r).recs.find? (fun k => k.count == seq % 2 ^ 32) = some k ∧ k.bad ≠ none) ∨
        ((s.ctx c).launch? seq = none ∧ (∀ k ∈ (s.ring c r).recs, k.count ≠ seq % 2 ^ 32) ∧
          (since32 (s.ring c r).tail (s.ring c r).head < ahead ∨ ∃ m ∈ (s.ctx c).marks ++ (s.ctx c).kept, m.1 = seq)) →
        ∃ t, exec (.abortRequestArrive c kernel) s = .next t ∧ t = { s with ctxs := t.ctxs, regs := t.regs } ∧ t.fld off 2 0 = 3 ∧
          SameRegs [off] s t))) ∧
  (∀ (s : State) (c a : Nat) (l : Launch) (rest : List Launch) (d : Decision), (s.ctx c).launches = l :: rest → l.decision = some d →
    s.launchStill c l.seq = true → l.gangLeft = [] → l.fromLead = false → (s.ctx c).cq = .idle ∨ (s.ctx c).cq = .walk → (s.ctx c).rst = none →
    s.inject = none → s.fld (Reg.ctxUndelStatus c) 3 0 = 0 → vaTag (s.cqVa c (s.ctx c).written) = 3 →
    s.leaseAddr c (s.cqVa c (s.ctx c).written % 2 ^ 60) = some a → scratchBase ≤ a → a < 2 ^ 43 → s.inLease c a = true →
    s.inLease c (a + 31) = true →
    ∃ t, exec (.completionRecordWrite c) s = .next t ∧ (t.ctx c).written = ((s.ctx c).written + 1) % 2 ^ 32 ∧
      (t.ctx c).reserved = (s.ctx c).reserved - 1 ∧
      ((t.ctx c).phase = if ((s.ctx c).written + 1) % 2 ^ s.fld (Reg.ctxCqCfg c) 12 8 = 0 then !(s.ctx c).phase else (s.ctx c).phase) ∧
      (∀ x ∈ (t.ctx c).launches, x.seq ≠ l.seq) ∧
      t.rdNat a 8 / 2 ^ 63 = (if (s.ctx c).phase = true then 1 else 0) ∧ t.rdNat a 8 % 2 ^ 32 = l.seq % 2 ^ 32 ∧
      t.rdNat a 8 / 2 ^ 40 % 4 = l.ring % 4 ∧ t.rdNat a 8 / 2 ^ 32 % 256 = d.status % 256 ∧ t.rdNat (a + 8) 8 = d.where_ % 2 ^ 64 ∧
      t.rdNat (a + 24) 8 = d.arg % 2 ^ 64 ∧ (∀ a', a' < a ∨ a + 32 ≤ a' → t.rd a' = s.rd a')) ∧
  (∀ (s : State) (c h : Nat) (l : Launch) (rest : List Launch) (d : Decision) (e : TlbEnt), (s.ctx c).launches = l :: rest → l.decision = some d →
    s.launchStill c l.seq = true → l.gangLeft = [] → l.fromLead = false → (s.ctx c).cq = .idle ∨ (s.ctx c).cq = .walk → (s.ctx c).rst = none →
    s.inject = none → s.fld (Reg.ctxUndelStatus c) 3 0 = 0 →
    vaTag (s.cqVa c (s.ctx c).written) = 1 → tagOk (s.cqVa c (s.ctx c).written) = true →
    s.tlb.find? (fun e => e.covers crierCache c (s.ctx c).gen (s.cqVa c (s.ctx c).written)) = some e → e.w = true → e.untrans = false →
    s.whereIs c (e.phys + (s.cqVa c (s.ctx c).written - e.page)) = .host h → s.hostHeld = false →
    ∃ t bs, exec (.completionRecordWrite c) s = .next t ∧ Out.mwr h bs ∈ t.out ∧ bs.length = 32 ∧
      (t.ctx c).written = ((s.ctx c).written + 1) % 2 ^ 32 ∧ (∀ x ∈ (t.ctx c).launches, x.seq ≠ l.seq) ∧ t.cells = s.cells ∧
      leNat (bs.take 8) / 2 ^ 63 = (if (s.ctx c).phase = true then 1 else 0) ∧ leNat (bs.take 8) % 2 ^ 32 = l.seq % 2 ^ 32 ∧
      leNat (bs.take 8) / 2 ^ 32 % 256 = d.status % 256 ∧ leNat ((bs.drop 8).take 8) = d.where_ % 2 ^ 64 ∧
      leNat (bs.drop 24) = d.arg % 2 ^ 64) ∧
  (∀ (s : State) (c i : Nat) (l : Launch) (rest : List Launch) (d : Decision), (s.ctx c).launches = l :: rest → l.decision = some d →
    (s.ctx c).cq = .failed → (s.ctx c).st ≠ .teardown → i < 4 → (∀ j, j ≤ i → (s.flag (Reg.ctxUndelStatus c) j = true ↔ j < i)) →
    ∃ t, exec (.completionWriteFault c) s = .next t ∧ t.flag (Reg.ctxUndelStatus c) i = true ∧ t.reg (Reg.ctxUndel c i 1) = word d.where_ ∧
      t.reg (Reg.ctxUndel c i 3) = word d.arg ∧ (t.ctx c).st = .faulted ∧ (t.ctx c).cq = .idle ∧ (∀ x ∈ (t.ctx c).launches, x.seq ≠ l.seq) ∧
      t.flag Reg.criEvent 1 = true ∧ t.cells = s.cells ∧ t.lanes = s.lanes ∧ ∀ e, e ≠ c → t.ctx e = s.ctx e) ∧
  (∀ (s : State) (c : Nat) (l : Launch), c < s.straps.contexts → (s.ctx c).launches = [l] → (∀ e, e ≠ c → (s.ctx e).launches = []) →
    l.dispatched = true → l.decision = none → l.fromLead = false → s.inject = none →
    let alone := s.lanesOf c l.seq ≠ [] ∧ ∀ x ∈ s.lanesOf c l.seq, s.timeOnly x = true
    (l.tally ≠ l.watchTally →
      ∃ t, exec .watchSample s = .next t ∧ t = { s with ctxs := t.ctxs } ∧
        (t.ctx c).launches = [{ l with watchAt := s.up, watchTally := l.tally, fired := false }]) ∧
    (l.tally = l.watchTally → alone → exec .watchSample s = .next (s.updLaunch c l.seq fun x => { x with watchAt := s.up })) ∧
    (l.tally = l.watchTally → ¬alone → l.fired = false → s.up < l.watchAt + 4000 * l.window → exec .watchSample s = .next s) ∧
    (l.tally = l.watchTally → ¬alone → l.fired = false → l.watchAt + 4000 * l.window ≤ s.up →
      ∃ t, exec .watchSample s = .next t ∧ (t.ctx c).launches = [{ l with fired := true }] ∧ t.flag Reg.criEvent 0 = true ∧
        t.flag Reg.ctxMgmt 1 = true ∧ t.fld (Reg.errCnt 0x10) 63 32 = min (s.fld (Reg.errCnt 0x10) 63 32 + 1) (2 ^ 32 - 1) ∧
        t.lanes = s.lanes ∧ t.cells = s.cells) ∧
    (l.tally = l.watchTally → ¬alone → l.fired = true → exec .watchSample s = .next s))

/-! ## Barrows -/

/-- A descriptor joins its barrow's queue with no segment issued; a page's frames take the cache's entry; the head of the queue starts when no
earlier running operation has segments left; a segment of one contiguous run in scratch gathers its bytes and writes them, and nothing else;
a segment whose writes are in force advances the prefix, or waits in the bitmap beyond it, and the last one ends the operation and raises its
semaphore; an operation whose page has come replays from the prefix; a freed transaction goes to the barrow whose turn at the pool
it is, or to one that waits at its cap. -/
def Obligations.BarrowsRun : Prop :=
  (∀ (s : State) (op b : Nat) (o : Op), s.op? op = some o → o.unit = .barrow b → o.st = .queued → s.qdesc? b op = none → b < s.barrows.length →
    (∀ k, k < o.total → ∀ r ∈ segRuns o k, vaTag r.1 = 3) → vaTag (dBase o.dd) ≠ 2 →
    ∃ t q, exec (.descriptorQueue op) s = .next t ∧ t = { s with barrows := t.barrows } ∧ (t.barrow b).q = (s.barrow b).q ++ [q] ∧
      (t.barrow b).st = (s.barrow b).st ∧ (∀ a, a ≠ b → t.barrow a = s.barrow a) ∧ q.op = op ∧ q.ctx = o.ctx ∧ q.total = o.total ∧ q.done = 0 ∧
      q.next = 0 ∧ q.bitmap = [] ∧ q.segs = [] ∧ q.frames = [] ∧ q.running = false ∧ q.failing = none) ∧
  (∀ (s : State) (b op page : Nat) (q : QDesc) (o : Op) (f : Frame) (e : TlbEnt), (s.barrow b).q = [q] → q.op = op → q.segs = [] →
    q.frames = [f] → f.valid = false → f.page = pageVa page → s.op? op = some o → iOp o.iw ≠ 2 → s.inject = none →
    (s.tlb.find? fun e => e.covers (cacheOf q.lane) q.ctx q.gen (pageVa page)) = some e →
    s.wantPages q o = [(pageVa page, f.dest)] → rightsOk e.r e.w e.atomic (needOf o f.dest) = true →
    ∃ t, exec (.frameTranslated b op page) s = .next t ∧
      t.qdesc? b op = some { q with frames := [{ page := e.page, size := e.size, phys := e.phys, r := e.r, w := e.w, atomic := e.atomic,
                                                 dest := f.dest, valid := true, stale := false, asked := false, ut := e.untrans }] } ∧
      t.cells = s.cells ∧ t.lanes = s.lanes ∧ t.ops = s.ops ∧ t.ctxs = s.ctxs ∧ ∀ a, a ≠ b → t.barrow a = s.barrow a) ∧
  (∀ (s : State) (b : Nat) (q : QDesc) (o : Op), ((s.barrow b).q.find? fun q => !q.running) = some q → s.op? q.op = some o → s.mayStart o = true →
    iOp o.iw ≠ 3 → s.inject = none → ((s.barrow b).q.filter fun r => r.running).length < 2 →
    (∀ r ∈ (s.barrow b).q, r.running = true → r.total ≤ r.next) →
    ∃ t, exec (.barrowOpStart b) s = .next t ∧ t = { s with ops := t.ops, barrows := t.barrows } ∧
      t.op? q.op = some { o with st := .running, startCyc := s.cyc } ∧ ((t.qdesc? b q.op).map fun x => x.running) = some true ∧
      (t.barrow b).st = (if (s.barrow b).st = .idle then .moving else (s.barrow b).st) ∧ ∀ a, a ≠ b → t.barrow a = s.barrow a) ∧
  (∀ (s : State) (b k n v w x y : Nat) (q : QDesc) (o : Op), (s.barrow b).q = [q] → q.running = true → q.failing = none → q.fault = none →
    q.recheck = false → q.segs = [] → q.nextSeg = some k → (s.barrow b).st ≠ .purging → s.op? q.op = some o → iOp o.iw = 0 → s.inject = none → 0 < n →
    srcRuns o k = [(v, n)] → dstRuns o k = [(w, n)] → (∀ j, ∀ r ∈ segRuns o j, vaTag r.1 = 3) →
    s.leaseAddr o.ctx (v % 2 ^ 60) = some x → s.leaseAddr o.ctx (w % 2 ^ 60) = some y → scratchBase ≤ x → scratchBase ≤ y → x + n ≤ 2 ^ 43 →
    y + n ≤ 2 ^ 43 → s.inLease q.ctx x = true → s.inLease q.ctx (x + n - 1) = true → s.inLease q.ctx y = true →
    s.inLease q.ctx (y + n - 1) = true →
    ∃ t g, exec (.segmentIssue b) s = .next t ∧ t.seg? b q.op k = some g ∧ g.formed = true ∧ (∀ p ∈ g.dst, p.sent = true) ∧ g.waits = 0 ∧
      ((t.qdesc? b q.op).map fun z => z.next) = some (k + 1) ∧ (t.barrow b).st = .moving ∧ (∀ i, i < n → t.rd (y + i) = s.rd (x + i)) ∧
      (∀ a, a < y ∨ y + n ≤ a → t.rd a = s.rd a) ∧ t.lanes = s.lanes ∧ t.ops = s.ops ∧ t.reqs = s.reqs) ∧
  (∀ (s : State) (b op k : Nat) (o : Op) (q : QDesc) (g : Seg), s.op? op = some o → o.id = op → (s.barrow b).q = [q] → q.op = op → q.segs = [g] → g.k = k →
    (g.formed = false ∨ g.dead = true ∨ (∃ p ∈ g.dst, p.sent = false) ∨ 0 < g.waits → exec (.segmentComplete b op k) s = .next s) ∧
    (g.formed = true → g.dead = false → (∀ p ∈ g.dst, p.sent = true) → g.waits = 0 → q.failing = none → iOp o.iw ≠ 3 →
      (q.done = k → q.bitmap = [] → k + 1 ≠ q.total →
        ∃ t, exec (.segmentComplete b op k) s = .next t ∧ t.qdesc? b op = some { q with segs := [], done := k + 1 } ∧ t.ops = s.ops ∧
          t.cells = s.cells ∧ t.regs = s.regs) ∧
      (q.done < k → q.bitmap = [] → q.done ≠ q.total →
        ∃ t, exec (.segmentComplete b op k) s = .next t ∧ t.qdesc? b op = some { q with segs := [], bitmap := [k] } ∧ t.ops = s.ops ∧
          t.cells = s.cells ∧ t.regs = s.regs) ∧
      (q.done = k → q.bitmap = [] → k + 1 = q.total →
        (bSig o.iw = false →
          ∃ t, exec (.segmentComplete b op k) s = .next t ∧ t.ops = (s.ops.filter fun p => p.id != op) ∧ (t.barrow b).q = [] ∧
            ((s.barrow b).st ≠ .purging → (t.barrow b).st = .idle) ∧ t.cells = s.cells ∧ t.regs = s.regs ∧ (t.ctx o.ctx).sems = (s.ctx o.ctx).sems) ∧
        (bSig o.iw = true → bSem o.iw < (s.ctx o.ctx).sems.length → nth (s.ctx o.ctx).sems (bSem o.iw) + 1 < 2 ^ 32 →
          ∃ t, exec (.segmentComplete b op k) s = .next t ∧ t.ops = (s.ops.filter fun p => p.id != op) ∧ (t.barrow b).q = [] ∧
            t.cells = s.cells ∧ t.regs = s.regs ∧
            nth (t.ctx o.ctx).sems (bSem o.iw) = nth (s.ctx o.ctx).sems (bSem o.iw) + 1 ∧
            ∀ j, j ≠ bSem o.iw → nth (t.ctx o.ctx).sems j = nth (s.ctx o.ctx).sems j)))) ∧
  (∀ (s : State) (b page : Nat) (q : QDesc) (o : Op), (s.barrow b).q = [q] → q.fault = some page → q.failing = none → s.op? q.op = some o →
    (∀ f ∈ q.frames, f.valid = true ∧ 0 < f.size) → (s.barrow b).st ≠ .purging →
    (∀ p ∈ s.wantPages { q with fault := none, next := q.done } o, ∃ f ∈ q.frames, f.covers p.1 p.2 = true) →
    ∃ t q', exec (.barrowReplay b) s = .next t ∧ t = { s with barrows := t.barrows, regs := t.regs } ∧ (t.barrow b).q = [q'] ∧
      { q' with frames := [] } = { q with fault := none, next := q.done, frames := [] } ∧ (∀ f ∈ q'.frames, f ∈ q.frames) ∧
      (t.barrow b).st = .moving ∧
      t.fld (Reg.barReplay b) 63 32 = min (s.fld (Reg.barReplay b) 63 32 + 1) (2 ^ 32 - 1) ∧ t.flag Reg.barEvent 1 = true ∧
      SameRegs [Reg.barReplay b, Reg.barEvent] s t ∧ ∀ a, a ≠ b → t.barrow a = s.barrow a) ∧
  (∀ s : State,
    let order := (List.range s.straps.barrows).map fun i => (s.grantTurn + i) % s.straps.barrows
    (∀ b, s.poolTurn = some b ∨ (s.poolTurn = none ∧ (order.find? fun b => (s.barrow b).st == .stalledBudget) = some b) →
      (∀ q ∈ (s.barrow b).q, q.segs = []) →
      ∃ t, exec .budgetGrant s = .next t ∧ t = { s with barrows := t.barrows } ∧ (t.barrow b).q = (s.barrow b).q ∧
        ((t.barrow b).st = .moving ∨ (t.barrow b).st = .idle) ∧ ∀ a, a ≠ b → t.barrow a = s.barrow a) ∧
    ((∀ b, b < s.straps.barrows → (s.barrow b).st ≠ .stalledBudget) → exec .budgetGrant s = .next s))

/-! ## Translation -/

/-- An ATS completion of the context's generation fills the cache with its page, a larger one by 1 GiB, and one that finds no page, or whose page
was withdrawn meanwhile, fills nothing; a walk sends its host reads and puts its leaf into the cache; a response of an older generation changes nothing. A Response Failure turns page requests off; a page request that has waited
its time is dead, though its index stays in use. A withdrawal drops every cache entry of its range at once, is acknowledged engine by engine,
and is complete with the last one; a read undrained after 50 microseconds is abandoned. -/
def Obligations.TranslationResults : Prop :=
  (∀ (s : State) (id status : Nat) (x : XReq) (r : AtsResult), s.relayed 3 id = none →
    (s.xreqs.find? fun x => x.id == id && !x.walk && !x.held) = some x →
    let f : State := { s with xreqs := s.xreqs.filter fun y => y.id != id }
    (x.gen ≠ s.genOf x.ctx → exec (.atsTcpl id status r) s = .next f) ∧
    (x.gen = s.genOf x.ctx → f.waiters (some x.cache) x.ctx x.gen x.page = [] →
      (x.stale = true → exec (.atsTcpl id status r) s = .next f) ∧
      (x.stale = false → x.after = [] →
        let size := max 4096 r.size
        let used := min size (2 ^ 30)
        let base := x.page / used * used
        let phys := r.addr / size * size + (base - x.page / size * size)
        (status = 0 → r.u = false → r.r = true ∨ r.w = true → phys + used ≤ 2 ^ 55 →
          ∃ t e, exec (.atsTcpl id status r) s = .next t ∧ t = { f with tlb := t.tlb } ∧ t.tlb.head? = some e ∧ e.cache = x.cache ∧
            e.ctx = x.ctx ∧ e.gen = x.gen ∧ e.page = base ∧ e.size = used ∧ e.phys = 2 ^ 55 + phys ∧ e.r = r.r ∧ e.w = r.w ∧
            e.atomic = r.w ∧ e.untrans = false ∧ ∀ y ∈ t.tlb, y = e ∨ y ∈ s.tlb) ∧
        (status = 0 → r.u = true →
          ∃ t e, exec (.atsTcpl id status r) s = .next t ∧ t = { f with tlb := t.tlb } ∧ t.tlb.head? = some e ∧ e.cache = x.cache ∧
            e.ctx = x.ctx ∧ e.gen = x.gen ∧ e.page = x.page ∧ e.size = 4096 ∧ e.phys = 2 ^ 55 + x.page % 2 ^ 55 ∧ e.r = true ∧ e.w = true ∧
            e.atomic = true ∧ e.untrans = true ∧ ∀ y ∈ t.tlb, y = e ∨ y ∈ s.tlb) ∧
        (status = 0 → r.u = false → (r.r = false ∧ r.w = false) ∨ 2 ^ 55 < phys + used → exec (.atsTcpl id status r) s = .next f) ∧
        (status ≠ 0 → ∃ t, exec (.atsTcpl id status r) s = .next t ∧ t = { f with regs := t.regs } ∧ t.flag Reg.xltEvent 5 = true ∧
          SameRegs [Reg.xltEvent] s t)))) ∧
  (∀ (s : State) (id : Nat) (host : List Word) (x : XReq) (k : Walk) (u : State), (s.xreqs.find? fun x => x.id == id && x.walk) = some x →
    (x.running = false → exec (.hwWalk id host) s = .next s) ∧
    (x.running = true →
      let f : State := { u with xreqs := u.xreqs.filter fun y => y.id != id }
      (x.gen ≠ s.genOf x.ctx → ∃ t, exec (.hwWalk id host) s = .next t ∧ t = { s with xreqs := t.xreqs } ∧ ∀ y ∈ t.xreqs, y.id ≠ id) ∧
      (x.gen = s.genOf x.ctx → f.waiters (some x.cache) x.ctx x.gen x.page = [] → k.reads = [] ∨ s.hostHeld = false →
        let sent := k.reads.mapIdx fun i h => Out.mrd (u.nextTag + i) h 8
        (∀ base size phys w a, s.walk x host = (.leaf base size phys w a, k, u) →
          ∃ t e, exec (.hwWalk id host) s = .next t ∧
            t = { u with xreqs := t.xreqs, tlb := t.tlb, out := u.out ++ sent, nextTag := u.nextTag + k.reads.length } ∧
            (∀ y ∈ t.xreqs, y.id ≠ id) ∧ t.tlb.head? = some e ∧ e.cache = x.cache ∧ e.ctx = x.ctx ∧
            e.gen = x.gen ∧ e.page = x.page / 2 ^ 60 * 2 ^ 60 + base ∧ e.size = size ∧ e.phys = phys ∧ e.r = true ∧ e.w = w ∧ e.atomic = a ∧
            ∀ y ∈ t.tlb, y = e ∨ y ∈ u.tlb) ∧
        (s.walk x host = (.absent, k, u) ∨ s.walk x host = (.range, k, u) →
          ∃ t, exec (.hwWalk id host) s = .next t ∧ t = { u with xreqs := t.xreqs, out := u.out ++ sent, nextTag := u.nextTag + k.reads.length } ∧
            ∀ y ∈ t.xreqs, y.id ≠ id) ∧
        (s.walk x host = (.error, k, u) →
          ∃ t, exec (.hwWalk id host) s = .next t ∧
            t = { u with xreqs := t.xreqs, out := u.out ++ sent, nextTag := u.nextTag + k.reads.length, regs := t.regs } ∧
            (∀ y ∈ t.xreqs, y.id ≠ id) ∧ t.flag Reg.xltEvent 4 = true ∧ SameRegs [Reg.xltEvent] u t)) ∧
      (x.gen = s.genOf x.ctx → (s.walk x host).2.1.reads ≠ [] → s.hostHeld = true → exec (.hwWalk id host) s = .next s))) ∧
  (∀ (s : State) (ix : Nat) (p : PageReq), s.relayed 4 ix = none → (s.pageReqs.find? fun p => p.index == ix && !p.waiting) = some p →
    p.gen = s.genOf p.ctx → (∀ y ∈ s.pageReqs, y ≠ p → y.waiting = false) → s.waiters none p.ctx p.gen p.page = [] →
    (exec (.prgRsp ix .success) s = .next { s with pageReqs := s.pageReqs.filter (· != p) }) ∧
    (p.dead = false →
      ∃ t, exec (.prgRsp ix .invalidRequest) s = .next t ∧ t = { s with pageReqs := s.pageReqs.filter (· != p), regs := t.regs } ∧
        t.fld (Reg.ctxXltPrq p.ctx) 31 0 = min (s.fld (Reg.ctxXltPrq p.ctx) 31 0 + 1) (2 ^ 32 - 1) ∧ SameRegs [Reg.ctxXltPrq p.ctx] s t) ∧
    (p.dead = true → exec (.prgRsp ix .invalidRequest) s = .next { s with pageReqs := s.pageReqs.filter (· != p) }) ∧
    (∃ t, exec (.prgRsp ix .responseFailure) s = .next t ∧ t = { s with pageReqs := s.pageReqs.filter (· != p), regs := t.regs } ∧
      t.flag Reg.xltCtrl 1 = false ∧ t.flag Reg.xltEvent 1 = true ∧ SameRegs [Reg.xltCtrl, Reg.xltEvent, Reg.ctxXltPrq p.ctx] s t)) ∧
  (∀ (s : State) (ix : Nat) (p : PageReq), (s.pageReqs.find? fun p => p.index == ix && !p.waiting && !p.dead) = some p →
    (s.up < p.sentUp + s.fld Reg.xltPri 47 32 * msT → exec (.priTimeout ix) s = .next s) ∧
    (p.sentUp + s.fld Reg.xltPri 47 32 * msT ≤ s.up → p.gen = s.genOf p.ctx → (∀ f, f = { s with pageReqs := s.pageReqs.map fun q => if q == p then { q with dead := true } else q } → f.waiters none p.ctx p.gen p.page = []) →
      ∃ t, exec (.priTimeout ix) s = .next t ∧
        t = { s with pageReqs := s.pageReqs.map fun q => if q == p then { q with dead := true } else q, regs := t.regs } ∧
        t.fld (Reg.ctxXltPrq p.ctx) 31 0 = min (s.fld (Reg.ctxXltPrq p.ctx) 31 0 + 1) (2 ^ 32 - 1) ∧ t.flag Reg.xltEvent 2 = true ∧
        SameRegs [Reg.ctxXltPrq p.ctx, Reg.xltEvent] s t)) ∧
  (∀ (s : State) (itag page pages : Nat) (pasid : Option Nat),
    (32 ≤ (s.withdraws.filter fun w => w.itag.isSome).length → exec (.atsInv itag pasid page pages) s = .next s) ∧
    ((s.withdraws.filter fun w => w.itag.isSome).length < 32 →
      let va := 2 ^ 60 + page * 4096
      let first := if pages = 0 then va / 2 ^ 60 * 2 ^ 60 else va
      let len := if pages = 0 then 2 ^ 60 else pages * 4096
      ∃ t w, exec (.atsInv itag pasid page pages) s = .next t ∧ t.withdraws = s.withdraws ++ [w] ∧ w.itag = some itag ∧ w.id = s.nextWd ∧
        w.engines = engineMask s.straps ∧ w.members = (if s.gangM = 0 then (List.range s.gangN).drop 1 else []) ∧
        (∀ c, c ∈ w.ctxs ↔ c < s.straps.contexts ∧ ∀ p, pasid = some p → s.fld (Reg.ctxXltCfg c) 19 0 = p) ∧
        (∀ g, g ∈ w.tags ↔ ∃ r ∈ s.reqs, r.tag = g ∧ r.write = false ∧ r.abandoned = false ∧ r.ctx ∈ w.ctxs ∧ r.va < first + len ∧
          first < r.va + r.len) ∧
        ((∀ b ∈ s.barrows, b.q = []) →
          (∀ e, e ∈ t.tlb ↔ e ∈ s.tlb ∧ ¬ (e.ctx ∈ w.ctxs ∧ e.page < first + len ∧ first < e.page + e.size)) ∧
          t.cells = s.cells ∧ t.regs = s.regs ∧ t.lanes = s.lanes ∧ t.reqs = s.reqs))) ∧
  (∀ (s : State) (id engine : Nat) (w : Withdraw), s.withdraws = [w] → w.id = id → engine < 32 → w.engines < 2 ^ 32 → w.members = [] →
    ((∃ r ∈ s.reqs, r.tag ∈ w.tags ∧ r.engine = engine ∧ r.gen = s.genOf r.ctx ∧ r.abandoned = false) → w.engines ≠ 0 →
      exec (.engineInvalAck id engine) s = .next s) ∧
    ((∀ r ∈ s.reqs, r.tag ∈ w.tags → r.engine = engine → r.gen ≠ s.genOf r.ctx ∨ r.abandoned = true) →
      (maskDiff w.engines (2 ^ engine) ≠ 0 →
        exec (.engineInvalAck id engine) s = .next { s with withdraws := [{ w with engines := maskDiff w.engines (2 ^ engine) }] }) ∧
      (maskDiff w.engines (2 ^ engine) = 0 →
        (∀ g, w.itag = some g →
          ∃ t, exec (.engineInvalAck id engine) s = .next t ∧ t = { s with withdraws := [], out := s.out ++ [.invCpl g], regs := t.regs } ∧
            SameRegs [Reg.xltInv] s t) ∧
        (w.itag = none → w.drain = true →
          ∃ t, exec (.engineInvalAck id engine) s = .next t ∧ t = { s with withdraws := [], regs := t.regs } ∧ t.fld Reg.xltDinvStatus 1 0 = 2 ∧
            t.flag Reg.xltEvent 6 = true ∧ t.flag Reg.ctxMgmt 2 = true ∧
            SameRegs [Reg.xltInv, Reg.xltDinvStatus, Reg.xltEvent, Reg.ctxMgmt] s t) ∧
        (w.itag = none → w.drain = false →
          ∃ t, exec (.engineInvalAck id engine) s = .next t ∧ t = { s with withdraws := [], regs := t.regs } ∧ SameRegs [Reg.xltInv] s t)))) ∧
  (∀ (s : State) (id tag : Nat) (w : Withdraw) (r : Req), (s.withdraws.find? fun w => w.id == id) = some w → s.req? tag = some r → tag ∈ w.tags →
    r.abandoned = false →
    (s.up < w.arrived + 50 * usT → exec (.invalAbandon id tag) s = .next s) ∧
    (w.arrived + 50 * usT ≤ s.up → r.dropped = true ∨ r.gen ≠ s.genOf r.ctx →
      ∃ t, exec (.invalAbandon id tag) s = .next t ∧ t = { s with reqs := t.reqs, regs := t.regs } ∧
        t.req? tag = some { r with dropped := true, abandoned := true } ∧ t.flag Reg.xltEvent 3 = true ∧ SameRegs [Reg.xltEvent] s t) ∧
    (w.arrived + 50 * usT ≤ s.up → r.dropped = false → r.gen = s.genOf r.ctx → ∀ c g n, r.dest = .record c g n → c < s.ctxs.length →
      g < (s.ctx c).rings.length → (s.ring c g).failed = none →
      ∃ t, exec (.invalAbandon id tag) s = .next t ∧ t.req? tag = some { r with dropped := true, abandoned := true } ∧
        t.withdraws = s.withdraws ∧
        (t.ring c g).failed = some (n, r.va) ∧ t.flag Reg.xltEvent 3 = true ∧ t.fld (Reg.ctxXltFault c) 63 0 = r.va % 2 ^ 64 ∧
        t.fld (Reg.ctxXltFcause c) 7 0 = 0xE ∧ t.cells = s.cells ∧ t.lanes = s.lanes ∧
        SameRegs [Reg.xltEvent, Reg.ctxXltFault c, Reg.ctxXltFcause c] s t)) ∧
  (∀ (s : State) (id tag : Nat) (w : Withdraw) (r : Req), (s.withdraws.find? fun w => w.id == id) = some w → s.req? tag = some r →
    tag ∉ w.tags ∨ r.abandoned = true → exec (.invalAbandon id tag) s = .next s)

/-! ## The fabric -/

/-- The link ports: a port that trains comes up; a board port sends its replay buffer again, and the eighth replay without an acknowledgement leaves
it FAILED; a stall is an event; a head that arrives is counted and, when it is not too old, delivered here, or waits at the output its input
port's table gives one hop further, or is dropped and counted; its messages are admitted, answered REFUSE, or dropped; one whose tag does not
hold is dropped as an authentication failure; a request unanswered for 2 ms ends its operation with DATA-ERROR; a key phase past its time is
zeroed; a context's tokens grow to its burst once a microsecond. -/
def Obligations.LinkPorts : Prop :=
  (∀ (s : State) (p : Nat), s.straps.build ≠ .c1 → p < s.straps.ports →
    (s.fld (Reg.fabPortCfg p) 2 1 = 1 →
      ∃ t, exec (.portUp p) s = .next t ∧ t = { s with regs := t.regs, ports := t.ports } ∧ t.fld (Reg.fabPortCfg p) 2 1 = 2 ∧
        t.flag Reg.fabEvent 0 = true ∧ nth t.ports p = Port.reset ∧ (∀ q, q ≠ p → nth t.ports q = nth s.ports q) ∧
        SameRegs [Reg.fabPortCfg p, Reg.fabEvent, Reg.fabDrops] s t ∧ ((nth s.ports p).queue = [] → t.reg Reg.fabDrops = s.reg Reg.fabDrops)) ∧
    (s.fld (Reg.fabPortCfg p) 2 1 ≠ 1 → exec (.portUp p) s = .next s) ∧
    (p < 2 ∨ s.fld (Reg.fabPortCfg p) 2 1 ≠ 2 → exec (.linkReplay p) s = .next s) ∧
    (2 ≤ p → s.fld (Reg.fabPortCfg p) 2 1 = 2 →
      ∃ t, exec (.linkReplay p) s = .next t ∧
        t.fld (Reg.fabPortCfg p) 63 32 = min (s.fld (Reg.fabPortCfg p) 63 32 + 1) (2 ^ 32 - 1) ∧ t.lanes = s.lanes ∧ t.cells = s.cells ∧
        (∀ q, q ≠ p → nth t.ports q = nth s.ports q) ∧
        ((nth s.ports p).replays < 7 → t.fld (Reg.fabPortCfg p) 2 1 = 2 ∧ (nth t.ports p).replays = (nth s.ports p).replays + 1 ∧
          (nth t.ports p).buf = (nth s.ports p).buf ∧ (nth t.ports p).queue = (nth s.ports p).queue ∧
          (∀ e ∈ (nth s.ports p).buf, ∃ link, Out.flit p link e.2 ∈ t.out) ∧
          t.fld (Reg.errCnt 0x0A) 31 0 = min (s.fld (Reg.errCnt 0x0A) 31 0 + 1) (2 ^ 32 - 1)) ∧
        (7 ≤ (nth s.ports p).replays → t.fld (Reg.fabPortCfg p) 2 1 = 3 ∧ t.flag Reg.fabEvent 0 = true ∧ nth t.ports p = Port.reset ∧
          t.fld (Reg.errCnt 0x0A) 63 32 = min (s.fld (Reg.errCnt 0x0A) 63 32 + 1) (2 ^ 32 - 1))) ∧
    (s.portUp p = true →
      ∃ t, exec (.creditStall p) s = .next t ∧ t = { s with regs := t.regs } ∧ t.flag Reg.fabEvent 10 = true ∧ SameRegs [Reg.fabEvent] s t) ∧
    (s.portUp p = false → exec (.creditStall p) s = .next s)) ∧
  (∀ (s : State) (p : Nat) (h : Head), s.portUp p = false → exec (.headArrive p h) s = .next s) ∧
  (∀ (s : State) (p : Nat) (h : Head), s.straps.build ≠ .c1 → s.portUp p = true →
    let own := isTime h = true ∨ h.dst = s.fld Reg.fabId 11 0
    ∃ t, exec (.headArrive p h) s = .next t ∧
      t.fld (Reg.fabPortFlits p) 63 32 = (s.fld (Reg.fabPortFlits p) 63 32 + flitsOf h) % 2 ^ 32 ∧
      (s.stale h = true → t = { s with regs := t.regs, ports := t.ports } ∧ (∀ q, (nth t.ports q).queue = (nth s.ports q).queue) ∧
        t.fld Reg.fabDrops 47 32 = min (s.fld Reg.fabDrops 47 32 + 1) (2 ^ 16 - 1) ∧ t.flag Reg.fabEvent 2 = true ∧
        SameRegs [Reg.fabPortFlits p, Reg.fabDrops, Reg.fabEvent] s t) ∧
      (s.stale h = false → ¬own → 31 ≤ h.hop → t = { s with regs := t.regs, ports := t.ports } ∧
        t.fld Reg.fabDrops 31 16 = min (s.fld Reg.fabDrops 31 16 + 1) (2 ^ 16 - 1) ∧ t.flag Reg.fabEvent 3 = true) ∧
      (s.stale h = false → ¬own → h.hop < 31 → s.route p h.dst = none → t = { s with regs := t.regs, ports := t.ports } ∧
        t.fld Reg.fabDrops 63 48 = min (s.fld Reg.fabDrops 63 48 + 1) (2 ^ 16 - 1) ∧ t.flag Reg.fabEvent 1 = true) ∧
      (∀ o, s.stale h = false → ¬own → h.hop < 31 → s.route p h.dst = some o → t = { s with regs := t.regs, ports := t.ports } ∧
        (s.portUp o = true → (nth t.ports o).queue = (nth s.ports o).queue ++ [⟨none, false, { h with hop := h.hop + 1 }⟩] ∧
          (∀ q, q ≠ o → (nth t.ports q).queue = (nth s.ports q).queue) ∧ SameRegs [Reg.fabPortFlits p] s t) ∧
        (s.portUp o = false → t.fld Reg.fabDrops 63 48 = min (s.fld Reg.fabDrops 63 48 + 1) (2 ^ 16 - 1) ∧ t.flag Reg.fabEvent 1 = true)) ∧
      (s.stale h = false → own → h.enc = false → s.inject = none → hasReserved h.msgs = true → t = { s with regs := t.regs, ports := t.ports } ∧
        t.fld Reg.fabDrops 31 16 = min (s.fld Reg.fabDrops 31 16 + 1) (2 ^ 16 - 1) ∧ t.flag Reg.fabEvent 3 = true ∧
        SameRegs [Reg.fabPortFlits p, Reg.fabDrops, Reg.fabEvent] s t) ∧
      (∀ m, s.stale h = false → own → s.inject = none → hasReserved [m] = false →
        (h.enc = false ∧ h.msgs = [m]) ∨ (h.enc = true ∧ ∃ j, s.slotOfJob h.job = some j ∧ s.tagHolds j h = true ∧ s.openHead j h = [m]) →
        let d : Delivered := { port := p, job := h.job, srcFab := h.src, enc := h.enc, phase := h.phase, at_ := s.bell.now, msg := m }
        (s.answerOf h m = none ∨ vcOf m.body = 3 ∨ isTime { h with msgs := [m] } = true →
          t = { s with regs := t.regs, ports := t.ports, inbox := s.inbox ++ [d] } ∧ SameRegs [Reg.fabPortFlits p] s t) ∧
        (∀ a, s.answerOf h m = some a → isRequest m.body = true → t.inbox = s.inbox ∧ t.cells = s.cells ∧ t.lanes = s.lanes ∧
          (a = 1 → t.fld Reg.fabRefused 63 32 = min (s.fld Reg.fabRefused 63 32 + 1) (2 ^ 32 - 1)) ∧
          (a ≠ 1 → t.fld Reg.fabRefused 31 0 = min (s.fld Reg.fabRefused 31 0 + 1) (2 ^ 32 - 1)) ∧ t.flag Reg.fabEvent 5 = true ∧
          AnsweredTo d (.refuse a) s t) ∧
        (s.answerOf h m ≠ none → isResponse m.body = true → t = { s with regs := t.regs, ports := t.ports } ∧ SameRegs [Reg.fabPortFlits p] s t)) ∧
      (∀ j, s.stale h = false → own → s.inject = none → h.enc = true → s.slotOfJob h.job = some j → s.tagHolds j h = false →
        t.fld Reg.fabDrops 15 0 = min (s.fld Reg.fabDrops 15 0 + 1) (2 ^ 16 - 1) ∧ t.flag Reg.fabEvent 4 = true ∧ t.inbox = s.inbox ∧
        t.fld (Reg.errCnt 0x0B) 63 32 = min (s.fld (Reg.errCnt 0x0B) 63 32 + 1) (2 ^ 32 - 1) ∧ t.cells = s.cells ∧ t.lanes = s.lanes)) ∧
  (∀ (s : State) (tag port job : Nat) (r : Req), s.req? tag = some r → r.path = .link port job →
    (s.up < r.sentUp + 2 * msT → exec (.linkRequestTimeout tag) s = .next s) ∧
    (r.sentUp + 2 * msT ≤ s.up → r.dropped = true → s.IdleBarrows →
      exec (.linkRequestTimeout tag) s = .next { s with reqs := s.reqs.filter fun y => y.tag != tag }) ∧
    (∀ b k i q g o x, r.sentUp + 2 * msT ≤ s.up → r.dropped = false → r.gen = s.genOf r.ctx → (r.dest = .seg b q.op k i ∨ r.dest = .ackSeg b q.op k) →
      s.OneSegment b q g o x → g.k = k → s.LastOf b q.op k tag →
      ∃ t, exec (.linkRequestTimeout tag) s = .next t ∧ t.EndedWith b o xDATAERROR r.va ∧ (∀ y ∈ t.reqs, y.tag ≠ tag) ∧
        t.fld (Reg.errCnt 0x0C) 63 32 = min (s.fld (Reg.errCnt 0x0C) 63 32 + 1) (2 ^ 32 - 1) ∧ t.cells = s.cells)) ∧
  (∀ (s : State) (k T : Nat), (s.keyPhase k (1 - s.keyInForce k)).until_ = some T →
    (s.bell.now < T → exec (.keyPhaseExpire k) s = .next s) ∧
    (T ≤ s.bell.now → ∃ t, exec (.keyPhaseExpire k) s = .next t ∧ t = { s with keys := t.keys } ∧
      t.keyPhase k (1 - s.keyInForce k) = KeyPhase.empty ∧ t.keyPhase k (s.keyInForce k) = s.keyPhase k (s.keyInForce k))) ∧
  (∀ (s : State) (c : Nat), c < s.ctxs.length →
    (s.up < (s.ctx c).tokenAt + usT → exec (.linkRateToken c) s = .next s) ∧
    ((s.ctx c).tokenAt + usT ≤ s.up → s.IdleBarrows →
      ∃ t, exec (.linkRateToken c) s = .next t ∧ t = { s with ctxs := t.ctxs } ∧
        t.ctx c = { s.ctx c with tokens := min (max 1 (s.fld (Reg.ctxQos c) 15 8)) ((s.ctx c).tokens + s.fld (Reg.ctxQos c) 7 0), tokenAt := s.up } ∧
        ∀ d, d ≠ c → t.ctx d = s.ctx d))

/-- What a peer asks for and what it answers: its writes, reductions and reads are performed and answered with the identity of the request; an
acknowledgement ends a wait of its segment, data fill the piece that asked, and a refusal or an error ends the operation; fragments of a
management message are put together, a whole one goes to the Inspector, the gang's relay or the lead's DOE mailbox, and one incomplete for 2 ms
is discarded. -/
def Obligations.PeerMessages : Prop :=
  (∀ (s : State) (k : Nat) (d : Delivered), s.inbox[k]? = some d → s.inject = none →
    (∀ a n bs, d.msg.body = .write a n bs → bs.length = n → 0 < n →
      (scratchBase ≤ a →
        ∃ t, exec (.fabWrite k) s = .next t ∧ t.inbox = s.inbox.eraseIdx k ∧ (∀ i, i < n → t.rd (a + i) = nth bs i) ∧
          (∀ x, x < a ∨ a + n ≤ x → t.rd x = s.rd x) ∧ t.lanes = s.lanes ∧ t.ctxs = s.ctxs ∧ t.reqs = s.reqs ∧ AnsweredTo d (.ack 0) s t) ∧
      (a < scratchBase → s.memRange a n = false → s.memRoom a n true = true → 0 < s.partLines a n →
        ∃ t r, exec (.fabWrite k) s = .next t ∧ t.inbox = s.inbox.eraseIdx k ∧ (∀ i, i < n → t.rd (a + i) = nth bs i) ∧
          (∀ x, x < a ∨ a + n ≤ x → t.rd x = s.rd x) ∧ t.lanes = s.lanes ∧ t.reqs = s.reqs ++ [r] ∧ r.tag = s.nextTag ∧ r.write = true ∧
          r.left = s.partLines a n ∧ r.dest = .peer d.port d.job d.srcFab d.msg.jgen d.msg.gctx d.msg.tag ∧ t.ports = s.ports ∧ t.regs = s.regs) ∧
      (a < scratchBase → s.memRange a n = false → s.memRoom a n true = true → s.partLines a n = 0 →
        ∃ t, exec (.fabWrite k) s = .next t ∧ t.inbox = s.inbox.eraseIdx k ∧ (∀ i, i < n → t.rd (a + i) = nth bs i) ∧
          (∀ x, x < a ∨ a + n ≤ x → t.rd x = s.rd x) ∧ t.lanes = s.lanes ∧ t.ctxs = s.ctxs ∧ t.reqs = s.reqs ∧ AnsweredTo d (.ack 0) s t) ∧
      (a < scratchBase → s.memRange a n = true →
        ∃ t, exec (.fabWrite k) s = .next t ∧ t.inbox = s.inbox.eraseIdx k ∧ t.cells = s.cells ∧ t.flag Reg.memEvent 2 = true ∧
          AnsweredTo d .error s t) ∧
      (a < scratchBase → s.memRange a n = false → s.memRoom a n true = false → exec (.fabWrite k) s = .next s)) ∧
    (∀ a bs, d.msg.body = .reduce a 4 0 16 bs → bs.length = 4 →
      (scratchBase ≤ a →
        ∃ t, exec (.fabReduce k) s = .next t ∧ t.inbox = s.inbox.eraseIdx k ∧ t.rdNat a 4 = (s.rdNat a 4 + leNat bs) % 2 ^ 32 ∧
          (∀ x, x < a ∨ a + 4 ≤ x → t.rd x = s.rd x) ∧ t.lanes = s.lanes ∧ t.reqs = s.reqs ∧ AnsweredTo d (.ack 0) s t) ∧
      (a < scratchBase → ∃ t, exec (.fabReduce k) s = .next t ∧ t.inbox = s.inbox.eraseIdx k ∧ t.cells = s.cells ∧ AnsweredTo d .error s t)) ∧
    (∀ a n, d.msg.body = .read a n →
      (scratchBase ≤ a →
        ∃ t, exec (.fabRead k) s = .next t ∧ t.inbox = s.inbox.eraseIdx k ∧ t.cells = s.cells ∧ t.reqs = s.reqs ∧ t.lanes = s.lanes ∧
          AnsweredTo d (.data (s.rdBytes a n)) s t) ∧
      (a < scratchBase → s.memRange a n = false → s.memRoom a n false = true →
        ∃ t r, exec (.fabRead k) s = .next t ∧ t.inbox = s.inbox.eraseIdx k ∧ t.cells = s.cells ∧ t.reqs = s.reqs ++ [r] ∧
          r.tag = s.nextTag ∧ r.pa = a ∧ r.len = n ∧ r.bytes = s.rdBytes a n ∧ r.write = false ∧
          r.dest = .peer d.port d.job d.srcFab d.msg.jgen d.msg.gctx d.msg.tag ∧ t.out = s.out ∧ t.regs = s.regs) ∧
      (a < scratchBase → s.memRange a n = true →
        ∃ t, exec (.fabRead k) s = .next t ∧ t.inbox = s.inbox.eraseIdx k ∧ t.cells = s.cells ∧ t.reqs = s.reqs ∧ t.flag Reg.memEvent 2 = true ∧
          AnsweredTo d .error s t) ∧
      (a < scratchBase → s.memRange a n = false → s.memRoom a n false = false → exec (.fabRead k) s = .next s))) ∧
  (∀ (s : State) (k : Nat) (d : Delivered), s.inbox[k]? = some d → s.answered d = none →
    (∀ n, d.msg.body = .ack n → exec (.fabAck k) s = .next { s with inbox := s.inbox.eraseIdx k }) ∧
    (∀ bs, d.msg.body = .data bs → exec (.fabData k) s = .next { s with inbox := s.inbox.eraseIdx k }) ∧
    (∀ a, d.msg.body = .refuse a → exec (.fabRefuse k) s = .next { s with inbox := s.inbox.eraseIdx k }) ∧
    (d.msg.body = .error → exec (.fabError k) s = .next { s with inbox := s.inbox.eraseIdx k })) ∧
  (∀ (s : State) (k b i : Nat) (d : Delivered) (r : Req) (q : QDesc) (g : Seg) (o : Op) (x : Launch), s.inbox[k]? = some d → s.answered d = some r →
    r.dropped = false → r.gen = s.genOf r.ctx → s.OneSegment b q g o x → g.dead = false → s.inject = none →
    (∀ n, d.msg.body = .ack n → r.write = true → r.dest = .ackSeg b q.op g.k → g.formed = true → (∀ p ∈ g.src, p.sent = true) →
      (∀ p ∈ g.dst, p.sent = true) →
      ∃ t, exec (.fabAck k) s = .next t ∧ t.seg? b q.op g.k = some { g with waits := g.waits - 1, clamps := g.clamps + n } ∧
        t.reqs = (s.reqs.filter fun y => y.tag != r.tag) ∧ t.inbox = s.inbox.eraseIdx k ∧ t.cells = s.cells ∧ t.lanes = s.lanes ∧ t.ops = s.ops) ∧
    (∀ bs j, d.msg.body = .data bs → r.write = false → r.dest = .seg b q.op g.k i → bs.length = r.len → g.formed = false →
      (∀ p ∈ g.src, p.sent = true) → (∀ p ∈ g.dst, p.bytes = none ∧ p.pa.isSome = true) → j ≠ i → ((g.src[j]?).map fun p => p.bytes) = some none →
      ∃ t, exec (.fabData k) s = .next t ∧
        t.seg? b q.op g.k = some { g with src := g.src.modify i fun p => { p with bytes := some bs } } ∧
        t.reqs = (s.reqs.filter fun y => y.tag != r.tag) ∧ t.inbox = s.inbox.eraseIdx k ∧ t.cells = s.cells ∧ t.lanes = s.lanes ∧ t.ops = s.ops) ∧
    ((r.dest = .seg b q.op g.k i ∨ r.dest = .ackSeg b q.op g.k) → s.LastOf b q.op g.k r.tag →
      (∀ a, d.msg.body = .refuse a →
        ∃ t, exec (.fabRefuse k) s = .next t ∧ t.EndedWith b o xREMOTEREFUSED (r.peer % 2 ^ 12 + a * 2 ^ 12) ∧
          t.reqs = (s.reqs.filter fun y => y.tag != r.tag) ∧ t.inbox = s.inbox.eraseIdx k ∧ t.cells = s.cells ∧ t.regs = s.regs) ∧
      (d.msg.body = .error →
        ∃ t, exec (.fabError k) s = .next t ∧ t.EndedWith b o xDATAERROR r.va ∧ t.reqs = (s.reqs.filter fun y => y.tag != r.tag) ∧
          t.inbox = s.inbox.eraseIdx k ∧ t.cells = s.cells ∧
          t.fld (Reg.errCnt 0x0D) 63 32 = min (s.fld (Reg.errCnt 0x0D) 63 32 + 1) (2 ^ 32 - 1)))) ∧
  (∀ (s : State) (k : Nat) (d : Delivered) (f : MgmtFrag), s.inbox[k]? = some d → d.msg.body = .mgmt f →
    (f.count = 0 ∨ 64 < f.count ∨ f.count ≤ f.index → exec (.mgmt k) s = .next { s with inbox := s.inbox.eraseIdx k }) ∧
    ((∀ p ∈ s.insp.partials, p.src = d.srcFab → p.ident ≠ f.ident) →
      (f.count = 1 → f.index = 0 → f.kind = 1 ∨ f.kind = 3 →
        exec (.mgmt k) s = .next { s with inbox := s.inbox.eraseIdx k, insp := { s.insp with messages := s.insp.messages ++ [{ src := d.srcFab, ident := f.ident, kind := f.kind, count := 1, first := s.up, frags := [(0, f.bytes)] }] } }) ∧
      (f.count = 1 → f.index = 0 → f.kind = 5 ∨ f.kind = 6 →
        exec (.mgmt k) s = .next { s with inbox := s.inbox.eraseIdx k, relayHeld := s.relayHeld ++ [(d.srcFab, f.bytes)] }) ∧
      (f.count = 1 → f.index = 0 → f.kind = 4 → s.ganged = false ∨ s.gangM ≠ 0 → exec (.mgmt k) s = .next { s with inbox := s.inbox.eraseIdx k }) ∧
      (∀ m, f.count = 1 → f.index = 0 → f.kind = 4 → s.ganged = true → s.gangM = 0 → s.memberOf d.srcFab = some m →
        exec (.mgmt k) s = .next { s with inbox := s.inbox.eraseIdx k, out := s.out ++ [.doe m f.bytes] }) ∧
      (f.count = 1 → f.index = 0 → f.kind = 0 ∨ f.kind = 2 ∨ 6 < f.kind → exec (.mgmt k) s = .next { s with inbox := s.inbox.eraseIdx k }) ∧
      (2 ≤ f.count → f.count ≤ 64 → f.index < f.count → s.insp.partials.length < 8 →
        exec (.mgmt k) s = .next { s with inbox := s.inbox.eraseIdx k, insp := { s.insp with partials := s.insp.partials ++ [{ src := d.srcFab, ident := f.ident, kind := f.kind, count := f.count, first := s.up, frags := [(f.index, f.bytes)] }] } }))) ∧
  (∀ (s : State) (src ident : Nat),
    ∃ t, exec (.mgmtReassemblyTimeout src ident) s = .next t ∧ t = { s with insp := { s.insp with partials := t.insp.partials } } ∧
      ∀ p, p ∈ t.insp.partials ↔ p ∈ s.insp.partials ∧ ¬ (p.src = src ∧ p.ident = ident ∧ p.first + 2 * msT ≤ s.up))

/-- The barrier tree: a child's ARRIVE of the current epoch and the job's generation opens it or joins it, and any other is dropped; with the last
of a subtree ARRIVE goes to the parent, and at the root the epoch completes with its release tick; CONFIRM leaves the
release tick, the job's least slack and its pace, and goes on to the children; MISSING is kept, STRAGGLER is stored and passed down; every 100
microseconds the lowest number missing goes to the parent, or at the root to the children; a block that hears none for 300 microseconds stores
its parent's. -/
def Obligations.BarrierTree : Prop :=
  (∀ (s : State) (k : Nat) (d : Delivered) (a : ArriveInfo), s.inbox[k]? = some d → d.msg.body = .arrive a →
    (s.barMsgOk a.group d.job d.msg = false ∨ a.epoch % 2 ^ 15 ≠ s.barEpoch a.group ∨ d.msg.src ∉ s.barKids a.group →
      exec (.arrive k) s = .next { s with inbox := s.inbox.eraseIdx k }) ∧
    (s.barMsgOk a.group d.job d.msg = true → a.epoch % 2 ^ 15 = s.barEpoch a.group → d.msg.src ∈ s.barKids a.group →
      ∀ x, s.barGroup? a.group = some x →
        (x.own = none → (∀ p ∈ x.kids, p.1 ≠ d.msg.src) →
          ∃ t, exec (.arrive k) s = .next t ∧ t = { s with inbox := s.inbox.eraseIdx k, barGroups := t.barGroups } ∧
            t.barGroup? a.group = some { x with kids := x.kids ++ [(d.msg.src, a)] }) ∧
        (∀ own, x.own = some own → x.sent = false → x.kids = [] → s.barKids a.group = [d.msg.src] → s.barRoot a.group = false →
          ∃ t, exec (.arrive k) s = .next t ∧ t.barGroup? a.group = some { x with kids := [(d.msg.src, a)], sent := true } ∧
            SendsTo (s.barSlot a.group) (s.barParent a.group) (.arrive (joinArrive own a)) s t ∧ t.cells = s.cells ∧ t.lanes = s.lanes ∧ t.ops = s.ops) ∧
        (∀ own, x.own = some own → x.sent = false → x.kids = [] → s.barKids a.group = [d.msg.src] → s.barRoot a.group = true →
          let cfg := s.reg (Reg.fabBarCfg a.group)
          let j := joinArrive own a
          let late := s.bell.now + 64 * bits cfg 39 34
          let rel := if s.barMode a.group = 1 then 0 else if j.noneFlag = true then late else max (j.greatestTick + bits cfg 63 40) late
          ∃ t y, exec (.arrive k) s = .next t ∧ t.barGroup? a.group = some y ∧ y.sent = true ∧ y.release = some rel ∧
            SendsTo (s.barSlot a.group) d.msg.src (.confirm ⟨a.group, j.epoch, rel, j.slack, j.slackBlock, j.pace, j.paceBlock, j.overruns⟩) s t ∧
            (s.barMode a.group = 2 → j.leastTick < j.greatestTick → s.straps.build ≠ .c1 → t.flag Reg.fabEvent 8 = true) ∧
            t.cells = s.cells ∧ t.lanes = s.lanes)) ∧
    (s.barMsgOk a.group d.job d.msg = true → a.epoch % 2 ^ 15 = s.barEpoch a.group → d.msg.src ∈ s.barKids a.group → s.barGroup? a.group = none →
      ∃ t x, exec (.arrive k) s = .next t ∧ t = { s with inbox := s.inbox.eraseIdx k, barGroups := s.barGroups ++ [x] } ∧ x.group = a.group ∧
        x.own = none ∧ x.kids = [(d.msg.src, a)] ∧ x.openedUp = s.up)) ∧
  (∀ (s : State) (k : Nat) (d : Delivered) (c : ConfirmInfo) (x : BarGroup), s.inbox[k]? = some d → d.msg.body = .confirm c → c.group < 256 →
    s.barMsgOk c.group d.job d.msg = true → c.epoch % 2 ^ 15 = s.barEpoch c.group → d.msg.src = s.barParent c.group → s.barRoot c.group = false →
    s.barGroup? c.group = some x →
    ∃ t, exec (.confirm k) s = .next t ∧ t.barGroup? c.group = some { x with release := some c.release } ∧
      t.fld (Reg.fabBarStatus c.group) 31 0 = slackBits c.slack ∧ t.fld (Reg.fabBarStatus c.group) 34 32 = c.pace % 8 ∧
      (∀ b ∈ s.barKids c.group, SendsTo (s.barSlot c.group) b (.confirm c) s t) ∧
      (c.slack < 0 → s.straps.build ≠ .c1 → t.flag Reg.fabEvent 7 = true) ∧ t.cells = s.cells ∧ t.lanes = s.lanes ∧ t.inbox = s.inbox.eraseIdx k) ∧
  (∀ (s : State) (k g e n : Nat) (d : Delivered), s.inbox[k]? = some d → s.barMsgOk g d.job d.msg = true → e % 2 ^ 15 = s.barEpoch g → g < 256 →
    (∀ x, d.msg.body = .missing g e n → d.msg.src ∈ s.barKids g → s.barGroup? g = some x →
      ∃ t, exec (.missing k) s = .next t ∧ t = { s with inbox := s.inbox.eraseIdx k, barGroups := t.barGroups } ∧
        t.barGroup? g = some { x with kidMissing := (d.msg.src, s.up, n) :: x.kidMissing.filter fun p => p.1 != d.msg.src }) ∧
    (d.msg.body = .straggler g e n → d.msg.src = s.barParent g →
      ∃ t, exec (.straggler k) s = .next t ∧ t.fld (Reg.fabBarStatus g) 47 36 = n % 4096 ∧ t.flag (Reg.fabBarStatus g) 48 = true ∧
        (∀ b ∈ s.barKids g, SendsTo (s.barSlot g) b (.straggler g e n) s t) ∧ (∀ x, t.barGroup? g = some x → x.lastStraggler = s.up) ∧
        t.cells = s.cells ∧ t.lanes = s.lanes ∧ t.ops = s.ops)) ∧
  (∀ (s : State) (g : Nat) (x : BarGroup), s.barGroup? g = some x → g < 256 →
    (x.sent = true ∨ s.up < x.lastMissing + 100 * usT → exec (.missingTimer g) s = .next s) ∧
    (∀ n, x.sent = false → x.lastMissing + 100 * usT ≤ s.up → s.lowestMissing g x = some n →
      ∃ t y, exec (.missingTimer g) s = .next t ∧ t.barGroup? g = some y ∧ y.lastMissing = s.up ∧ t.cells = s.cells ∧ t.lanes = s.lanes ∧
        t.ops = s.ops ∧
        (s.barRoot g = false → SendsTo (s.barSlot g) (s.barParent g) (.missing g (s.barEpoch g) n) s t) ∧
        (s.barRoot g = true → t.fld (Reg.fabBarStatus g) 47 36 = n % 4096 ∧ t.flag (Reg.fabBarStatus g) 48 = true ∧
          ∀ b ∈ s.barKids g, SendsTo (s.barSlot g) b (.straggler g (s.barEpoch g) n) s t)) ∧
    (x.release ≠ none ∨ s.barRoot g = true ∨ s.up < max x.lastStraggler x.openedUp + 300 * usT → exec (.stragglerSilence g) s = .next s) ∧
    (x.release = none → s.barRoot g = false → max x.lastStraggler x.openedUp + 300 * usT ≤ s.up →
      ∃ t, exec (.stragglerSilence g) s = .next t ∧ t = { s with regs := t.regs, barGroups := t.barGroups } ∧
        t.fld (Reg.fabBarStatus g) 47 36 = s.barParent g % 4096 ∧ t.flag (Reg.fabBarStatus g) 48 = true ∧
        t.barGroup? g = some { x with lastStraggler := s.up } ∧ SameRegs [Reg.fabBarStatus g] s t))

/-! ## Attached memory -/

/-- The memory controllers: a command slot carries out a refresh that is due before any request, closes idle rows where it may take none, reads a
line of a written page with a reference on its key slot, answers a read of an unwritten page, and writes a line, whose page is written first
under the CURRENT slot; a line returns, is corrected, is read once more, or fails, and a part write then leaves its line as it stood; refreshes
fall due, MR4 is read, channels train within 40 ms or fail; a PHY update holds a channel in use; a change of owner closes every row; a clear is
done when the requests before it are; a page of the DRAINING slot is swept, and the slot without pages and references is zeroed. -/
def Obligations.AttachedMemory : Prop :=
  (∀ (s : State) (ch : Nat),
    (s.driven ch = false → exec (.memCommandSlot ch) s = .next s) ∧
    (s.driven ch = true →
      (∀ r, nextRefresh s.up (s.chan ch).refreshNow (s.chan ch).refresh = some r →
        (r.neighbour = false →
          ∃ t, exec (.memCommandSlot ch) s = .next t ∧ t = { s with mem := t.mem, out := s.out ++ [.dfi ch 1 r.bank] } ∧
            (t.chan ch).refresh = (s.chan ch).refresh.erase r ∧ (t.chan ch).reads = (s.chan ch).reads ∧ (t.chan ch).writes = (s.chan ch).writes) ∧
        (r.neighbour = true →
          ∃ t, exec (.memCommandSlot ch) s = .next t ∧ t.fld (Reg.memChAct ch) 63 40 = (s.fld (Reg.memChAct ch) 63 40 + 1) % 2 ^ 24 ∧
            (t.chan ch).reads = (s.chan ch).reads ∧ (t.chan ch).writes = (s.chan ch).writes ∧ SameRegs [Reg.memChAct ch] s t ∧ t.cells = s.cells ∧
            (s.flag Reg.memCtrl 1 = true → s.flag Reg.memPolicyX 4 = false → t.out = s.out ++ [.dfi ch 2 r.bank]) ∧
            (s.flag Reg.memCtrl 1 = false ∨ s.flag Reg.memPolicyX 4 = true → t.out = s.out ++ (s.besides r.row).map fun a => Out.dfiAct ch r.bank a))) ∧
      (nextRefresh s.up (s.chan ch).refreshNow (s.chan ch).refresh = none →
        (s.memOn = false ∨ s.fld (Reg.memChStatus ch) 2 0 ≠ 2 ∨ s.up < (s.chan ch).updateUntil ∨ s.quadRoom ch = false →
          exec (.memCommandSlot ch) s = .next (s.closeIdle ch)) ∧
        (s.memOn = true → s.fld (Reg.memChStatus ch) 2 0 = 2 → (s.chan ch).updateUntil ≤ s.up → s.quadRoom ch = true → (s.chan ch).inflight = [] →
          s.IdleBarrows → s.debugHeld = [] →
          (∀ q, (s.chan ch).reads = [q] → (s.chan ch).writes = [] → q.write = false → q.fwd = false → s.slotOk q.ctx = true →
            0 < s.fld Reg.memPolicyX 47 40 →
            (∀ sl, s.pageSlot (s.pageOf (64 * q.line)) = some sl →
              ∃ t f, exec (.memCommandSlot ch) s = .next t ∧ (t.chan ch).reads = [] ∧ (t.chan ch).inflight = [f] ∧ f.req = q ∧ f.slot = sl ∧
                f.again = none ∧ f.bad = s.mem.badMac.contains q.line ∧ Out.dfiRd ch (s.chanOf (64 * q.line)).2 ∈ t.out ∧
                t.cells = s.cells ∧ t.reqs = s.reqs ∧ t.lanes = s.lanes ∧ SameRegs [Reg.memChAct ch] s t) ∧
            (∀ tag r, s.pageSlot (s.pageOf (64 * q.line)) = none → q.tags = [tag] → s.req? tag = some r → 2 ≤ r.left →
              ∃ t, exec (.memCommandSlot ch) s = .next t ∧ (t.chan ch).reads = [] ∧ (t.chan ch).inflight = [] ∧
                t.req? tag = some { r with left := r.left - 1 } ∧ t.cells = s.cells ∧ t.lanes = s.lanes ∧ SameRegs [Reg.memChAct ch] s t)) ∧
          (∀ q, (s.chan ch).reads = [] → (s.chan ch).writes = [q] → q.write = true → s.slotOk q.ctx = true →
            ∃ t, exec (.memCommandSlot ch) s = .next t ∧ (t.chan ch).writes = [] ∧
              (s.pageSlot (s.pageOf (64 * q.line)) = none → t.pageSlot (s.pageOf (64 * q.line)) = some (s.curSlot % 16)) ∧
              (∀ sl, s.pageSlot (s.pageOf (64 * q.line)) = some sl → t.pageSlot (s.pageOf (64 * q.line)) = some sl) ∧
              (q.part = true → ∃ f, (t.chan ch).inflight = [f] ∧ f.req = q ∧ t.cells = s.cells ∧ t.reqs = s.reqs ∧ SameRegs [Reg.memChAct ch] s t) ∧
              (q.part = false → q.tags = [] → s.memInj 1 q.line = false → (t.chan ch).inflight = [] ∧
                (∃ bs, Out.dfiWr ch (s.chanOf (64 * q.line)).2 bs ∈ t.out) ∧ t.cells = s.cells ∧ t.reqs = s.reqs ∧ t.lanes = s.lanes ∧
                SameRegs [Reg.memChAct ch] s t)))))) ∧
  (∀ (s : State) (ch tag : Nat) (f : Fly) (macLink : LinkCheck), ((s.chan ch).inflight.find? fun f => f.req.tags.contains tag) = some f →
    s.memInj 2 f.req.line = false → f.req.tags = [tag] → f.macRead = false ∨ macLink = .clean → s.IdleBarrows →
    (f.bad = false → f.again = none → f.req.write = false → ∀ r, s.req? tag = some r →
      (2 ≤ r.left → ∃ t, exec (.memReadReturn ch tag ⟨.clean, macLink⟩) s = .next t ∧ t = { s with mem := t.mem, reqs := t.reqs } ∧
        (t.chan ch).inflight = (s.chan ch).inflight.erase f ∧ t.req? tag = some { r with left := r.left - 1 }) ∧
      (∀ off, r.left ≤ 1 → r.dest = .debug off → r.dropped = false →
        ∃ t, exec (.memReadReturn ch tag ⟨.clean, macLink⟩) s = .next t ∧
          t = { s with mem := t.mem, reqs := s.reqs.filter fun y => y.tag != tag, out := s.out ++ [.regCpl off (word (leNat r.bytes))] } ∧
          (t.chan ch).inflight = (s.chan ch).inflight.erase f) ∧
      (2 ≤ r.left → ∃ t, exec (.memReadReturn ch tag ⟨.single, macLink⟩) s = .next t ∧ t.req? tag = some { r with left := r.left - 1 } ∧
        t.fld (Reg.memChErr ch) 15 0 = min (s.fld (Reg.memChErr ch) 15 0 + 1) (2 ^ 16 - 1) ∧ t.flag Reg.memEvent 0 = true ∧
        t.fld (Reg.errCnt 7) 31 0 = min (s.fld (Reg.errCnt 7) 31 0 + 1) (2 ^ 32 - 1) ∧ t.cells = s.cells)) ∧
    (f.again = none →
      (∃ t, exec (.memReadReturn ch tag ⟨.double, macLink⟩) s = .next t ∧
        t = { s with mem := t.mem, regs := t.regs, free := t.free, out := t.out } ∧ { f with again := some 7 } ∈ (t.chan ch).inflight ∧
        Out.dfiRd ch (s.chanOf (64 * f.req.line)).2 ∈ t.out ∧ SameRegs [Reg.memChAct ch] s t) ∧
      (f.bad = true → ∃ t, exec (.memReadReturn ch tag ⟨.clean, macLink⟩) s = .next t ∧
        t = { s with mem := t.mem, regs := t.regs, free := t.free, out := t.out } ∧ { f with again := some 8 } ∈ (t.chan ch).inflight ∧
        Out.dfiRd ch (s.chanOf (64 * f.req.line)).2 ∈ t.out ∧ SameRegs [Reg.memChAct ch] s t)) ∧
    (∀ r d, f.again = some d → f.bad = false → f.req.write = false → s.req? tag = some r → 2 ≤ r.left →
      ∃ t, exec (.memReadReturn ch tag ⟨.clean, macLink⟩) s = .next t ∧ t.req? tag = some { r with left := r.left - 1 } ∧
        t.fld (Reg.memChErr ch) 31 16 = min (s.fld (Reg.memChErr ch) 31 16 + 1) (2 ^ 16 - 1) ∧ t.flag Reg.memEvent 0 = true ∧ t.cells = s.cells) ∧
    (∀ r off, f.again ≠ none → f.req.write = false → s.req? tag = some r → r.dest = .debug off → r.dropped = false →
      (∃ t, exec (.memReadReturn ch tag ⟨.double, macLink⟩) s = .next t ∧ t.reqs = (s.reqs.filter fun y => y.tag != tag) ∧ Out.regCpl off 0 ∈ t.out ∧
        t.fld (Reg.memChErr ch) 47 32 = min (s.fld (Reg.memChErr ch) 47 32 + 1) (2 ^ 16 - 1) ∧ t.flag Reg.memEvent 1 = true ∧
        t.fld (Reg.errCnt 7) 63 32 = min (s.fld (Reg.errCnt 7) 63 32 + 1) (2 ^ 32 - 1) ∧ t.cells = s.cells ∧ t.lanes = s.lanes) ∧
      (f.bad = true →
        ∃ t, exec (.memReadReturn ch tag ⟨.clean, macLink⟩) s = .next t ∧ t.reqs = (s.reqs.filter fun y => y.tag != tag) ∧ Out.regCpl off 0 ∈ t.out ∧
          t.fld (Reg.memChErr ch) 63 48 = min (s.fld (Reg.memChErr ch) 63 48 + 1) (2 ^ 16 - 1) ∧ t.flag Reg.memEvent 1 = true ∧
          t.fld (Reg.errCnt 8) 63 32 = min (s.fld (Reg.errCnt 8) 63 32 + 1) (2 ^ 32 - 1) ∧ t.cells = s.cells ∧ t.lanes = s.lanes)) ∧
    (f.req.write = true → f.cleared = false → f.req.old.length = 64 → s.req? tag = none → (∀ w ∈ (s.chan ch).writes, w.line ≠ f.req.line) →
      f.again ≠ none →
      ∃ t, exec (.memReadReturn ch tag ⟨.double, macLink⟩) s = .next t ∧ (∀ i, i < 64 → t.rd (64 * f.req.line + i) = nth f.req.old i) ∧
        (∀ a, a < 64 * f.req.line ∨ 64 * f.req.line + 64 ≤ a → t.rd a = s.rd a) ∧ t.lanes = s.lanes)) ∧
  (∀ (s : State) (ch tag : Nat) (l : LineChecks), ((s.chan ch).inflight.find? fun f => f.req.tags.contains tag) = none →
    exec (.memReadReturn ch tag l) s = .next s) ∧
  (∀ (s : State) (ch bank report : Nat) (hot : Bool),
    (s.driven ch = false → exec (.refreshDue ch bank) s = .next s ∧ exec (.mr4Poll ch report hot) s = .next s) ∧
    (s.driven ch = true → s.up < nth (s.chan ch).dues (bank % 16) → exec (.refreshDue ch bank) s = .next s) ∧
    (s.driven ch = true → nth (s.chan ch).dues (bank % 16) ≤ s.up →
      ∃ t, exec (.refreshDue ch bank) s = .next t ∧ t = { s with mem := t.mem } ∧
        (t.chan ch).refresh = (s.chan ch).refresh ++ [⟨bank % 16, s.up + Config.refreshLimit, false, 0, s.up⟩] ∧
        nth (t.chan ch).dues (bank % 16) = s.up + Config.refreshInterval (s.fld (Reg.memChStatus ch) 15 8) ∧ ∀ c, c ≠ ch → t.chan c = s.chan c) ∧
    (s.driven ch = true →
      ∃ t, exec (.mr4Poll ch report hot) s = .next t ∧ t = { s with regs := t.regs } ∧ t.fld (Reg.memChStatus ch) 15 8 = report % 256 ∧
        t.fld (Reg.memChStatus ch) 2 0 = s.fld (Reg.memChStatus ch) 2 0 ∧ (hot = true → t.flag Reg.memEvent 4 = true) ∧
        (hot = false → SameRegs [Reg.memChStatus ch] s t) ∧ SameRegs [Reg.memChStatus ch, Reg.memEvent, Reg.ctxMgmt] s t)) ∧
  (∀ (s : State) (ch t0 : Nat), ch < s.straps.channels → maskHas s.memMask ch = true → s.fld (Reg.memChStatus ch) 2 0 = 1 →
    (s.chan ch).trainStart = some t0 →
    (s.up ≤ t0 + 40 * msT →
      ∃ t, exec (.channelTrained ch) s = .next t ∧ t = { s with regs := t.regs, mem := t.mem, free := t.free } ∧ t.fld (Reg.memChStatus ch) 2 0 = 2 ∧
        (t.chan ch).trainStart = none ∧ SameRegs [Reg.memChStatus ch, Reg.memCtrl] s t ∧
        (s.flag Reg.memCtrl 0 = false → s.memMask < 2 ^ s.straps.channels → s.memCount ∈ [1, 2, 4, 8, 16] → s.fld Reg.memMap 17 16 ≠ 3 →
          8 ≤ s.fld Reg.memMap 12 8 → s.fld Reg.memMap 12 8 ≤ 16 → (∀ c ∈ maskBits 16 s.memMask, c ≠ ch → s.fld (Reg.memChStatus c) 2 0 = 2) →
          t.flag Reg.memCtrl 0 = true ∧ nth t.mem.slots 0 = 1) ∧
        ((∃ c ∈ maskBits 16 s.memMask, c ≠ ch ∧ s.fld (Reg.memChStatus c) 2 0 ≠ 2) → t.flag Reg.memCtrl 0 = s.flag Reg.memCtrl 0)) ∧
    (t0 + 40 * msT < s.up → exec (.channelTrained ch) s = .next s) ∧
    (s.up < t0 + 40 * msT → exec (.trainTimeout ch) s = .next s) ∧
    (t0 + 40 * msT ≤ s.up →
      ∃ t, exec (.trainTimeout ch) s = .next t ∧ t = { s with regs := t.regs, mem := t.mem } ∧ t.fld (Reg.memChStatus ch) 2 0 = 3 ∧
        t.flag Reg.memEvent 3 = true ∧
        t.fld Reg.insBoot 47 40 = (if s.fld Reg.insBoot 47 40 = 0 then 4 else s.fld Reg.insBoot 47 40) ∧
        SameRegs [Reg.memChStatus ch, Reg.memEvent, Reg.ctxMgmt, Reg.insBoot] s t)) ∧
  (∀ (s : State) (ch : Nat), maskHas s.memMask ch = false ∨ s.fld (Reg.memChStatus ch) 2 0 ≠ 2 → exec (.phyUpdate ch) s = .next s) ∧
  (∀ (s : State) (ch : Nat), maskHas s.memMask ch = true → s.fld (Reg.memChStatus ch) 2 0 = 2 →
    ∃ t, exec (.phyUpdate ch) s = .next t ∧ t = { s with mem := t.mem, out := s.out ++ [.dfi ch 0 0] } ∧ (t.chan ch).updateUntil = s.up + usT ∧
      ∀ c, c ≠ ch → t.chan c = s.chan c) ∧
  (∀ s : State,
    ((∃ k, k < 32 ∧ s.slotOwner k ≠ none) →
      ∃ t, exec .qosSlotBoundary s = .next t ∧ t = { s with mem := t.mem } ∧ ∀ x ∈ t.mem.chans, ∀ r ∈ x.rows, r = none) ∧
    ((∀ k, k < 32 → s.slotOwner k = none) → exec .qosSlotBoundary s = .next s) ∧
    (s.mem.clear = none → exec .memClearDone s = .next s) ∧
    (∀ j, s.mem.clear = some j →
      ((∃ r ∈ s.reqs, r.tag ∈ j.tags) → exec .memClearDone s = .next s) ∧
      ((∀ r ∈ s.reqs, r.tag ∉ j.tags) →
        ∃ t, exec .memClearDone s = .next t ∧ t = { s with regs := t.regs, mem := { s.mem with clear := none } } ∧
          t.fld Reg.memClearStatus 2 0 = 2 ∧ t.flag Reg.memEvent 5 = true ∧ SameRegs [Reg.memClearStatus, Reg.memEvent, Reg.ctxMgmt] s t)) ∧
    (s.draining = none → (∀ ch page, exec (.sweepPage ch page) s = .next s) ∧ exec .keySlotZero s = .next s) ∧
    (∀ d, s.draining = some d →
      (∀ ch page, s.pageSlot (ch * 2 ^ 32 + page) = some d → s.slotOwner (s.slotNow % 32) = none →
        ∃ t, exec (.sweepPage ch page) s = .next t ∧ t = { s with mem := t.mem, regs := t.regs, free := t.free, out := t.out } ∧
          t.pageSlot (ch * 2 ^ 32 + page) = some (s.curSlot % 16) ∧ SameRegs [Reg.memChAct ch] s t) ∧
      (∀ ch page, s.pageSlot (ch * 2 ^ 32 + page) ≠ some d ∨ s.slotOwner (s.slotNow % 32) ≠ none → exec (.sweepPage ch page) s = .next s) ∧
      (s.slotPages d = 0 → s.slotRefs d = 0 →
        ∃ t, exec .keySlotZero s = .next t ∧ t = { s with regs := t.regs, mem := { s.mem with slots := put s.mem.slots d 0, slotKeys := put s.mem.slotKeys d 0 } } ∧
          t.flag Reg.insEvent 4 = true ∧ SameRegs [Reg.insEvent] s t) ∧
      (0 < s.slotPages d ∨ 0 < s.slotRefs d → exec .keySlotZero s = .next s)))

/-! ## Resets -/

/-- The reset of a context, from the Awning's acknowledgements over the sample to its completion: the last engine's acknowledgement begins the
sample or the zeroing of semaphores, tiles and cluster ranges, and a barrow's lets it go on; the sample, whole or cut short after 50
microseconds, fills a dump slot (its host writes go out or are held in their order) or is counted as skipped; the reset completes when all is
zero and the generation is clean. A moderated completion bit is set after mod_us; a clean generation
stops counting; a block soft reset ends with every context FREE. -/
def Obligations.ContextResets : Prop :=
  (∀ (s : State) (c t0 : Nat), (s.ctx c).modFrom = some t0 → s.fld (Reg.ctxIrq c) 47 32 ≠ 0 →
    (t0 + s.fld (Reg.ctxIrq c) 47 32 * usT ≤ s.up → s.fld (Reg.ctxAttn c) 63 48 ≠ 0 →
      ∃ t, exec (.modTimer c) s = .next t ∧ t = { s with regs := t.regs, ctxs := t.ctxs } ∧ t.flag (Reg.ctxAttn c) 0 = true ∧
        t.ctx c = { s.ctx c with modFrom := none } ∧ SameRegs [Reg.ctxAttn c] s t ∧ ∀ d, d ≠ c → t.ctx d = s.ctx d) ∧
    (s.up < t0 + s.fld (Reg.ctxIrq c) 47 32 * usT → exec (.modTimer c) s = .next s)) ∧
  (∀ (s : State) (c : Nat),
    (s.clean c (s.genOf c) = true → ∃ t, exec (.genClean c) s = .next t ∧ t = { s with ctxs := t.ctxs } ∧
      sparseGet 0 (t.ctx c).retired (s.genOf c) = 0 ∧ { t.ctx c with retired := [] } = { s.ctx c with retired := [] } ∧
      ∀ d, d ≠ c → t.ctx d = s.ctx d) ∧
    (s.clean c (s.genOf c) = false → exec (.genClean c) s = .next s)) ∧
  (∀ (s : State) (c : Nat) (r : CtxReset), (s.ctx c).rst = some r → c < s.straps.contexts →
    (∀ e, r.phase = 0 → e ∈ s.awningEngines r.tiles → e ∉ r.acks →
      (r.acks.length + 1 < (s.awningEngines r.tiles).length →
        ∃ t, exec (.awningAck c e) s = .next t ∧ t = { s with ctxs := t.ctxs, barrows := t.barrows } ∧
          t.ctx c = { s.ctx c with rst := some { r with acks := r.acks ++ [e] } } ∧
          (e < 24 → t.barrow e = { s.barrow e with st := if (s.barrow e).st = .purging then (if ((s.barrow e).q.any fun q => q.running) = true then .moving else .idle)
                                                        else (s.barrow e).st }) ∧
          (∀ b, b ≠ e → t.barrow b = s.barrow b) ∧ (24 ≤ e → t.barrows = s.barrows) ∧ ∀ d, d ≠ c → t.ctx d = s.ctx d) ∧
      ((s.awningEngines r.tiles).length ≤ r.acks.length + 1 → s.flag Reg.errSampleEn c = true →
        ∃ t, exec (.awningAck c e) s = .next t ∧ t = { s with ctxs := t.ctxs, barrows := t.barrows } ∧ ((t.ctx c).rst.map fun x => x.phase) = some 1 ∧
          ∀ d, d ≠ c → t.ctx d = s.ctx d) ∧
      ((s.awningEngines r.tiles).length ≤ r.acks.length + 1 → s.flag Reg.errSampleEn c = false →
        ∃ t, exec (.awningAck c e) s = .next t ∧ ((t.ctx c).rst.map fun x => x.phase) = some 2 ∧ (t.ctx c).sems = List.replicate 64 0 ∧
          (∀ k ∈ r.tiles, (s.tile k).rest = .awake → (t.tile k).clearScr = some (s.cyc + 2048)) ∧
          (∀ k ∈ r.tiles, (s.tile k).rest ≠ .awake → (t.tile k).clearOnWake = true) ∧
          (∀ z ∈ r.ranges, (z.2.1, z.2.2, s.cyc + 256 * z.2.2) ∈ (t.cluster z.1).zeroing) ∧
          (r.destroy = true → t.reg (Reg.ctxLease c) = 0 ∧ t.reg (Reg.ctxUndelStatus c) = 0 ∧ ∀ k ∈ r.tiles, (t.tile k).lease = none) ∧
          (∀ d, d ≠ c → t.ctx d = s.ctx d) ∧ t.cells = s.cells ∧ t.lanes = s.lanes)) ∧
    (∀ e, r.phase ≠ 0 ∨ e ∉ s.awningEngines r.tiles ∨ e ∈ r.acks → exec (.awningAck c e) s = .next s) ∧
    (r.phase = 1 →
      (s.flag Reg.errDumpCfg 8 = false →
        ∃ t, exec (.sampleDone c) s = .next t ∧ t.fld Reg.errDumpSkip 63 0 = (s.fld Reg.errDumpSkip 63 0 + 1) % 2 ^ 64 ∧
          ((t.ctx c).rst.map fun x => x.phase) = some 2 ∧ (t.ctx c).sems = List.replicate 64 0 ∧ t.cells = s.cells ∧ t.lanes = s.lanes) ∧
      (∀ i, s.flag Reg.errDumpCfg 8 = true → i < min 64 (s.fld Reg.errDumpCfg 6 0) →
        (∀ j, j ≤ i → (maskHas (s.reg Reg.errDumpStatus).toNat j = true ↔ j < i)) →
        let base := s.fld Reg.errDumpBase 55 12 * 4096 + 0x44000 * i
        let written := fun (t : State) => ((t.ctx c).rst.map fun x => x.phase) = some 2 ∧ (t.ctx c).sems = List.replicate 64 0 ∧ t.lanes = s.lanes ∧
          (base / 2 ^ 55 % 2 = 1 → s.hpaOf (base % 2 ^ 55) = none → t.flag Reg.errDumpStatus i = true ∧ t.cells = s.cells ∧
            (s.hostHeld = false → t.dumpHeld = s.dumpHeld ∧ ∃ l, l ≠ [] ∧ t.out = s.out ++ l) ∧
            (s.hostHeld = true → t.out = s.out ∧ ∃ l, l ≠ [] ∧ t.dumpHeld = s.dumpHeld ++ l)) ∧
          (base / 2 ^ 55 % 2 = 0 → scratchBase ≤ base % 2 ^ 43 → t.flag Reg.errDumpStatus i = true ∧ t.dumpHeld = s.dumpHeld ∧ t.rd (base % 2 ^ 43) = 1)
        (∃ t, exec (.sampleDone c) s = .next t ∧ written t) ∧
        (r.began + 50 * usT ≤ s.bell.now → ∃ t, exec (.sampleTimeout c) s = .next t ∧ written t)) ∧
      (s.bell.now < r.began + 50 * usT → exec (.sampleTimeout c) s = .next s)) ∧
    (r.phase ≠ 1 → exec (.sampleDone c) s = .next s ∧ exec (.sampleTimeout c) s = .next s) ∧
    (r.phase ≠ 2 ∨ s.zeroed r = false ∨ s.clean c (s.genOf c) = false → exec (.contextResetComplete c) s = .next s) ∧
    (r.phase = 2 → s.zeroed r = true → s.clean c (s.genOf c) = true →
      ∃ t, exec (.contextResetComplete c) s = .next t ∧ t = { s with regs := t.regs, ctxs := t.ctxs } ∧
        t.ctx c = { s.ctx c with rst := none, st := if r.destroy = true then .free else .stopped } ∧ (∀ d, d ≠ c → t.ctx d = s.ctx d) ∧
        (r.destroy = true → t.reg (Reg.ctxAttn c) = 0) ∧
        (r.destroy = false → t.flag (Reg.ctxAttn c) 1 = true ∧ t.fld (Reg.ctxAttn c) 15 8 = 4) ∧
        (r.command = true → t.fld Reg.ctxCmdStatus 1 0 = 2 ∧ t.fld Reg.ctxCmdStatus 7 4 = (if r.destroy = true then 5 else 4) ∧
          t.fld Reg.ctxCmdStatus 13 8 = c ∧ t.flag Reg.ctxMgmt 7 = true) ∧
        (r.command = false → SameRegs [Reg.ctxAttn c] s t) ∧ SameRegs [Reg.ctxAttn c, Reg.ctxCmdStatus, Reg.ctxMgmt] s t)) ∧
  (∀ s : State,
    (s.breset = none → exec .blockResetReady s = .next s) ∧
    (∀ u, s.breset = some u → s.straps.gangSize < 2 →
      ∃ t, exec .blockResetReady s = .next t ∧ t = { s with breset := none, ctxs := t.ctxs, mem := t.mem, regs := t.regs, free := t.free } ∧
        (∀ x ∈ t.ctxs, x.st = .free) ∧ t.mem.slots = 1 :: List.replicate 15 0 ∧ (∀ k, 0 < k → nth t.mem.slotKeys k = 0) ∧
        t.flag Reg.errBresetStatus 0 = false ∧ (∀ c, c < s.straps.contexts → t.reg (Reg.ctxAttn c) = 0 ∧ t.reg (Reg.ctxIrq c) = 0) ∧
        ∀ o, o ≠ Reg.errBresetStatus → (∀ c, c < s.straps.contexts → o ≠ Reg.ctxAttn c ∧ o ≠ Reg.ctxIrq c) → t.reg o = s.reg o))

/-! ## The Inspector -/

/-- Authenticated commands: an accepted command is acknowledged and carried out, each with its own effect; a frame that fails a check is answered
with that check's status and changes nothing; the last command sent again is answered with its stored response; a command that comes while the
Inspector restarts waits, and a halted Inspector takes none. The watchdog's expiry starts the restart,
its end lets the Inspector run again, and a failed self-check halts it. -/
def Obligations.InspectorCommands : Prop :=
  (∀ (s : State) (c : CmdFrame) (bs : List Byte), s.TakesCommand 0x01 c → c.body = .echo bs →
    ∃ t, exec (.echo c) s = .next t ∧ CommandDone 0x01 c 0 bs s t ∧ t = { s with regs := t.regs, insp := t.insp, out := t.out }) ∧
  (∀ (s : State) (c : CmdFrame) (x : Nat) (v : Word), s.TakesCommand 0x10 c → s.Accepts → s.PageOpen x → c.body = .regWrite [(Reg.ctxIrq x, v)] →
    ∃ t, exec (.regWrite c) s = .next t ∧ CommandDone 0x10 c 0 [] s t ∧ t.fld (Reg.ctxIrq x) 47 32 = bits v 47 32 ∧
      t.fld (Reg.ctxIrq x) 1 0 = bits v 1 0 ∧ t = { s with regs := t.regs, insp := t.insp, out := t.out }) ∧
  (∀ (s : State) (c : CmdFrame), s.TakesCommand 0x11 c → s.inject = none → c.body = .regRead [Reg.bellNow] →
    ∃ t, exec (.regRead c) s = .next t ∧ CommandDone 0x11 c 0 (leBytes 8 (word s.bell.now).toNat) s t ∧
      t = { s with regs := t.regs, insp := t.insp, out := t.out }) ∧
  (∀ (s : State) (c : CmdFrame) (slot ident members : Nat) (job tick : Word), s.TakesCommand 0x12 c → s.Accepts →
    c.body = .cgRun slot ident members job [] tick → (∀ j, j < 4 → (s.group j).st.pending = false) → members < 2 ^ 32 → members ≠ 0 →
    maskDiff members (unitMask s.straps) = 0 → s.bell.now + 8000 ≤ tick.toNat →
    ∃ t, exec (.cgRun c) s = .next t ∧ (t.group slot).st = .armed ∧ (t.group slot).members = members ∧ (t.group slot).ident = ident % 2 ^ 16 ∧
      (t.group slot).tick = tick.toNat ∧ (t.group slot).byInspector = true ∧ t.insp.last = some ⟨.of 0x12 c none, 0, [], 1⟩ ∧
      t.reg Reg.insCmdLast = word c.counter ∧ t.out = s.out ++ [.response 0x8012 0 c.counter 1 []] ∧ (∀ j, j ≠ slot → t.group j = s.group j)) ∧
  (∀ (s : State) (c : CmdFrame) (k p : Nat) (w : List Byte), s.TakesCommand 0x20 c → c.body = .jobKeyLoad k p w → k < s.keys.length →
    (p ≠ s.keyInForce k → (s.keyPhase k p).until_ = none →
      ∃ t, exec (.jobKeyLoad c) s = .next t ∧ t = { s with regs := t.regs, insp := t.insp, out := t.out, keys := t.keys } ∧
        (∀ key, Config.keyUnwrap s.insp.wrapKey w = some key → CommandDone 0x20 c 0 [] s t ∧ t.keyPhase k p = ⟨some key, 0, none⟩ ∧
          t.insp.jobKeyLoads = s.insp.jobKeyLoads + 1) ∧
        (Config.keyUnwrap s.insp.wrapKey w = none → CommandDone 0x20 c 7 [Config.refuseCause 2] s t ∧ t.keys = s.keys)) ∧
    (p = s.keyInForce k →
      ∃ t, exec (.jobKeyLoad c) s = .next t ∧ CommandDone 0x20 c 7 [Config.refuseCause 0] s t ∧
        t = { s with regs := t.regs, insp := t.insp, out := t.out })) ∧
  (∀ (s : State) (c : CmdFrame) (k : Nat), s.TakesCommand 0x21 c → c.body = .jobKeyErase k →
    (∀ j, j < s.straps.jobSlots → s.flag (Reg.fabJobCfg j) 63 = true → s.fld (Reg.fabJobCfg j) 59 56 ≠ k) →
    ∃ t, exec (.jobKeyErase c) s = .next t ∧ CommandDone 0x21 c 0 [] s t ∧ t.keyPhase k 0 = KeyPhase.empty ∧ t.keyPhase k 1 = KeyPhase.empty ∧
      t = { s with regs := t.regs, insp := t.insp, out := t.out, keys := t.keys }) ∧
  (∀ (s : State) (c : CmdFrame), s.TakesCommand 0x30 c → c.body = .memKeyRotate →
    (s.draining = none → ∃ t, exec (.memKeyRotate c) s = .next t ∧ CommandDone 0x30 c 0 [] s t ∧
      t.mem.slots = put (put s.mem.slots s.curSlot 2) ((s.curSlot + 1) % 16) 1 ∧ t.mem.rotations = s.mem.rotations + 1 ∧
      (∀ k, k ≠ (s.curSlot + 1) % 16 → nth t.mem.slotKeys k = nth s.mem.slotKeys k) ∧
      t = { s with regs := t.regs, insp := t.insp, out := t.out, mem := t.mem, free := t.free }) ∧
    (s.draining ≠ none → ∃ t, exec (.memKeyRotate c) s = .next t ∧ CommandDone 0x30 c 7 [Config.refuseCause 1] s t ∧ t.mem = s.mem)) ∧
  (∀ (s : State) (c : CmdFrame), s.TakesCommand 0x40 c → c.body = .blockReset → s.breset = none →
    ∃ t, exec (.blockReset c) s = .next t ∧ CommandDone 0x40 c 0 [] s t ∧ t.breset = some s.up ∧ t.fld Reg.errBresetStatus 9 8 = 2) ∧
  (∀ (s : State) (c : CmdFrame), s.live = true → s.InspectorQuiet → s.insp.queue = [] → c.mailbox = true →
    let q := QCmd.of 0x01 c none
    let answer := fun (n : Nat) (t : State) => exec (.echo c) s = .next t ∧ t = { s with regs := t.regs, out := s.out ++ [.response 0x8001 n c.counter 2 []] } ∧
      t.reg Reg.insCmdLast = s.reg Reg.insCmdLast
    (s.insp.st = 1 →
      (q.fits = false → ∃ t, answer 1 t) ∧
      (q.fits = true → s.insp.session ≠ some c.session → ∃ t, answer 2 t) ∧
      (q.fits = true → s.insp.session = some c.session → cmdTag s.insp.cmdKey (cmdBytes 0x01 c) ≠ c.tag →
        ∃ t, answer 3 t ∧ t.flag Reg.insEvent 1 = true ∧ t.fld Reg.insCmdStatus 63 48 = min (s.fld Reg.insCmdStatus 63 48 + 1) (2 ^ 16 - 1)) ∧
      (q.fits = true → s.insp.session = some c.session → cmdTag s.insp.cmdKey (cmdBytes 0x01 c) = c.tag →
        (c.target ≠ s.fld Reg.fabId 11 0 → ∃ t, answer 4 t) ∧
        (c.target = s.fld Reg.fabId 11 0 → c.counter ≤ (s.reg Reg.insCmdLast).toNat →
          (s.insp.last = none → ∃ t, answer 5 t ∧ t.flag Reg.insEvent 2 = true ∧
            t.fld Reg.insCmdStatus 47 32 = min (s.fld Reg.insCmdStatus 47 32 + 1) (2 ^ 16 - 1)) ∧
          (∀ l, s.insp.last = some l → l.state = 0 → l.cmd.frame.counter = c.counter → l.cmd.frame.tag = c.tag →
            s.reg Reg.insCmdLast = word c.counter → l.status < 256 →
            ∃ t, exec (.echo c) s = .next t ∧ t = { s with regs := t.regs, out := s.out ++ [.response 0x8001 l.status c.counter 2 l.result] } ∧
              t.reg Reg.insCmdLast = s.reg Reg.insCmdLast)))) ∧
    (s.insp.st = 2 → ∃ t, exec (.echo c) s = .next t ∧ t = { s with regs := t.regs, insp := { s.insp with queue := [q] } } ∧ t.flag Reg.insCmdStatus 0 = true) ∧
    (s.insp.st = 3 → s.insp.wdOn = false → exec (.echo c) s = .next s)) ∧
  (∀ s : State, s.live = true →
    (s.inject = none → s.insp.wdOn = true →
      (s.up < s.insp.watchFrom + s.fld Reg.pwrInswdt 15 0 * msT → exec .insWatchdogExpiry s = .next s) ∧
      (s.insp.watchFrom + s.fld Reg.pwrInswdt 15 0 * msT ≤ s.up →
        ∃ t, exec .insWatchdogExpiry s = .next t ∧ t.insp.st = 2 ∧ t.insp.wdOn = false ∧ t.insp.restartFrom = s.up ∧
          t.fld Reg.insStatus 2 0 = 2 ∧ t.fld Reg.insStatus 63 48 = min (s.fld Reg.insStatus 63 48 + 1) (2 ^ 16 - 1) ∧
          t.flag Reg.insEvent 0 = true ∧ t.fld (Reg.errCnt 0x13) 63 32 = min (s.fld (Reg.errCnt 0x13) 63 32 + 1) (2 ^ 32 - 1) ∧
          t.lanes = s.lanes)) ∧
    (s.insp.st = 2 → s.insp.queue = [] →
      (s.up < s.insp.restartFrom + 10 * usT → exec .inspectorRestartDone s = .next s) ∧
      (s.insp.restartFrom + 10 * usT ≤ s.up →
        ∃ t, exec .inspectorRestartDone s = .next t ∧ t = { s with regs := t.regs, insp := { s.insp with st := 1, wdOn := true, watchFrom := s.up, lastCheck := s.up } } ∧
          t.fld Reg.insStatus 2 0 = 1 ∧ SameRegs [Reg.insStatus] s t)) ∧
    (s.insp.st = 1 →
      (∀ ok, s.up < s.insp.lastCheck + 60000 * msT → exec (.romSelfCheck ok) s = .next s) ∧
      (s.insp.lastCheck + 60000 * msT ≤ s.up →
        exec (.romSelfCheck true) s = .next { s with insp := { s.insp with lastCheck := s.up } } ∧
        ∃ t, exec (.romSelfCheck false) s = .next t ∧ t = { s with regs := t.regs, insp := { s.insp with st := 3, lastCheck := s.up } } ∧
          t.fld Reg.insStatus 2 0 = 3 ∧ SameRegs [Reg.insStatus] s t)))

/-- Attestation. The codes and what a response carries beyond the rules are the model's (log entries 60 and 61): the connection is negotiated in
order, a request out of order is answered with an error, a measurement index answers its contents, a verified exchange opens the operator session,
which KEY_UPDATE, HEARTBEAT and END_SESSION use; nothing is answered while the Inspector does not run, nor by a block that is not the lead of
the member whose mailbox a request names. -/
def Obligations.Attestation : Prop :=
  ∀ (s : State) (r : SpdmReq),
    let sends := fun (c : Instr) (i : Inspector) (code : Nat) (data : List Nat) =>
      exec c s = .next { s with insp := i, out := s.out ++ [.spdm code data] }
    (r.doe ≠ 0 → s.gangM ≠ 0 ∨ s.ganged = false ∨ s.gangN ≤ r.doe → ∀ c ∈ [Instr.getVersion r, .getCapabilities r, .negotiateAlgorithms r,
      .getDigests r, .getCertificate r, .challenge r, .getMeasurements r, .keyExchange r, .finish r, .keyUpdate r, .heartbeat r, .endSession r],
      exec c s = .next s) ∧
    (r.doe = 0 → s.spdmOn = false → ∀ c ∈ [Instr.getVersion r, .getCapabilities r, .negotiateAlgorithms r, .getDigests r, .getCertificate r, .challenge r,
      .getMeasurements r, .keyExchange r, .finish r, .keyUpdate r, .heartbeat r, .endSession r], exec c s = .next s) ∧
    (r.doe = 0 → s.spdmOn = true → s.insp.messages = [] →
      sends (.getVersion r) { s.insp with spdmVer := true, spdmCap := false, spdmAlg := false, kex := none } 0x04 (Config.spdmData 0x04 r) ∧
      (s.insp.spdmVer = true → sends (.getCapabilities r) { s.insp with spdmCap := true, spdmAlg := false } 0x61 (Config.spdmData 0x61 r)) ∧
      (s.insp.spdmVer = false → sends (.getCapabilities r) s.insp 0x7F [4]) ∧
      (s.insp.spdmCap = true → sends (.negotiateAlgorithms r) { s.insp with spdmAlg := true } 0x63 (Config.spdmData 0x63 r)) ∧
      (s.insp.spdmCap = false → sends (.negotiateAlgorithms r) s.insp 0x7F [4]) ∧
      (s.insp.spdmAlg = false → ∀ c ∈ [Instr.getDigests r, .getCertificate r, .challenge r, .getMeasurements r, .keyExchange r], sends c s.insp 0x7F [4]) ∧
      (s.insp.spdmAlg = true →
        sends (.getDigests r) s.insp 0x01 (Config.spdmData 0x01 r) ∧
        (r.param1 % 16 = 0 → sends (.getCertificate r) s.insp 0x02 (Config.spdmData 0x02 r) ∧ sends (.challenge r) s.insp 0x03 (Config.spdmData 0x03 r)) ∧
        (r.param1 % 16 ≠ 0 → sends (.getCertificate r) s.insp 0x7F [1] ∧ sends (.challenge r) s.insp 0x7F [1]) ∧
        (∀ l, r.param2 ≠ 0 → r.param2 ≠ 0xFF → s.measurement r.param2 = some l →
          sends (.getMeasurements r) s.insp 0x60 ((measBlock r.param2 l).map (fun b => b.toNat) ++ Config.spdmData 0x60 r)) ∧
        (r.param2 ≠ 0 → r.param2 ≠ 0xFF → s.measurement r.param2 = none → sends (.getMeasurements r) s.insp 0x7F [1]) ∧
        (r.param2 = 0 → sends (.getMeasurements r) s.insp 0x60 (s.indices.length :: Config.spdmData 0x60 r)) ∧
        (s.fld Reg.insStatus 5 4 ≠ 1 ∨ s.flag Reg.insCtrl 0 = false → sends (.keyExchange r) s.insp 0x7F [4]) ∧
        (s.fld Reg.insStatus 5 4 = 1 → s.flag Reg.insCtrl 0 = true →
          ∃ t id, exec (.keyExchange r) s = .next t ∧ t = { s with insp := { s.insp with kex := some id }, out := s.out ++ [.spdm 0x64 (Config.spdmData 0x64 r)], free := t.free } ∧
            (r.bytes.length = 2 → id % 2 ^ 16 = leNat r.bytes))) ∧
      (s.insp.kex = none → sends (.finish r) s.insp 0x7F [4]) ∧
      (∀ id, s.insp.kex = some id →
        ∃ t, exec (.finish r) s = .next t ∧
          (Config.spdmFinishOk r s.oproot = false → t = { s with insp := { s.insp with kex := none }, out := s.out ++ [.spdm 0x7F [6]] }) ∧
          (Config.spdmFinishOk r s.oproot = true →
            t = { s with insp := t.insp, regs := t.regs, out := s.out ++ [.spdm 0x65 (Config.spdmData 0x65 r)], free := t.free } ∧
            t.insp.session = some id ∧ t.insp.kex = none ∧ t.insp.last = none ∧ t.insp.keyEpoch = 0 ∧ t.reg Reg.insCmdLast = 0 ∧
            t.fld Reg.insSession 63 32 = id % 2 ^ 32 ∧ t.flag Reg.insSession 0 = true ∧ t.flag Reg.insEvent 3 = true ∧
            SameRegs [Reg.insCmdLast, Reg.insSession, Reg.insEvent] s t)) ∧
      (s.inSession r = false → ∀ c ∈ [Instr.keyUpdate r, .heartbeat r, .endSession r], sends c s.insp 0x7F [2]) ∧
      (s.inSession r = true →
        sends (.keyUpdate r) { s.insp with keyEpoch := s.insp.keyEpoch + 1 } 0x69 (Config.spdmData 0x69 r) ∧
        sends (.heartbeat r) s.insp 0x68 (Config.spdmData 0x68 r) ∧
        ∃ t, exec (.endSession r) s = .next t ∧ t = { s with insp := { s.insp with session := none }, regs := t.regs, out := s.out ++ [.spdm 0x6C (Config.spdmData 0x6C r)] } ∧
          t.reg Reg.insSession = 0 ∧ SameRegs [Reg.insSession] s t))

/-! ## The ports, start-up and test -/

/-- The host port: a completion's bytes reach the lane that asked, a failed one ends its operation with DATA-ERROR, and one for a member of the gang goes to it; Bus Master Enable, the link
and fatal conditions hold and release host-bound requests, or freeze the port under the strap; a Function Level Reset clears Bus Master Enable and
begins a block soft reset, and the loss of a member resets its contexts at the lead; debug accesses of leased and free scratch; a block without power takes none of them. -/
def Obligations.HostPort : Prop :=
  (∀ (s : State) (tag status : Nat) (bs : List Byte),
    (s.relayed 1 tag = none → s.req? tag = none → exec (.cpl tag status bs) s = .next s) ∧
    (∀ x, s.relayed 1 tag = some x → exec (.cpl tag status bs) s = .next { s with
      relays := s.relays.erase x,
      out := s.out ++ [.ring x.member 6 ({ kind := 0x10, tag := x.theirs, status := status, len := bs.length, data := bs } : HostTx).bytes] }) ∧
    (∀ r, s.relayed 1 tag = none → s.req? tag = some r → r.path = .host → s.inject = none →
      (r.dropped = true → status = 0 → s.IdleBarrows →
        exec (.cpl tag status bs) s = .next { s with reqs := s.reqs.filter fun y => y.tag != tag }) ∧
      (∀ l a, r.dropped = false → status = 0 → s.IdleBarrows → r.gen = s.genOf r.ctx → r.dest = .fetch l a → l.cl < s.clusters.length → bs.length = 64 → r.len = 64 →
        ∃ t, exec (.cpl tag status bs) s = .next t ∧
          t = { s with reqs := s.reqs.filter fun y => y.tag != tag, clusters := t.clusters, lanes := t.lanes } ∧
          (t.cluster l.cl).icache.head? = some ⟨a, r.ctx, r.gen, bs⟩ ∧ (∀ k, k ≠ l.cl → t.cluster k = s.cluster k) ∧ (∀ m, laneIx m ≠ laneIx l → t.lane m = s.lane m) ∧
          SameS l s t ∧ SameP l s t ∧ SameD l s t ∧ (t.lane l).pc = (s.lane l).pc) ∧
      (∀ b k i q g o x, r.dropped = false → status ≠ 0 → r.gen = s.genOf r.ctx → r.ut = false → (r.dest = .seg b q.op k i ∨ r.dest = .ackSeg b q.op k) →
        s.OneSegment b q g o x → g.k = k → s.LastOf b q.op k tag →
        ∃ t, exec (.cpl tag status bs) s = .next t ∧ t.EndedWith b o xDATAERROR r.va ∧ (∀ y ∈ t.reqs, y.tag ≠ tag) ∧
          t.fld (Reg.errCnt 0x09) 63 32 = min (s.fld (Reg.errCnt 0x09) 63 32 + 1) (2 ^ 32 - 1) ∧ t.cells = s.cells))) ∧
  (∀ s : State,
    (s.live = false → ∀ c ∈ [Instr.bmeChange true, .bmeChange false, .linkDown, .linkDownClear, .endpointFatal, .flr], exec c s = .next s) ∧
    (s.live = true →
      exec (.bmeChange false) s = .next { s with pins := { s.pins with bme := false } } ∧
      ((∀ x ∈ s.xreqs, x.held = false) → (∀ p ∈ s.pageReqs, p.waiting = false) → s.IdleBarrows → s.dumpHeld = [] →
        exec (.bmeChange true) s = .next { s with pins := { s.pins with bme := true } } ∧
        exec .linkDownClear s = .next { s with pins := { s.pins with linkDown := false } }) ∧
      (s.xreqs = [] → s.pageReqs = [] → s.IdleBarrows → s.pins.linkDown = false → s.pins.frozen = false → s.pins.fatalHold = false →
        exec (.bmeChange true) s = .next { s with
          pins := { s.pins with bme := true }, dumpHeld := [], out := s.out ++ s.dumpHeld.map fun (p : Nat × List Byte) => Out.mwr p.1 p.2 }) ∧
      (∀ x, s.xreqs = [x] → x.held = true → s.pageReqs = [] → s.dumpHeld = [] → s.IdleBarrows → s.pins.linkDown = false → s.pins.frozen = false → s.pins.fatalHold = false →
        exec (.bmeChange true) s = .next { s with pins := { s.pins with bme := true }, xreqs := [{ x with held := false }], out := s.out ++ [.atsReq x.id (s.fld (Reg.ctxXltCfg x.ctx) 19 0) (x.page % 2 ^ 57) (!x.write)] }) ∧
      (s.straps.freezeMode = false →
        exec .linkDown s = .next { s with pins := { s.pins with linkDown := true } } ∧
        exec .endpointFatal s = .next { s with pins := { s.pins with fatalHold := true } }) ∧
      (s.straps.freezeMode = true → s.pins.frozen = false →
        (∃ t, exec .linkDown s = .next t ∧ t = { s with pins := { s.pins with linkDown := true, frozen := true }, regs := t.regs } ∧
          t.fld Reg.errHostport 39 32 = 3 ∧ SameRegs [Reg.errHostport] s t) ∧
        (∃ t, exec .endpointFatal s = .next t ∧ t = { s with pins := { s.pins with frozen := true }, regs := t.regs } ∧
          t.fld Reg.errHostport 39 32 = 2 ∧ SameRegs [Reg.errHostport] s t)) ∧
      (∀ c n m, s.ganged = true → s.gangM = 0 → c < s.ctxs.length → (s.ctx c).st ≠ .free → (s.ctx c).rst = none →
        ∃ t x, exec (.exceptionReport c ⟨n, some (m, none)⟩) s = .next t ∧ (t.ctx c).rst = some x ∧ x.cause = 4 ∧ x.destroy = false ∧ x.oldGen = (s.ctx c).gen ∧
          (t.ctx c).gen = ((s.ctx c).gen + 1) % 256) ∧
      (∀ c n m, s.ganged = false ∨ s.gangM ≠ 0 → exec (.exceptionReport c ⟨n, some (m, none)⟩) s = .next s) ∧
      (s.breset = none →
        ∃ t, exec .flr s = .next t ∧ t.breset = some s.up ∧ t.pins.bme = false ∧ t.pins.frozen = false ∧ t.fld Reg.errBresetStatus 9 8 = 1 ∧
          t.flag Reg.errBresetStatus 0 = true ∧ t.fld Reg.errBresetStatus 63 32 = min (s.fld Reg.errBresetStatus 63 32 + 1) (2 ^ 32 - 1) ∧
          (s.pins.frozen = true → t.dumpHeld = []) ∧ t.cells = [] ∧ t.ops = [] ∧ t.tlb = [] ∧ t.lanes = List.replicate 16 Lane.reset ∧ t.bell = s.bell ∧ ∀ x ∈ t.ctxs.take s.straps.contexts, x.st = .free ∨ x.st = .teardown))) ∧
  (∀ (s : State) (o sel base tile x : Nat) (v : Word), s.Accepts → s.pins.regsReady = true → o % 8 = 0 → o < 0x400000 → s.aperture 0 = (0, sel, base) →
    placeOf s.straps (base + o) = .tile tile x → (s.tile tile).rest = .awake →
    (s.lessee (base + o) = none →
      exec (.debugRead (0x1000000 + o)) s = .next { s with out := s.out ++ [.regCpl (0x1000000 + o) (word (s.rdNat (base + o) 8))] }) ∧
    (∀ c, s.lessee (base + o) = some c → c < s.ctxs.length →
      ∃ t, exec (.debugRead (0x1000000 + o)) s = .next t ∧
        t = { s with out := s.out ++ [.regCpl (0x1000000 + o) (word (s.rdNat (base + o) 8))], ctxs := t.ctxs, regs := t.regs } ∧
        t.ctx c = { s.ctx c with debugReads := (s.ctx c).debugReads + 1 } ∧ SameRegs [Reg.dbgStat] s t) ∧
    ((s.tile tile).lease = none → (s.tile tile).clearing = false →
      ∃ t, exec (.debugWrite (0x1000000 + o) (.full v)) s = .next t ∧ t = { s with cells := t.cells } ∧
        (∀ i, i < 8 → (t.rd (base + o + i)).toNat = v.toNat / 256 ^ i % 256) ∧ ∀ a, a < base + o ∨ base + o + 8 ≤ a → t.rd a = s.rd a) ∧
    ((s.tile tile).lease ≠ none →
      ∃ t, exec (.debugWrite (0x1000000 + o) (.full v)) s = .next t ∧ t.cells = s.cells ∧
        t.fld (Reg.errCnt 0x14) 31 0 = min (s.fld (Reg.errCnt 0x14) 31 0 + 1) (2 ^ 32 - 1)))

/-- Start-up and test: power-on reset leaves what R434 says; a good start-up ends at READY with its Inspector running, and each failure stops at
FAILED with its code; a gang's lead fails 150 ms after power-good; a wrapper instruction that shifts the block's cells, and test mode, hold the
block in power-on reset first. -/
def Obligations.StartUpAndTest : Prop :=
  (∀ s : State, ∃ t, exec .powerOnReset s = .next t ∧ t = { State.powerOn s.straps with pending := s.pending, out := s.out, free := s.free } ∧
    t.pins.pwrGood = false ∧ t.cells = [] ∧ t.bell.now = 0 ∧ ∀ x ∈ t.ctxs, x.st = .free) ∧
  (∀ (s : State) (i : StartInputs),
    (s.pins.pwrGood = true ∨ s.pins.testMode = true ∨ s.pins.testHold = true → exec (.startUp i) s = .next s) ∧
    (s.pins.pwrGood = false → s.pins.testMode = false → s.pins.testHold = false →
      (i.gangSize = 0 → i.gangMember = 0 → i.romOk = true → i.svnA ≠ none ∨ i.svnB ≠ none → i.test.scratchFail = false → i.test.rows = [] →
        i.test.other = [] → i.repair = none →
        ∃ t, exec (.startUp i) s = .next t ∧ t.pins.pwrGood = true ∧ t.pins.regsReady = true ∧ t.fld Reg.insBoot 3 0 = 6 ∧
          t.fld Reg.insBoot 47 40 = 0 ∧ t.fld Reg.insStatus 2 0 = 1 ∧ t.insp.st = 1 ∧ t.insp.wdOn = true ∧
          t.straps = ⟨s.straps.build, 0, 0, i.c1Channels, i.capDefault, i.freezeMode⟩ ∧ t.up ≤ 120 * msT ∧ t.bell.now = t.up ∧ t.cells = []) ∧
      (i.gangSize = 1 → ∃ t, exec (.startUp i) s = .next t ∧ t.fld Reg.insBoot 3 0 = 7 ∧ t.fld Reg.insBoot 47 40 = 7) ∧
      (i.gangSize = 0 → i.gangMember = 0 →
        (i.romOk = false →
          ∃ t, exec (.startUp i) s = .next t ∧ t.fld Reg.insBoot 3 0 = 7 ∧ t.fld Reg.insBoot 47 40 = 1 ∧ t.fld Reg.insStatus 2 0 = 3) ∧
        (i.romOk = true → i.svnA = none → i.svnB = none →
          ∃ t, exec (.startUp i) s = .next t ∧ t.fld Reg.insBoot 3 0 = 7 ∧ t.fld Reg.insBoot 47 40 = 2 ∧ t.fld Reg.insStatus 2 0 = 3) ∧
        (i.romOk = true → i.svnA ≠ none → i.test.scratchFail = true →
          ∃ t, exec (.startUp i) s = .next t ∧ t.fld Reg.insBoot 3 0 = 7 ∧ t.fld Reg.insBoot 47 40 = 3)))) ∧
  (∀ s : State, s.live = true → 2 ≤ s.straps.gangSize → s.straps.gangSize ≤ 8 → s.straps.gangMember = 0 → s.fld Reg.insBoot 3 0 = 5 →
    (s.up < 150 * msT → exec .gangReadyTimeout s = .next s) ∧
    (150 * msT ≤ s.up →
      ∃ t, exec .gangReadyTimeout s = .next t ∧ t = { s with regs := t.regs, free := t.free } ∧ t.fld Reg.insBoot 3 0 = 7 ∧
        t.fld Reg.insBoot 47 40 = 6 ∧ 1 ≤ t.fld Reg.insBoot 6 4 ∧ t.fld Reg.insBoot 6 4 < s.straps.gangSize ∧ SameRegs [Reg.insBoot] s t)) ∧
  (∀ (s : State),
    exec .wsBypass s = .next { s with pins := { s.pins with wir := 0x00 } } ∧
    exec .wsExtest s = .next { s with pins := { s.pins with wir := 0x01 } } ∧
    exec .wsSafe s = .next { s with pins := { s.pins with wir := 0x03 } } ∧
    (∀ p ∈ ([(.wsIntest, 0x02), (.wpScan, 0x04)] : List (Instr × Nat)),
      ∃ t, exec p.1 s = .next t ∧ t.pins.wir = p.2 ∧ t.pins.testHold = true ∧ t.live = false ∧ t.cells = [] ∧ t.regs = [] ∧
        t.keys = List.replicate 16 (KeyPhase.empty, KeyPhase.empty) ∧ t.insp.session = none ∧ t.out = s.out) ∧
    (∃ t, exec .testModeEntry s = .next t ∧ t.pins.testMode = true ∧ t.pins.testHold = true ∧ t.pins.wir = s.pins.wir ∧ t.live = false ∧
      t.cells = [] ∧ t.regs = [] ∧ t.insp.session = none) ∧
    (∀ r : SelfTest, r.rows = [] → r.other = [] →
      exec (.tzSelftest r) s = .next { s with pins := { s.pins with wir := 0x10 }, out := s.out ++ [.wrapper (List.replicate s.straps.tiles 6 ++ List.replicate s.straps.clusters (if r.scratchFail = true then 1 else 0))] }))

/-! ## Rules of the whole machine -/

/-- s0 always reads as 0, and p0 always reads as 1, on every lane of every state; a result written to either is discarded, and the instruction passes. -/
def Obligations.HardwiredRegisters : Prop :=
  (∀ (s : State) (l : LaneId), (s.lane l).sv 0 = 0 ∧ (s.lane l).pv 0 = true) ∧
  (∀ (x : Lane) (v : Word) (b : Bool), x.setS 0 v = x ∧ x.setP 0 b = x) ∧
  (∀ (l : LaneId) (i : IWord) (s : State), iFa i = 0 →
    (s.Issues l i 1 0 (formRegs i) → ∃ t, exec (.addI l i) s = .next t ∧ Passed l i s t ∧ SameS l s t ∧ SameP l s t) ∧
    (s.Issues l i 2 0 (formRegs i) → ∃ t, exec (.cmpEq l i) s = .next t ∧ Passed l i s t ∧ SameS l s t ∧ SameP l s t))

/-- A strict context's barrows draw only on their floor and never on the shared pool. -/
def Obligations.StrictContextsDraw : Prop :=
  ∀ (s : State) (b c : Nat), s.flag (Reg.ctxQos c) 16 = true → (s.mayIssue b c = true ↔ s.held b < s.txFloor)

/-- What power-on reset leaves, where the spec states it: station time 0, no power yet, every context FREE with generation 0, the cap of a C4 at
95 W, every clock at OPP0, no lease, no port up, nothing in memory (an unlisted byte reads 0, log entry 4), which is canonical, and no command
waiting. -/
def Obligations.ResetState : Prop :=
  State.reset.bell.now = 0 ∧ State.reset.pins.pwrGood = false ∧ State.reset.live = false ∧ (∀ x ∈ State.reset.ctxs, x.st = .free ∧ x.gen = 0) ∧
  State.reset.fld Reg.pwrCap 15 0 = 950 ∧ State.reset.power.clk = 0 ∧ (∀ c, c < 64 → State.reset.reg (Reg.ctxLease c) = 0) ∧
  (∀ p, p < 8 → State.reset.fld (Reg.fabPortCfg p) 2 1 = 0) ∧ State.reset.fld Reg.insBoot 3 0 = 0 ∧ State.reset.cells = [] ∧
  Memory.wf State.reset.cells = true ∧ State.reset.pending = []

/-- Every step keeps the canonical form of memory: addresses strictly rising, and no byte listed that reads as an unlisted one does. -/
def Obligations.StepKeepsMemoryCanonical : Prop :=
  ∀ s t : State, Memory.wf s.cells = true → step s = .next t → Memory.wf t.cells = true

end Statements
end

