-- ==== Sys2Proof/Laws/Data.lean ====
section
/-!
SUPPORT. Laws of the lists and sparse maps that State is made of: what is written is what is read, whatever else stands in them, and the
canonical form is kept.
-/
namespace Sys2Proof.Machine

/-! ## Lists by number -/

theorem nth_nil {α : Type} [Inhabited α] (i : Nat) : nth ([] : List α) i = default := by
  simp [nth]

theorem nth_cons_zero {α : Type} [Inhabited α] (a : α) (l : List α) : nth (a :: l) 0 = a := by
  simp [nth]

theorem nth_cons_succ {α : Type} [Inhabited α] (a : α) (l : List α) (i : Nat) : nth (a :: l) (i + 1) = nth l i := by
  simp [nth]

theorem nth_upd {α : Type} [Inhabited α] (l : List α) (i j : Nat) (f : α → α) :
    nth (upd l i f) j = if j = i then f (nth l i) else nth l j := by
  fun_induction upd l i f generalizing j with
  | case1 f => cases j <;> simp [nth]
  | case2 i f ih =>
    cases j with
    | zero => simp [nth]
    | succ j => simp only [nth_cons_succ, ih, nth_nil]; simp
  | case3 a r f => cases j <;> simp [nth]
  | case4 a r i f ih =>
    cases j with
    | zero => simp [nth]
    | succ j => simp only [nth_cons_succ, ih]; simp

@[simp] theorem nth_upd_self {α : Type} [Inhabited α] (l : List α) (i : Nat) (f : α → α) :
    nth (upd l i f) i = f (nth l i) := by simp [nth_upd]

theorem nth_upd_ne {α : Type} [Inhabited α] (l : List α) (i j : Nat) (f : α → α) (h : j ≠ i) :
    nth (upd l i f) j = nth l j := by simp [nth_upd, h]

theorem nth_put {α : Type} [Inhabited α] (l : List α) (i j : Nat) (v : α) :
    nth (put l i v) j = if j = i then v else nth l j := by simp [put, nth_upd]

@[simp] theorem nth_put_self {α : Type} [Inhabited α] (l : List α) (i : Nat) (v : α) : nth (put l i v) i = v := by
  simp [nth_put]

theorem nth_map {α : Type} [Inhabited α] (l : List α) (i : Nat) (f : α → α) (h : f default = default) :
    nth (l.map f) i = f (nth l i) := by
  simp only [nth, List.getD_eq_getElem?_getD, List.getElem?_map]
  cases l[i]? <;> simp [h]

/-! ## Sparse maps -/

theorem sparseGet_drop {V : Type} (d : V) (l : Sparse V) (k j : Nat) :
    sparseGet d (sparseDrop l k) j = if j = k then d else sparseGet d l j := by
  induction l with
  | nil => simp [sparseDrop, sparseGet]
  | cons p r ih =>
    obtain ⟨a, x⟩ := p
    by_cases h : a = k
    · subst h
      simp only [sparseDrop, if_true, ih, sparseGet]
      split
      · rfl
      · rename_i hj; simp [Ne.symm hj]
    · simp only [sparseDrop, h, if_false, sparseGet, ih]
      by_cases hj : a = j
      · subst hj; simp [h]
      · simp [hj]

theorem sparseGet_put {V : Type} (d : V) (l : Sparse V) (k j : Nat) (v : V) :
    sparseGet d (sparsePut l k v) j = if j = k then v else sparseGet d l j := by
  induction l with
  | nil => simp only [sparsePut, sparseGet]; by_cases h : k = j <;> simp [h, eq_comm]
  | cons p r ih =>
    obtain ⟨a, x⟩ := p
    simp only [sparsePut]
    split
    · simp only [sparseGet]; by_cases h : k = j <;> simp [h, eq_comm]
    · split
      · rename_i h; subst h
        simp only [sparseGet]; by_cases h : k = j <;> simp [h, eq_comm]
      · rename_i h1 h2
        simp only [sparseGet, ih]
        by_cases hj : a = j
        · subst hj; simp [Ne.symm h2]
        · simp [hj]

theorem sparseGet_set {V : Type} [DecidableEq V] (d d' : V) (l : Sparse V) (k j : Nat) (v : V) :
    sparseGet d (sparseSet d' l k v) j = if j = k then (if v = d' then d else v) else sparseGet d l j := by
  simp only [sparseSet]
  split
  · rw [sparseGet_drop]
  · rw [sparseGet_put]

theorem sparseGet_clear {V : Type} (d : V) (l : Sparse V) (lo n j : Nat) :
    sparseGet d (sparseClear l lo n) j = if lo ≤ j ∧ j < lo + n then d else sparseGet d l j := by
  induction l with
  | nil => simp [sparseClear, sparseGet]
  | cons p r ih =>
    obtain ⟨a, x⟩ := p
    simp only [sparseClear, List.filter_cons] at ih ⊢
    by_cases h : decide (a < lo) || decide (lo + n ≤ a)
    · simp only [h, if_true, sparseGet, ih]
      by_cases hj : a = j
      · subst hj
        simp only [Bool.or_eq_true, decide_eq_true_eq] at h
        have : ¬ (lo ≤ a ∧ a < lo + n) := by omega
        simp [this]
      · simp [hj]
    · rw [if_neg h, ih]
      simp only [Bool.or_eq_true, decide_eq_true_eq, not_or] at h
      simp only [sparseGet]
      by_cases hj : a = j
      · subst hj
        have : lo ≤ a ∧ a < lo + n := by omega
        simp [this]
      · simp [hj]

/-! ## The canonical form -/

/-- Keys strictly rising, as a list property. -/
theorem sparseSorted_iff {V : Type} (l : Sparse V) : sparseSorted l = true ↔ l.Pairwise (fun p q => p.1 < q.1) := by
  induction l with
  | nil => simp [sparseSorted]
  | cons p r ih =>
    cases r with
    | nil => simp [sparseSorted]
    | cons q r =>
      obtain ⟨a, x⟩ := p
      obtain ⟨b, y⟩ := q
      simp only [sparseSorted, Bool.and_eq_true, decide_eq_true_eq, ih]
      constructor
      · rintro ⟨h1, h2⟩
        refine List.pairwise_cons.2 ⟨?_, h2⟩
        intro z hz
        rcases List.mem_cons.1 hz with rfl | hz
        · exact h1
        · exact lt_trans h1 ((List.pairwise_cons.1 h2).1 z hz)
      · intro h
        exact ⟨(List.pairwise_cons.1 h).1 (b, y) (by simp), (List.pairwise_cons.1 h).2⟩

theorem sparseDrop_eq {V : Type} (l : Sparse V) (k : Nat) : sparseDrop l k = l.filter (fun p => p.1 ≠ k) := by
  induction l with
  | nil => rfl
  | cons p r ih =>
    obtain ⟨a, x⟩ := p
    by_cases h : a = k <;> simp_all [sparseDrop]

theorem mem_sparsePut {V : Type} (l : Sparse V) (k : Nat) (v : V) (p : Nat × V) (h : p ∈ sparsePut l k v) :
    p = (k, v) ∨ p ∈ l := by
  induction l with
  | nil => simpa [sparsePut] using h
  | cons q r ih =>
    obtain ⟨a, x⟩ := q
    simp only [sparsePut] at h
    split at h
    · simpa using h
    · split at h
      · rcases List.mem_cons.1 h with h | h
        · exact Or.inl h
        · exact Or.inr (List.mem_cons_of_mem _ h)
      · rcases List.mem_cons.1 h with h | h
        · exact Or.inr (by simp [h])
        · rcases ih h with h | h
          · exact Or.inl h
          · exact Or.inr (List.mem_cons_of_mem _ h)

theorem pairwise_sparsePut {V : Type} (l : Sparse V) (k : Nat) (v : V) (h : l.Pairwise (fun p q => p.1 < q.1)) :
    (sparsePut l k v).Pairwise (fun p q => p.1 < q.1) := by
  induction l with
  | nil => simp [sparsePut]
  | cons q r ih =>
    obtain ⟨a, x⟩ := q
    have hr := List.pairwise_cons.1 h
    simp only [sparsePut]
    split
    · rename_i hk
      refine List.pairwise_cons.2 ⟨?_, h⟩
      intro z hz
      rcases List.mem_cons.1 hz with rfl | hz
      · exact hk
      · exact lt_trans hk (hr.1 z hz)
    · split
      · rename_i _ hk
        subst hk
        exact List.pairwise_cons.2 ⟨hr.1, hr.2⟩
      · rename_i h1 h2
        refine List.pairwise_cons.2 ⟨?_, ih hr.2⟩
        intro z hz
        rcases mem_sparsePut r k v z hz with rfl | hz
        · simp only; omega
        · exact hr.1 z hz

theorem sparseWf_iff {V : Type} [DecidableEq V] (dflt : Nat → V) (l : Sparse V) :
    sparseWf dflt l = true ↔ l.Pairwise (fun p q => p.1 < q.1) ∧ ∀ p ∈ l, p.2 ≠ dflt p.1 := by
  simp [sparseWf, sparseSorted_iff]

theorem sparseWf_nil {V : Type} [DecidableEq V] (dflt : Nat → V) : sparseWf dflt ([] : Sparse V) = true := rfl

theorem sparseWf_set {V : Type} [DecidableEq V] (dflt : Nat → V) (l : Sparse V) (k : Nat) (v : V) (h : sparseWf dflt l = true) :
    sparseWf dflt (sparseSet (dflt k) l k v) = true := by
  rw [sparseWf_iff] at h ⊢
  simp only [sparseSet]
  split
  · rw [sparseDrop_eq]
    exact ⟨h.1.filter _, fun p hp => h.2 p (List.mem_of_mem_filter hp)⟩
  · rename_i hv
    refine ⟨pairwise_sparsePut l k v h.1, fun p hp => ?_⟩
    rcases mem_sparsePut l k v p hp with rfl | hp
    · exact hv
    · exact h.2 p hp

theorem sparseWf_clear {V : Type} [DecidableEq V] (dflt : Nat → V) (l : Sparse V) (lo n : Nat) (h : sparseWf dflt l = true) :
    sparseWf dflt (sparseClear l lo n) = true := by
  rw [sparseWf_iff] at h ⊢
  exact ⟨h.1.filter _, fun p hp => h.2 p (List.mem_of_mem_filter hp)⟩

end Sys2Proof.Machine
end

