-- ==== Sys2Proof/Laws/State.lean ====
section
/-!
SUPPORT. One lemma for each field of State and each update: what an update leaves, true by rfl, so that no later proof unfolds a record
update; then what each update does to what the readers read.
-/
namespace Sys2Proof.Machine

open Sys2Proof

/-! ### setReg -/

@[simp] theorem State.setReg_straps (s : State) (o : Nat) (v : Word) : (s.setReg o v).straps = s.straps := rfl
@[simp] theorem State.setReg_regs (s : State) (o : Nat) (v : Word) : (s.setReg o v).regs = sparseSet (regReset s.straps o) s.regs o v := rfl
@[simp] theorem State.setReg_latches (s : State) (o : Nat) (v : Word) : (s.setReg o v).latches = s.latches := rfl
@[simp] theorem State.setReg_nowLatch (s : State) (o : Nat) (v : Word) : (s.setReg o v).nowLatch = s.nowLatch := rfl
@[simp] theorem State.setReg_up (s : State) (o : Nat) (v : Word) : (s.setReg o v).up = s.up := rfl
@[simp] theorem State.setReg_cycAcc (s : State) (o : Nat) (v : Word) : (s.setReg o v).cycAcc = s.cycAcc := rfl
@[simp] theorem State.setReg_free (s : State) (o : Nat) (v : Word) : (s.setReg o v).free = s.free := rfl
@[simp] theorem State.setReg_bell (s : State) (o : Nat) (v : Word) : (s.setReg o v).bell = s.bell := rfl
@[simp] theorem State.setReg_groups (s : State) (o : Nat) (v : Word) : (s.setReg o v).groups = s.groups := rfl
@[simp] theorem State.setReg_ctxs (s : State) (o : Nat) (v : Word) : (s.setReg o v).ctxs = s.ctxs := rfl
@[simp] theorem State.setReg_lanes (s : State) (o : Nat) (v : Word) : (s.setReg o v).lanes = s.lanes := rfl
@[simp] theorem State.setReg_tiles (s : State) (o : Nat) (v : Word) : (s.setReg o v).tiles = s.tiles := rfl
@[simp] theorem State.setReg_clusters (s : State) (o : Nat) (v : Word) : (s.setReg o v).clusters = s.clusters := rfl
@[simp] theorem State.setReg_ops (s : State) (o : Nat) (v : Word) : (s.setReg o v).ops = s.ops := rfl
@[simp] theorem State.setReg_nextOp (s : State) (o : Nat) (v : Word) : (s.setReg o v).nextOp = s.nextOp := rfl
@[simp] theorem State.setReg_barrows (s : State) (o : Nat) (v : Word) : (s.setReg o v).barrows = s.barrows := rfl
@[simp] theorem State.setReg_reqs (s : State) (o : Nat) (v : Word) : (s.setReg o v).reqs = s.reqs := rfl
@[simp] theorem State.setReg_nextTag (s : State) (o : Nat) (v : Word) : (s.setReg o v).nextTag = s.nextTag := rfl
@[simp] theorem State.setReg_dumpHeld (s : State) (o : Nat) (v : Word) : (s.setReg o v).dumpHeld = s.dumpHeld := rfl
@[simp] theorem State.setReg_loop (s : State) (o : Nat) (v : Word) : (s.setReg o v).loop = s.loop := rfl
@[simp] theorem State.setReg_relayNext (s : State) (o : Nat) (v : Word) : (s.setReg o v).relayNext = s.relayNext := rfl
@[simp] theorem State.setReg_relayHeld (s : State) (o : Nat) (v : Word) : (s.setReg o v).relayHeld = s.relayHeld := rfl
@[simp] theorem State.setReg_relays (s : State) (o : Nat) (v : Word) : (s.setReg o v).relays = s.relays := rfl
@[simp] theorem State.setReg_tlb (s : State) (o : Nat) (v : Word) : (s.setReg o v).tlb = s.tlb := rfl
@[simp] theorem State.setReg_xreqs (s : State) (o : Nat) (v : Word) : (s.setReg o v).xreqs = s.xreqs := rfl
@[simp] theorem State.setReg_nextX (s : State) (o : Nat) (v : Word) : (s.setReg o v).nextX = s.nextX := rfl
@[simp] theorem State.setReg_pageReqs (s : State) (o : Nat) (v : Word) : (s.setReg o v).pageReqs = s.pageReqs := rfl
@[simp] theorem State.setReg_withdraws (s : State) (o : Nat) (v : Word) : (s.setReg o v).withdraws = s.withdraws := rfl
@[simp] theorem State.setReg_nextWd (s : State) (o : Nat) (v : Word) : (s.setReg o v).nextWd = s.nextWd := rfl
@[simp] theorem State.setReg_ports (s : State) (o : Nat) (v : Word) : (s.setReg o v).ports = s.ports := rfl
@[simp] theorem State.setReg_inbox (s : State) (o : Nat) (v : Word) : (s.setReg o v).inbox = s.inbox := rfl
@[simp] theorem State.setReg_keys (s : State) (o : Nat) (v : Word) : (s.setReg o v).keys = s.keys := rfl
@[simp] theorem State.setReg_barGroups (s : State) (o : Nat) (v : Word) : (s.setReg o v).barGroups = s.barGroups := rfl
@[simp] theorem State.setReg_mem (s : State) (o : Nat) (v : Word) : (s.setReg o v).mem = s.mem := rfl
@[simp] theorem State.setReg_cells (s : State) (o : Nat) (v : Word) : (s.setReg o v).cells = s.cells := rfl
@[simp] theorem State.setReg_inject (s : State) (o : Nat) (v : Word) : (s.setReg o v).inject = s.inject := rfl
@[simp] theorem State.setReg_breset (s : State) (o : Nat) (v : Word) : (s.setReg o v).breset = s.breset := rfl
@[simp] theorem State.setReg_power (s : State) (o : Nat) (v : Word) : (s.setReg o v).power = s.power := rfl
@[simp] theorem State.setReg_insp (s : State) (o : Nat) (v : Word) : (s.setReg o v).insp = s.insp := rfl
@[simp] theorem State.setReg_pins (s : State) (o : Nat) (v : Word) : (s.setReg o v).pins = s.pins := rfl
@[simp] theorem State.setReg_bootUp (s : State) (o : Nat) (v : Word) : (s.setReg o v).bootUp = s.bootUp := rfl
@[simp] theorem State.setReg_turnTimed (s : State) (o : Nat) (v : Word) : (s.setReg o v).turnTimed = s.turnTimed := rfl
@[simp] theorem State.setReg_turnOther (s : State) (o : Nat) (v : Word) : (s.setReg o v).turnOther = s.turnOther := rfl
@[simp] theorem State.setReg_debugHeld (s : State) (o : Nat) (v : Word) : (s.setReg o v).debugHeld = s.debugHeld := rfl
@[simp] theorem State.setReg_grantTurn (s : State) (o : Nat) (v : Word) : (s.setReg o v).grantTurn = s.grantTurn := rfl
@[simp] theorem State.setReg_out (s : State) (o : Nat) (v : Word) : (s.setReg o v).out = s.out := rfl
@[simp] theorem State.setReg_pending (s : State) (o : Nat) (v : Word) : (s.setReg o v).pending = s.pending := rfl

/-! ### setFld -/

@[simp] theorem State.setFld_straps (s : State) (o hi lo v : Nat) : (s.setFld o hi lo v).straps = s.straps := rfl
@[simp] theorem State.setFld_latches (s : State) (o hi lo v : Nat) : (s.setFld o hi lo v).latches = s.latches := rfl
@[simp] theorem State.setFld_nowLatch (s : State) (o hi lo v : Nat) : (s.setFld o hi lo v).nowLatch = s.nowLatch := rfl
@[simp] theorem State.setFld_up (s : State) (o hi lo v : Nat) : (s.setFld o hi lo v).up = s.up := rfl
@[simp] theorem State.setFld_cycAcc (s : State) (o hi lo v : Nat) : (s.setFld o hi lo v).cycAcc = s.cycAcc := rfl
@[simp] theorem State.setFld_free (s : State) (o hi lo v : Nat) : (s.setFld o hi lo v).free = s.free := rfl
@[simp] theorem State.setFld_bell (s : State) (o hi lo v : Nat) : (s.setFld o hi lo v).bell = s.bell := rfl
@[simp] theorem State.setFld_groups (s : State) (o hi lo v : Nat) : (s.setFld o hi lo v).groups = s.groups := rfl
@[simp] theorem State.setFld_ctxs (s : State) (o hi lo v : Nat) : (s.setFld o hi lo v).ctxs = s.ctxs := rfl
@[simp] theorem State.setFld_lanes (s : State) (o hi lo v : Nat) : (s.setFld o hi lo v).lanes = s.lanes := rfl
@[simp] theorem State.setFld_tiles (s : State) (o hi lo v : Nat) : (s.setFld o hi lo v).tiles = s.tiles := rfl
@[simp] theorem State.setFld_clusters (s : State) (o hi lo v : Nat) : (s.setFld o hi lo v).clusters = s.clusters := rfl
@[simp] theorem State.setFld_ops (s : State) (o hi lo v : Nat) : (s.setFld o hi lo v).ops = s.ops := rfl
@[simp] theorem State.setFld_nextOp (s : State) (o hi lo v : Nat) : (s.setFld o hi lo v).nextOp = s.nextOp := rfl
@[simp] theorem State.setFld_barrows (s : State) (o hi lo v : Nat) : (s.setFld o hi lo v).barrows = s.barrows := rfl
@[simp] theorem State.setFld_reqs (s : State) (o hi lo v : Nat) : (s.setFld o hi lo v).reqs = s.reqs := rfl
@[simp] theorem State.setFld_nextTag (s : State) (o hi lo v : Nat) : (s.setFld o hi lo v).nextTag = s.nextTag := rfl
@[simp] theorem State.setFld_dumpHeld (s : State) (o hi lo v : Nat) : (s.setFld o hi lo v).dumpHeld = s.dumpHeld := rfl
@[simp] theorem State.setFld_loop (s : State) (o hi lo v : Nat) : (s.setFld o hi lo v).loop = s.loop := rfl
@[simp] theorem State.setFld_relayNext (s : State) (o hi lo v : Nat) : (s.setFld o hi lo v).relayNext = s.relayNext := rfl
@[simp] theorem State.setFld_relayHeld (s : State) (o hi lo v : Nat) : (s.setFld o hi lo v).relayHeld = s.relayHeld := rfl
@[simp] theorem State.setFld_relays (s : State) (o hi lo v : Nat) : (s.setFld o hi lo v).relays = s.relays := rfl
@[simp] theorem State.setFld_tlb (s : State) (o hi lo v : Nat) : (s.setFld o hi lo v).tlb = s.tlb := rfl
@[simp] theorem State.setFld_xreqs (s : State) (o hi lo v : Nat) : (s.setFld o hi lo v).xreqs = s.xreqs := rfl
@[simp] theorem State.setFld_nextX (s : State) (o hi lo v : Nat) : (s.setFld o hi lo v).nextX = s.nextX := rfl
@[simp] theorem State.setFld_pageReqs (s : State) (o hi lo v : Nat) : (s.setFld o hi lo v).pageReqs = s.pageReqs := rfl
@[simp] theorem State.setFld_withdraws (s : State) (o hi lo v : Nat) : (s.setFld o hi lo v).withdraws = s.withdraws := rfl
@[simp] theorem State.setFld_nextWd (s : State) (o hi lo v : Nat) : (s.setFld o hi lo v).nextWd = s.nextWd := rfl
@[simp] theorem State.setFld_ports (s : State) (o hi lo v : Nat) : (s.setFld o hi lo v).ports = s.ports := rfl
@[simp] theorem State.setFld_inbox (s : State) (o hi lo v : Nat) : (s.setFld o hi lo v).inbox = s.inbox := rfl
@[simp] theorem State.setFld_keys (s : State) (o hi lo v : Nat) : (s.setFld o hi lo v).keys = s.keys := rfl
@[simp] theorem State.setFld_barGroups (s : State) (o hi lo v : Nat) : (s.setFld o hi lo v).barGroups = s.barGroups := rfl
@[simp] theorem State.setFld_mem (s : State) (o hi lo v : Nat) : (s.setFld o hi lo v).mem = s.mem := rfl
@[simp] theorem State.setFld_cells (s : State) (o hi lo v : Nat) : (s.setFld o hi lo v).cells = s.cells := rfl
@[simp] theorem State.setFld_inject (s : State) (o hi lo v : Nat) : (s.setFld o hi lo v).inject = s.inject := rfl
@[simp] theorem State.setFld_breset (s : State) (o hi lo v : Nat) : (s.setFld o hi lo v).breset = s.breset := rfl
@[simp] theorem State.setFld_power (s : State) (o hi lo v : Nat) : (s.setFld o hi lo v).power = s.power := rfl
@[simp] theorem State.setFld_insp (s : State) (o hi lo v : Nat) : (s.setFld o hi lo v).insp = s.insp := rfl
@[simp] theorem State.setFld_pins (s : State) (o hi lo v : Nat) : (s.setFld o hi lo v).pins = s.pins := rfl
@[simp] theorem State.setFld_bootUp (s : State) (o hi lo v : Nat) : (s.setFld o hi lo v).bootUp = s.bootUp := rfl
@[simp] theorem State.setFld_turnTimed (s : State) (o hi lo v : Nat) : (s.setFld o hi lo v).turnTimed = s.turnTimed := rfl
@[simp] theorem State.setFld_turnOther (s : State) (o hi lo v : Nat) : (s.setFld o hi lo v).turnOther = s.turnOther := rfl
@[simp] theorem State.setFld_debugHeld (s : State) (o hi lo v : Nat) : (s.setFld o hi lo v).debugHeld = s.debugHeld := rfl
@[simp] theorem State.setFld_grantTurn (s : State) (o hi lo v : Nat) : (s.setFld o hi lo v).grantTurn = s.grantTurn := rfl
@[simp] theorem State.setFld_out (s : State) (o hi lo v : Nat) : (s.setFld o hi lo v).out = s.out := rfl
@[simp] theorem State.setFld_pending (s : State) (o hi lo v : Nat) : (s.setFld o hi lo v).pending = s.pending := rfl

/-! ### setBitsIn -/

@[simp] theorem State.setBitsIn_straps (s : State) (o m : Nat) : (s.setBitsIn o m).straps = s.straps := rfl
@[simp] theorem State.setBitsIn_latches (s : State) (o m : Nat) : (s.setBitsIn o m).latches = s.latches := rfl
@[simp] theorem State.setBitsIn_nowLatch (s : State) (o m : Nat) : (s.setBitsIn o m).nowLatch = s.nowLatch := rfl
@[simp] theorem State.setBitsIn_up (s : State) (o m : Nat) : (s.setBitsIn o m).up = s.up := rfl
@[simp] theorem State.setBitsIn_cycAcc (s : State) (o m : Nat) : (s.setBitsIn o m).cycAcc = s.cycAcc := rfl
@[simp] theorem State.setBitsIn_free (s : State) (o m : Nat) : (s.setBitsIn o m).free = s.free := rfl
@[simp] theorem State.setBitsIn_bell (s : State) (o m : Nat) : (s.setBitsIn o m).bell = s.bell := rfl
@[simp] theorem State.setBitsIn_groups (s : State) (o m : Nat) : (s.setBitsIn o m).groups = s.groups := rfl
@[simp] theorem State.setBitsIn_ctxs (s : State) (o m : Nat) : (s.setBitsIn o m).ctxs = s.ctxs := rfl
@[simp] theorem State.setBitsIn_lanes (s : State) (o m : Nat) : (s.setBitsIn o m).lanes = s.lanes := rfl
@[simp] theorem State.setBitsIn_tiles (s : State) (o m : Nat) : (s.setBitsIn o m).tiles = s.tiles := rfl
@[simp] theorem State.setBitsIn_clusters (s : State) (o m : Nat) : (s.setBitsIn o m).clusters = s.clusters := rfl
@[simp] theorem State.setBitsIn_ops (s : State) (o m : Nat) : (s.setBitsIn o m).ops = s.ops := rfl
@[simp] theorem State.setBitsIn_nextOp (s : State) (o m : Nat) : (s.setBitsIn o m).nextOp = s.nextOp := rfl
@[simp] theorem State.setBitsIn_barrows (s : State) (o m : Nat) : (s.setBitsIn o m).barrows = s.barrows := rfl
@[simp] theorem State.setBitsIn_reqs (s : State) (o m : Nat) : (s.setBitsIn o m).reqs = s.reqs := rfl
@[simp] theorem State.setBitsIn_nextTag (s : State) (o m : Nat) : (s.setBitsIn o m).nextTag = s.nextTag := rfl
@[simp] theorem State.setBitsIn_dumpHeld (s : State) (o m : Nat) : (s.setBitsIn o m).dumpHeld = s.dumpHeld := rfl
@[simp] theorem State.setBitsIn_loop (s : State) (o m : Nat) : (s.setBitsIn o m).loop = s.loop := rfl
@[simp] theorem State.setBitsIn_relayNext (s : State) (o m : Nat) : (s.setBitsIn o m).relayNext = s.relayNext := rfl
@[simp] theorem State.setBitsIn_relayHeld (s : State) (o m : Nat) : (s.setBitsIn o m).relayHeld = s.relayHeld := rfl
@[simp] theorem State.setBitsIn_relays (s : State) (o m : Nat) : (s.setBitsIn o m).relays = s.relays := rfl
@[simp] theorem State.setBitsIn_tlb (s : State) (o m : Nat) : (s.setBitsIn o m).tlb = s.tlb := rfl
@[simp] theorem State.setBitsIn_xreqs (s : State) (o m : Nat) : (s.setBitsIn o m).xreqs = s.xreqs := rfl
@[simp] theorem State.setBitsIn_nextX (s : State) (o m : Nat) : (s.setBitsIn o m).nextX = s.nextX := rfl
@[simp] theorem State.setBitsIn_pageReqs (s : State) (o m : Nat) : (s.setBitsIn o m).pageReqs = s.pageReqs := rfl
@[simp] theorem State.setBitsIn_withdraws (s : State) (o m : Nat) : (s.setBitsIn o m).withdraws = s.withdraws := rfl
@[simp] theorem State.setBitsIn_nextWd (s : State) (o m : Nat) : (s.setBitsIn o m).nextWd = s.nextWd := rfl
@[simp] theorem State.setBitsIn_ports (s : State) (o m : Nat) : (s.setBitsIn o m).ports = s.ports := rfl
@[simp] theorem State.setBitsIn_inbox (s : State) (o m : Nat) : (s.setBitsIn o m).inbox = s.inbox := rfl
@[simp] theorem State.setBitsIn_keys (s : State) (o m : Nat) : (s.setBitsIn o m).keys = s.keys := rfl
@[simp] theorem State.setBitsIn_barGroups (s : State) (o m : Nat) : (s.setBitsIn o m).barGroups = s.barGroups := rfl
@[simp] theorem State.setBitsIn_mem (s : State) (o m : Nat) : (s.setBitsIn o m).mem = s.mem := rfl
@[simp] theorem State.setBitsIn_cells (s : State) (o m : Nat) : (s.setBitsIn o m).cells = s.cells := rfl
@[simp] theorem State.setBitsIn_inject (s : State) (o m : Nat) : (s.setBitsIn o m).inject = s.inject := rfl
@[simp] theorem State.setBitsIn_breset (s : State) (o m : Nat) : (s.setBitsIn o m).breset = s.breset := rfl
@[simp] theorem State.setBitsIn_power (s : State) (o m : Nat) : (s.setBitsIn o m).power = s.power := rfl
@[simp] theorem State.setBitsIn_insp (s : State) (o m : Nat) : (s.setBitsIn o m).insp = s.insp := rfl
@[simp] theorem State.setBitsIn_pins (s : State) (o m : Nat) : (s.setBitsIn o m).pins = s.pins := rfl
@[simp] theorem State.setBitsIn_bootUp (s : State) (o m : Nat) : (s.setBitsIn o m).bootUp = s.bootUp := rfl
@[simp] theorem State.setBitsIn_turnTimed (s : State) (o m : Nat) : (s.setBitsIn o m).turnTimed = s.turnTimed := rfl
@[simp] theorem State.setBitsIn_turnOther (s : State) (o m : Nat) : (s.setBitsIn o m).turnOther = s.turnOther := rfl
@[simp] theorem State.setBitsIn_debugHeld (s : State) (o m : Nat) : (s.setBitsIn o m).debugHeld = s.debugHeld := rfl
@[simp] theorem State.setBitsIn_grantTurn (s : State) (o m : Nat) : (s.setBitsIn o m).grantTurn = s.grantTurn := rfl
@[simp] theorem State.setBitsIn_out (s : State) (o m : Nat) : (s.setBitsIn o m).out = s.out := rfl
@[simp] theorem State.setBitsIn_pending (s : State) (o m : Nat) : (s.setBitsIn o m).pending = s.pending := rfl

/-! ### incSat -/

@[simp] theorem State.incSat_straps (s : State) (o hi lo n : Nat) : (s.incSat o hi lo n).straps = s.straps := rfl
@[simp] theorem State.incSat_latches (s : State) (o hi lo n : Nat) : (s.incSat o hi lo n).latches = s.latches := rfl
@[simp] theorem State.incSat_nowLatch (s : State) (o hi lo n : Nat) : (s.incSat o hi lo n).nowLatch = s.nowLatch := rfl
@[simp] theorem State.incSat_up (s : State) (o hi lo n : Nat) : (s.incSat o hi lo n).up = s.up := rfl
@[simp] theorem State.incSat_cycAcc (s : State) (o hi lo n : Nat) : (s.incSat o hi lo n).cycAcc = s.cycAcc := rfl
@[simp] theorem State.incSat_free (s : State) (o hi lo n : Nat) : (s.incSat o hi lo n).free = s.free := rfl
@[simp] theorem State.incSat_bell (s : State) (o hi lo n : Nat) : (s.incSat o hi lo n).bell = s.bell := rfl
@[simp] theorem State.incSat_groups (s : State) (o hi lo n : Nat) : (s.incSat o hi lo n).groups = s.groups := rfl
@[simp] theorem State.incSat_ctxs (s : State) (o hi lo n : Nat) : (s.incSat o hi lo n).ctxs = s.ctxs := rfl
@[simp] theorem State.incSat_lanes (s : State) (o hi lo n : Nat) : (s.incSat o hi lo n).lanes = s.lanes := rfl
@[simp] theorem State.incSat_tiles (s : State) (o hi lo n : Nat) : (s.incSat o hi lo n).tiles = s.tiles := rfl
@[simp] theorem State.incSat_clusters (s : State) (o hi lo n : Nat) : (s.incSat o hi lo n).clusters = s.clusters := rfl
@[simp] theorem State.incSat_ops (s : State) (o hi lo n : Nat) : (s.incSat o hi lo n).ops = s.ops := rfl
@[simp] theorem State.incSat_nextOp (s : State) (o hi lo n : Nat) : (s.incSat o hi lo n).nextOp = s.nextOp := rfl
@[simp] theorem State.incSat_barrows (s : State) (o hi lo n : Nat) : (s.incSat o hi lo n).barrows = s.barrows := rfl
@[simp] theorem State.incSat_reqs (s : State) (o hi lo n : Nat) : (s.incSat o hi lo n).reqs = s.reqs := rfl
@[simp] theorem State.incSat_nextTag (s : State) (o hi lo n : Nat) : (s.incSat o hi lo n).nextTag = s.nextTag := rfl
@[simp] theorem State.incSat_dumpHeld (s : State) (o hi lo n : Nat) : (s.incSat o hi lo n).dumpHeld = s.dumpHeld := rfl
@[simp] theorem State.incSat_loop (s : State) (o hi lo n : Nat) : (s.incSat o hi lo n).loop = s.loop := rfl
@[simp] theorem State.incSat_relayNext (s : State) (o hi lo n : Nat) : (s.incSat o hi lo n).relayNext = s.relayNext := rfl
@[simp] theorem State.incSat_relayHeld (s : State) (o hi lo n : Nat) : (s.incSat o hi lo n).relayHeld = s.relayHeld := rfl
@[simp] theorem State.incSat_relays (s : State) (o hi lo n : Nat) : (s.incSat o hi lo n).relays = s.relays := rfl
@[simp] theorem State.incSat_tlb (s : State) (o hi lo n : Nat) : (s.incSat o hi lo n).tlb = s.tlb := rfl
@[simp] theorem State.incSat_xreqs (s : State) (o hi lo n : Nat) : (s.incSat o hi lo n).xreqs = s.xreqs := rfl
@[simp] theorem State.incSat_nextX (s : State) (o hi lo n : Nat) : (s.incSat o hi lo n).nextX = s.nextX := rfl
@[simp] theorem State.incSat_pageReqs (s : State) (o hi lo n : Nat) : (s.incSat o hi lo n).pageReqs = s.pageReqs := rfl
@[simp] theorem State.incSat_withdraws (s : State) (o hi lo n : Nat) : (s.incSat o hi lo n).withdraws = s.withdraws := rfl
@[simp] theorem State.incSat_nextWd (s : State) (o hi lo n : Nat) : (s.incSat o hi lo n).nextWd = s.nextWd := rfl
@[simp] theorem State.incSat_ports (s : State) (o hi lo n : Nat) : (s.incSat o hi lo n).ports = s.ports := rfl
@[simp] theorem State.incSat_inbox (s : State) (o hi lo n : Nat) : (s.incSat o hi lo n).inbox = s.inbox := rfl
@[simp] theorem State.incSat_keys (s : State) (o hi lo n : Nat) : (s.incSat o hi lo n).keys = s.keys := rfl
@[simp] theorem State.incSat_barGroups (s : State) (o hi lo n : Nat) : (s.incSat o hi lo n).barGroups = s.barGroups := rfl
@[simp] theorem State.incSat_mem (s : State) (o hi lo n : Nat) : (s.incSat o hi lo n).mem = s.mem := rfl
@[simp] theorem State.incSat_cells (s : State) (o hi lo n : Nat) : (s.incSat o hi lo n).cells = s.cells := rfl
@[simp] theorem State.incSat_inject (s : State) (o hi lo n : Nat) : (s.incSat o hi lo n).inject = s.inject := rfl
@[simp] theorem State.incSat_breset (s : State) (o hi lo n : Nat) : (s.incSat o hi lo n).breset = s.breset := rfl
@[simp] theorem State.incSat_power (s : State) (o hi lo n : Nat) : (s.incSat o hi lo n).power = s.power := rfl
@[simp] theorem State.incSat_insp (s : State) (o hi lo n : Nat) : (s.incSat o hi lo n).insp = s.insp := rfl
@[simp] theorem State.incSat_pins (s : State) (o hi lo n : Nat) : (s.incSat o hi lo n).pins = s.pins := rfl
@[simp] theorem State.incSat_bootUp (s : State) (o hi lo n : Nat) : (s.incSat o hi lo n).bootUp = s.bootUp := rfl
@[simp] theorem State.incSat_turnTimed (s : State) (o hi lo n : Nat) : (s.incSat o hi lo n).turnTimed = s.turnTimed := rfl
@[simp] theorem State.incSat_turnOther (s : State) (o hi lo n : Nat) : (s.incSat o hi lo n).turnOther = s.turnOther := rfl
@[simp] theorem State.incSat_debugHeld (s : State) (o hi lo n : Nat) : (s.incSat o hi lo n).debugHeld = s.debugHeld := rfl
@[simp] theorem State.incSat_grantTurn (s : State) (o hi lo n : Nat) : (s.incSat o hi lo n).grantTurn = s.grantTurn := rfl
@[simp] theorem State.incSat_out (s : State) (o hi lo n : Nat) : (s.incSat o hi lo n).out = s.out := rfl
@[simp] theorem State.incSat_pending (s : State) (o hi lo n : Nat) : (s.incSat o hi lo n).pending = s.pending := rfl

/-! ### incWrap -/

@[simp] theorem State.incWrap_straps (s : State) (o hi lo n : Nat) : (s.incWrap o hi lo n).straps = s.straps := rfl
@[simp] theorem State.incWrap_latches (s : State) (o hi lo n : Nat) : (s.incWrap o hi lo n).latches = s.latches := rfl
@[simp] theorem State.incWrap_nowLatch (s : State) (o hi lo n : Nat) : (s.incWrap o hi lo n).nowLatch = s.nowLatch := rfl
@[simp] theorem State.incWrap_up (s : State) (o hi lo n : Nat) : (s.incWrap o hi lo n).up = s.up := rfl
@[simp] theorem State.incWrap_cycAcc (s : State) (o hi lo n : Nat) : (s.incWrap o hi lo n).cycAcc = s.cycAcc := rfl
@[simp] theorem State.incWrap_free (s : State) (o hi lo n : Nat) : (s.incWrap o hi lo n).free = s.free := rfl
@[simp] theorem State.incWrap_bell (s : State) (o hi lo n : Nat) : (s.incWrap o hi lo n).bell = s.bell := rfl
@[simp] theorem State.incWrap_groups (s : State) (o hi lo n : Nat) : (s.incWrap o hi lo n).groups = s.groups := rfl
@[simp] theorem State.incWrap_ctxs (s : State) (o hi lo n : Nat) : (s.incWrap o hi lo n).ctxs = s.ctxs := rfl
@[simp] theorem State.incWrap_lanes (s : State) (o hi lo n : Nat) : (s.incWrap o hi lo n).lanes = s.lanes := rfl
@[simp] theorem State.incWrap_tiles (s : State) (o hi lo n : Nat) : (s.incWrap o hi lo n).tiles = s.tiles := rfl
@[simp] theorem State.incWrap_clusters (s : State) (o hi lo n : Nat) : (s.incWrap o hi lo n).clusters = s.clusters := rfl
@[simp] theorem State.incWrap_ops (s : State) (o hi lo n : Nat) : (s.incWrap o hi lo n).ops = s.ops := rfl
@[simp] theorem State.incWrap_nextOp (s : State) (o hi lo n : Nat) : (s.incWrap o hi lo n).nextOp = s.nextOp := rfl
@[simp] theorem State.incWrap_barrows (s : State) (o hi lo n : Nat) : (s.incWrap o hi lo n).barrows = s.barrows := rfl
@[simp] theorem State.incWrap_reqs (s : State) (o hi lo n : Nat) : (s.incWrap o hi lo n).reqs = s.reqs := rfl
@[simp] theorem State.incWrap_nextTag (s : State) (o hi lo n : Nat) : (s.incWrap o hi lo n).nextTag = s.nextTag := rfl
@[simp] theorem State.incWrap_dumpHeld (s : State) (o hi lo n : Nat) : (s.incWrap o hi lo n).dumpHeld = s.dumpHeld := rfl
@[simp] theorem State.incWrap_loop (s : State) (o hi lo n : Nat) : (s.incWrap o hi lo n).loop = s.loop := rfl
@[simp] theorem State.incWrap_relayNext (s : State) (o hi lo n : Nat) : (s.incWrap o hi lo n).relayNext = s.relayNext := rfl
@[simp] theorem State.incWrap_relayHeld (s : State) (o hi lo n : Nat) : (s.incWrap o hi lo n).relayHeld = s.relayHeld := rfl
@[simp] theorem State.incWrap_relays (s : State) (o hi lo n : Nat) : (s.incWrap o hi lo n).relays = s.relays := rfl
@[simp] theorem State.incWrap_tlb (s : State) (o hi lo n : Nat) : (s.incWrap o hi lo n).tlb = s.tlb := rfl
@[simp] theorem State.incWrap_xreqs (s : State) (o hi lo n : Nat) : (s.incWrap o hi lo n).xreqs = s.xreqs := rfl
@[simp] theorem State.incWrap_nextX (s : State) (o hi lo n : Nat) : (s.incWrap o hi lo n).nextX = s.nextX := rfl
@[simp] theorem State.incWrap_pageReqs (s : State) (o hi lo n : Nat) : (s.incWrap o hi lo n).pageReqs = s.pageReqs := rfl
@[simp] theorem State.incWrap_withdraws (s : State) (o hi lo n : Nat) : (s.incWrap o hi lo n).withdraws = s.withdraws := rfl
@[simp] theorem State.incWrap_nextWd (s : State) (o hi lo n : Nat) : (s.incWrap o hi lo n).nextWd = s.nextWd := rfl
@[simp] theorem State.incWrap_ports (s : State) (o hi lo n : Nat) : (s.incWrap o hi lo n).ports = s.ports := rfl
@[simp] theorem State.incWrap_inbox (s : State) (o hi lo n : Nat) : (s.incWrap o hi lo n).inbox = s.inbox := rfl
@[simp] theorem State.incWrap_keys (s : State) (o hi lo n : Nat) : (s.incWrap o hi lo n).keys = s.keys := rfl
@[simp] theorem State.incWrap_barGroups (s : State) (o hi lo n : Nat) : (s.incWrap o hi lo n).barGroups = s.barGroups := rfl
@[simp] theorem State.incWrap_mem (s : State) (o hi lo n : Nat) : (s.incWrap o hi lo n).mem = s.mem := rfl
@[simp] theorem State.incWrap_cells (s : State) (o hi lo n : Nat) : (s.incWrap o hi lo n).cells = s.cells := rfl
@[simp] theorem State.incWrap_inject (s : State) (o hi lo n : Nat) : (s.incWrap o hi lo n).inject = s.inject := rfl
@[simp] theorem State.incWrap_breset (s : State) (o hi lo n : Nat) : (s.incWrap o hi lo n).breset = s.breset := rfl
@[simp] theorem State.incWrap_power (s : State) (o hi lo n : Nat) : (s.incWrap o hi lo n).power = s.power := rfl
@[simp] theorem State.incWrap_insp (s : State) (o hi lo n : Nat) : (s.incWrap o hi lo n).insp = s.insp := rfl
@[simp] theorem State.incWrap_pins (s : State) (o hi lo n : Nat) : (s.incWrap o hi lo n).pins = s.pins := rfl
@[simp] theorem State.incWrap_bootUp (s : State) (o hi lo n : Nat) : (s.incWrap o hi lo n).bootUp = s.bootUp := rfl
@[simp] theorem State.incWrap_turnTimed (s : State) (o hi lo n : Nat) : (s.incWrap o hi lo n).turnTimed = s.turnTimed := rfl
@[simp] theorem State.incWrap_turnOther (s : State) (o hi lo n : Nat) : (s.incWrap o hi lo n).turnOther = s.turnOther := rfl
@[simp] theorem State.incWrap_debugHeld (s : State) (o hi lo n : Nat) : (s.incWrap o hi lo n).debugHeld = s.debugHeld := rfl
@[simp] theorem State.incWrap_grantTurn (s : State) (o hi lo n : Nat) : (s.incWrap o hi lo n).grantTurn = s.grantTurn := rfl
@[simp] theorem State.incWrap_out (s : State) (o hi lo n : Nat) : (s.incWrap o hi lo n).out = s.out := rfl
@[simp] theorem State.incWrap_pending (s : State) (o hi lo n : Nat) : (s.incWrap o hi lo n).pending = s.pending := rfl

/-! ### clearRegs -/

@[simp] theorem State.clearRegs_straps (s : State) (lo n : Nat) : (s.clearRegs lo n).straps = s.straps := rfl
@[simp] theorem State.clearRegs_regs (s : State) (lo n : Nat) : (s.clearRegs lo n).regs = sparseClear s.regs lo n := rfl
@[simp] theorem State.clearRegs_latches (s : State) (lo n : Nat) : (s.clearRegs lo n).latches = s.latches := rfl
@[simp] theorem State.clearRegs_nowLatch (s : State) (lo n : Nat) : (s.clearRegs lo n).nowLatch = s.nowLatch := rfl
@[simp] theorem State.clearRegs_up (s : State) (lo n : Nat) : (s.clearRegs lo n).up = s.up := rfl
@[simp] theorem State.clearRegs_cycAcc (s : State) (lo n : Nat) : (s.clearRegs lo n).cycAcc = s.cycAcc := rfl
@[simp] theorem State.clearRegs_free (s : State) (lo n : Nat) : (s.clearRegs lo n).free = s.free := rfl
@[simp] theorem State.clearRegs_bell (s : State) (lo n : Nat) : (s.clearRegs lo n).bell = s.bell := rfl
@[simp] theorem State.clearRegs_groups (s : State) (lo n : Nat) : (s.clearRegs lo n).groups = s.groups := rfl
@[simp] theorem State.clearRegs_ctxs (s : State) (lo n : Nat) : (s.clearRegs lo n).ctxs = s.ctxs := rfl
@[simp] theorem State.clearRegs_lanes (s : State) (lo n : Nat) : (s.clearRegs lo n).lanes = s.lanes := rfl
@[simp] theorem State.clearRegs_tiles (s : State) (lo n : Nat) : (s.clearRegs lo n).tiles = s.tiles := rfl
@[simp] theorem State.clearRegs_clusters (s : State) (lo n : Nat) : (s.clearRegs lo n).clusters = s.clusters := rfl
@[simp] theorem State.clearRegs_ops (s : State) (lo n : Nat) : (s.clearRegs lo n).ops = s.ops := rfl
@[simp] theorem State.clearRegs_nextOp (s : State) (lo n : Nat) : (s.clearRegs lo n).nextOp = s.nextOp := rfl
@[simp] theorem State.clearRegs_barrows (s : State) (lo n : Nat) : (s.clearRegs lo n).barrows = s.barrows := rfl
@[simp] theorem State.clearRegs_reqs (s : State) (lo n : Nat) : (s.clearRegs lo n).reqs = s.reqs := rfl
@[simp] theorem State.clearRegs_nextTag (s : State) (lo n : Nat) : (s.clearRegs lo n).nextTag = s.nextTag := rfl
@[simp] theorem State.clearRegs_dumpHeld (s : State) (lo n : Nat) : (s.clearRegs lo n).dumpHeld = s.dumpHeld := rfl
@[simp] theorem State.clearRegs_loop (s : State) (lo n : Nat) : (s.clearRegs lo n).loop = s.loop := rfl
@[simp] theorem State.clearRegs_relayNext (s : State) (lo n : Nat) : (s.clearRegs lo n).relayNext = s.relayNext := rfl
@[simp] theorem State.clearRegs_relayHeld (s : State) (lo n : Nat) : (s.clearRegs lo n).relayHeld = s.relayHeld := rfl
@[simp] theorem State.clearRegs_relays (s : State) (lo n : Nat) : (s.clearRegs lo n).relays = s.relays := rfl
@[simp] theorem State.clearRegs_tlb (s : State) (lo n : Nat) : (s.clearRegs lo n).tlb = s.tlb := rfl
@[simp] theorem State.clearRegs_xreqs (s : State) (lo n : Nat) : (s.clearRegs lo n).xreqs = s.xreqs := rfl
@[simp] theorem State.clearRegs_nextX (s : State) (lo n : Nat) : (s.clearRegs lo n).nextX = s.nextX := rfl
@[simp] theorem State.clearRegs_pageReqs (s : State) (lo n : Nat) : (s.clearRegs lo n).pageReqs = s.pageReqs := rfl
@[simp] theorem State.clearRegs_withdraws (s : State) (lo n : Nat) : (s.clearRegs lo n).withdraws = s.withdraws := rfl
@[simp] theorem State.clearRegs_nextWd (s : State) (lo n : Nat) : (s.clearRegs lo n).nextWd = s.nextWd := rfl
@[simp] theorem State.clearRegs_ports (s : State) (lo n : Nat) : (s.clearRegs lo n).ports = s.ports := rfl
@[simp] theorem State.clearRegs_inbox (s : State) (lo n : Nat) : (s.clearRegs lo n).inbox = s.inbox := rfl
@[simp] theorem State.clearRegs_keys (s : State) (lo n : Nat) : (s.clearRegs lo n).keys = s.keys := rfl
@[simp] theorem State.clearRegs_barGroups (s : State) (lo n : Nat) : (s.clearRegs lo n).barGroups = s.barGroups := rfl
@[simp] theorem State.clearRegs_mem (s : State) (lo n : Nat) : (s.clearRegs lo n).mem = s.mem := rfl
@[simp] theorem State.clearRegs_cells (s : State) (lo n : Nat) : (s.clearRegs lo n).cells = s.cells := rfl
@[simp] theorem State.clearRegs_inject (s : State) (lo n : Nat) : (s.clearRegs lo n).inject = s.inject := rfl
@[simp] theorem State.clearRegs_breset (s : State) (lo n : Nat) : (s.clearRegs lo n).breset = s.breset := rfl
@[simp] theorem State.clearRegs_power (s : State) (lo n : Nat) : (s.clearRegs lo n).power = s.power := rfl
@[simp] theorem State.clearRegs_insp (s : State) (lo n : Nat) : (s.clearRegs lo n).insp = s.insp := rfl
@[simp] theorem State.clearRegs_pins (s : State) (lo n : Nat) : (s.clearRegs lo n).pins = s.pins := rfl
@[simp] theorem State.clearRegs_bootUp (s : State) (lo n : Nat) : (s.clearRegs lo n).bootUp = s.bootUp := rfl
@[simp] theorem State.clearRegs_turnTimed (s : State) (lo n : Nat) : (s.clearRegs lo n).turnTimed = s.turnTimed := rfl
@[simp] theorem State.clearRegs_turnOther (s : State) (lo n : Nat) : (s.clearRegs lo n).turnOther = s.turnOther := rfl
@[simp] theorem State.clearRegs_debugHeld (s : State) (lo n : Nat) : (s.clearRegs lo n).debugHeld = s.debugHeld := rfl
@[simp] theorem State.clearRegs_grantTurn (s : State) (lo n : Nat) : (s.clearRegs lo n).grantTurn = s.grantTurn := rfl
@[simp] theorem State.clearRegs_out (s : State) (lo n : Nat) : (s.clearRegs lo n).out = s.out := rfl
@[simp] theorem State.clearRegs_pending (s : State) (lo n : Nat) : (s.clearRegs lo n).pending = s.pending := rfl

/-! ### updCtx -/

@[simp] theorem State.updCtx_straps (s : State) (i : Nat) (f : Ctx → Ctx) : (s.updCtx i f).straps = s.straps := rfl
@[simp] theorem State.updCtx_regs (s : State) (i : Nat) (f : Ctx → Ctx) : (s.updCtx i f).regs = s.regs := rfl
@[simp] theorem State.updCtx_latches (s : State) (i : Nat) (f : Ctx → Ctx) : (s.updCtx i f).latches = s.latches := rfl
@[simp] theorem State.updCtx_nowLatch (s : State) (i : Nat) (f : Ctx → Ctx) : (s.updCtx i f).nowLatch = s.nowLatch := rfl
@[simp] theorem State.updCtx_up (s : State) (i : Nat) (f : Ctx → Ctx) : (s.updCtx i f).up = s.up := rfl
@[simp] theorem State.updCtx_cycAcc (s : State) (i : Nat) (f : Ctx → Ctx) : (s.updCtx i f).cycAcc = s.cycAcc := rfl
@[simp] theorem State.updCtx_free (s : State) (i : Nat) (f : Ctx → Ctx) : (s.updCtx i f).free = s.free := rfl
@[simp] theorem State.updCtx_bell (s : State) (i : Nat) (f : Ctx → Ctx) : (s.updCtx i f).bell = s.bell := rfl
@[simp] theorem State.updCtx_groups (s : State) (i : Nat) (f : Ctx → Ctx) : (s.updCtx i f).groups = s.groups := rfl
@[simp] theorem State.updCtx_ctxs (s : State) (i : Nat) (f : Ctx → Ctx) : (s.updCtx i f).ctxs = upd s.ctxs i f := rfl
@[simp] theorem State.updCtx_lanes (s : State) (i : Nat) (f : Ctx → Ctx) : (s.updCtx i f).lanes = s.lanes := rfl
@[simp] theorem State.updCtx_tiles (s : State) (i : Nat) (f : Ctx → Ctx) : (s.updCtx i f).tiles = s.tiles := rfl
@[simp] theorem State.updCtx_clusters (s : State) (i : Nat) (f : Ctx → Ctx) : (s.updCtx i f).clusters = s.clusters := rfl
@[simp] theorem State.updCtx_ops (s : State) (i : Nat) (f : Ctx → Ctx) : (s.updCtx i f).ops = s.ops := rfl
@[simp] theorem State.updCtx_nextOp (s : State) (i : Nat) (f : Ctx → Ctx) : (s.updCtx i f).nextOp = s.nextOp := rfl
@[simp] theorem State.updCtx_barrows (s : State) (i : Nat) (f : Ctx → Ctx) : (s.updCtx i f).barrows = s.barrows := rfl
@[simp] theorem State.updCtx_reqs (s : State) (i : Nat) (f : Ctx → Ctx) : (s.updCtx i f).reqs = s.reqs := rfl
@[simp] theorem State.updCtx_nextTag (s : State) (i : Nat) (f : Ctx → Ctx) : (s.updCtx i f).nextTag = s.nextTag := rfl
@[simp] theorem State.updCtx_dumpHeld (s : State) (i : Nat) (f : Ctx → Ctx) : (s.updCtx i f).dumpHeld = s.dumpHeld := rfl
@[simp] theorem State.updCtx_loop (s : State) (i : Nat) (f : Ctx → Ctx) : (s.updCtx i f).loop = s.loop := rfl
@[simp] theorem State.updCtx_relayNext (s : State) (i : Nat) (f : Ctx → Ctx) : (s.updCtx i f).relayNext = s.relayNext := rfl
@[simp] theorem State.updCtx_relayHeld (s : State) (i : Nat) (f : Ctx → Ctx) : (s.updCtx i f).relayHeld = s.relayHeld := rfl
@[simp] theorem State.updCtx_relays (s : State) (i : Nat) (f : Ctx → Ctx) : (s.updCtx i f).relays = s.relays := rfl
@[simp] theorem State.updCtx_tlb (s : State) (i : Nat) (f : Ctx → Ctx) : (s.updCtx i f).tlb = s.tlb := rfl
@[simp] theorem State.updCtx_xreqs (s : State) (i : Nat) (f : Ctx → Ctx) : (s.updCtx i f).xreqs = s.xreqs := rfl
@[simp] theorem State.updCtx_nextX (s : State) (i : Nat) (f : Ctx → Ctx) : (s.updCtx i f).nextX = s.nextX := rfl
@[simp] theorem State.updCtx_pageReqs (s : State) (i : Nat) (f : Ctx → Ctx) : (s.updCtx i f).pageReqs = s.pageReqs := rfl
@[simp] theorem State.updCtx_withdraws (s : State) (i : Nat) (f : Ctx → Ctx) : (s.updCtx i f).withdraws = s.withdraws := rfl
@[simp] theorem State.updCtx_nextWd (s : State) (i : Nat) (f : Ctx → Ctx) : (s.updCtx i f).nextWd = s.nextWd := rfl
@[simp] theorem State.updCtx_ports (s : State) (i : Nat) (f : Ctx → Ctx) : (s.updCtx i f).ports = s.ports := rfl
@[simp] theorem State.updCtx_inbox (s : State) (i : Nat) (f : Ctx → Ctx) : (s.updCtx i f).inbox = s.inbox := rfl
@[simp] theorem State.updCtx_keys (s : State) (i : Nat) (f : Ctx → Ctx) : (s.updCtx i f).keys = s.keys := rfl
@[simp] theorem State.updCtx_barGroups (s : State) (i : Nat) (f : Ctx → Ctx) : (s.updCtx i f).barGroups = s.barGroups := rfl
@[simp] theorem State.updCtx_mem (s : State) (i : Nat) (f : Ctx → Ctx) : (s.updCtx i f).mem = s.mem := rfl
@[simp] theorem State.updCtx_cells (s : State) (i : Nat) (f : Ctx → Ctx) : (s.updCtx i f).cells = s.cells := rfl
@[simp] theorem State.updCtx_inject (s : State) (i : Nat) (f : Ctx → Ctx) : (s.updCtx i f).inject = s.inject := rfl
@[simp] theorem State.updCtx_breset (s : State) (i : Nat) (f : Ctx → Ctx) : (s.updCtx i f).breset = s.breset := rfl
@[simp] theorem State.updCtx_power (s : State) (i : Nat) (f : Ctx → Ctx) : (s.updCtx i f).power = s.power := rfl
@[simp] theorem State.updCtx_insp (s : State) (i : Nat) (f : Ctx → Ctx) : (s.updCtx i f).insp = s.insp := rfl
@[simp] theorem State.updCtx_pins (s : State) (i : Nat) (f : Ctx → Ctx) : (s.updCtx i f).pins = s.pins := rfl
@[simp] theorem State.updCtx_bootUp (s : State) (i : Nat) (f : Ctx → Ctx) : (s.updCtx i f).bootUp = s.bootUp := rfl
@[simp] theorem State.updCtx_turnTimed (s : State) (i : Nat) (f : Ctx → Ctx) : (s.updCtx i f).turnTimed = s.turnTimed := rfl
@[simp] theorem State.updCtx_turnOther (s : State) (i : Nat) (f : Ctx → Ctx) : (s.updCtx i f).turnOther = s.turnOther := rfl
@[simp] theorem State.updCtx_debugHeld (s : State) (i : Nat) (f : Ctx → Ctx) : (s.updCtx i f).debugHeld = s.debugHeld := rfl
@[simp] theorem State.updCtx_grantTurn (s : State) (i : Nat) (f : Ctx → Ctx) : (s.updCtx i f).grantTurn = s.grantTurn := rfl
@[simp] theorem State.updCtx_out (s : State) (i : Nat) (f : Ctx → Ctx) : (s.updCtx i f).out = s.out := rfl
@[simp] theorem State.updCtx_pending (s : State) (i : Nat) (f : Ctx → Ctx) : (s.updCtx i f).pending = s.pending := rfl

/-! ### updLane -/

@[simp] theorem State.updLane_straps (s : State) (l : LaneId) (f : Lane → Lane) : (s.updLane l f).straps = s.straps := rfl
@[simp] theorem State.updLane_regs (s : State) (l : LaneId) (f : Lane → Lane) : (s.updLane l f).regs = s.regs := rfl
@[simp] theorem State.updLane_latches (s : State) (l : LaneId) (f : Lane → Lane) : (s.updLane l f).latches = s.latches := rfl
@[simp] theorem State.updLane_nowLatch (s : State) (l : LaneId) (f : Lane → Lane) : (s.updLane l f).nowLatch = s.nowLatch := rfl
@[simp] theorem State.updLane_up (s : State) (l : LaneId) (f : Lane → Lane) : (s.updLane l f).up = s.up := rfl
@[simp] theorem State.updLane_cycAcc (s : State) (l : LaneId) (f : Lane → Lane) : (s.updLane l f).cycAcc = s.cycAcc := rfl
@[simp] theorem State.updLane_free (s : State) (l : LaneId) (f : Lane → Lane) : (s.updLane l f).free = s.free := rfl
@[simp] theorem State.updLane_bell (s : State) (l : LaneId) (f : Lane → Lane) : (s.updLane l f).bell = s.bell := rfl
@[simp] theorem State.updLane_groups (s : State) (l : LaneId) (f : Lane → Lane) : (s.updLane l f).groups = s.groups := rfl
@[simp] theorem State.updLane_ctxs (s : State) (l : LaneId) (f : Lane → Lane) : (s.updLane l f).ctxs = s.ctxs := rfl
@[simp] theorem State.updLane_lanes (s : State) (l : LaneId) (f : Lane → Lane) : (s.updLane l f).lanes = upd s.lanes (laneIx l) f := rfl
@[simp] theorem State.updLane_tiles (s : State) (l : LaneId) (f : Lane → Lane) : (s.updLane l f).tiles = s.tiles := rfl
@[simp] theorem State.updLane_clusters (s : State) (l : LaneId) (f : Lane → Lane) : (s.updLane l f).clusters = s.clusters := rfl
@[simp] theorem State.updLane_ops (s : State) (l : LaneId) (f : Lane → Lane) : (s.updLane l f).ops = s.ops := rfl
@[simp] theorem State.updLane_nextOp (s : State) (l : LaneId) (f : Lane → Lane) : (s.updLane l f).nextOp = s.nextOp := rfl
@[simp] theorem State.updLane_barrows (s : State) (l : LaneId) (f : Lane → Lane) : (s.updLane l f).barrows = s.barrows := rfl
@[simp] theorem State.updLane_reqs (s : State) (l : LaneId) (f : Lane → Lane) : (s.updLane l f).reqs = s.reqs := rfl
@[simp] theorem State.updLane_nextTag (s : State) (l : LaneId) (f : Lane → Lane) : (s.updLane l f).nextTag = s.nextTag := rfl
@[simp] theorem State.updLane_dumpHeld (s : State) (l : LaneId) (f : Lane → Lane) : (s.updLane l f).dumpHeld = s.dumpHeld := rfl
@[simp] theorem State.updLane_loop (s : State) (l : LaneId) (f : Lane → Lane) : (s.updLane l f).loop = s.loop := rfl
@[simp] theorem State.updLane_relayNext (s : State) (l : LaneId) (f : Lane → Lane) : (s.updLane l f).relayNext = s.relayNext := rfl
@[simp] theorem State.updLane_relayHeld (s : State) (l : LaneId) (f : Lane → Lane) : (s.updLane l f).relayHeld = s.relayHeld := rfl
@[simp] theorem State.updLane_relays (s : State) (l : LaneId) (f : Lane → Lane) : (s.updLane l f).relays = s.relays := rfl
@[simp] theorem State.updLane_tlb (s : State) (l : LaneId) (f : Lane → Lane) : (s.updLane l f).tlb = s.tlb := rfl
@[simp] theorem State.updLane_xreqs (s : State) (l : LaneId) (f : Lane → Lane) : (s.updLane l f).xreqs = s.xreqs := rfl
@[simp] theorem State.updLane_nextX (s : State) (l : LaneId) (f : Lane → Lane) : (s.updLane l f).nextX = s.nextX := rfl
@[simp] theorem State.updLane_pageReqs (s : State) (l : LaneId) (f : Lane → Lane) : (s.updLane l f).pageReqs = s.pageReqs := rfl
@[simp] theorem State.updLane_withdraws (s : State) (l : LaneId) (f : Lane → Lane) : (s.updLane l f).withdraws = s.withdraws := rfl
@[simp] theorem State.updLane_nextWd (s : State) (l : LaneId) (f : Lane → Lane) : (s.updLane l f).nextWd = s.nextWd := rfl
@[simp] theorem State.updLane_ports (s : State) (l : LaneId) (f : Lane → Lane) : (s.updLane l f).ports = s.ports := rfl
@[simp] theorem State.updLane_inbox (s : State) (l : LaneId) (f : Lane → Lane) : (s.updLane l f).inbox = s.inbox := rfl
@[simp] theorem State.updLane_keys (s : State) (l : LaneId) (f : Lane → Lane) : (s.updLane l f).keys = s.keys := rfl
@[simp] theorem State.updLane_barGroups (s : State) (l : LaneId) (f : Lane → Lane) : (s.updLane l f).barGroups = s.barGroups := rfl
@[simp] theorem State.updLane_mem (s : State) (l : LaneId) (f : Lane → Lane) : (s.updLane l f).mem = s.mem := rfl
@[simp] theorem State.updLane_cells (s : State) (l : LaneId) (f : Lane → Lane) : (s.updLane l f).cells = s.cells := rfl
@[simp] theorem State.updLane_inject (s : State) (l : LaneId) (f : Lane → Lane) : (s.updLane l f).inject = s.inject := rfl
@[simp] theorem State.updLane_breset (s : State) (l : LaneId) (f : Lane → Lane) : (s.updLane l f).breset = s.breset := rfl
@[simp] theorem State.updLane_power (s : State) (l : LaneId) (f : Lane → Lane) : (s.updLane l f).power = s.power := rfl
@[simp] theorem State.updLane_insp (s : State) (l : LaneId) (f : Lane → Lane) : (s.updLane l f).insp = s.insp := rfl
@[simp] theorem State.updLane_pins (s : State) (l : LaneId) (f : Lane → Lane) : (s.updLane l f).pins = s.pins := rfl
@[simp] theorem State.updLane_bootUp (s : State) (l : LaneId) (f : Lane → Lane) : (s.updLane l f).bootUp = s.bootUp := rfl
@[simp] theorem State.updLane_turnTimed (s : State) (l : LaneId) (f : Lane → Lane) : (s.updLane l f).turnTimed = s.turnTimed := rfl
@[simp] theorem State.updLane_turnOther (s : State) (l : LaneId) (f : Lane → Lane) : (s.updLane l f).turnOther = s.turnOther := rfl
@[simp] theorem State.updLane_debugHeld (s : State) (l : LaneId) (f : Lane → Lane) : (s.updLane l f).debugHeld = s.debugHeld := rfl
@[simp] theorem State.updLane_grantTurn (s : State) (l : LaneId) (f : Lane → Lane) : (s.updLane l f).grantTurn = s.grantTurn := rfl
@[simp] theorem State.updLane_out (s : State) (l : LaneId) (f : Lane → Lane) : (s.updLane l f).out = s.out := rfl
@[simp] theorem State.updLane_pending (s : State) (l : LaneId) (f : Lane → Lane) : (s.updLane l f).pending = s.pending := rfl

/-! ### updTile -/

@[simp] theorem State.updTile_straps (s : State) (t : Nat) (f : Tile → Tile) : (s.updTile t f).straps = s.straps := rfl
@[simp] theorem State.updTile_regs (s : State) (t : Nat) (f : Tile → Tile) : (s.updTile t f).regs = s.regs := rfl
@[simp] theorem State.updTile_latches (s : State) (t : Nat) (f : Tile → Tile) : (s.updTile t f).latches = s.latches := rfl
@[simp] theorem State.updTile_nowLatch (s : State) (t : Nat) (f : Tile → Tile) : (s.updTile t f).nowLatch = s.nowLatch := rfl
@[simp] theorem State.updTile_up (s : State) (t : Nat) (f : Tile → Tile) : (s.updTile t f).up = s.up := rfl
@[simp] theorem State.updTile_cycAcc (s : State) (t : Nat) (f : Tile → Tile) : (s.updTile t f).cycAcc = s.cycAcc := rfl
@[simp] theorem State.updTile_free (s : State) (t : Nat) (f : Tile → Tile) : (s.updTile t f).free = s.free := rfl
@[simp] theorem State.updTile_bell (s : State) (t : Nat) (f : Tile → Tile) : (s.updTile t f).bell = s.bell := rfl
@[simp] theorem State.updTile_groups (s : State) (t : Nat) (f : Tile → Tile) : (s.updTile t f).groups = s.groups := rfl
@[simp] theorem State.updTile_ctxs (s : State) (t : Nat) (f : Tile → Tile) : (s.updTile t f).ctxs = s.ctxs := rfl
@[simp] theorem State.updTile_lanes (s : State) (t : Nat) (f : Tile → Tile) : (s.updTile t f).lanes = s.lanes := rfl
@[simp] theorem State.updTile_tiles (s : State) (t : Nat) (f : Tile → Tile) : (s.updTile t f).tiles = upd s.tiles t f := rfl
@[simp] theorem State.updTile_clusters (s : State) (t : Nat) (f : Tile → Tile) : (s.updTile t f).clusters = s.clusters := rfl
@[simp] theorem State.updTile_ops (s : State) (t : Nat) (f : Tile → Tile) : (s.updTile t f).ops = s.ops := rfl
@[simp] theorem State.updTile_nextOp (s : State) (t : Nat) (f : Tile → Tile) : (s.updTile t f).nextOp = s.nextOp := rfl
@[simp] theorem State.updTile_barrows (s : State) (t : Nat) (f : Tile → Tile) : (s.updTile t f).barrows = s.barrows := rfl
@[simp] theorem State.updTile_reqs (s : State) (t : Nat) (f : Tile → Tile) : (s.updTile t f).reqs = s.reqs := rfl
@[simp] theorem State.updTile_nextTag (s : State) (t : Nat) (f : Tile → Tile) : (s.updTile t f).nextTag = s.nextTag := rfl
@[simp] theorem State.updTile_dumpHeld (s : State) (t : Nat) (f : Tile → Tile) : (s.updTile t f).dumpHeld = s.dumpHeld := rfl
@[simp] theorem State.updTile_loop (s : State) (t : Nat) (f : Tile → Tile) : (s.updTile t f).loop = s.loop := rfl
@[simp] theorem State.updTile_relayNext (s : State) (t : Nat) (f : Tile → Tile) : (s.updTile t f).relayNext = s.relayNext := rfl
@[simp] theorem State.updTile_relayHeld (s : State) (t : Nat) (f : Tile → Tile) : (s.updTile t f).relayHeld = s.relayHeld := rfl
@[simp] theorem State.updTile_relays (s : State) (t : Nat) (f : Tile → Tile) : (s.updTile t f).relays = s.relays := rfl
@[simp] theorem State.updTile_tlb (s : State) (t : Nat) (f : Tile → Tile) : (s.updTile t f).tlb = s.tlb := rfl
@[simp] theorem State.updTile_xreqs (s : State) (t : Nat) (f : Tile → Tile) : (s.updTile t f).xreqs = s.xreqs := rfl
@[simp] theorem State.updTile_nextX (s : State) (t : Nat) (f : Tile → Tile) : (s.updTile t f).nextX = s.nextX := rfl
@[simp] theorem State.updTile_pageReqs (s : State) (t : Nat) (f : Tile → Tile) : (s.updTile t f).pageReqs = s.pageReqs := rfl
@[simp] theorem State.updTile_withdraws (s : State) (t : Nat) (f : Tile → Tile) : (s.updTile t f).withdraws = s.withdraws := rfl
@[simp] theorem State.updTile_nextWd (s : State) (t : Nat) (f : Tile → Tile) : (s.updTile t f).nextWd = s.nextWd := rfl
@[simp] theorem State.updTile_ports (s : State) (t : Nat) (f : Tile → Tile) : (s.updTile t f).ports = s.ports := rfl
@[simp] theorem State.updTile_inbox (s : State) (t : Nat) (f : Tile → Tile) : (s.updTile t f).inbox = s.inbox := rfl
@[simp] theorem State.updTile_keys (s : State) (t : Nat) (f : Tile → Tile) : (s.updTile t f).keys = s.keys := rfl
@[simp] theorem State.updTile_barGroups (s : State) (t : Nat) (f : Tile → Tile) : (s.updTile t f).barGroups = s.barGroups := rfl
@[simp] theorem State.updTile_mem (s : State) (t : Nat) (f : Tile → Tile) : (s.updTile t f).mem = s.mem := rfl
@[simp] theorem State.updTile_cells (s : State) (t : Nat) (f : Tile → Tile) : (s.updTile t f).cells = s.cells := rfl
@[simp] theorem State.updTile_inject (s : State) (t : Nat) (f : Tile → Tile) : (s.updTile t f).inject = s.inject := rfl
@[simp] theorem State.updTile_breset (s : State) (t : Nat) (f : Tile → Tile) : (s.updTile t f).breset = s.breset := rfl
@[simp] theorem State.updTile_power (s : State) (t : Nat) (f : Tile → Tile) : (s.updTile t f).power = s.power := rfl
@[simp] theorem State.updTile_insp (s : State) (t : Nat) (f : Tile → Tile) : (s.updTile t f).insp = s.insp := rfl
@[simp] theorem State.updTile_pins (s : State) (t : Nat) (f : Tile → Tile) : (s.updTile t f).pins = s.pins := rfl
@[simp] theorem State.updTile_bootUp (s : State) (t : Nat) (f : Tile → Tile) : (s.updTile t f).bootUp = s.bootUp := rfl
@[simp] theorem State.updTile_turnTimed (s : State) (t : Nat) (f : Tile → Tile) : (s.updTile t f).turnTimed = s.turnTimed := rfl
@[simp] theorem State.updTile_turnOther (s : State) (t : Nat) (f : Tile → Tile) : (s.updTile t f).turnOther = s.turnOther := rfl
@[simp] theorem State.updTile_debugHeld (s : State) (t : Nat) (f : Tile → Tile) : (s.updTile t f).debugHeld = s.debugHeld := rfl
@[simp] theorem State.updTile_grantTurn (s : State) (t : Nat) (f : Tile → Tile) : (s.updTile t f).grantTurn = s.grantTurn := rfl
@[simp] theorem State.updTile_out (s : State) (t : Nat) (f : Tile → Tile) : (s.updTile t f).out = s.out := rfl
@[simp] theorem State.updTile_pending (s : State) (t : Nat) (f : Tile → Tile) : (s.updTile t f).pending = s.pending := rfl

/-! ### updCluster -/

@[simp] theorem State.updCluster_straps (s : State) (c : Nat) (f : Cluster → Cluster) : (s.updCluster c f).straps = s.straps := rfl
@[simp] theorem State.updCluster_regs (s : State) (c : Nat) (f : Cluster → Cluster) : (s.updCluster c f).regs = s.regs := rfl
@[simp] theorem State.updCluster_latches (s : State) (c : Nat) (f : Cluster → Cluster) : (s.updCluster c f).latches = s.latches := rfl
@[simp] theorem State.updCluster_nowLatch (s : State) (c : Nat) (f : Cluster → Cluster) : (s.updCluster c f).nowLatch = s.nowLatch := rfl
@[simp] theorem State.updCluster_up (s : State) (c : Nat) (f : Cluster → Cluster) : (s.updCluster c f).up = s.up := rfl
@[simp] theorem State.updCluster_cycAcc (s : State) (c : Nat) (f : Cluster → Cluster) : (s.updCluster c f).cycAcc = s.cycAcc := rfl
@[simp] theorem State.updCluster_free (s : State) (c : Nat) (f : Cluster → Cluster) : (s.updCluster c f).free = s.free := rfl
@[simp] theorem State.updCluster_bell (s : State) (c : Nat) (f : Cluster → Cluster) : (s.updCluster c f).bell = s.bell := rfl
@[simp] theorem State.updCluster_groups (s : State) (c : Nat) (f : Cluster → Cluster) : (s.updCluster c f).groups = s.groups := rfl
@[simp] theorem State.updCluster_ctxs (s : State) (c : Nat) (f : Cluster → Cluster) : (s.updCluster c f).ctxs = s.ctxs := rfl
@[simp] theorem State.updCluster_lanes (s : State) (c : Nat) (f : Cluster → Cluster) : (s.updCluster c f).lanes = s.lanes := rfl
@[simp] theorem State.updCluster_tiles (s : State) (c : Nat) (f : Cluster → Cluster) : (s.updCluster c f).tiles = s.tiles := rfl
@[simp] theorem State.updCluster_clusters (s : State) (c : Nat) (f : Cluster → Cluster) : (s.updCluster c f).clusters = upd s.clusters c f := rfl
@[simp] theorem State.updCluster_ops (s : State) (c : Nat) (f : Cluster → Cluster) : (s.updCluster c f).ops = s.ops := rfl
@[simp] theorem State.updCluster_nextOp (s : State) (c : Nat) (f : Cluster → Cluster) : (s.updCluster c f).nextOp = s.nextOp := rfl
@[simp] theorem State.updCluster_barrows (s : State) (c : Nat) (f : Cluster → Cluster) : (s.updCluster c f).barrows = s.barrows := rfl
@[simp] theorem State.updCluster_reqs (s : State) (c : Nat) (f : Cluster → Cluster) : (s.updCluster c f).reqs = s.reqs := rfl
@[simp] theorem State.updCluster_nextTag (s : State) (c : Nat) (f : Cluster → Cluster) : (s.updCluster c f).nextTag = s.nextTag := rfl
@[simp] theorem State.updCluster_dumpHeld (s : State) (c : Nat) (f : Cluster → Cluster) : (s.updCluster c f).dumpHeld = s.dumpHeld := rfl
@[simp] theorem State.updCluster_loop (s : State) (c : Nat) (f : Cluster → Cluster) : (s.updCluster c f).loop = s.loop := rfl
@[simp] theorem State.updCluster_relayNext (s : State) (c : Nat) (f : Cluster → Cluster) : (s.updCluster c f).relayNext = s.relayNext := rfl
@[simp] theorem State.updCluster_relayHeld (s : State) (c : Nat) (f : Cluster → Cluster) : (s.updCluster c f).relayHeld = s.relayHeld := rfl
@[simp] theorem State.updCluster_relays (s : State) (c : Nat) (f : Cluster → Cluster) : (s.updCluster c f).relays = s.relays := rfl
@[simp] theorem State.updCluster_tlb (s : State) (c : Nat) (f : Cluster → Cluster) : (s.updCluster c f).tlb = s.tlb := rfl
@[simp] theorem State.updCluster_xreqs (s : State) (c : Nat) (f : Cluster → Cluster) : (s.updCluster c f).xreqs = s.xreqs := rfl
@[simp] theorem State.updCluster_nextX (s : State) (c : Nat) (f : Cluster → Cluster) : (s.updCluster c f).nextX = s.nextX := rfl
@[simp] theorem State.updCluster_pageReqs (s : State) (c : Nat) (f : Cluster → Cluster) : (s.updCluster c f).pageReqs = s.pageReqs := rfl
@[simp] theorem State.updCluster_withdraws (s : State) (c : Nat) (f : Cluster → Cluster) : (s.updCluster c f).withdraws = s.withdraws := rfl
@[simp] theorem State.updCluster_nextWd (s : State) (c : Nat) (f : Cluster → Cluster) : (s.updCluster c f).nextWd = s.nextWd := rfl
@[simp] theorem State.updCluster_ports (s : State) (c : Nat) (f : Cluster → Cluster) : (s.updCluster c f).ports = s.ports := rfl
@[simp] theorem State.updCluster_inbox (s : State) (c : Nat) (f : Cluster → Cluster) : (s.updCluster c f).inbox = s.inbox := rfl
@[simp] theorem State.updCluster_keys (s : State) (c : Nat) (f : Cluster → Cluster) : (s.updCluster c f).keys = s.keys := rfl
@[simp] theorem State.updCluster_barGroups (s : State) (c : Nat) (f : Cluster → Cluster) : (s.updCluster c f).barGroups = s.barGroups := rfl
@[simp] theorem State.updCluster_mem (s : State) (c : Nat) (f : Cluster → Cluster) : (s.updCluster c f).mem = s.mem := rfl
@[simp] theorem State.updCluster_cells (s : State) (c : Nat) (f : Cluster → Cluster) : (s.updCluster c f).cells = s.cells := rfl
@[simp] theorem State.updCluster_inject (s : State) (c : Nat) (f : Cluster → Cluster) : (s.updCluster c f).inject = s.inject := rfl
@[simp] theorem State.updCluster_breset (s : State) (c : Nat) (f : Cluster → Cluster) : (s.updCluster c f).breset = s.breset := rfl
@[simp] theorem State.updCluster_power (s : State) (c : Nat) (f : Cluster → Cluster) : (s.updCluster c f).power = s.power := rfl
@[simp] theorem State.updCluster_insp (s : State) (c : Nat) (f : Cluster → Cluster) : (s.updCluster c f).insp = s.insp := rfl
@[simp] theorem State.updCluster_pins (s : State) (c : Nat) (f : Cluster → Cluster) : (s.updCluster c f).pins = s.pins := rfl
@[simp] theorem State.updCluster_bootUp (s : State) (c : Nat) (f : Cluster → Cluster) : (s.updCluster c f).bootUp = s.bootUp := rfl
@[simp] theorem State.updCluster_turnTimed (s : State) (c : Nat) (f : Cluster → Cluster) : (s.updCluster c f).turnTimed = s.turnTimed := rfl
@[simp] theorem State.updCluster_turnOther (s : State) (c : Nat) (f : Cluster → Cluster) : (s.updCluster c f).turnOther = s.turnOther := rfl
@[simp] theorem State.updCluster_debugHeld (s : State) (c : Nat) (f : Cluster → Cluster) : (s.updCluster c f).debugHeld = s.debugHeld := rfl
@[simp] theorem State.updCluster_grantTurn (s : State) (c : Nat) (f : Cluster → Cluster) : (s.updCluster c f).grantTurn = s.grantTurn := rfl
@[simp] theorem State.updCluster_out (s : State) (c : Nat) (f : Cluster → Cluster) : (s.updCluster c f).out = s.out := rfl
@[simp] theorem State.updCluster_pending (s : State) (c : Nat) (f : Cluster → Cluster) : (s.updCluster c f).pending = s.pending := rfl

/-! ### updBarrow -/

@[simp] theorem State.updBarrow_straps (s : State) (b : Nat) (f : Barrow → Barrow) : (s.updBarrow b f).straps = s.straps := rfl
@[simp] theorem State.updBarrow_regs (s : State) (b : Nat) (f : Barrow → Barrow) : (s.updBarrow b f).regs = s.regs := rfl
@[simp] theorem State.updBarrow_latches (s : State) (b : Nat) (f : Barrow → Barrow) : (s.updBarrow b f).latches = s.latches := rfl
@[simp] theorem State.updBarrow_nowLatch (s : State) (b : Nat) (f : Barrow → Barrow) : (s.updBarrow b f).nowLatch = s.nowLatch := rfl
@[simp] theorem State.updBarrow_up (s : State) (b : Nat) (f : Barrow → Barrow) : (s.updBarrow b f).up = s.up := rfl
@[simp] theorem State.updBarrow_cycAcc (s : State) (b : Nat) (f : Barrow → Barrow) : (s.updBarrow b f).cycAcc = s.cycAcc := rfl
@[simp] theorem State.updBarrow_free (s : State) (b : Nat) (f : Barrow → Barrow) : (s.updBarrow b f).free = s.free := rfl
@[simp] theorem State.updBarrow_bell (s : State) (b : Nat) (f : Barrow → Barrow) : (s.updBarrow b f).bell = s.bell := rfl
@[simp] theorem State.updBarrow_groups (s : State) (b : Nat) (f : Barrow → Barrow) : (s.updBarrow b f).groups = s.groups := rfl
@[simp] theorem State.updBarrow_ctxs (s : State) (b : Nat) (f : Barrow → Barrow) : (s.updBarrow b f).ctxs = s.ctxs := rfl
@[simp] theorem State.updBarrow_lanes (s : State) (b : Nat) (f : Barrow → Barrow) : (s.updBarrow b f).lanes = s.lanes := rfl
@[simp] theorem State.updBarrow_tiles (s : State) (b : Nat) (f : Barrow → Barrow) : (s.updBarrow b f).tiles = s.tiles := rfl
@[simp] theorem State.updBarrow_clusters (s : State) (b : Nat) (f : Barrow → Barrow) : (s.updBarrow b f).clusters = s.clusters := rfl
@[simp] theorem State.updBarrow_ops (s : State) (b : Nat) (f : Barrow → Barrow) : (s.updBarrow b f).ops = s.ops := rfl
@[simp] theorem State.updBarrow_nextOp (s : State) (b : Nat) (f : Barrow → Barrow) : (s.updBarrow b f).nextOp = s.nextOp := rfl
@[simp] theorem State.updBarrow_barrows (s : State) (b : Nat) (f : Barrow → Barrow) : (s.updBarrow b f).barrows = upd s.barrows b f := rfl
@[simp] theorem State.updBarrow_reqs (s : State) (b : Nat) (f : Barrow → Barrow) : (s.updBarrow b f).reqs = s.reqs := rfl
@[simp] theorem State.updBarrow_nextTag (s : State) (b : Nat) (f : Barrow → Barrow) : (s.updBarrow b f).nextTag = s.nextTag := rfl
@[simp] theorem State.updBarrow_dumpHeld (s : State) (b : Nat) (f : Barrow → Barrow) : (s.updBarrow b f).dumpHeld = s.dumpHeld := rfl
@[simp] theorem State.updBarrow_loop (s : State) (b : Nat) (f : Barrow → Barrow) : (s.updBarrow b f).loop = s.loop := rfl
@[simp] theorem State.updBarrow_relayNext (s : State) (b : Nat) (f : Barrow → Barrow) : (s.updBarrow b f).relayNext = s.relayNext := rfl
@[simp] theorem State.updBarrow_relayHeld (s : State) (b : Nat) (f : Barrow → Barrow) : (s.updBarrow b f).relayHeld = s.relayHeld := rfl
@[simp] theorem State.updBarrow_relays (s : State) (b : Nat) (f : Barrow → Barrow) : (s.updBarrow b f).relays = s.relays := rfl
@[simp] theorem State.updBarrow_tlb (s : State) (b : Nat) (f : Barrow → Barrow) : (s.updBarrow b f).tlb = s.tlb := rfl
@[simp] theorem State.updBarrow_xreqs (s : State) (b : Nat) (f : Barrow → Barrow) : (s.updBarrow b f).xreqs = s.xreqs := rfl
@[simp] theorem State.updBarrow_nextX (s : State) (b : Nat) (f : Barrow → Barrow) : (s.updBarrow b f).nextX = s.nextX := rfl
@[simp] theorem State.updBarrow_pageReqs (s : State) (b : Nat) (f : Barrow → Barrow) : (s.updBarrow b f).pageReqs = s.pageReqs := rfl
@[simp] theorem State.updBarrow_withdraws (s : State) (b : Nat) (f : Barrow → Barrow) : (s.updBarrow b f).withdraws = s.withdraws := rfl
@[simp] theorem State.updBarrow_nextWd (s : State) (b : Nat) (f : Barrow → Barrow) : (s.updBarrow b f).nextWd = s.nextWd := rfl
@[simp] theorem State.updBarrow_ports (s : State) (b : Nat) (f : Barrow → Barrow) : (s.updBarrow b f).ports = s.ports := rfl
@[simp] theorem State.updBarrow_inbox (s : State) (b : Nat) (f : Barrow → Barrow) : (s.updBarrow b f).inbox = s.inbox := rfl
@[simp] theorem State.updBarrow_keys (s : State) (b : Nat) (f : Barrow → Barrow) : (s.updBarrow b f).keys = s.keys := rfl
@[simp] theorem State.updBarrow_barGroups (s : State) (b : Nat) (f : Barrow → Barrow) : (s.updBarrow b f).barGroups = s.barGroups := rfl
@[simp] theorem State.updBarrow_mem (s : State) (b : Nat) (f : Barrow → Barrow) : (s.updBarrow b f).mem = s.mem := rfl
@[simp] theorem State.updBarrow_cells (s : State) (b : Nat) (f : Barrow → Barrow) : (s.updBarrow b f).cells = s.cells := rfl
@[simp] theorem State.updBarrow_inject (s : State) (b : Nat) (f : Barrow → Barrow) : (s.updBarrow b f).inject = s.inject := rfl
@[simp] theorem State.updBarrow_breset (s : State) (b : Nat) (f : Barrow → Barrow) : (s.updBarrow b f).breset = s.breset := rfl
@[simp] theorem State.updBarrow_power (s : State) (b : Nat) (f : Barrow → Barrow) : (s.updBarrow b f).power = s.power := rfl
@[simp] theorem State.updBarrow_insp (s : State) (b : Nat) (f : Barrow → Barrow) : (s.updBarrow b f).insp = s.insp := rfl
@[simp] theorem State.updBarrow_pins (s : State) (b : Nat) (f : Barrow → Barrow) : (s.updBarrow b f).pins = s.pins := rfl
@[simp] theorem State.updBarrow_bootUp (s : State) (b : Nat) (f : Barrow → Barrow) : (s.updBarrow b f).bootUp = s.bootUp := rfl
@[simp] theorem State.updBarrow_turnTimed (s : State) (b : Nat) (f : Barrow → Barrow) : (s.updBarrow b f).turnTimed = s.turnTimed := rfl
@[simp] theorem State.updBarrow_turnOther (s : State) (b : Nat) (f : Barrow → Barrow) : (s.updBarrow b f).turnOther = s.turnOther := rfl
@[simp] theorem State.updBarrow_debugHeld (s : State) (b : Nat) (f : Barrow → Barrow) : (s.updBarrow b f).debugHeld = s.debugHeld := rfl
@[simp] theorem State.updBarrow_grantTurn (s : State) (b : Nat) (f : Barrow → Barrow) : (s.updBarrow b f).grantTurn = s.grantTurn := rfl
@[simp] theorem State.updBarrow_out (s : State) (b : Nat) (f : Barrow → Barrow) : (s.updBarrow b f).out = s.out := rfl
@[simp] theorem State.updBarrow_pending (s : State) (b : Nat) (f : Barrow → Barrow) : (s.updBarrow b f).pending = s.pending := rfl

/-! ### updGroup -/

@[simp] theorem State.updGroup_straps (s : State) (i : Nat) (f : Group → Group) : (s.updGroup i f).straps = s.straps := rfl
@[simp] theorem State.updGroup_regs (s : State) (i : Nat) (f : Group → Group) : (s.updGroup i f).regs = s.regs := rfl
@[simp] theorem State.updGroup_latches (s : State) (i : Nat) (f : Group → Group) : (s.updGroup i f).latches = s.latches := rfl
@[simp] theorem State.updGroup_nowLatch (s : State) (i : Nat) (f : Group → Group) : (s.updGroup i f).nowLatch = s.nowLatch := rfl
@[simp] theorem State.updGroup_up (s : State) (i : Nat) (f : Group → Group) : (s.updGroup i f).up = s.up := rfl
@[simp] theorem State.updGroup_cycAcc (s : State) (i : Nat) (f : Group → Group) : (s.updGroup i f).cycAcc = s.cycAcc := rfl
@[simp] theorem State.updGroup_free (s : State) (i : Nat) (f : Group → Group) : (s.updGroup i f).free = s.free := rfl
@[simp] theorem State.updGroup_bell (s : State) (i : Nat) (f : Group → Group) : (s.updGroup i f).bell = s.bell := rfl
@[simp] theorem State.updGroup_groups (s : State) (i : Nat) (f : Group → Group) : (s.updGroup i f).groups = upd s.groups i f := rfl
@[simp] theorem State.updGroup_ctxs (s : State) (i : Nat) (f : Group → Group) : (s.updGroup i f).ctxs = s.ctxs := rfl
@[simp] theorem State.updGroup_lanes (s : State) (i : Nat) (f : Group → Group) : (s.updGroup i f).lanes = s.lanes := rfl
@[simp] theorem State.updGroup_tiles (s : State) (i : Nat) (f : Group → Group) : (s.updGroup i f).tiles = s.tiles := rfl
@[simp] theorem State.updGroup_clusters (s : State) (i : Nat) (f : Group → Group) : (s.updGroup i f).clusters = s.clusters := rfl
@[simp] theorem State.updGroup_ops (s : State) (i : Nat) (f : Group → Group) : (s.updGroup i f).ops = s.ops := rfl
@[simp] theorem State.updGroup_nextOp (s : State) (i : Nat) (f : Group → Group) : (s.updGroup i f).nextOp = s.nextOp := rfl
@[simp] theorem State.updGroup_barrows (s : State) (i : Nat) (f : Group → Group) : (s.updGroup i f).barrows = s.barrows := rfl
@[simp] theorem State.updGroup_reqs (s : State) (i : Nat) (f : Group → Group) : (s.updGroup i f).reqs = s.reqs := rfl
@[simp] theorem State.updGroup_nextTag (s : State) (i : Nat) (f : Group → Group) : (s.updGroup i f).nextTag = s.nextTag := rfl
@[simp] theorem State.updGroup_dumpHeld (s : State) (i : Nat) (f : Group → Group) : (s.updGroup i f).dumpHeld = s.dumpHeld := rfl
@[simp] theorem State.updGroup_loop (s : State) (i : Nat) (f : Group → Group) : (s.updGroup i f).loop = s.loop := rfl
@[simp] theorem State.updGroup_relayNext (s : State) (i : Nat) (f : Group → Group) : (s.updGroup i f).relayNext = s.relayNext := rfl
@[simp] theorem State.updGroup_relayHeld (s : State) (i : Nat) (f : Group → Group) : (s.updGroup i f).relayHeld = s.relayHeld := rfl
@[simp] theorem State.updGroup_relays (s : State) (i : Nat) (f : Group → Group) : (s.updGroup i f).relays = s.relays := rfl
@[simp] theorem State.updGroup_tlb (s : State) (i : Nat) (f : Group → Group) : (s.updGroup i f).tlb = s.tlb := rfl
@[simp] theorem State.updGroup_xreqs (s : State) (i : Nat) (f : Group → Group) : (s.updGroup i f).xreqs = s.xreqs := rfl
@[simp] theorem State.updGroup_nextX (s : State) (i : Nat) (f : Group → Group) : (s.updGroup i f).nextX = s.nextX := rfl
@[simp] theorem State.updGroup_pageReqs (s : State) (i : Nat) (f : Group → Group) : (s.updGroup i f).pageReqs = s.pageReqs := rfl
@[simp] theorem State.updGroup_withdraws (s : State) (i : Nat) (f : Group → Group) : (s.updGroup i f).withdraws = s.withdraws := rfl
@[simp] theorem State.updGroup_nextWd (s : State) (i : Nat) (f : Group → Group) : (s.updGroup i f).nextWd = s.nextWd := rfl
@[simp] theorem State.updGroup_ports (s : State) (i : Nat) (f : Group → Group) : (s.updGroup i f).ports = s.ports := rfl
@[simp] theorem State.updGroup_inbox (s : State) (i : Nat) (f : Group → Group) : (s.updGroup i f).inbox = s.inbox := rfl
@[simp] theorem State.updGroup_keys (s : State) (i : Nat) (f : Group → Group) : (s.updGroup i f).keys = s.keys := rfl
@[simp] theorem State.updGroup_barGroups (s : State) (i : Nat) (f : Group → Group) : (s.updGroup i f).barGroups = s.barGroups := rfl
@[simp] theorem State.updGroup_mem (s : State) (i : Nat) (f : Group → Group) : (s.updGroup i f).mem = s.mem := rfl
@[simp] theorem State.updGroup_cells (s : State) (i : Nat) (f : Group → Group) : (s.updGroup i f).cells = s.cells := rfl
@[simp] theorem State.updGroup_inject (s : State) (i : Nat) (f : Group → Group) : (s.updGroup i f).inject = s.inject := rfl
@[simp] theorem State.updGroup_breset (s : State) (i : Nat) (f : Group → Group) : (s.updGroup i f).breset = s.breset := rfl
@[simp] theorem State.updGroup_power (s : State) (i : Nat) (f : Group → Group) : (s.updGroup i f).power = s.power := rfl
@[simp] theorem State.updGroup_insp (s : State) (i : Nat) (f : Group → Group) : (s.updGroup i f).insp = s.insp := rfl
@[simp] theorem State.updGroup_pins (s : State) (i : Nat) (f : Group → Group) : (s.updGroup i f).pins = s.pins := rfl
@[simp] theorem State.updGroup_bootUp (s : State) (i : Nat) (f : Group → Group) : (s.updGroup i f).bootUp = s.bootUp := rfl
@[simp] theorem State.updGroup_turnTimed (s : State) (i : Nat) (f : Group → Group) : (s.updGroup i f).turnTimed = s.turnTimed := rfl
@[simp] theorem State.updGroup_turnOther (s : State) (i : Nat) (f : Group → Group) : (s.updGroup i f).turnOther = s.turnOther := rfl
@[simp] theorem State.updGroup_debugHeld (s : State) (i : Nat) (f : Group → Group) : (s.updGroup i f).debugHeld = s.debugHeld := rfl
@[simp] theorem State.updGroup_grantTurn (s : State) (i : Nat) (f : Group → Group) : (s.updGroup i f).grantTurn = s.grantTurn := rfl
@[simp] theorem State.updGroup_out (s : State) (i : Nat) (f : Group → Group) : (s.updGroup i f).out = s.out := rfl
@[simp] theorem State.updGroup_pending (s : State) (i : Nat) (f : Group → Group) : (s.updGroup i f).pending = s.pending := rfl

/-! ### updMem -/

@[simp] theorem State.updMem_straps (s : State) (f : MemCtl → MemCtl) : (s.updMem f).straps = s.straps := rfl
@[simp] theorem State.updMem_regs (s : State) (f : MemCtl → MemCtl) : (s.updMem f).regs = s.regs := rfl
@[simp] theorem State.updMem_latches (s : State) (f : MemCtl → MemCtl) : (s.updMem f).latches = s.latches := rfl
@[simp] theorem State.updMem_nowLatch (s : State) (f : MemCtl → MemCtl) : (s.updMem f).nowLatch = s.nowLatch := rfl
@[simp] theorem State.updMem_up (s : State) (f : MemCtl → MemCtl) : (s.updMem f).up = s.up := rfl
@[simp] theorem State.updMem_cycAcc (s : State) (f : MemCtl → MemCtl) : (s.updMem f).cycAcc = s.cycAcc := rfl
@[simp] theorem State.updMem_free (s : State) (f : MemCtl → MemCtl) : (s.updMem f).free = s.free := rfl
@[simp] theorem State.updMem_bell (s : State) (f : MemCtl → MemCtl) : (s.updMem f).bell = s.bell := rfl
@[simp] theorem State.updMem_groups (s : State) (f : MemCtl → MemCtl) : (s.updMem f).groups = s.groups := rfl
@[simp] theorem State.updMem_ctxs (s : State) (f : MemCtl → MemCtl) : (s.updMem f).ctxs = s.ctxs := rfl
@[simp] theorem State.updMem_lanes (s : State) (f : MemCtl → MemCtl) : (s.updMem f).lanes = s.lanes := rfl
@[simp] theorem State.updMem_tiles (s : State) (f : MemCtl → MemCtl) : (s.updMem f).tiles = s.tiles := rfl
@[simp] theorem State.updMem_clusters (s : State) (f : MemCtl → MemCtl) : (s.updMem f).clusters = s.clusters := rfl
@[simp] theorem State.updMem_ops (s : State) (f : MemCtl → MemCtl) : (s.updMem f).ops = s.ops := rfl
@[simp] theorem State.updMem_nextOp (s : State) (f : MemCtl → MemCtl) : (s.updMem f).nextOp = s.nextOp := rfl
@[simp] theorem State.updMem_barrows (s : State) (f : MemCtl → MemCtl) : (s.updMem f).barrows = s.barrows := rfl
@[simp] theorem State.updMem_reqs (s : State) (f : MemCtl → MemCtl) : (s.updMem f).reqs = s.reqs := rfl
@[simp] theorem State.updMem_nextTag (s : State) (f : MemCtl → MemCtl) : (s.updMem f).nextTag = s.nextTag := rfl
@[simp] theorem State.updMem_dumpHeld (s : State) (f : MemCtl → MemCtl) : (s.updMem f).dumpHeld = s.dumpHeld := rfl
@[simp] theorem State.updMem_loop (s : State) (f : MemCtl → MemCtl) : (s.updMem f).loop = s.loop := rfl
@[simp] theorem State.updMem_relayNext (s : State) (f : MemCtl → MemCtl) : (s.updMem f).relayNext = s.relayNext := rfl
@[simp] theorem State.updMem_relayHeld (s : State) (f : MemCtl → MemCtl) : (s.updMem f).relayHeld = s.relayHeld := rfl
@[simp] theorem State.updMem_relays (s : State) (f : MemCtl → MemCtl) : (s.updMem f).relays = s.relays := rfl
@[simp] theorem State.updMem_tlb (s : State) (f : MemCtl → MemCtl) : (s.updMem f).tlb = s.tlb := rfl
@[simp] theorem State.updMem_xreqs (s : State) (f : MemCtl → MemCtl) : (s.updMem f).xreqs = s.xreqs := rfl
@[simp] theorem State.updMem_nextX (s : State) (f : MemCtl → MemCtl) : (s.updMem f).nextX = s.nextX := rfl
@[simp] theorem State.updMem_pageReqs (s : State) (f : MemCtl → MemCtl) : (s.updMem f).pageReqs = s.pageReqs := rfl
@[simp] theorem State.updMem_withdraws (s : State) (f : MemCtl → MemCtl) : (s.updMem f).withdraws = s.withdraws := rfl
@[simp] theorem State.updMem_nextWd (s : State) (f : MemCtl → MemCtl) : (s.updMem f).nextWd = s.nextWd := rfl
@[simp] theorem State.updMem_ports (s : State) (f : MemCtl → MemCtl) : (s.updMem f).ports = s.ports := rfl
@[simp] theorem State.updMem_inbox (s : State) (f : MemCtl → MemCtl) : (s.updMem f).inbox = s.inbox := rfl
@[simp] theorem State.updMem_keys (s : State) (f : MemCtl → MemCtl) : (s.updMem f).keys = s.keys := rfl
@[simp] theorem State.updMem_barGroups (s : State) (f : MemCtl → MemCtl) : (s.updMem f).barGroups = s.barGroups := rfl
@[simp] theorem State.updMem_mem (s : State) (f : MemCtl → MemCtl) : (s.updMem f).mem = f s.mem := rfl
@[simp] theorem State.updMem_cells (s : State) (f : MemCtl → MemCtl) : (s.updMem f).cells = s.cells := rfl
@[simp] theorem State.updMem_inject (s : State) (f : MemCtl → MemCtl) : (s.updMem f).inject = s.inject := rfl
@[simp] theorem State.updMem_breset (s : State) (f : MemCtl → MemCtl) : (s.updMem f).breset = s.breset := rfl
@[simp] theorem State.updMem_power (s : State) (f : MemCtl → MemCtl) : (s.updMem f).power = s.power := rfl
@[simp] theorem State.updMem_insp (s : State) (f : MemCtl → MemCtl) : (s.updMem f).insp = s.insp := rfl
@[simp] theorem State.updMem_pins (s : State) (f : MemCtl → MemCtl) : (s.updMem f).pins = s.pins := rfl
@[simp] theorem State.updMem_bootUp (s : State) (f : MemCtl → MemCtl) : (s.updMem f).bootUp = s.bootUp := rfl
@[simp] theorem State.updMem_turnTimed (s : State) (f : MemCtl → MemCtl) : (s.updMem f).turnTimed = s.turnTimed := rfl
@[simp] theorem State.updMem_turnOther (s : State) (f : MemCtl → MemCtl) : (s.updMem f).turnOther = s.turnOther := rfl
@[simp] theorem State.updMem_debugHeld (s : State) (f : MemCtl → MemCtl) : (s.updMem f).debugHeld = s.debugHeld := rfl
@[simp] theorem State.updMem_grantTurn (s : State) (f : MemCtl → MemCtl) : (s.updMem f).grantTurn = s.grantTurn := rfl
@[simp] theorem State.updMem_out (s : State) (f : MemCtl → MemCtl) : (s.updMem f).out = s.out := rfl
@[simp] theorem State.updMem_pending (s : State) (f : MemCtl → MemCtl) : (s.updMem f).pending = s.pending := rfl

/-! ### updChan -/

@[simp] theorem State.updChan_straps (s : State) (n : Nat) (f : Chan → Chan) : (s.updChan n f).straps = s.straps := rfl
@[simp] theorem State.updChan_regs (s : State) (n : Nat) (f : Chan → Chan) : (s.updChan n f).regs = s.regs := rfl
@[simp] theorem State.updChan_latches (s : State) (n : Nat) (f : Chan → Chan) : (s.updChan n f).latches = s.latches := rfl
@[simp] theorem State.updChan_nowLatch (s : State) (n : Nat) (f : Chan → Chan) : (s.updChan n f).nowLatch = s.nowLatch := rfl
@[simp] theorem State.updChan_up (s : State) (n : Nat) (f : Chan → Chan) : (s.updChan n f).up = s.up := rfl
@[simp] theorem State.updChan_cycAcc (s : State) (n : Nat) (f : Chan → Chan) : (s.updChan n f).cycAcc = s.cycAcc := rfl
@[simp] theorem State.updChan_free (s : State) (n : Nat) (f : Chan → Chan) : (s.updChan n f).free = s.free := rfl
@[simp] theorem State.updChan_bell (s : State) (n : Nat) (f : Chan → Chan) : (s.updChan n f).bell = s.bell := rfl
@[simp] theorem State.updChan_groups (s : State) (n : Nat) (f : Chan → Chan) : (s.updChan n f).groups = s.groups := rfl
@[simp] theorem State.updChan_ctxs (s : State) (n : Nat) (f : Chan → Chan) : (s.updChan n f).ctxs = s.ctxs := rfl
@[simp] theorem State.updChan_lanes (s : State) (n : Nat) (f : Chan → Chan) : (s.updChan n f).lanes = s.lanes := rfl
@[simp] theorem State.updChan_tiles (s : State) (n : Nat) (f : Chan → Chan) : (s.updChan n f).tiles = s.tiles := rfl
@[simp] theorem State.updChan_clusters (s : State) (n : Nat) (f : Chan → Chan) : (s.updChan n f).clusters = s.clusters := rfl
@[simp] theorem State.updChan_ops (s : State) (n : Nat) (f : Chan → Chan) : (s.updChan n f).ops = s.ops := rfl
@[simp] theorem State.updChan_nextOp (s : State) (n : Nat) (f : Chan → Chan) : (s.updChan n f).nextOp = s.nextOp := rfl
@[simp] theorem State.updChan_barrows (s : State) (n : Nat) (f : Chan → Chan) : (s.updChan n f).barrows = s.barrows := rfl
@[simp] theorem State.updChan_reqs (s : State) (n : Nat) (f : Chan → Chan) : (s.updChan n f).reqs = s.reqs := rfl
@[simp] theorem State.updChan_nextTag (s : State) (n : Nat) (f : Chan → Chan) : (s.updChan n f).nextTag = s.nextTag := rfl
@[simp] theorem State.updChan_dumpHeld (s : State) (n : Nat) (f : Chan → Chan) : (s.updChan n f).dumpHeld = s.dumpHeld := rfl
@[simp] theorem State.updChan_loop (s : State) (n : Nat) (f : Chan → Chan) : (s.updChan n f).loop = s.loop := rfl
@[simp] theorem State.updChan_relayNext (s : State) (n : Nat) (f : Chan → Chan) : (s.updChan n f).relayNext = s.relayNext := rfl
@[simp] theorem State.updChan_relayHeld (s : State) (n : Nat) (f : Chan → Chan) : (s.updChan n f).relayHeld = s.relayHeld := rfl
@[simp] theorem State.updChan_relays (s : State) (n : Nat) (f : Chan → Chan) : (s.updChan n f).relays = s.relays := rfl
@[simp] theorem State.updChan_tlb (s : State) (n : Nat) (f : Chan → Chan) : (s.updChan n f).tlb = s.tlb := rfl
@[simp] theorem State.updChan_xreqs (s : State) (n : Nat) (f : Chan → Chan) : (s.updChan n f).xreqs = s.xreqs := rfl
@[simp] theorem State.updChan_nextX (s : State) (n : Nat) (f : Chan → Chan) : (s.updChan n f).nextX = s.nextX := rfl
@[simp] theorem State.updChan_pageReqs (s : State) (n : Nat) (f : Chan → Chan) : (s.updChan n f).pageReqs = s.pageReqs := rfl
@[simp] theorem State.updChan_withdraws (s : State) (n : Nat) (f : Chan → Chan) : (s.updChan n f).withdraws = s.withdraws := rfl
@[simp] theorem State.updChan_nextWd (s : State) (n : Nat) (f : Chan → Chan) : (s.updChan n f).nextWd = s.nextWd := rfl
@[simp] theorem State.updChan_ports (s : State) (n : Nat) (f : Chan → Chan) : (s.updChan n f).ports = s.ports := rfl
@[simp] theorem State.updChan_inbox (s : State) (n : Nat) (f : Chan → Chan) : (s.updChan n f).inbox = s.inbox := rfl
@[simp] theorem State.updChan_keys (s : State) (n : Nat) (f : Chan → Chan) : (s.updChan n f).keys = s.keys := rfl
@[simp] theorem State.updChan_barGroups (s : State) (n : Nat) (f : Chan → Chan) : (s.updChan n f).barGroups = s.barGroups := rfl
@[simp] theorem State.updChan_cells (s : State) (n : Nat) (f : Chan → Chan) : (s.updChan n f).cells = s.cells := rfl
@[simp] theorem State.updChan_inject (s : State) (n : Nat) (f : Chan → Chan) : (s.updChan n f).inject = s.inject := rfl
@[simp] theorem State.updChan_breset (s : State) (n : Nat) (f : Chan → Chan) : (s.updChan n f).breset = s.breset := rfl
@[simp] theorem State.updChan_power (s : State) (n : Nat) (f : Chan → Chan) : (s.updChan n f).power = s.power := rfl
@[simp] theorem State.updChan_insp (s : State) (n : Nat) (f : Chan → Chan) : (s.updChan n f).insp = s.insp := rfl
@[simp] theorem State.updChan_pins (s : State) (n : Nat) (f : Chan → Chan) : (s.updChan n f).pins = s.pins := rfl
@[simp] theorem State.updChan_bootUp (s : State) (n : Nat) (f : Chan → Chan) : (s.updChan n f).bootUp = s.bootUp := rfl
@[simp] theorem State.updChan_turnTimed (s : State) (n : Nat) (f : Chan → Chan) : (s.updChan n f).turnTimed = s.turnTimed := rfl
@[simp] theorem State.updChan_turnOther (s : State) (n : Nat) (f : Chan → Chan) : (s.updChan n f).turnOther = s.turnOther := rfl
@[simp] theorem State.updChan_debugHeld (s : State) (n : Nat) (f : Chan → Chan) : (s.updChan n f).debugHeld = s.debugHeld := rfl
@[simp] theorem State.updChan_grantTurn (s : State) (n : Nat) (f : Chan → Chan) : (s.updChan n f).grantTurn = s.grantTurn := rfl
@[simp] theorem State.updChan_out (s : State) (n : Nat) (f : Chan → Chan) : (s.updChan n f).out = s.out := rfl
@[simp] theorem State.updChan_pending (s : State) (n : Nat) (f : Chan → Chan) : (s.updChan n f).pending = s.pending := rfl

/-! ### updPower -/

@[simp] theorem State.updPower_straps (s : State) (f : Power → Power) : (s.updPower f).straps = s.straps := rfl
@[simp] theorem State.updPower_regs (s : State) (f : Power → Power) : (s.updPower f).regs = s.regs := rfl
@[simp] theorem State.updPower_latches (s : State) (f : Power → Power) : (s.updPower f).latches = s.latches := rfl
@[simp] theorem State.updPower_nowLatch (s : State) (f : Power → Power) : (s.updPower f).nowLatch = s.nowLatch := rfl
@[simp] theorem State.updPower_up (s : State) (f : Power → Power) : (s.updPower f).up = s.up := rfl
@[simp] theorem State.updPower_cycAcc (s : State) (f : Power → Power) : (s.updPower f).cycAcc = s.cycAcc := rfl
@[simp] theorem State.updPower_free (s : State) (f : Power → Power) : (s.updPower f).free = s.free := rfl
@[simp] theorem State.updPower_bell (s : State) (f : Power → Power) : (s.updPower f).bell = s.bell := rfl
@[simp] theorem State.updPower_groups (s : State) (f : Power → Power) : (s.updPower f).groups = s.groups := rfl
@[simp] theorem State.updPower_ctxs (s : State) (f : Power → Power) : (s.updPower f).ctxs = s.ctxs := rfl
@[simp] theorem State.updPower_lanes (s : State) (f : Power → Power) : (s.updPower f).lanes = s.lanes := rfl
@[simp] theorem State.updPower_tiles (s : State) (f : Power → Power) : (s.updPower f).tiles = s.tiles := rfl
@[simp] theorem State.updPower_clusters (s : State) (f : Power → Power) : (s.updPower f).clusters = s.clusters := rfl
@[simp] theorem State.updPower_ops (s : State) (f : Power → Power) : (s.updPower f).ops = s.ops := rfl
@[simp] theorem State.updPower_nextOp (s : State) (f : Power → Power) : (s.updPower f).nextOp = s.nextOp := rfl
@[simp] theorem State.updPower_barrows (s : State) (f : Power → Power) : (s.updPower f).barrows = s.barrows := rfl
@[simp] theorem State.updPower_reqs (s : State) (f : Power → Power) : (s.updPower f).reqs = s.reqs := rfl
@[simp] theorem State.updPower_nextTag (s : State) (f : Power → Power) : (s.updPower f).nextTag = s.nextTag := rfl
@[simp] theorem State.updPower_dumpHeld (s : State) (f : Power → Power) : (s.updPower f).dumpHeld = s.dumpHeld := rfl
@[simp] theorem State.updPower_loop (s : State) (f : Power → Power) : (s.updPower f).loop = s.loop := rfl
@[simp] theorem State.updPower_relayNext (s : State) (f : Power → Power) : (s.updPower f).relayNext = s.relayNext := rfl
@[simp] theorem State.updPower_relayHeld (s : State) (f : Power → Power) : (s.updPower f).relayHeld = s.relayHeld := rfl
@[simp] theorem State.updPower_relays (s : State) (f : Power → Power) : (s.updPower f).relays = s.relays := rfl
@[simp] theorem State.updPower_tlb (s : State) (f : Power → Power) : (s.updPower f).tlb = s.tlb := rfl
@[simp] theorem State.updPower_xreqs (s : State) (f : Power → Power) : (s.updPower f).xreqs = s.xreqs := rfl
@[simp] theorem State.updPower_nextX (s : State) (f : Power → Power) : (s.updPower f).nextX = s.nextX := rfl
@[simp] theorem State.updPower_pageReqs (s : State) (f : Power → Power) : (s.updPower f).pageReqs = s.pageReqs := rfl
@[simp] theorem State.updPower_withdraws (s : State) (f : Power → Power) : (s.updPower f).withdraws = s.withdraws := rfl
@[simp] theorem State.updPower_nextWd (s : State) (f : Power → Power) : (s.updPower f).nextWd = s.nextWd := rfl
@[simp] theorem State.updPower_ports (s : State) (f : Power → Power) : (s.updPower f).ports = s.ports := rfl
@[simp] theorem State.updPower_inbox (s : State) (f : Power → Power) : (s.updPower f).inbox = s.inbox := rfl
@[simp] theorem State.updPower_keys (s : State) (f : Power → Power) : (s.updPower f).keys = s.keys := rfl
@[simp] theorem State.updPower_barGroups (s : State) (f : Power → Power) : (s.updPower f).barGroups = s.barGroups := rfl
@[simp] theorem State.updPower_mem (s : State) (f : Power → Power) : (s.updPower f).mem = s.mem := rfl
@[simp] theorem State.updPower_cells (s : State) (f : Power → Power) : (s.updPower f).cells = s.cells := rfl
@[simp] theorem State.updPower_inject (s : State) (f : Power → Power) : (s.updPower f).inject = s.inject := rfl
@[simp] theorem State.updPower_breset (s : State) (f : Power → Power) : (s.updPower f).breset = s.breset := rfl
@[simp] theorem State.updPower_power (s : State) (f : Power → Power) : (s.updPower f).power = f s.power := rfl
@[simp] theorem State.updPower_insp (s : State) (f : Power → Power) : (s.updPower f).insp = s.insp := rfl
@[simp] theorem State.updPower_pins (s : State) (f : Power → Power) : (s.updPower f).pins = s.pins := rfl
@[simp] theorem State.updPower_bootUp (s : State) (f : Power → Power) : (s.updPower f).bootUp = s.bootUp := rfl
@[simp] theorem State.updPower_turnTimed (s : State) (f : Power → Power) : (s.updPower f).turnTimed = s.turnTimed := rfl
@[simp] theorem State.updPower_turnOther (s : State) (f : Power → Power) : (s.updPower f).turnOther = s.turnOther := rfl
@[simp] theorem State.updPower_debugHeld (s : State) (f : Power → Power) : (s.updPower f).debugHeld = s.debugHeld := rfl
@[simp] theorem State.updPower_grantTurn (s : State) (f : Power → Power) : (s.updPower f).grantTurn = s.grantTurn := rfl
@[simp] theorem State.updPower_out (s : State) (f : Power → Power) : (s.updPower f).out = s.out := rfl
@[simp] theorem State.updPower_pending (s : State) (f : Power → Power) : (s.updPower f).pending = s.pending := rfl

/-! ### updInsp -/

@[simp] theorem State.updInsp_straps (s : State) (f : Inspector → Inspector) : (s.updInsp f).straps = s.straps := rfl
@[simp] theorem State.updInsp_regs (s : State) (f : Inspector → Inspector) : (s.updInsp f).regs = s.regs := rfl
@[simp] theorem State.updInsp_latches (s : State) (f : Inspector → Inspector) : (s.updInsp f).latches = s.latches := rfl
@[simp] theorem State.updInsp_nowLatch (s : State) (f : Inspector → Inspector) : (s.updInsp f).nowLatch = s.nowLatch := rfl
@[simp] theorem State.updInsp_up (s : State) (f : Inspector → Inspector) : (s.updInsp f).up = s.up := rfl
@[simp] theorem State.updInsp_cycAcc (s : State) (f : Inspector → Inspector) : (s.updInsp f).cycAcc = s.cycAcc := rfl
@[simp] theorem State.updInsp_free (s : State) (f : Inspector → Inspector) : (s.updInsp f).free = s.free := rfl
@[simp] theorem State.updInsp_bell (s : State) (f : Inspector → Inspector) : (s.updInsp f).bell = s.bell := rfl
@[simp] theorem State.updInsp_groups (s : State) (f : Inspector → Inspector) : (s.updInsp f).groups = s.groups := rfl
@[simp] theorem State.updInsp_ctxs (s : State) (f : Inspector → Inspector) : (s.updInsp f).ctxs = s.ctxs := rfl
@[simp] theorem State.updInsp_lanes (s : State) (f : Inspector → Inspector) : (s.updInsp f).lanes = s.lanes := rfl
@[simp] theorem State.updInsp_tiles (s : State) (f : Inspector → Inspector) : (s.updInsp f).tiles = s.tiles := rfl
@[simp] theorem State.updInsp_clusters (s : State) (f : Inspector → Inspector) : (s.updInsp f).clusters = s.clusters := rfl
@[simp] theorem State.updInsp_ops (s : State) (f : Inspector → Inspector) : (s.updInsp f).ops = s.ops := rfl
@[simp] theorem State.updInsp_nextOp (s : State) (f : Inspector → Inspector) : (s.updInsp f).nextOp = s.nextOp := rfl
@[simp] theorem State.updInsp_barrows (s : State) (f : Inspector → Inspector) : (s.updInsp f).barrows = s.barrows := rfl
@[simp] theorem State.updInsp_reqs (s : State) (f : Inspector → Inspector) : (s.updInsp f).reqs = s.reqs := rfl
@[simp] theorem State.updInsp_nextTag (s : State) (f : Inspector → Inspector) : (s.updInsp f).nextTag = s.nextTag := rfl
@[simp] theorem State.updInsp_dumpHeld (s : State) (f : Inspector → Inspector) : (s.updInsp f).dumpHeld = s.dumpHeld := rfl
@[simp] theorem State.updInsp_loop (s : State) (f : Inspector → Inspector) : (s.updInsp f).loop = s.loop := rfl
@[simp] theorem State.updInsp_relayNext (s : State) (f : Inspector → Inspector) : (s.updInsp f).relayNext = s.relayNext := rfl
@[simp] theorem State.updInsp_relayHeld (s : State) (f : Inspector → Inspector) : (s.updInsp f).relayHeld = s.relayHeld := rfl
@[simp] theorem State.updInsp_relays (s : State) (f : Inspector → Inspector) : (s.updInsp f).relays = s.relays := rfl
@[simp] theorem State.updInsp_tlb (s : State) (f : Inspector → Inspector) : (s.updInsp f).tlb = s.tlb := rfl
@[simp] theorem State.updInsp_xreqs (s : State) (f : Inspector → Inspector) : (s.updInsp f).xreqs = s.xreqs := rfl
@[simp] theorem State.updInsp_nextX (s : State) (f : Inspector → Inspector) : (s.updInsp f).nextX = s.nextX := rfl
@[simp] theorem State.updInsp_pageReqs (s : State) (f : Inspector → Inspector) : (s.updInsp f).pageReqs = s.pageReqs := rfl
@[simp] theorem State.updInsp_withdraws (s : State) (f : Inspector → Inspector) : (s.updInsp f).withdraws = s.withdraws := rfl
@[simp] theorem State.updInsp_nextWd (s : State) (f : Inspector → Inspector) : (s.updInsp f).nextWd = s.nextWd := rfl
@[simp] theorem State.updInsp_ports (s : State) (f : Inspector → Inspector) : (s.updInsp f).ports = s.ports := rfl
@[simp] theorem State.updInsp_inbox (s : State) (f : Inspector → Inspector) : (s.updInsp f).inbox = s.inbox := rfl
@[simp] theorem State.updInsp_keys (s : State) (f : Inspector → Inspector) : (s.updInsp f).keys = s.keys := rfl
@[simp] theorem State.updInsp_barGroups (s : State) (f : Inspector → Inspector) : (s.updInsp f).barGroups = s.barGroups := rfl
@[simp] theorem State.updInsp_mem (s : State) (f : Inspector → Inspector) : (s.updInsp f).mem = s.mem := rfl
@[simp] theorem State.updInsp_cells (s : State) (f : Inspector → Inspector) : (s.updInsp f).cells = s.cells := rfl
@[simp] theorem State.updInsp_inject (s : State) (f : Inspector → Inspector) : (s.updInsp f).inject = s.inject := rfl
@[simp] theorem State.updInsp_breset (s : State) (f : Inspector → Inspector) : (s.updInsp f).breset = s.breset := rfl
@[simp] theorem State.updInsp_power (s : State) (f : Inspector → Inspector) : (s.updInsp f).power = s.power := rfl
@[simp] theorem State.updInsp_insp (s : State) (f : Inspector → Inspector) : (s.updInsp f).insp = f s.insp := rfl
@[simp] theorem State.updInsp_pins (s : State) (f : Inspector → Inspector) : (s.updInsp f).pins = s.pins := rfl
@[simp] theorem State.updInsp_bootUp (s : State) (f : Inspector → Inspector) : (s.updInsp f).bootUp = s.bootUp := rfl
@[simp] theorem State.updInsp_turnTimed (s : State) (f : Inspector → Inspector) : (s.updInsp f).turnTimed = s.turnTimed := rfl
@[simp] theorem State.updInsp_turnOther (s : State) (f : Inspector → Inspector) : (s.updInsp f).turnOther = s.turnOther := rfl
@[simp] theorem State.updInsp_debugHeld (s : State) (f : Inspector → Inspector) : (s.updInsp f).debugHeld = s.debugHeld := rfl
@[simp] theorem State.updInsp_grantTurn (s : State) (f : Inspector → Inspector) : (s.updInsp f).grantTurn = s.grantTurn := rfl
@[simp] theorem State.updInsp_out (s : State) (f : Inspector → Inspector) : (s.updInsp f).out = s.out := rfl
@[simp] theorem State.updInsp_pending (s : State) (f : Inspector → Inspector) : (s.updInsp f).pending = s.pending := rfl

/-! ### updBell -/

@[simp] theorem State.updBell_straps (s : State) (f : Bell → Bell) : (s.updBell f).straps = s.straps := rfl
@[simp] theorem State.updBell_regs (s : State) (f : Bell → Bell) : (s.updBell f).regs = s.regs := rfl
@[simp] theorem State.updBell_latches (s : State) (f : Bell → Bell) : (s.updBell f).latches = s.latches := rfl
@[simp] theorem State.updBell_nowLatch (s : State) (f : Bell → Bell) : (s.updBell f).nowLatch = s.nowLatch := rfl
@[simp] theorem State.updBell_up (s : State) (f : Bell → Bell) : (s.updBell f).up = s.up := rfl
@[simp] theorem State.updBell_cycAcc (s : State) (f : Bell → Bell) : (s.updBell f).cycAcc = s.cycAcc := rfl
@[simp] theorem State.updBell_free (s : State) (f : Bell → Bell) : (s.updBell f).free = s.free := rfl
@[simp] theorem State.updBell_bell (s : State) (f : Bell → Bell) : (s.updBell f).bell = f s.bell := rfl
@[simp] theorem State.updBell_groups (s : State) (f : Bell → Bell) : (s.updBell f).groups = s.groups := rfl
@[simp] theorem State.updBell_ctxs (s : State) (f : Bell → Bell) : (s.updBell f).ctxs = s.ctxs := rfl
@[simp] theorem State.updBell_lanes (s : State) (f : Bell → Bell) : (s.updBell f).lanes = s.lanes := rfl
@[simp] theorem State.updBell_tiles (s : State) (f : Bell → Bell) : (s.updBell f).tiles = s.tiles := rfl
@[simp] theorem State.updBell_clusters (s : State) (f : Bell → Bell) : (s.updBell f).clusters = s.clusters := rfl
@[simp] theorem State.updBell_ops (s : State) (f : Bell → Bell) : (s.updBell f).ops = s.ops := rfl
@[simp] theorem State.updBell_nextOp (s : State) (f : Bell → Bell) : (s.updBell f).nextOp = s.nextOp := rfl
@[simp] theorem State.updBell_barrows (s : State) (f : Bell → Bell) : (s.updBell f).barrows = s.barrows := rfl
@[simp] theorem State.updBell_reqs (s : State) (f : Bell → Bell) : (s.updBell f).reqs = s.reqs := rfl
@[simp] theorem State.updBell_nextTag (s : State) (f : Bell → Bell) : (s.updBell f).nextTag = s.nextTag := rfl
@[simp] theorem State.updBell_dumpHeld (s : State) (f : Bell → Bell) : (s.updBell f).dumpHeld = s.dumpHeld := rfl
@[simp] theorem State.updBell_loop (s : State) (f : Bell → Bell) : (s.updBell f).loop = s.loop := rfl
@[simp] theorem State.updBell_relayNext (s : State) (f : Bell → Bell) : (s.updBell f).relayNext = s.relayNext := rfl
@[simp] theorem State.updBell_relayHeld (s : State) (f : Bell → Bell) : (s.updBell f).relayHeld = s.relayHeld := rfl
@[simp] theorem State.updBell_relays (s : State) (f : Bell → Bell) : (s.updBell f).relays = s.relays := rfl
@[simp] theorem State.updBell_tlb (s : State) (f : Bell → Bell) : (s.updBell f).tlb = s.tlb := rfl
@[simp] theorem State.updBell_xreqs (s : State) (f : Bell → Bell) : (s.updBell f).xreqs = s.xreqs := rfl
@[simp] theorem State.updBell_nextX (s : State) (f : Bell → Bell) : (s.updBell f).nextX = s.nextX := rfl
@[simp] theorem State.updBell_pageReqs (s : State) (f : Bell → Bell) : (s.updBell f).pageReqs = s.pageReqs := rfl
@[simp] theorem State.updBell_withdraws (s : State) (f : Bell → Bell) : (s.updBell f).withdraws = s.withdraws := rfl
@[simp] theorem State.updBell_nextWd (s : State) (f : Bell → Bell) : (s.updBell f).nextWd = s.nextWd := rfl
@[simp] theorem State.updBell_ports (s : State) (f : Bell → Bell) : (s.updBell f).ports = s.ports := rfl
@[simp] theorem State.updBell_inbox (s : State) (f : Bell → Bell) : (s.updBell f).inbox = s.inbox := rfl
@[simp] theorem State.updBell_keys (s : State) (f : Bell → Bell) : (s.updBell f).keys = s.keys := rfl
@[simp] theorem State.updBell_barGroups (s : State) (f : Bell → Bell) : (s.updBell f).barGroups = s.barGroups := rfl
@[simp] theorem State.updBell_mem (s : State) (f : Bell → Bell) : (s.updBell f).mem = s.mem := rfl
@[simp] theorem State.updBell_cells (s : State) (f : Bell → Bell) : (s.updBell f).cells = s.cells := rfl
@[simp] theorem State.updBell_inject (s : State) (f : Bell → Bell) : (s.updBell f).inject = s.inject := rfl
@[simp] theorem State.updBell_breset (s : State) (f : Bell → Bell) : (s.updBell f).breset = s.breset := rfl
@[simp] theorem State.updBell_power (s : State) (f : Bell → Bell) : (s.updBell f).power = s.power := rfl
@[simp] theorem State.updBell_insp (s : State) (f : Bell → Bell) : (s.updBell f).insp = s.insp := rfl
@[simp] theorem State.updBell_pins (s : State) (f : Bell → Bell) : (s.updBell f).pins = s.pins := rfl
@[simp] theorem State.updBell_bootUp (s : State) (f : Bell → Bell) : (s.updBell f).bootUp = s.bootUp := rfl
@[simp] theorem State.updBell_turnTimed (s : State) (f : Bell → Bell) : (s.updBell f).turnTimed = s.turnTimed := rfl
@[simp] theorem State.updBell_turnOther (s : State) (f : Bell → Bell) : (s.updBell f).turnOther = s.turnOther := rfl
@[simp] theorem State.updBell_debugHeld (s : State) (f : Bell → Bell) : (s.updBell f).debugHeld = s.debugHeld := rfl
@[simp] theorem State.updBell_grantTurn (s : State) (f : Bell → Bell) : (s.updBell f).grantTurn = s.grantTurn := rfl
@[simp] theorem State.updBell_out (s : State) (f : Bell → Bell) : (s.updBell f).out = s.out := rfl
@[simp] theorem State.updBell_pending (s : State) (f : Bell → Bell) : (s.updBell f).pending = s.pending := rfl

/-! ### updPins -/

@[simp] theorem State.updPins_straps (s : State) (f : Pins → Pins) : (s.updPins f).straps = s.straps := rfl
@[simp] theorem State.updPins_regs (s : State) (f : Pins → Pins) : (s.updPins f).regs = s.regs := rfl
@[simp] theorem State.updPins_latches (s : State) (f : Pins → Pins) : (s.updPins f).latches = s.latches := rfl
@[simp] theorem State.updPins_nowLatch (s : State) (f : Pins → Pins) : (s.updPins f).nowLatch = s.nowLatch := rfl
@[simp] theorem State.updPins_up (s : State) (f : Pins → Pins) : (s.updPins f).up = s.up := rfl
@[simp] theorem State.updPins_cycAcc (s : State) (f : Pins → Pins) : (s.updPins f).cycAcc = s.cycAcc := rfl
@[simp] theorem State.updPins_free (s : State) (f : Pins → Pins) : (s.updPins f).free = s.free := rfl
@[simp] theorem State.updPins_bell (s : State) (f : Pins → Pins) : (s.updPins f).bell = s.bell := rfl
@[simp] theorem State.updPins_groups (s : State) (f : Pins → Pins) : (s.updPins f).groups = s.groups := rfl
@[simp] theorem State.updPins_ctxs (s : State) (f : Pins → Pins) : (s.updPins f).ctxs = s.ctxs := rfl
@[simp] theorem State.updPins_lanes (s : State) (f : Pins → Pins) : (s.updPins f).lanes = s.lanes := rfl
@[simp] theorem State.updPins_tiles (s : State) (f : Pins → Pins) : (s.updPins f).tiles = s.tiles := rfl
@[simp] theorem State.updPins_clusters (s : State) (f : Pins → Pins) : (s.updPins f).clusters = s.clusters := rfl
@[simp] theorem State.updPins_ops (s : State) (f : Pins → Pins) : (s.updPins f).ops = s.ops := rfl
@[simp] theorem State.updPins_nextOp (s : State) (f : Pins → Pins) : (s.updPins f).nextOp = s.nextOp := rfl
@[simp] theorem State.updPins_barrows (s : State) (f : Pins → Pins) : (s.updPins f).barrows = s.barrows := rfl
@[simp] theorem State.updPins_reqs (s : State) (f : Pins → Pins) : (s.updPins f).reqs = s.reqs := rfl
@[simp] theorem State.updPins_nextTag (s : State) (f : Pins → Pins) : (s.updPins f).nextTag = s.nextTag := rfl
@[simp] theorem State.updPins_dumpHeld (s : State) (f : Pins → Pins) : (s.updPins f).dumpHeld = s.dumpHeld := rfl
@[simp] theorem State.updPins_loop (s : State) (f : Pins → Pins) : (s.updPins f).loop = s.loop := rfl
@[simp] theorem State.updPins_relayNext (s : State) (f : Pins → Pins) : (s.updPins f).relayNext = s.relayNext := rfl
@[simp] theorem State.updPins_relayHeld (s : State) (f : Pins → Pins) : (s.updPins f).relayHeld = s.relayHeld := rfl
@[simp] theorem State.updPins_relays (s : State) (f : Pins → Pins) : (s.updPins f).relays = s.relays := rfl
@[simp] theorem State.updPins_tlb (s : State) (f : Pins → Pins) : (s.updPins f).tlb = s.tlb := rfl
@[simp] theorem State.updPins_xreqs (s : State) (f : Pins → Pins) : (s.updPins f).xreqs = s.xreqs := rfl
@[simp] theorem State.updPins_nextX (s : State) (f : Pins → Pins) : (s.updPins f).nextX = s.nextX := rfl
@[simp] theorem State.updPins_pageReqs (s : State) (f : Pins → Pins) : (s.updPins f).pageReqs = s.pageReqs := rfl
@[simp] theorem State.updPins_withdraws (s : State) (f : Pins → Pins) : (s.updPins f).withdraws = s.withdraws := rfl
@[simp] theorem State.updPins_nextWd (s : State) (f : Pins → Pins) : (s.updPins f).nextWd = s.nextWd := rfl
@[simp] theorem State.updPins_ports (s : State) (f : Pins → Pins) : (s.updPins f).ports = s.ports := rfl
@[simp] theorem State.updPins_inbox (s : State) (f : Pins → Pins) : (s.updPins f).inbox = s.inbox := rfl
@[simp] theorem State.updPins_keys (s : State) (f : Pins → Pins) : (s.updPins f).keys = s.keys := rfl
@[simp] theorem State.updPins_barGroups (s : State) (f : Pins → Pins) : (s.updPins f).barGroups = s.barGroups := rfl
@[simp] theorem State.updPins_mem (s : State) (f : Pins → Pins) : (s.updPins f).mem = s.mem := rfl
@[simp] theorem State.updPins_cells (s : State) (f : Pins → Pins) : (s.updPins f).cells = s.cells := rfl
@[simp] theorem State.updPins_inject (s : State) (f : Pins → Pins) : (s.updPins f).inject = s.inject := rfl
@[simp] theorem State.updPins_breset (s : State) (f : Pins → Pins) : (s.updPins f).breset = s.breset := rfl
@[simp] theorem State.updPins_power (s : State) (f : Pins → Pins) : (s.updPins f).power = s.power := rfl
@[simp] theorem State.updPins_insp (s : State) (f : Pins → Pins) : (s.updPins f).insp = s.insp := rfl
@[simp] theorem State.updPins_pins (s : State) (f : Pins → Pins) : (s.updPins f).pins = f s.pins := rfl
@[simp] theorem State.updPins_bootUp (s : State) (f : Pins → Pins) : (s.updPins f).bootUp = s.bootUp := rfl
@[simp] theorem State.updPins_turnTimed (s : State) (f : Pins → Pins) : (s.updPins f).turnTimed = s.turnTimed := rfl
@[simp] theorem State.updPins_turnOther (s : State) (f : Pins → Pins) : (s.updPins f).turnOther = s.turnOther := rfl
@[simp] theorem State.updPins_debugHeld (s : State) (f : Pins → Pins) : (s.updPins f).debugHeld = s.debugHeld := rfl
@[simp] theorem State.updPins_grantTurn (s : State) (f : Pins → Pins) : (s.updPins f).grantTurn = s.grantTurn := rfl
@[simp] theorem State.updPins_out (s : State) (f : Pins → Pins) : (s.updPins f).out = s.out := rfl
@[simp] theorem State.updPins_pending (s : State) (f : Pins → Pins) : (s.updPins f).pending = s.pending := rfl

/-! ### updOp -/

@[simp] theorem State.updOp_straps (s : State) (i : Nat) (f : Op → Op) : (s.updOp i f).straps = s.straps := rfl
@[simp] theorem State.updOp_regs (s : State) (i : Nat) (f : Op → Op) : (s.updOp i f).regs = s.regs := rfl
@[simp] theorem State.updOp_latches (s : State) (i : Nat) (f : Op → Op) : (s.updOp i f).latches = s.latches := rfl
@[simp] theorem State.updOp_nowLatch (s : State) (i : Nat) (f : Op → Op) : (s.updOp i f).nowLatch = s.nowLatch := rfl
@[simp] theorem State.updOp_up (s : State) (i : Nat) (f : Op → Op) : (s.updOp i f).up = s.up := rfl
@[simp] theorem State.updOp_cycAcc (s : State) (i : Nat) (f : Op → Op) : (s.updOp i f).cycAcc = s.cycAcc := rfl
@[simp] theorem State.updOp_free (s : State) (i : Nat) (f : Op → Op) : (s.updOp i f).free = s.free := rfl
@[simp] theorem State.updOp_bell (s : State) (i : Nat) (f : Op → Op) : (s.updOp i f).bell = s.bell := rfl
@[simp] theorem State.updOp_groups (s : State) (i : Nat) (f : Op → Op) : (s.updOp i f).groups = s.groups := rfl
@[simp] theorem State.updOp_ctxs (s : State) (i : Nat) (f : Op → Op) : (s.updOp i f).ctxs = s.ctxs := rfl
@[simp] theorem State.updOp_lanes (s : State) (i : Nat) (f : Op → Op) : (s.updOp i f).lanes = s.lanes := rfl
@[simp] theorem State.updOp_tiles (s : State) (i : Nat) (f : Op → Op) : (s.updOp i f).tiles = s.tiles := rfl
@[simp] theorem State.updOp_clusters (s : State) (i : Nat) (f : Op → Op) : (s.updOp i f).clusters = s.clusters := rfl
@[simp] theorem State.updOp_nextOp (s : State) (i : Nat) (f : Op → Op) : (s.updOp i f).nextOp = s.nextOp := rfl
@[simp] theorem State.updOp_barrows (s : State) (i : Nat) (f : Op → Op) : (s.updOp i f).barrows = s.barrows := rfl
@[simp] theorem State.updOp_reqs (s : State) (i : Nat) (f : Op → Op) : (s.updOp i f).reqs = s.reqs := rfl
@[simp] theorem State.updOp_nextTag (s : State) (i : Nat) (f : Op → Op) : (s.updOp i f).nextTag = s.nextTag := rfl
@[simp] theorem State.updOp_dumpHeld (s : State) (i : Nat) (f : Op → Op) : (s.updOp i f).dumpHeld = s.dumpHeld := rfl
@[simp] theorem State.updOp_loop (s : State) (i : Nat) (f : Op → Op) : (s.updOp i f).loop = s.loop := rfl
@[simp] theorem State.updOp_relayNext (s : State) (i : Nat) (f : Op → Op) : (s.updOp i f).relayNext = s.relayNext := rfl
@[simp] theorem State.updOp_relayHeld (s : State) (i : Nat) (f : Op → Op) : (s.updOp i f).relayHeld = s.relayHeld := rfl
@[simp] theorem State.updOp_relays (s : State) (i : Nat) (f : Op → Op) : (s.updOp i f).relays = s.relays := rfl
@[simp] theorem State.updOp_tlb (s : State) (i : Nat) (f : Op → Op) : (s.updOp i f).tlb = s.tlb := rfl
@[simp] theorem State.updOp_xreqs (s : State) (i : Nat) (f : Op → Op) : (s.updOp i f).xreqs = s.xreqs := rfl
@[simp] theorem State.updOp_nextX (s : State) (i : Nat) (f : Op → Op) : (s.updOp i f).nextX = s.nextX := rfl
@[simp] theorem State.updOp_pageReqs (s : State) (i : Nat) (f : Op → Op) : (s.updOp i f).pageReqs = s.pageReqs := rfl
@[simp] theorem State.updOp_withdraws (s : State) (i : Nat) (f : Op → Op) : (s.updOp i f).withdraws = s.withdraws := rfl
@[simp] theorem State.updOp_nextWd (s : State) (i : Nat) (f : Op → Op) : (s.updOp i f).nextWd = s.nextWd := rfl
@[simp] theorem State.updOp_ports (s : State) (i : Nat) (f : Op → Op) : (s.updOp i f).ports = s.ports := rfl
@[simp] theorem State.updOp_inbox (s : State) (i : Nat) (f : Op → Op) : (s.updOp i f).inbox = s.inbox := rfl
@[simp] theorem State.updOp_keys (s : State) (i : Nat) (f : Op → Op) : (s.updOp i f).keys = s.keys := rfl
@[simp] theorem State.updOp_barGroups (s : State) (i : Nat) (f : Op → Op) : (s.updOp i f).barGroups = s.barGroups := rfl
@[simp] theorem State.updOp_mem (s : State) (i : Nat) (f : Op → Op) : (s.updOp i f).mem = s.mem := rfl
@[simp] theorem State.updOp_cells (s : State) (i : Nat) (f : Op → Op) : (s.updOp i f).cells = s.cells := rfl
@[simp] theorem State.updOp_inject (s : State) (i : Nat) (f : Op → Op) : (s.updOp i f).inject = s.inject := rfl
@[simp] theorem State.updOp_breset (s : State) (i : Nat) (f : Op → Op) : (s.updOp i f).breset = s.breset := rfl
@[simp] theorem State.updOp_power (s : State) (i : Nat) (f : Op → Op) : (s.updOp i f).power = s.power := rfl
@[simp] theorem State.updOp_insp (s : State) (i : Nat) (f : Op → Op) : (s.updOp i f).insp = s.insp := rfl
@[simp] theorem State.updOp_pins (s : State) (i : Nat) (f : Op → Op) : (s.updOp i f).pins = s.pins := rfl
@[simp] theorem State.updOp_bootUp (s : State) (i : Nat) (f : Op → Op) : (s.updOp i f).bootUp = s.bootUp := rfl
@[simp] theorem State.updOp_turnTimed (s : State) (i : Nat) (f : Op → Op) : (s.updOp i f).turnTimed = s.turnTimed := rfl
@[simp] theorem State.updOp_turnOther (s : State) (i : Nat) (f : Op → Op) : (s.updOp i f).turnOther = s.turnOther := rfl
@[simp] theorem State.updOp_debugHeld (s : State) (i : Nat) (f : Op → Op) : (s.updOp i f).debugHeld = s.debugHeld := rfl
@[simp] theorem State.updOp_grantTurn (s : State) (i : Nat) (f : Op → Op) : (s.updOp i f).grantTurn = s.grantTurn := rfl
@[simp] theorem State.updOp_out (s : State) (i : Nat) (f : Op → Op) : (s.updOp i f).out = s.out := rfl
@[simp] theorem State.updOp_pending (s : State) (i : Nat) (f : Op → Op) : (s.updOp i f).pending = s.pending := rfl

/-! ### dropOp -/

@[simp] theorem State.dropOp_straps (s : State) (i : Nat) : (s.dropOp i).straps = s.straps := rfl
@[simp] theorem State.dropOp_regs (s : State) (i : Nat) : (s.dropOp i).regs = s.regs := rfl
@[simp] theorem State.dropOp_latches (s : State) (i : Nat) : (s.dropOp i).latches = s.latches := rfl
@[simp] theorem State.dropOp_nowLatch (s : State) (i : Nat) : (s.dropOp i).nowLatch = s.nowLatch := rfl
@[simp] theorem State.dropOp_up (s : State) (i : Nat) : (s.dropOp i).up = s.up := rfl
@[simp] theorem State.dropOp_cycAcc (s : State) (i : Nat) : (s.dropOp i).cycAcc = s.cycAcc := rfl
@[simp] theorem State.dropOp_free (s : State) (i : Nat) : (s.dropOp i).free = s.free := rfl
@[simp] theorem State.dropOp_bell (s : State) (i : Nat) : (s.dropOp i).bell = s.bell := rfl
@[simp] theorem State.dropOp_groups (s : State) (i : Nat) : (s.dropOp i).groups = s.groups := rfl
@[simp] theorem State.dropOp_ctxs (s : State) (i : Nat) : (s.dropOp i).ctxs = s.ctxs := rfl
@[simp] theorem State.dropOp_lanes (s : State) (i : Nat) : (s.dropOp i).lanes = s.lanes := rfl
@[simp] theorem State.dropOp_tiles (s : State) (i : Nat) : (s.dropOp i).tiles = s.tiles := rfl
@[simp] theorem State.dropOp_clusters (s : State) (i : Nat) : (s.dropOp i).clusters = s.clusters := rfl
@[simp] theorem State.dropOp_ops (s : State) (i : Nat) : (s.dropOp i).ops = s.ops.filter fun o => o.id != i := rfl
@[simp] theorem State.dropOp_nextOp (s : State) (i : Nat) : (s.dropOp i).nextOp = s.nextOp := rfl
@[simp] theorem State.dropOp_barrows (s : State) (i : Nat) : (s.dropOp i).barrows = s.barrows := rfl
@[simp] theorem State.dropOp_reqs (s : State) (i : Nat) : (s.dropOp i).reqs = s.reqs := rfl
@[simp] theorem State.dropOp_nextTag (s : State) (i : Nat) : (s.dropOp i).nextTag = s.nextTag := rfl
@[simp] theorem State.dropOp_dumpHeld (s : State) (i : Nat) : (s.dropOp i).dumpHeld = s.dumpHeld := rfl
@[simp] theorem State.dropOp_loop (s : State) (i : Nat) : (s.dropOp i).loop = s.loop := rfl
@[simp] theorem State.dropOp_relayNext (s : State) (i : Nat) : (s.dropOp i).relayNext = s.relayNext := rfl
@[simp] theorem State.dropOp_relayHeld (s : State) (i : Nat) : (s.dropOp i).relayHeld = s.relayHeld := rfl
@[simp] theorem State.dropOp_relays (s : State) (i : Nat) : (s.dropOp i).relays = s.relays := rfl
@[simp] theorem State.dropOp_tlb (s : State) (i : Nat) : (s.dropOp i).tlb = s.tlb := rfl
@[simp] theorem State.dropOp_xreqs (s : State) (i : Nat) : (s.dropOp i).xreqs = s.xreqs := rfl
@[simp] theorem State.dropOp_nextX (s : State) (i : Nat) : (s.dropOp i).nextX = s.nextX := rfl
@[simp] theorem State.dropOp_pageReqs (s : State) (i : Nat) : (s.dropOp i).pageReqs = s.pageReqs := rfl
@[simp] theorem State.dropOp_withdraws (s : State) (i : Nat) : (s.dropOp i).withdraws = s.withdraws := rfl
@[simp] theorem State.dropOp_nextWd (s : State) (i : Nat) : (s.dropOp i).nextWd = s.nextWd := rfl
@[simp] theorem State.dropOp_ports (s : State) (i : Nat) : (s.dropOp i).ports = s.ports := rfl
@[simp] theorem State.dropOp_inbox (s : State) (i : Nat) : (s.dropOp i).inbox = s.inbox := rfl
@[simp] theorem State.dropOp_keys (s : State) (i : Nat) : (s.dropOp i).keys = s.keys := rfl
@[simp] theorem State.dropOp_barGroups (s : State) (i : Nat) : (s.dropOp i).barGroups = s.barGroups := rfl
@[simp] theorem State.dropOp_mem (s : State) (i : Nat) : (s.dropOp i).mem = s.mem := rfl
@[simp] theorem State.dropOp_cells (s : State) (i : Nat) : (s.dropOp i).cells = s.cells := rfl
@[simp] theorem State.dropOp_inject (s : State) (i : Nat) : (s.dropOp i).inject = s.inject := rfl
@[simp] theorem State.dropOp_breset (s : State) (i : Nat) : (s.dropOp i).breset = s.breset := rfl
@[simp] theorem State.dropOp_power (s : State) (i : Nat) : (s.dropOp i).power = s.power := rfl
@[simp] theorem State.dropOp_insp (s : State) (i : Nat) : (s.dropOp i).insp = s.insp := rfl
@[simp] theorem State.dropOp_pins (s : State) (i : Nat) : (s.dropOp i).pins = s.pins := rfl
@[simp] theorem State.dropOp_bootUp (s : State) (i : Nat) : (s.dropOp i).bootUp = s.bootUp := rfl
@[simp] theorem State.dropOp_turnTimed (s : State) (i : Nat) : (s.dropOp i).turnTimed = s.turnTimed := rfl
@[simp] theorem State.dropOp_turnOther (s : State) (i : Nat) : (s.dropOp i).turnOther = s.turnOther := rfl
@[simp] theorem State.dropOp_debugHeld (s : State) (i : Nat) : (s.dropOp i).debugHeld = s.debugHeld := rfl
@[simp] theorem State.dropOp_grantTurn (s : State) (i : Nat) : (s.dropOp i).grantTurn = s.grantTurn := rfl
@[simp] theorem State.dropOp_out (s : State) (i : Nat) : (s.dropOp i).out = s.out := rfl
@[simp] theorem State.dropOp_pending (s : State) (i : Nat) : (s.dropOp i).pending = s.pending := rfl

/-! ### updLaunch -/

@[simp] theorem State.updLaunch_straps (s : State) (i q : Nat) (f : Launch → Launch) : (s.updLaunch i q f).straps = s.straps := rfl
@[simp] theorem State.updLaunch_regs (s : State) (i q : Nat) (f : Launch → Launch) : (s.updLaunch i q f).regs = s.regs := rfl
@[simp] theorem State.updLaunch_latches (s : State) (i q : Nat) (f : Launch → Launch) : (s.updLaunch i q f).latches = s.latches := rfl
@[simp] theorem State.updLaunch_nowLatch (s : State) (i q : Nat) (f : Launch → Launch) : (s.updLaunch i q f).nowLatch = s.nowLatch := rfl
@[simp] theorem State.updLaunch_up (s : State) (i q : Nat) (f : Launch → Launch) : (s.updLaunch i q f).up = s.up := rfl
@[simp] theorem State.updLaunch_cycAcc (s : State) (i q : Nat) (f : Launch → Launch) : (s.updLaunch i q f).cycAcc = s.cycAcc := rfl
@[simp] theorem State.updLaunch_free (s : State) (i q : Nat) (f : Launch → Launch) : (s.updLaunch i q f).free = s.free := rfl
@[simp] theorem State.updLaunch_bell (s : State) (i q : Nat) (f : Launch → Launch) : (s.updLaunch i q f).bell = s.bell := rfl
@[simp] theorem State.updLaunch_groups (s : State) (i q : Nat) (f : Launch → Launch) : (s.updLaunch i q f).groups = s.groups := rfl
@[simp] theorem State.updLaunch_lanes (s : State) (i q : Nat) (f : Launch → Launch) : (s.updLaunch i q f).lanes = s.lanes := rfl
@[simp] theorem State.updLaunch_tiles (s : State) (i q : Nat) (f : Launch → Launch) : (s.updLaunch i q f).tiles = s.tiles := rfl
@[simp] theorem State.updLaunch_clusters (s : State) (i q : Nat) (f : Launch → Launch) : (s.updLaunch i q f).clusters = s.clusters := rfl
@[simp] theorem State.updLaunch_ops (s : State) (i q : Nat) (f : Launch → Launch) : (s.updLaunch i q f).ops = s.ops := rfl
@[simp] theorem State.updLaunch_nextOp (s : State) (i q : Nat) (f : Launch → Launch) : (s.updLaunch i q f).nextOp = s.nextOp := rfl
@[simp] theorem State.updLaunch_barrows (s : State) (i q : Nat) (f : Launch → Launch) : (s.updLaunch i q f).barrows = s.barrows := rfl
@[simp] theorem State.updLaunch_reqs (s : State) (i q : Nat) (f : Launch → Launch) : (s.updLaunch i q f).reqs = s.reqs := rfl
@[simp] theorem State.updLaunch_nextTag (s : State) (i q : Nat) (f : Launch → Launch) : (s.updLaunch i q f).nextTag = s.nextTag := rfl
@[simp] theorem State.updLaunch_dumpHeld (s : State) (i q : Nat) (f : Launch → Launch) : (s.updLaunch i q f).dumpHeld = s.dumpHeld := rfl
@[simp] theorem State.updLaunch_loop (s : State) (i q : Nat) (f : Launch → Launch) : (s.updLaunch i q f).loop = s.loop := rfl
@[simp] theorem State.updLaunch_relayNext (s : State) (i q : Nat) (f : Launch → Launch) : (s.updLaunch i q f).relayNext = s.relayNext := rfl
@[simp] theorem State.updLaunch_relayHeld (s : State) (i q : Nat) (f : Launch → Launch) : (s.updLaunch i q f).relayHeld = s.relayHeld := rfl
@[simp] theorem State.updLaunch_relays (s : State) (i q : Nat) (f : Launch → Launch) : (s.updLaunch i q f).relays = s.relays := rfl
@[simp] theorem State.updLaunch_tlb (s : State) (i q : Nat) (f : Launch → Launch) : (s.updLaunch i q f).tlb = s.tlb := rfl
@[simp] theorem State.updLaunch_xreqs (s : State) (i q : Nat) (f : Launch → Launch) : (s.updLaunch i q f).xreqs = s.xreqs := rfl
@[simp] theorem State.updLaunch_nextX (s : State) (i q : Nat) (f : Launch → Launch) : (s.updLaunch i q f).nextX = s.nextX := rfl
@[simp] theorem State.updLaunch_pageReqs (s : State) (i q : Nat) (f : Launch → Launch) : (s.updLaunch i q f).pageReqs = s.pageReqs := rfl
@[simp] theorem State.updLaunch_withdraws (s : State) (i q : Nat) (f : Launch → Launch) : (s.updLaunch i q f).withdraws = s.withdraws := rfl
@[simp] theorem State.updLaunch_nextWd (s : State) (i q : Nat) (f : Launch → Launch) : (s.updLaunch i q f).nextWd = s.nextWd := rfl
@[simp] theorem State.updLaunch_ports (s : State) (i q : Nat) (f : Launch → Launch) : (s.updLaunch i q f).ports = s.ports := rfl
@[simp] theorem State.updLaunch_inbox (s : State) (i q : Nat) (f : Launch → Launch) : (s.updLaunch i q f).inbox = s.inbox := rfl
@[simp] theorem State.updLaunch_keys (s : State) (i q : Nat) (f : Launch → Launch) : (s.updLaunch i q f).keys = s.keys := rfl
@[simp] theorem State.updLaunch_barGroups (s : State) (i q : Nat) (f : Launch → Launch) : (s.updLaunch i q f).barGroups = s.barGroups := rfl
@[simp] theorem State.updLaunch_mem (s : State) (i q : Nat) (f : Launch → Launch) : (s.updLaunch i q f).mem = s.mem := rfl
@[simp] theorem State.updLaunch_cells (s : State) (i q : Nat) (f : Launch → Launch) : (s.updLaunch i q f).cells = s.cells := rfl
@[simp] theorem State.updLaunch_inject (s : State) (i q : Nat) (f : Launch → Launch) : (s.updLaunch i q f).inject = s.inject := rfl
@[simp] theorem State.updLaunch_breset (s : State) (i q : Nat) (f : Launch → Launch) : (s.updLaunch i q f).breset = s.breset := rfl
@[simp] theorem State.updLaunch_power (s : State) (i q : Nat) (f : Launch → Launch) : (s.updLaunch i q f).power = s.power := rfl
@[simp] theorem State.updLaunch_insp (s : State) (i q : Nat) (f : Launch → Launch) : (s.updLaunch i q f).insp = s.insp := rfl
@[simp] theorem State.updLaunch_pins (s : State) (i q : Nat) (f : Launch → Launch) : (s.updLaunch i q f).pins = s.pins := rfl
@[simp] theorem State.updLaunch_bootUp (s : State) (i q : Nat) (f : Launch → Launch) : (s.updLaunch i q f).bootUp = s.bootUp := rfl
@[simp] theorem State.updLaunch_turnTimed (s : State) (i q : Nat) (f : Launch → Launch) : (s.updLaunch i q f).turnTimed = s.turnTimed := rfl
@[simp] theorem State.updLaunch_turnOther (s : State) (i q : Nat) (f : Launch → Launch) : (s.updLaunch i q f).turnOther = s.turnOther := rfl
@[simp] theorem State.updLaunch_debugHeld (s : State) (i q : Nat) (f : Launch → Launch) : (s.updLaunch i q f).debugHeld = s.debugHeld := rfl
@[simp] theorem State.updLaunch_grantTurn (s : State) (i q : Nat) (f : Launch → Launch) : (s.updLaunch i q f).grantTurn = s.grantTurn := rfl
@[simp] theorem State.updLaunch_out (s : State) (i q : Nat) (f : Launch → Launch) : (s.updLaunch i q f).out = s.out := rfl
@[simp] theorem State.updLaunch_pending (s : State) (i q : Nat) (f : Launch → Launch) : (s.updLaunch i q f).pending = s.pending := rfl

/-! ### emit -/

@[simp] theorem State.emit_straps (s : State) (o : Out) : (s.emit o).straps = s.straps := rfl
@[simp] theorem State.emit_regs (s : State) (o : Out) : (s.emit o).regs = s.regs := rfl
@[simp] theorem State.emit_latches (s : State) (o : Out) : (s.emit o).latches = s.latches := rfl
@[simp] theorem State.emit_nowLatch (s : State) (o : Out) : (s.emit o).nowLatch = s.nowLatch := rfl
@[simp] theorem State.emit_up (s : State) (o : Out) : (s.emit o).up = s.up := rfl
@[simp] theorem State.emit_cycAcc (s : State) (o : Out) : (s.emit o).cycAcc = s.cycAcc := rfl
@[simp] theorem State.emit_free (s : State) (o : Out) : (s.emit o).free = s.free := rfl
@[simp] theorem State.emit_bell (s : State) (o : Out) : (s.emit o).bell = s.bell := rfl
@[simp] theorem State.emit_groups (s : State) (o : Out) : (s.emit o).groups = s.groups := rfl
@[simp] theorem State.emit_ctxs (s : State) (o : Out) : (s.emit o).ctxs = s.ctxs := rfl
@[simp] theorem State.emit_lanes (s : State) (o : Out) : (s.emit o).lanes = s.lanes := rfl
@[simp] theorem State.emit_tiles (s : State) (o : Out) : (s.emit o).tiles = s.tiles := rfl
@[simp] theorem State.emit_clusters (s : State) (o : Out) : (s.emit o).clusters = s.clusters := rfl
@[simp] theorem State.emit_ops (s : State) (o : Out) : (s.emit o).ops = s.ops := rfl
@[simp] theorem State.emit_nextOp (s : State) (o : Out) : (s.emit o).nextOp = s.nextOp := rfl
@[simp] theorem State.emit_barrows (s : State) (o : Out) : (s.emit o).barrows = s.barrows := rfl
@[simp] theorem State.emit_reqs (s : State) (o : Out) : (s.emit o).reqs = s.reqs := rfl
@[simp] theorem State.emit_nextTag (s : State) (o : Out) : (s.emit o).nextTag = s.nextTag := rfl
@[simp] theorem State.emit_dumpHeld (s : State) (o : Out) : (s.emit o).dumpHeld = s.dumpHeld := rfl
@[simp] theorem State.emit_loop (s : State) (o : Out) : (s.emit o).loop = s.loop := rfl
@[simp] theorem State.emit_relayNext (s : State) (o : Out) : (s.emit o).relayNext = s.relayNext := rfl
@[simp] theorem State.emit_relayHeld (s : State) (o : Out) : (s.emit o).relayHeld = s.relayHeld := rfl
@[simp] theorem State.emit_relays (s : State) (o : Out) : (s.emit o).relays = s.relays := rfl
@[simp] theorem State.emit_tlb (s : State) (o : Out) : (s.emit o).tlb = s.tlb := rfl
@[simp] theorem State.emit_xreqs (s : State) (o : Out) : (s.emit o).xreqs = s.xreqs := rfl
@[simp] theorem State.emit_nextX (s : State) (o : Out) : (s.emit o).nextX = s.nextX := rfl
@[simp] theorem State.emit_pageReqs (s : State) (o : Out) : (s.emit o).pageReqs = s.pageReqs := rfl
@[simp] theorem State.emit_withdraws (s : State) (o : Out) : (s.emit o).withdraws = s.withdraws := rfl
@[simp] theorem State.emit_nextWd (s : State) (o : Out) : (s.emit o).nextWd = s.nextWd := rfl
@[simp] theorem State.emit_ports (s : State) (o : Out) : (s.emit o).ports = s.ports := rfl
@[simp] theorem State.emit_inbox (s : State) (o : Out) : (s.emit o).inbox = s.inbox := rfl
@[simp] theorem State.emit_keys (s : State) (o : Out) : (s.emit o).keys = s.keys := rfl
@[simp] theorem State.emit_barGroups (s : State) (o : Out) : (s.emit o).barGroups = s.barGroups := rfl
@[simp] theorem State.emit_mem (s : State) (o : Out) : (s.emit o).mem = s.mem := rfl
@[simp] theorem State.emit_cells (s : State) (o : Out) : (s.emit o).cells = s.cells := rfl
@[simp] theorem State.emit_inject (s : State) (o : Out) : (s.emit o).inject = s.inject := rfl
@[simp] theorem State.emit_breset (s : State) (o : Out) : (s.emit o).breset = s.breset := rfl
@[simp] theorem State.emit_power (s : State) (o : Out) : (s.emit o).power = s.power := rfl
@[simp] theorem State.emit_insp (s : State) (o : Out) : (s.emit o).insp = s.insp := rfl
@[simp] theorem State.emit_pins (s : State) (o : Out) : (s.emit o).pins = s.pins := rfl
@[simp] theorem State.emit_bootUp (s : State) (o : Out) : (s.emit o).bootUp = s.bootUp := rfl
@[simp] theorem State.emit_turnTimed (s : State) (o : Out) : (s.emit o).turnTimed = s.turnTimed := rfl
@[simp] theorem State.emit_turnOther (s : State) (o : Out) : (s.emit o).turnOther = s.turnOther := rfl
@[simp] theorem State.emit_debugHeld (s : State) (o : Out) : (s.emit o).debugHeld = s.debugHeld := rfl
@[simp] theorem State.emit_grantTurn (s : State) (o : Out) : (s.emit o).grantTurn = s.grantTurn := rfl
@[simp] theorem State.emit_out (s : State) (o : Out) : (s.emit o).out = s.out ++ [o] := rfl
@[simp] theorem State.emit_pending (s : State) (o : Out) : (s.emit o).pending = s.pending := rfl

/-! ### wr -/

@[simp] theorem State.wr_straps (s : State) (a : Nat) (b : Byte) : (s.wr a b).straps = s.straps := rfl
@[simp] theorem State.wr_regs (s : State) (a : Nat) (b : Byte) : (s.wr a b).regs = s.regs := rfl
@[simp] theorem State.wr_latches (s : State) (a : Nat) (b : Byte) : (s.wr a b).latches = s.latches := rfl
@[simp] theorem State.wr_nowLatch (s : State) (a : Nat) (b : Byte) : (s.wr a b).nowLatch = s.nowLatch := rfl
@[simp] theorem State.wr_up (s : State) (a : Nat) (b : Byte) : (s.wr a b).up = s.up := rfl
@[simp] theorem State.wr_cycAcc (s : State) (a : Nat) (b : Byte) : (s.wr a b).cycAcc = s.cycAcc := rfl
@[simp] theorem State.wr_free (s : State) (a : Nat) (b : Byte) : (s.wr a b).free = s.free := rfl
@[simp] theorem State.wr_bell (s : State) (a : Nat) (b : Byte) : (s.wr a b).bell = s.bell := rfl
@[simp] theorem State.wr_groups (s : State) (a : Nat) (b : Byte) : (s.wr a b).groups = s.groups := rfl
@[simp] theorem State.wr_ctxs (s : State) (a : Nat) (b : Byte) : (s.wr a b).ctxs = s.ctxs := rfl
@[simp] theorem State.wr_lanes (s : State) (a : Nat) (b : Byte) : (s.wr a b).lanes = s.lanes := rfl
@[simp] theorem State.wr_tiles (s : State) (a : Nat) (b : Byte) : (s.wr a b).tiles = s.tiles := rfl
@[simp] theorem State.wr_clusters (s : State) (a : Nat) (b : Byte) : (s.wr a b).clusters = s.clusters := rfl
@[simp] theorem State.wr_ops (s : State) (a : Nat) (b : Byte) : (s.wr a b).ops = s.ops := rfl
@[simp] theorem State.wr_nextOp (s : State) (a : Nat) (b : Byte) : (s.wr a b).nextOp = s.nextOp := rfl
@[simp] theorem State.wr_barrows (s : State) (a : Nat) (b : Byte) : (s.wr a b).barrows = s.barrows := rfl
@[simp] theorem State.wr_reqs (s : State) (a : Nat) (b : Byte) : (s.wr a b).reqs = s.reqs := rfl
@[simp] theorem State.wr_nextTag (s : State) (a : Nat) (b : Byte) : (s.wr a b).nextTag = s.nextTag := rfl
@[simp] theorem State.wr_dumpHeld (s : State) (a : Nat) (b : Byte) : (s.wr a b).dumpHeld = s.dumpHeld := rfl
@[simp] theorem State.wr_loop (s : State) (a : Nat) (b : Byte) : (s.wr a b).loop = s.loop := rfl
@[simp] theorem State.wr_relayNext (s : State) (a : Nat) (b : Byte) : (s.wr a b).relayNext = s.relayNext := rfl
@[simp] theorem State.wr_relayHeld (s : State) (a : Nat) (b : Byte) : (s.wr a b).relayHeld = s.relayHeld := rfl
@[simp] theorem State.wr_relays (s : State) (a : Nat) (b : Byte) : (s.wr a b).relays = s.relays := rfl
@[simp] theorem State.wr_tlb (s : State) (a : Nat) (b : Byte) : (s.wr a b).tlb = s.tlb := rfl
@[simp] theorem State.wr_xreqs (s : State) (a : Nat) (b : Byte) : (s.wr a b).xreqs = s.xreqs := rfl
@[simp] theorem State.wr_nextX (s : State) (a : Nat) (b : Byte) : (s.wr a b).nextX = s.nextX := rfl
@[simp] theorem State.wr_pageReqs (s : State) (a : Nat) (b : Byte) : (s.wr a b).pageReqs = s.pageReqs := rfl
@[simp] theorem State.wr_withdraws (s : State) (a : Nat) (b : Byte) : (s.wr a b).withdraws = s.withdraws := rfl
@[simp] theorem State.wr_nextWd (s : State) (a : Nat) (b : Byte) : (s.wr a b).nextWd = s.nextWd := rfl
@[simp] theorem State.wr_ports (s : State) (a : Nat) (b : Byte) : (s.wr a b).ports = s.ports := rfl
@[simp] theorem State.wr_inbox (s : State) (a : Nat) (b : Byte) : (s.wr a b).inbox = s.inbox := rfl
@[simp] theorem State.wr_keys (s : State) (a : Nat) (b : Byte) : (s.wr a b).keys = s.keys := rfl
@[simp] theorem State.wr_barGroups (s : State) (a : Nat) (b : Byte) : (s.wr a b).barGroups = s.barGroups := rfl
@[simp] theorem State.wr_mem (s : State) (a : Nat) (b : Byte) : (s.wr a b).mem = s.mem := rfl
@[simp] theorem State.wr_cells (s : State) (a : Nat) (b : Byte) : (s.wr a b).cells = sparseSet 0 s.cells a b := rfl
@[simp] theorem State.wr_inject (s : State) (a : Nat) (b : Byte) : (s.wr a b).inject = s.inject := rfl
@[simp] theorem State.wr_breset (s : State) (a : Nat) (b : Byte) : (s.wr a b).breset = s.breset := rfl
@[simp] theorem State.wr_power (s : State) (a : Nat) (b : Byte) : (s.wr a b).power = s.power := rfl
@[simp] theorem State.wr_insp (s : State) (a : Nat) (b : Byte) : (s.wr a b).insp = s.insp := rfl
@[simp] theorem State.wr_pins (s : State) (a : Nat) (b : Byte) : (s.wr a b).pins = s.pins := rfl
@[simp] theorem State.wr_bootUp (s : State) (a : Nat) (b : Byte) : (s.wr a b).bootUp = s.bootUp := rfl
@[simp] theorem State.wr_turnTimed (s : State) (a : Nat) (b : Byte) : (s.wr a b).turnTimed = s.turnTimed := rfl
@[simp] theorem State.wr_turnOther (s : State) (a : Nat) (b : Byte) : (s.wr a b).turnOther = s.turnOther := rfl
@[simp] theorem State.wr_debugHeld (s : State) (a : Nat) (b : Byte) : (s.wr a b).debugHeld = s.debugHeld := rfl
@[simp] theorem State.wr_grantTurn (s : State) (a : Nat) (b : Byte) : (s.wr a b).grantTurn = s.grantTurn := rfl
@[simp] theorem State.wr_out (s : State) (a : Nat) (b : Byte) : (s.wr a b).out = s.out := rfl
@[simp] theorem State.wr_pending (s : State) (a : Nat) (b : Byte) : (s.wr a b).pending = s.pending := rfl

/-! ### zeroMem -/

@[simp] theorem State.zeroMem_straps (s : State) (lo n : Nat) : (s.zeroMem lo n).straps = s.straps := rfl
@[simp] theorem State.zeroMem_regs (s : State) (lo n : Nat) : (s.zeroMem lo n).regs = s.regs := rfl
@[simp] theorem State.zeroMem_latches (s : State) (lo n : Nat) : (s.zeroMem lo n).latches = s.latches := rfl
@[simp] theorem State.zeroMem_nowLatch (s : State) (lo n : Nat) : (s.zeroMem lo n).nowLatch = s.nowLatch := rfl
@[simp] theorem State.zeroMem_up (s : State) (lo n : Nat) : (s.zeroMem lo n).up = s.up := rfl
@[simp] theorem State.zeroMem_cycAcc (s : State) (lo n : Nat) : (s.zeroMem lo n).cycAcc = s.cycAcc := rfl
@[simp] theorem State.zeroMem_free (s : State) (lo n : Nat) : (s.zeroMem lo n).free = s.free := rfl
@[simp] theorem State.zeroMem_bell (s : State) (lo n : Nat) : (s.zeroMem lo n).bell = s.bell := rfl
@[simp] theorem State.zeroMem_groups (s : State) (lo n : Nat) : (s.zeroMem lo n).groups = s.groups := rfl
@[simp] theorem State.zeroMem_ctxs (s : State) (lo n : Nat) : (s.zeroMem lo n).ctxs = s.ctxs := rfl
@[simp] theorem State.zeroMem_lanes (s : State) (lo n : Nat) : (s.zeroMem lo n).lanes = s.lanes := rfl
@[simp] theorem State.zeroMem_tiles (s : State) (lo n : Nat) : (s.zeroMem lo n).tiles = s.tiles := rfl
@[simp] theorem State.zeroMem_clusters (s : State) (lo n : Nat) : (s.zeroMem lo n).clusters = s.clusters := rfl
@[simp] theorem State.zeroMem_ops (s : State) (lo n : Nat) : (s.zeroMem lo n).ops = s.ops := rfl
@[simp] theorem State.zeroMem_nextOp (s : State) (lo n : Nat) : (s.zeroMem lo n).nextOp = s.nextOp := rfl
@[simp] theorem State.zeroMem_barrows (s : State) (lo n : Nat) : (s.zeroMem lo n).barrows = s.barrows := rfl
@[simp] theorem State.zeroMem_reqs (s : State) (lo n : Nat) : (s.zeroMem lo n).reqs = s.reqs := rfl
@[simp] theorem State.zeroMem_nextTag (s : State) (lo n : Nat) : (s.zeroMem lo n).nextTag = s.nextTag := rfl
@[simp] theorem State.zeroMem_dumpHeld (s : State) (lo n : Nat) : (s.zeroMem lo n).dumpHeld = s.dumpHeld := rfl
@[simp] theorem State.zeroMem_loop (s : State) (lo n : Nat) : (s.zeroMem lo n).loop = s.loop := rfl
@[simp] theorem State.zeroMem_relayNext (s : State) (lo n : Nat) : (s.zeroMem lo n).relayNext = s.relayNext := rfl
@[simp] theorem State.zeroMem_relayHeld (s : State) (lo n : Nat) : (s.zeroMem lo n).relayHeld = s.relayHeld := rfl
@[simp] theorem State.zeroMem_relays (s : State) (lo n : Nat) : (s.zeroMem lo n).relays = s.relays := rfl
@[simp] theorem State.zeroMem_tlb (s : State) (lo n : Nat) : (s.zeroMem lo n).tlb = s.tlb := rfl
@[simp] theorem State.zeroMem_xreqs (s : State) (lo n : Nat) : (s.zeroMem lo n).xreqs = s.xreqs := rfl
@[simp] theorem State.zeroMem_nextX (s : State) (lo n : Nat) : (s.zeroMem lo n).nextX = s.nextX := rfl
@[simp] theorem State.zeroMem_pageReqs (s : State) (lo n : Nat) : (s.zeroMem lo n).pageReqs = s.pageReqs := rfl
@[simp] theorem State.zeroMem_withdraws (s : State) (lo n : Nat) : (s.zeroMem lo n).withdraws = s.withdraws := rfl
@[simp] theorem State.zeroMem_nextWd (s : State) (lo n : Nat) : (s.zeroMem lo n).nextWd = s.nextWd := rfl
@[simp] theorem State.zeroMem_ports (s : State) (lo n : Nat) : (s.zeroMem lo n).ports = s.ports := rfl
@[simp] theorem State.zeroMem_inbox (s : State) (lo n : Nat) : (s.zeroMem lo n).inbox = s.inbox := rfl
@[simp] theorem State.zeroMem_keys (s : State) (lo n : Nat) : (s.zeroMem lo n).keys = s.keys := rfl
@[simp] theorem State.zeroMem_barGroups (s : State) (lo n : Nat) : (s.zeroMem lo n).barGroups = s.barGroups := rfl
@[simp] theorem State.zeroMem_mem (s : State) (lo n : Nat) : (s.zeroMem lo n).mem = s.mem := rfl
@[simp] theorem State.zeroMem_cells (s : State) (lo n : Nat) : (s.zeroMem lo n).cells = sparseClear s.cells lo n := rfl
@[simp] theorem State.zeroMem_inject (s : State) (lo n : Nat) : (s.zeroMem lo n).inject = s.inject := rfl
@[simp] theorem State.zeroMem_breset (s : State) (lo n : Nat) : (s.zeroMem lo n).breset = s.breset := rfl
@[simp] theorem State.zeroMem_power (s : State) (lo n : Nat) : (s.zeroMem lo n).power = s.power := rfl
@[simp] theorem State.zeroMem_insp (s : State) (lo n : Nat) : (s.zeroMem lo n).insp = s.insp := rfl
@[simp] theorem State.zeroMem_pins (s : State) (lo n : Nat) : (s.zeroMem lo n).pins = s.pins := rfl
@[simp] theorem State.zeroMem_bootUp (s : State) (lo n : Nat) : (s.zeroMem lo n).bootUp = s.bootUp := rfl
@[simp] theorem State.zeroMem_turnTimed (s : State) (lo n : Nat) : (s.zeroMem lo n).turnTimed = s.turnTimed := rfl
@[simp] theorem State.zeroMem_turnOther (s : State) (lo n : Nat) : (s.zeroMem lo n).turnOther = s.turnOther := rfl
@[simp] theorem State.zeroMem_debugHeld (s : State) (lo n : Nat) : (s.zeroMem lo n).debugHeld = s.debugHeld := rfl
@[simp] theorem State.zeroMem_grantTurn (s : State) (lo n : Nat) : (s.zeroMem lo n).grantTurn = s.grantTurn := rfl
@[simp] theorem State.zeroMem_out (s : State) (lo n : Nat) : (s.zeroMem lo n).out = s.out := rfl
@[simp] theorem State.zeroMem_pending (s : State) (lo n : Nat) : (s.zeroMem lo n).pending = s.pending := rfl

/-! ## Readers through updates of other fields -/

@[simp] theorem State.ctx_setReg (s : State) (o : Nat) (v : Word) (i' : Nat) : (s.setReg o v).ctx i' = s.ctx i' := rfl
@[simp] theorem State.lane_setReg (s : State) (o : Nat) (v : Word) (l' : LaneId) : (s.setReg o v).lane l' = s.lane l' := rfl
@[simp] theorem State.tile_setReg (s : State) (o : Nat) (v : Word) (t' : Nat) : (s.setReg o v).tile t' = s.tile t' := rfl
@[simp] theorem State.cluster_setReg (s : State) (o : Nat) (v : Word) (c' : Nat) : (s.setReg o v).cluster c' = s.cluster c' := rfl
@[simp] theorem State.barrow_setReg (s : State) (o : Nat) (v : Word) (b' : Nat) : (s.setReg o v).barrow b' = s.barrow b' := rfl
@[simp] theorem State.group_setReg (s : State) (o : Nat) (v : Word) (g' : Nat) : (s.setReg o v).group g' = s.group g' := rfl
@[simp] theorem State.chan_setReg (s : State) (o : Nat) (v : Word) (n' : Nat) : (s.setReg o v).chan n' = s.chan n' := rfl
@[simp] theorem State.rd_setReg (s : State) (o : Nat) (v : Word) (a' : Nat) : (s.setReg o v).rd a' = s.rd a' := rfl
@[simp] theorem State.opq_setReg (s : State) (o : Nat) (v : Word) (i' : Nat) : (s.setReg o v).op? i' = s.op? i' := rfl
@[simp] theorem State.cyc_setReg (s : State) (o : Nat) (v : Word)  : (s.setReg o v).cyc  = s.cyc  := rfl
@[simp] theorem State.live_setReg (s : State) (o : Nat) (v : Word)  : (s.setReg o v).live  = s.live  := rfl
@[simp] theorem State.injHits_setReg (s : State) (o : Nat) (v : Word) (d' p' : Nat) : (s.setReg o v).injHits d' p' = s.injHits d' p' := rfl

@[simp] theorem State.ctx_setFld (s : State) (o hi lo v : Nat) (i' : Nat) : (s.setFld o hi lo v).ctx i' = s.ctx i' := rfl
@[simp] theorem State.lane_setFld (s : State) (o hi lo v : Nat) (l' : LaneId) : (s.setFld o hi lo v).lane l' = s.lane l' := rfl
@[simp] theorem State.tile_setFld (s : State) (o hi lo v : Nat) (t' : Nat) : (s.setFld o hi lo v).tile t' = s.tile t' := rfl
@[simp] theorem State.cluster_setFld (s : State) (o hi lo v : Nat) (c' : Nat) : (s.setFld o hi lo v).cluster c' = s.cluster c' := rfl
@[simp] theorem State.barrow_setFld (s : State) (o hi lo v : Nat) (b' : Nat) : (s.setFld o hi lo v).barrow b' = s.barrow b' := rfl
@[simp] theorem State.group_setFld (s : State) (o hi lo v : Nat) (g' : Nat) : (s.setFld o hi lo v).group g' = s.group g' := rfl
@[simp] theorem State.chan_setFld (s : State) (o hi lo v : Nat) (n' : Nat) : (s.setFld o hi lo v).chan n' = s.chan n' := rfl
@[simp] theorem State.rd_setFld (s : State) (o hi lo v : Nat) (a' : Nat) : (s.setFld o hi lo v).rd a' = s.rd a' := rfl
@[simp] theorem State.opq_setFld (s : State) (o hi lo v : Nat) (i' : Nat) : (s.setFld o hi lo v).op? i' = s.op? i' := rfl
@[simp] theorem State.cyc_setFld (s : State) (o hi lo v : Nat)  : (s.setFld o hi lo v).cyc  = s.cyc  := rfl
@[simp] theorem State.live_setFld (s : State) (o hi lo v : Nat)  : (s.setFld o hi lo v).live  = s.live  := rfl
@[simp] theorem State.injHits_setFld (s : State) (o hi lo v : Nat) (d' p' : Nat) : (s.setFld o hi lo v).injHits d' p' = s.injHits d' p' := rfl

@[simp] theorem State.ctx_setBitsIn (s : State) (o m : Nat) (i' : Nat) : (s.setBitsIn o m).ctx i' = s.ctx i' := rfl
@[simp] theorem State.lane_setBitsIn (s : State) (o m : Nat) (l' : LaneId) : (s.setBitsIn o m).lane l' = s.lane l' := rfl
@[simp] theorem State.tile_setBitsIn (s : State) (o m : Nat) (t' : Nat) : (s.setBitsIn o m).tile t' = s.tile t' := rfl
@[simp] theorem State.cluster_setBitsIn (s : State) (o m : Nat) (c' : Nat) : (s.setBitsIn o m).cluster c' = s.cluster c' := rfl
@[simp] theorem State.barrow_setBitsIn (s : State) (o m : Nat) (b' : Nat) : (s.setBitsIn o m).barrow b' = s.barrow b' := rfl
@[simp] theorem State.group_setBitsIn (s : State) (o m : Nat) (g' : Nat) : (s.setBitsIn o m).group g' = s.group g' := rfl
@[simp] theorem State.chan_setBitsIn (s : State) (o m : Nat) (n' : Nat) : (s.setBitsIn o m).chan n' = s.chan n' := rfl
@[simp] theorem State.rd_setBitsIn (s : State) (o m : Nat) (a' : Nat) : (s.setBitsIn o m).rd a' = s.rd a' := rfl
@[simp] theorem State.opq_setBitsIn (s : State) (o m : Nat) (i' : Nat) : (s.setBitsIn o m).op? i' = s.op? i' := rfl
@[simp] theorem State.cyc_setBitsIn (s : State) (o m : Nat)  : (s.setBitsIn o m).cyc  = s.cyc  := rfl
@[simp] theorem State.live_setBitsIn (s : State) (o m : Nat)  : (s.setBitsIn o m).live  = s.live  := rfl
@[simp] theorem State.injHits_setBitsIn (s : State) (o m : Nat) (d' p' : Nat) : (s.setBitsIn o m).injHits d' p' = s.injHits d' p' := rfl

@[simp] theorem State.ctx_incSat (s : State) (o hi lo n : Nat) (i' : Nat) : (s.incSat o hi lo n).ctx i' = s.ctx i' := rfl
@[simp] theorem State.lane_incSat (s : State) (o hi lo n : Nat) (l' : LaneId) : (s.incSat o hi lo n).lane l' = s.lane l' := rfl
@[simp] theorem State.tile_incSat (s : State) (o hi lo n : Nat) (t' : Nat) : (s.incSat o hi lo n).tile t' = s.tile t' := rfl
@[simp] theorem State.cluster_incSat (s : State) (o hi lo n : Nat) (c' : Nat) : (s.incSat o hi lo n).cluster c' = s.cluster c' := rfl
@[simp] theorem State.barrow_incSat (s : State) (o hi lo n : Nat) (b' : Nat) : (s.incSat o hi lo n).barrow b' = s.barrow b' := rfl
@[simp] theorem State.group_incSat (s : State) (o hi lo n : Nat) (g' : Nat) : (s.incSat o hi lo n).group g' = s.group g' := rfl
@[simp] theorem State.chan_incSat (s : State) (o hi lo n : Nat) (n' : Nat) : (s.incSat o hi lo n).chan n' = s.chan n' := rfl
@[simp] theorem State.rd_incSat (s : State) (o hi lo n : Nat) (a' : Nat) : (s.incSat o hi lo n).rd a' = s.rd a' := rfl
@[simp] theorem State.opq_incSat (s : State) (o hi lo n : Nat) (i' : Nat) : (s.incSat o hi lo n).op? i' = s.op? i' := rfl
@[simp] theorem State.cyc_incSat (s : State) (o hi lo n : Nat)  : (s.incSat o hi lo n).cyc  = s.cyc  := rfl
@[simp] theorem State.live_incSat (s : State) (o hi lo n : Nat)  : (s.incSat o hi lo n).live  = s.live  := rfl
@[simp] theorem State.injHits_incSat (s : State) (o hi lo n : Nat) (d' p' : Nat) : (s.incSat o hi lo n).injHits d' p' = s.injHits d' p' := rfl

@[simp] theorem State.ctx_incWrap (s : State) (o hi lo n : Nat) (i' : Nat) : (s.incWrap o hi lo n).ctx i' = s.ctx i' := rfl
@[simp] theorem State.lane_incWrap (s : State) (o hi lo n : Nat) (l' : LaneId) : (s.incWrap o hi lo n).lane l' = s.lane l' := rfl
@[simp] theorem State.tile_incWrap (s : State) (o hi lo n : Nat) (t' : Nat) : (s.incWrap o hi lo n).tile t' = s.tile t' := rfl
@[simp] theorem State.cluster_incWrap (s : State) (o hi lo n : Nat) (c' : Nat) : (s.incWrap o hi lo n).cluster c' = s.cluster c' := rfl
@[simp] theorem State.barrow_incWrap (s : State) (o hi lo n : Nat) (b' : Nat) : (s.incWrap o hi lo n).barrow b' = s.barrow b' := rfl
@[simp] theorem State.group_incWrap (s : State) (o hi lo n : Nat) (g' : Nat) : (s.incWrap o hi lo n).group g' = s.group g' := rfl
@[simp] theorem State.chan_incWrap (s : State) (o hi lo n : Nat) (n' : Nat) : (s.incWrap o hi lo n).chan n' = s.chan n' := rfl
@[simp] theorem State.rd_incWrap (s : State) (o hi lo n : Nat) (a' : Nat) : (s.incWrap o hi lo n).rd a' = s.rd a' := rfl
@[simp] theorem State.opq_incWrap (s : State) (o hi lo n : Nat) (i' : Nat) : (s.incWrap o hi lo n).op? i' = s.op? i' := rfl
@[simp] theorem State.cyc_incWrap (s : State) (o hi lo n : Nat)  : (s.incWrap o hi lo n).cyc  = s.cyc  := rfl
@[simp] theorem State.live_incWrap (s : State) (o hi lo n : Nat)  : (s.incWrap o hi lo n).live  = s.live  := rfl
@[simp] theorem State.injHits_incWrap (s : State) (o hi lo n : Nat) (d' p' : Nat) : (s.incWrap o hi lo n).injHits d' p' = s.injHits d' p' := rfl

@[simp] theorem State.ctx_clearRegs (s : State) (lo n : Nat) (i' : Nat) : (s.clearRegs lo n).ctx i' = s.ctx i' := rfl
@[simp] theorem State.lane_clearRegs (s : State) (lo n : Nat) (l' : LaneId) : (s.clearRegs lo n).lane l' = s.lane l' := rfl
@[simp] theorem State.tile_clearRegs (s : State) (lo n : Nat) (t' : Nat) : (s.clearRegs lo n).tile t' = s.tile t' := rfl
@[simp] theorem State.cluster_clearRegs (s : State) (lo n : Nat) (c' : Nat) : (s.clearRegs lo n).cluster c' = s.cluster c' := rfl
@[simp] theorem State.barrow_clearRegs (s : State) (lo n : Nat) (b' : Nat) : (s.clearRegs lo n).barrow b' = s.barrow b' := rfl
@[simp] theorem State.group_clearRegs (s : State) (lo n : Nat) (g' : Nat) : (s.clearRegs lo n).group g' = s.group g' := rfl
@[simp] theorem State.chan_clearRegs (s : State) (lo n : Nat) (n' : Nat) : (s.clearRegs lo n).chan n' = s.chan n' := rfl
@[simp] theorem State.rd_clearRegs (s : State) (lo n : Nat) (a' : Nat) : (s.clearRegs lo n).rd a' = s.rd a' := rfl
@[simp] theorem State.opq_clearRegs (s : State) (lo n : Nat) (i' : Nat) : (s.clearRegs lo n).op? i' = s.op? i' := rfl
@[simp] theorem State.cyc_clearRegs (s : State) (lo n : Nat)  : (s.clearRegs lo n).cyc  = s.cyc  := rfl
@[simp] theorem State.live_clearRegs (s : State) (lo n : Nat)  : (s.clearRegs lo n).live  = s.live  := rfl
@[simp] theorem State.injHits_clearRegs (s : State) (lo n : Nat) (d' p' : Nat) : (s.clearRegs lo n).injHits d' p' = s.injHits d' p' := rfl

@[simp] theorem State.reg_updCtx (s : State) (i : Nat) (f : Ctx → Ctx) (o' : Nat) : (s.updCtx i f).reg o' = s.reg o' := rfl
@[simp] theorem State.lane_updCtx (s : State) (i : Nat) (f : Ctx → Ctx) (l' : LaneId) : (s.updCtx i f).lane l' = s.lane l' := rfl
@[simp] theorem State.tile_updCtx (s : State) (i : Nat) (f : Ctx → Ctx) (t' : Nat) : (s.updCtx i f).tile t' = s.tile t' := rfl
@[simp] theorem State.cluster_updCtx (s : State) (i : Nat) (f : Ctx → Ctx) (c' : Nat) : (s.updCtx i f).cluster c' = s.cluster c' := rfl
@[simp] theorem State.barrow_updCtx (s : State) (i : Nat) (f : Ctx → Ctx) (b' : Nat) : (s.updCtx i f).barrow b' = s.barrow b' := rfl
@[simp] theorem State.group_updCtx (s : State) (i : Nat) (f : Ctx → Ctx) (g' : Nat) : (s.updCtx i f).group g' = s.group g' := rfl
@[simp] theorem State.chan_updCtx (s : State) (i : Nat) (f : Ctx → Ctx) (n' : Nat) : (s.updCtx i f).chan n' = s.chan n' := rfl
@[simp] theorem State.rd_updCtx (s : State) (i : Nat) (f : Ctx → Ctx) (a' : Nat) : (s.updCtx i f).rd a' = s.rd a' := rfl
@[simp] theorem State.opq_updCtx (s : State) (i : Nat) (f : Ctx → Ctx) (i' : Nat) : (s.updCtx i f).op? i' = s.op? i' := rfl
@[simp] theorem State.cyc_updCtx (s : State) (i : Nat) (f : Ctx → Ctx)  : (s.updCtx i f).cyc  = s.cyc  := rfl
@[simp] theorem State.live_updCtx (s : State) (i : Nat) (f : Ctx → Ctx)  : (s.updCtx i f).live  = s.live  := rfl
@[simp] theorem State.fld_updCtx (s : State) (i : Nat) (f : Ctx → Ctx) (o' hi' lo' : Nat) : (s.updCtx i f).fld o' hi' lo' = s.fld o' hi' lo' := rfl
@[simp] theorem State.flag_updCtx (s : State) (i : Nat) (f : Ctx → Ctx) (o' i' : Nat) : (s.updCtx i f).flag o' i' = s.flag o' i' := rfl
@[simp] theorem State.injHits_updCtx (s : State) (i : Nat) (f : Ctx → Ctx) (d' p' : Nat) : (s.updCtx i f).injHits d' p' = s.injHits d' p' := rfl
@[simp] theorem State.rateAdj_updCtx (s : State) (i : Nat) (f : Ctx → Ctx)  : (s.updCtx i f).rateAdj  = s.rateAdj  := rfl

@[simp] theorem State.reg_updLane (s : State) (l : LaneId) (f : Lane → Lane) (o' : Nat) : (s.updLane l f).reg o' = s.reg o' := rfl
@[simp] theorem State.ctx_updLane (s : State) (l : LaneId) (f : Lane → Lane) (i' : Nat) : (s.updLane l f).ctx i' = s.ctx i' := rfl
@[simp] theorem State.tile_updLane (s : State) (l : LaneId) (f : Lane → Lane) (t' : Nat) : (s.updLane l f).tile t' = s.tile t' := rfl
@[simp] theorem State.cluster_updLane (s : State) (l : LaneId) (f : Lane → Lane) (c' : Nat) : (s.updLane l f).cluster c' = s.cluster c' := rfl
@[simp] theorem State.barrow_updLane (s : State) (l : LaneId) (f : Lane → Lane) (b' : Nat) : (s.updLane l f).barrow b' = s.barrow b' := rfl
@[simp] theorem State.group_updLane (s : State) (l : LaneId) (f : Lane → Lane) (g' : Nat) : (s.updLane l f).group g' = s.group g' := rfl
@[simp] theorem State.chan_updLane (s : State) (l : LaneId) (f : Lane → Lane) (n' : Nat) : (s.updLane l f).chan n' = s.chan n' := rfl
@[simp] theorem State.rd_updLane (s : State) (l : LaneId) (f : Lane → Lane) (a' : Nat) : (s.updLane l f).rd a' = s.rd a' := rfl
@[simp] theorem State.opq_updLane (s : State) (l : LaneId) (f : Lane → Lane) (i' : Nat) : (s.updLane l f).op? i' = s.op? i' := rfl
@[simp] theorem State.cyc_updLane (s : State) (l : LaneId) (f : Lane → Lane)  : (s.updLane l f).cyc  = s.cyc  := rfl
@[simp] theorem State.live_updLane (s : State) (l : LaneId) (f : Lane → Lane)  : (s.updLane l f).live  = s.live  := rfl
@[simp] theorem State.fld_updLane (s : State) (l : LaneId) (f : Lane → Lane) (o' hi' lo' : Nat) : (s.updLane l f).fld o' hi' lo' = s.fld o' hi' lo' := rfl
@[simp] theorem State.flag_updLane (s : State) (l : LaneId) (f : Lane → Lane) (o' i' : Nat) : (s.updLane l f).flag o' i' = s.flag o' i' := rfl
@[simp] theorem State.injHits_updLane (s : State) (l : LaneId) (f : Lane → Lane) (d' p' : Nat) : (s.updLane l f).injHits d' p' = s.injHits d' p' := rfl
@[simp] theorem State.rateAdj_updLane (s : State) (l : LaneId) (f : Lane → Lane)  : (s.updLane l f).rateAdj  = s.rateAdj  := rfl

@[simp] theorem State.reg_updTile (s : State) (t : Nat) (f : Tile → Tile) (o' : Nat) : (s.updTile t f).reg o' = s.reg o' := rfl
@[simp] theorem State.ctx_updTile (s : State) (t : Nat) (f : Tile → Tile) (i' : Nat) : (s.updTile t f).ctx i' = s.ctx i' := rfl
@[simp] theorem State.lane_updTile (s : State) (t : Nat) (f : Tile → Tile) (l' : LaneId) : (s.updTile t f).lane l' = s.lane l' := rfl
@[simp] theorem State.cluster_updTile (s : State) (t : Nat) (f : Tile → Tile) (c' : Nat) : (s.updTile t f).cluster c' = s.cluster c' := rfl
@[simp] theorem State.barrow_updTile (s : State) (t : Nat) (f : Tile → Tile) (b' : Nat) : (s.updTile t f).barrow b' = s.barrow b' := rfl
@[simp] theorem State.group_updTile (s : State) (t : Nat) (f : Tile → Tile) (g' : Nat) : (s.updTile t f).group g' = s.group g' := rfl
@[simp] theorem State.chan_updTile (s : State) (t : Nat) (f : Tile → Tile) (n' : Nat) : (s.updTile t f).chan n' = s.chan n' := rfl
@[simp] theorem State.rd_updTile (s : State) (t : Nat) (f : Tile → Tile) (a' : Nat) : (s.updTile t f).rd a' = s.rd a' := rfl
@[simp] theorem State.opq_updTile (s : State) (t : Nat) (f : Tile → Tile) (i' : Nat) : (s.updTile t f).op? i' = s.op? i' := rfl
@[simp] theorem State.cyc_updTile (s : State) (t : Nat) (f : Tile → Tile)  : (s.updTile t f).cyc  = s.cyc  := rfl
@[simp] theorem State.live_updTile (s : State) (t : Nat) (f : Tile → Tile)  : (s.updTile t f).live  = s.live  := rfl
@[simp] theorem State.fld_updTile (s : State) (t : Nat) (f : Tile → Tile) (o' hi' lo' : Nat) : (s.updTile t f).fld o' hi' lo' = s.fld o' hi' lo' := rfl
@[simp] theorem State.flag_updTile (s : State) (t : Nat) (f : Tile → Tile) (o' i' : Nat) : (s.updTile t f).flag o' i' = s.flag o' i' := rfl
@[simp] theorem State.injHits_updTile (s : State) (t : Nat) (f : Tile → Tile) (d' p' : Nat) : (s.updTile t f).injHits d' p' = s.injHits d' p' := rfl
@[simp] theorem State.rateAdj_updTile (s : State) (t : Nat) (f : Tile → Tile)  : (s.updTile t f).rateAdj  = s.rateAdj  := rfl

@[simp] theorem State.reg_updCluster (s : State) (c : Nat) (f : Cluster → Cluster) (o' : Nat) : (s.updCluster c f).reg o' = s.reg o' := rfl
@[simp] theorem State.ctx_updCluster (s : State) (c : Nat) (f : Cluster → Cluster) (i' : Nat) : (s.updCluster c f).ctx i' = s.ctx i' := rfl
@[simp] theorem State.lane_updCluster (s : State) (c : Nat) (f : Cluster → Cluster) (l' : LaneId) : (s.updCluster c f).lane l' = s.lane l' := rfl
@[simp] theorem State.tile_updCluster (s : State) (c : Nat) (f : Cluster → Cluster) (t' : Nat) : (s.updCluster c f).tile t' = s.tile t' := rfl
@[simp] theorem State.barrow_updCluster (s : State) (c : Nat) (f : Cluster → Cluster) (b' : Nat) : (s.updCluster c f).barrow b' = s.barrow b' := rfl
@[simp] theorem State.group_updCluster (s : State) (c : Nat) (f : Cluster → Cluster) (g' : Nat) : (s.updCluster c f).group g' = s.group g' := rfl
@[simp] theorem State.chan_updCluster (s : State) (c : Nat) (f : Cluster → Cluster) (n' : Nat) : (s.updCluster c f).chan n' = s.chan n' := rfl
@[simp] theorem State.rd_updCluster (s : State) (c : Nat) (f : Cluster → Cluster) (a' : Nat) : (s.updCluster c f).rd a' = s.rd a' := rfl
@[simp] theorem State.opq_updCluster (s : State) (c : Nat) (f : Cluster → Cluster) (i' : Nat) : (s.updCluster c f).op? i' = s.op? i' := rfl
@[simp] theorem State.cyc_updCluster (s : State) (c : Nat) (f : Cluster → Cluster)  : (s.updCluster c f).cyc  = s.cyc  := rfl
@[simp] theorem State.live_updCluster (s : State) (c : Nat) (f : Cluster → Cluster)  : (s.updCluster c f).live  = s.live  := rfl
@[simp] theorem State.fld_updCluster (s : State) (c : Nat) (f : Cluster → Cluster) (o' hi' lo' : Nat) : (s.updCluster c f).fld o' hi' lo' = s.fld o' hi' lo' := rfl
@[simp] theorem State.flag_updCluster (s : State) (c : Nat) (f : Cluster → Cluster) (o' i' : Nat) : (s.updCluster c f).flag o' i' = s.flag o' i' := rfl
@[simp] theorem State.injHits_updCluster (s : State) (c : Nat) (f : Cluster → Cluster) (d' p' : Nat) : (s.updCluster c f).injHits d' p' = s.injHits d' p' := rfl
@[simp] theorem State.rateAdj_updCluster (s : State) (c : Nat) (f : Cluster → Cluster)  : (s.updCluster c f).rateAdj  = s.rateAdj  := rfl

@[simp] theorem State.reg_updBarrow (s : State) (b : Nat) (f : Barrow → Barrow) (o' : Nat) : (s.updBarrow b f).reg o' = s.reg o' := rfl
@[simp] theorem State.ctx_updBarrow (s : State) (b : Nat) (f : Barrow → Barrow) (i' : Nat) : (s.updBarrow b f).ctx i' = s.ctx i' := rfl
@[simp] theorem State.lane_updBarrow (s : State) (b : Nat) (f : Barrow → Barrow) (l' : LaneId) : (s.updBarrow b f).lane l' = s.lane l' := rfl
@[simp] theorem State.tile_updBarrow (s : State) (b : Nat) (f : Barrow → Barrow) (t' : Nat) : (s.updBarrow b f).tile t' = s.tile t' := rfl
@[simp] theorem State.cluster_updBarrow (s : State) (b : Nat) (f : Barrow → Barrow) (c' : Nat) : (s.updBarrow b f).cluster c' = s.cluster c' := rfl
@[simp] theorem State.group_updBarrow (s : State) (b : Nat) (f : Barrow → Barrow) (g' : Nat) : (s.updBarrow b f).group g' = s.group g' := rfl
@[simp] theorem State.chan_updBarrow (s : State) (b : Nat) (f : Barrow → Barrow) (n' : Nat) : (s.updBarrow b f).chan n' = s.chan n' := rfl
@[simp] theorem State.rd_updBarrow (s : State) (b : Nat) (f : Barrow → Barrow) (a' : Nat) : (s.updBarrow b f).rd a' = s.rd a' := rfl
@[simp] theorem State.opq_updBarrow (s : State) (b : Nat) (f : Barrow → Barrow) (i' : Nat) : (s.updBarrow b f).op? i' = s.op? i' := rfl
@[simp] theorem State.cyc_updBarrow (s : State) (b : Nat) (f : Barrow → Barrow)  : (s.updBarrow b f).cyc  = s.cyc  := rfl
@[simp] theorem State.live_updBarrow (s : State) (b : Nat) (f : Barrow → Barrow)  : (s.updBarrow b f).live  = s.live  := rfl
@[simp] theorem State.fld_updBarrow (s : State) (b : Nat) (f : Barrow → Barrow) (o' hi' lo' : Nat) : (s.updBarrow b f).fld o' hi' lo' = s.fld o' hi' lo' := rfl
@[simp] theorem State.flag_updBarrow (s : State) (b : Nat) (f : Barrow → Barrow) (o' i' : Nat) : (s.updBarrow b f).flag o' i' = s.flag o' i' := rfl
@[simp] theorem State.injHits_updBarrow (s : State) (b : Nat) (f : Barrow → Barrow) (d' p' : Nat) : (s.updBarrow b f).injHits d' p' = s.injHits d' p' := rfl
@[simp] theorem State.rateAdj_updBarrow (s : State) (b : Nat) (f : Barrow → Barrow)  : (s.updBarrow b f).rateAdj  = s.rateAdj  := rfl

@[simp] theorem State.reg_updGroup (s : State) (i : Nat) (f : Group → Group) (o' : Nat) : (s.updGroup i f).reg o' = s.reg o' := rfl
@[simp] theorem State.ctx_updGroup (s : State) (i : Nat) (f : Group → Group) (i' : Nat) : (s.updGroup i f).ctx i' = s.ctx i' := rfl
@[simp] theorem State.lane_updGroup (s : State) (i : Nat) (f : Group → Group) (l' : LaneId) : (s.updGroup i f).lane l' = s.lane l' := rfl
@[simp] theorem State.tile_updGroup (s : State) (i : Nat) (f : Group → Group) (t' : Nat) : (s.updGroup i f).tile t' = s.tile t' := rfl
@[simp] theorem State.cluster_updGroup (s : State) (i : Nat) (f : Group → Group) (c' : Nat) : (s.updGroup i f).cluster c' = s.cluster c' := rfl
@[simp] theorem State.barrow_updGroup (s : State) (i : Nat) (f : Group → Group) (b' : Nat) : (s.updGroup i f).barrow b' = s.barrow b' := rfl
@[simp] theorem State.chan_updGroup (s : State) (i : Nat) (f : Group → Group) (n' : Nat) : (s.updGroup i f).chan n' = s.chan n' := rfl
@[simp] theorem State.rd_updGroup (s : State) (i : Nat) (f : Group → Group) (a' : Nat) : (s.updGroup i f).rd a' = s.rd a' := rfl
@[simp] theorem State.opq_updGroup (s : State) (i : Nat) (f : Group → Group) (i' : Nat) : (s.updGroup i f).op? i' = s.op? i' := rfl
@[simp] theorem State.cyc_updGroup (s : State) (i : Nat) (f : Group → Group)  : (s.updGroup i f).cyc  = s.cyc  := rfl
@[simp] theorem State.live_updGroup (s : State) (i : Nat) (f : Group → Group)  : (s.updGroup i f).live  = s.live  := rfl
@[simp] theorem State.fld_updGroup (s : State) (i : Nat) (f : Group → Group) (o' hi' lo' : Nat) : (s.updGroup i f).fld o' hi' lo' = s.fld o' hi' lo' := rfl
@[simp] theorem State.flag_updGroup (s : State) (i : Nat) (f : Group → Group) (o' i' : Nat) : (s.updGroup i f).flag o' i' = s.flag o' i' := rfl
@[simp] theorem State.injHits_updGroup (s : State) (i : Nat) (f : Group → Group) (d' p' : Nat) : (s.updGroup i f).injHits d' p' = s.injHits d' p' := rfl
@[simp] theorem State.rateAdj_updGroup (s : State) (i : Nat) (f : Group → Group)  : (s.updGroup i f).rateAdj  = s.rateAdj  := rfl

@[simp] theorem State.reg_updMem (s : State) (f : MemCtl → MemCtl) (o' : Nat) : (s.updMem f).reg o' = s.reg o' := rfl
@[simp] theorem State.ctx_updMem (s : State) (f : MemCtl → MemCtl) (i' : Nat) : (s.updMem f).ctx i' = s.ctx i' := rfl
@[simp] theorem State.lane_updMem (s : State) (f : MemCtl → MemCtl) (l' : LaneId) : (s.updMem f).lane l' = s.lane l' := rfl
@[simp] theorem State.tile_updMem (s : State) (f : MemCtl → MemCtl) (t' : Nat) : (s.updMem f).tile t' = s.tile t' := rfl
@[simp] theorem State.cluster_updMem (s : State) (f : MemCtl → MemCtl) (c' : Nat) : (s.updMem f).cluster c' = s.cluster c' := rfl
@[simp] theorem State.barrow_updMem (s : State) (f : MemCtl → MemCtl) (b' : Nat) : (s.updMem f).barrow b' = s.barrow b' := rfl
@[simp] theorem State.group_updMem (s : State) (f : MemCtl → MemCtl) (g' : Nat) : (s.updMem f).group g' = s.group g' := rfl
@[simp] theorem State.rd_updMem (s : State) (f : MemCtl → MemCtl) (a' : Nat) : (s.updMem f).rd a' = s.rd a' := rfl
@[simp] theorem State.opq_updMem (s : State) (f : MemCtl → MemCtl) (i' : Nat) : (s.updMem f).op? i' = s.op? i' := rfl
@[simp] theorem State.cyc_updMem (s : State) (f : MemCtl → MemCtl)  : (s.updMem f).cyc  = s.cyc  := rfl
@[simp] theorem State.live_updMem (s : State) (f : MemCtl → MemCtl)  : (s.updMem f).live  = s.live  := rfl
@[simp] theorem State.fld_updMem (s : State) (f : MemCtl → MemCtl) (o' hi' lo' : Nat) : (s.updMem f).fld o' hi' lo' = s.fld o' hi' lo' := rfl
@[simp] theorem State.flag_updMem (s : State) (f : MemCtl → MemCtl) (o' i' : Nat) : (s.updMem f).flag o' i' = s.flag o' i' := rfl
@[simp] theorem State.injHits_updMem (s : State) (f : MemCtl → MemCtl) (d' p' : Nat) : (s.updMem f).injHits d' p' = s.injHits d' p' := rfl
@[simp] theorem State.rateAdj_updMem (s : State) (f : MemCtl → MemCtl)  : (s.updMem f).rateAdj  = s.rateAdj  := rfl

@[simp] theorem State.reg_updChan (s : State) (n : Nat) (f : Chan → Chan) (o' : Nat) : (s.updChan n f).reg o' = s.reg o' := rfl
@[simp] theorem State.ctx_updChan (s : State) (n : Nat) (f : Chan → Chan) (i' : Nat) : (s.updChan n f).ctx i' = s.ctx i' := rfl
@[simp] theorem State.lane_updChan (s : State) (n : Nat) (f : Chan → Chan) (l' : LaneId) : (s.updChan n f).lane l' = s.lane l' := rfl
@[simp] theorem State.tile_updChan (s : State) (n : Nat) (f : Chan → Chan) (t' : Nat) : (s.updChan n f).tile t' = s.tile t' := rfl
@[simp] theorem State.cluster_updChan (s : State) (n : Nat) (f : Chan → Chan) (c' : Nat) : (s.updChan n f).cluster c' = s.cluster c' := rfl
@[simp] theorem State.barrow_updChan (s : State) (n : Nat) (f : Chan → Chan) (b' : Nat) : (s.updChan n f).barrow b' = s.barrow b' := rfl
@[simp] theorem State.group_updChan (s : State) (n : Nat) (f : Chan → Chan) (g' : Nat) : (s.updChan n f).group g' = s.group g' := rfl
@[simp] theorem State.rd_updChan (s : State) (n : Nat) (f : Chan → Chan) (a' : Nat) : (s.updChan n f).rd a' = s.rd a' := rfl
@[simp] theorem State.opq_updChan (s : State) (n : Nat) (f : Chan → Chan) (i' : Nat) : (s.updChan n f).op? i' = s.op? i' := rfl
@[simp] theorem State.cyc_updChan (s : State) (n : Nat) (f : Chan → Chan)  : (s.updChan n f).cyc  = s.cyc  := rfl
@[simp] theorem State.live_updChan (s : State) (n : Nat) (f : Chan → Chan)  : (s.updChan n f).live  = s.live  := rfl
@[simp] theorem State.fld_updChan (s : State) (n : Nat) (f : Chan → Chan) (o' hi' lo' : Nat) : (s.updChan n f).fld o' hi' lo' = s.fld o' hi' lo' := rfl
@[simp] theorem State.flag_updChan (s : State) (n : Nat) (f : Chan → Chan) (o' i' : Nat) : (s.updChan n f).flag o' i' = s.flag o' i' := rfl
@[simp] theorem State.injHits_updChan (s : State) (n : Nat) (f : Chan → Chan) (d' p' : Nat) : (s.updChan n f).injHits d' p' = s.injHits d' p' := rfl
@[simp] theorem State.rateAdj_updChan (s : State) (n : Nat) (f : Chan → Chan)  : (s.updChan n f).rateAdj  = s.rateAdj  := rfl

@[simp] theorem State.reg_updPower (s : State) (f : Power → Power) (o' : Nat) : (s.updPower f).reg o' = s.reg o' := rfl
@[simp] theorem State.ctx_updPower (s : State) (f : Power → Power) (i' : Nat) : (s.updPower f).ctx i' = s.ctx i' := rfl
@[simp] theorem State.lane_updPower (s : State) (f : Power → Power) (l' : LaneId) : (s.updPower f).lane l' = s.lane l' := rfl
@[simp] theorem State.tile_updPower (s : State) (f : Power → Power) (t' : Nat) : (s.updPower f).tile t' = s.tile t' := rfl
@[simp] theorem State.cluster_updPower (s : State) (f : Power → Power) (c' : Nat) : (s.updPower f).cluster c' = s.cluster c' := rfl
@[simp] theorem State.barrow_updPower (s : State) (f : Power → Power) (b' : Nat) : (s.updPower f).barrow b' = s.barrow b' := rfl
@[simp] theorem State.group_updPower (s : State) (f : Power → Power) (g' : Nat) : (s.updPower f).group g' = s.group g' := rfl
@[simp] theorem State.chan_updPower (s : State) (f : Power → Power) (n' : Nat) : (s.updPower f).chan n' = s.chan n' := rfl
@[simp] theorem State.rd_updPower (s : State) (f : Power → Power) (a' : Nat) : (s.updPower f).rd a' = s.rd a' := rfl
@[simp] theorem State.opq_updPower (s : State) (f : Power → Power) (i' : Nat) : (s.updPower f).op? i' = s.op? i' := rfl
@[simp] theorem State.cyc_updPower (s : State) (f : Power → Power)  : (s.updPower f).cyc  = s.cyc  := rfl
@[simp] theorem State.live_updPower (s : State) (f : Power → Power)  : (s.updPower f).live  = s.live  := rfl
@[simp] theorem State.fld_updPower (s : State) (f : Power → Power) (o' hi' lo' : Nat) : (s.updPower f).fld o' hi' lo' = s.fld o' hi' lo' := rfl
@[simp] theorem State.flag_updPower (s : State) (f : Power → Power) (o' i' : Nat) : (s.updPower f).flag o' i' = s.flag o' i' := rfl
@[simp] theorem State.injHits_updPower (s : State) (f : Power → Power) (d' p' : Nat) : (s.updPower f).injHits d' p' = s.injHits d' p' := rfl
@[simp] theorem State.rateAdj_updPower (s : State) (f : Power → Power)  : (s.updPower f).rateAdj  = s.rateAdj  := rfl

@[simp] theorem State.reg_updInsp (s : State) (f : Inspector → Inspector) (o' : Nat) : (s.updInsp f).reg o' = s.reg o' := rfl
@[simp] theorem State.ctx_updInsp (s : State) (f : Inspector → Inspector) (i' : Nat) : (s.updInsp f).ctx i' = s.ctx i' := rfl
@[simp] theorem State.lane_updInsp (s : State) (f : Inspector → Inspector) (l' : LaneId) : (s.updInsp f).lane l' = s.lane l' := rfl
@[simp] theorem State.tile_updInsp (s : State) (f : Inspector → Inspector) (t' : Nat) : (s.updInsp f).tile t' = s.tile t' := rfl
@[simp] theorem State.cluster_updInsp (s : State) (f : Inspector → Inspector) (c' : Nat) : (s.updInsp f).cluster c' = s.cluster c' := rfl
@[simp] theorem State.barrow_updInsp (s : State) (f : Inspector → Inspector) (b' : Nat) : (s.updInsp f).barrow b' = s.barrow b' := rfl
@[simp] theorem State.group_updInsp (s : State) (f : Inspector → Inspector) (g' : Nat) : (s.updInsp f).group g' = s.group g' := rfl
@[simp] theorem State.chan_updInsp (s : State) (f : Inspector → Inspector) (n' : Nat) : (s.updInsp f).chan n' = s.chan n' := rfl
@[simp] theorem State.rd_updInsp (s : State) (f : Inspector → Inspector) (a' : Nat) : (s.updInsp f).rd a' = s.rd a' := rfl
@[simp] theorem State.opq_updInsp (s : State) (f : Inspector → Inspector) (i' : Nat) : (s.updInsp f).op? i' = s.op? i' := rfl
@[simp] theorem State.cyc_updInsp (s : State) (f : Inspector → Inspector)  : (s.updInsp f).cyc  = s.cyc  := rfl
@[simp] theorem State.live_updInsp (s : State) (f : Inspector → Inspector)  : (s.updInsp f).live  = s.live  := rfl
@[simp] theorem State.fld_updInsp (s : State) (f : Inspector → Inspector) (o' hi' lo' : Nat) : (s.updInsp f).fld o' hi' lo' = s.fld o' hi' lo' := rfl
@[simp] theorem State.flag_updInsp (s : State) (f : Inspector → Inspector) (o' i' : Nat) : (s.updInsp f).flag o' i' = s.flag o' i' := rfl
@[simp] theorem State.injHits_updInsp (s : State) (f : Inspector → Inspector) (d' p' : Nat) : (s.updInsp f).injHits d' p' = s.injHits d' p' := rfl
@[simp] theorem State.rateAdj_updInsp (s : State) (f : Inspector → Inspector)  : (s.updInsp f).rateAdj  = s.rateAdj  := rfl

@[simp] theorem State.reg_updBell (s : State) (f : Bell → Bell) (o' : Nat) : (s.updBell f).reg o' = s.reg o' := rfl
@[simp] theorem State.ctx_updBell (s : State) (f : Bell → Bell) (i' : Nat) : (s.updBell f).ctx i' = s.ctx i' := rfl
@[simp] theorem State.lane_updBell (s : State) (f : Bell → Bell) (l' : LaneId) : (s.updBell f).lane l' = s.lane l' := rfl
@[simp] theorem State.tile_updBell (s : State) (f : Bell → Bell) (t' : Nat) : (s.updBell f).tile t' = s.tile t' := rfl
@[simp] theorem State.cluster_updBell (s : State) (f : Bell → Bell) (c' : Nat) : (s.updBell f).cluster c' = s.cluster c' := rfl
@[simp] theorem State.barrow_updBell (s : State) (f : Bell → Bell) (b' : Nat) : (s.updBell f).barrow b' = s.barrow b' := rfl
@[simp] theorem State.group_updBell (s : State) (f : Bell → Bell) (g' : Nat) : (s.updBell f).group g' = s.group g' := rfl
@[simp] theorem State.chan_updBell (s : State) (f : Bell → Bell) (n' : Nat) : (s.updBell f).chan n' = s.chan n' := rfl
@[simp] theorem State.rd_updBell (s : State) (f : Bell → Bell) (a' : Nat) : (s.updBell f).rd a' = s.rd a' := rfl
@[simp] theorem State.opq_updBell (s : State) (f : Bell → Bell) (i' : Nat) : (s.updBell f).op? i' = s.op? i' := rfl
@[simp] theorem State.cyc_updBell (s : State) (f : Bell → Bell)  : (s.updBell f).cyc  = s.cyc  := rfl
@[simp] theorem State.live_updBell (s : State) (f : Bell → Bell)  : (s.updBell f).live  = s.live  := rfl
@[simp] theorem State.fld_updBell (s : State) (f : Bell → Bell) (o' hi' lo' : Nat) : (s.updBell f).fld o' hi' lo' = s.fld o' hi' lo' := rfl
@[simp] theorem State.flag_updBell (s : State) (f : Bell → Bell) (o' i' : Nat) : (s.updBell f).flag o' i' = s.flag o' i' := rfl
@[simp] theorem State.injHits_updBell (s : State) (f : Bell → Bell) (d' p' : Nat) : (s.updBell f).injHits d' p' = s.injHits d' p' := rfl
@[simp] theorem State.rateAdj_updBell (s : State) (f : Bell → Bell)  : (s.updBell f).rateAdj  = s.rateAdj  := rfl

@[simp] theorem State.reg_updPins (s : State) (f : Pins → Pins) (o' : Nat) : (s.updPins f).reg o' = s.reg o' := rfl
@[simp] theorem State.ctx_updPins (s : State) (f : Pins → Pins) (i' : Nat) : (s.updPins f).ctx i' = s.ctx i' := rfl
@[simp] theorem State.lane_updPins (s : State) (f : Pins → Pins) (l' : LaneId) : (s.updPins f).lane l' = s.lane l' := rfl
@[simp] theorem State.tile_updPins (s : State) (f : Pins → Pins) (t' : Nat) : (s.updPins f).tile t' = s.tile t' := rfl
@[simp] theorem State.cluster_updPins (s : State) (f : Pins → Pins) (c' : Nat) : (s.updPins f).cluster c' = s.cluster c' := rfl
@[simp] theorem State.barrow_updPins (s : State) (f : Pins → Pins) (b' : Nat) : (s.updPins f).barrow b' = s.barrow b' := rfl
@[simp] theorem State.group_updPins (s : State) (f : Pins → Pins) (g' : Nat) : (s.updPins f).group g' = s.group g' := rfl
@[simp] theorem State.chan_updPins (s : State) (f : Pins → Pins) (n' : Nat) : (s.updPins f).chan n' = s.chan n' := rfl
@[simp] theorem State.rd_updPins (s : State) (f : Pins → Pins) (a' : Nat) : (s.updPins f).rd a' = s.rd a' := rfl
@[simp] theorem State.opq_updPins (s : State) (f : Pins → Pins) (i' : Nat) : (s.updPins f).op? i' = s.op? i' := rfl
@[simp] theorem State.cyc_updPins (s : State) (f : Pins → Pins)  : (s.updPins f).cyc  = s.cyc  := rfl
@[simp] theorem State.fld_updPins (s : State) (f : Pins → Pins) (o' hi' lo' : Nat) : (s.updPins f).fld o' hi' lo' = s.fld o' hi' lo' := rfl
@[simp] theorem State.flag_updPins (s : State) (f : Pins → Pins) (o' i' : Nat) : (s.updPins f).flag o' i' = s.flag o' i' := rfl
@[simp] theorem State.injHits_updPins (s : State) (f : Pins → Pins) (d' p' : Nat) : (s.updPins f).injHits d' p' = s.injHits d' p' := rfl
@[simp] theorem State.rateAdj_updPins (s : State) (f : Pins → Pins)  : (s.updPins f).rateAdj  = s.rateAdj  := rfl

@[simp] theorem State.reg_updOp (s : State) (i : Nat) (f : Op → Op) (o' : Nat) : (s.updOp i f).reg o' = s.reg o' := rfl
@[simp] theorem State.ctx_updOp (s : State) (i : Nat) (f : Op → Op) (i' : Nat) : (s.updOp i f).ctx i' = s.ctx i' := rfl
@[simp] theorem State.lane_updOp (s : State) (i : Nat) (f : Op → Op) (l' : LaneId) : (s.updOp i f).lane l' = s.lane l' := rfl
@[simp] theorem State.tile_updOp (s : State) (i : Nat) (f : Op → Op) (t' : Nat) : (s.updOp i f).tile t' = s.tile t' := rfl
@[simp] theorem State.cluster_updOp (s : State) (i : Nat) (f : Op → Op) (c' : Nat) : (s.updOp i f).cluster c' = s.cluster c' := rfl
@[simp] theorem State.barrow_updOp (s : State) (i : Nat) (f : Op → Op) (b' : Nat) : (s.updOp i f).barrow b' = s.barrow b' := rfl
@[simp] theorem State.group_updOp (s : State) (i : Nat) (f : Op → Op) (g' : Nat) : (s.updOp i f).group g' = s.group g' := rfl
@[simp] theorem State.chan_updOp (s : State) (i : Nat) (f : Op → Op) (n' : Nat) : (s.updOp i f).chan n' = s.chan n' := rfl
@[simp] theorem State.rd_updOp (s : State) (i : Nat) (f : Op → Op) (a' : Nat) : (s.updOp i f).rd a' = s.rd a' := rfl
@[simp] theorem State.cyc_updOp (s : State) (i : Nat) (f : Op → Op)  : (s.updOp i f).cyc  = s.cyc  := rfl
@[simp] theorem State.live_updOp (s : State) (i : Nat) (f : Op → Op)  : (s.updOp i f).live  = s.live  := rfl
@[simp] theorem State.fld_updOp (s : State) (i : Nat) (f : Op → Op) (o' hi' lo' : Nat) : (s.updOp i f).fld o' hi' lo' = s.fld o' hi' lo' := rfl
@[simp] theorem State.flag_updOp (s : State) (i : Nat) (f : Op → Op) (o' i' : Nat) : (s.updOp i f).flag o' i' = s.flag o' i' := rfl
@[simp] theorem State.injHits_updOp (s : State) (i : Nat) (f : Op → Op) (d' p' : Nat) : (s.updOp i f).injHits d' p' = s.injHits d' p' := rfl
@[simp] theorem State.rateAdj_updOp (s : State) (i : Nat) (f : Op → Op)  : (s.updOp i f).rateAdj  = s.rateAdj  := rfl

@[simp] theorem State.reg_dropOp (s : State) (i : Nat) (o' : Nat) : (s.dropOp i).reg o' = s.reg o' := rfl
@[simp] theorem State.ctx_dropOp (s : State) (i : Nat) (i' : Nat) : (s.dropOp i).ctx i' = s.ctx i' := rfl
@[simp] theorem State.lane_dropOp (s : State) (i : Nat) (l' : LaneId) : (s.dropOp i).lane l' = s.lane l' := rfl
@[simp] theorem State.tile_dropOp (s : State) (i : Nat) (t' : Nat) : (s.dropOp i).tile t' = s.tile t' := rfl
@[simp] theorem State.cluster_dropOp (s : State) (i : Nat) (c' : Nat) : (s.dropOp i).cluster c' = s.cluster c' := rfl
@[simp] theorem State.barrow_dropOp (s : State) (i : Nat) (b' : Nat) : (s.dropOp i).barrow b' = s.barrow b' := rfl
@[simp] theorem State.group_dropOp (s : State) (i : Nat) (g' : Nat) : (s.dropOp i).group g' = s.group g' := rfl
@[simp] theorem State.chan_dropOp (s : State) (i : Nat) (n' : Nat) : (s.dropOp i).chan n' = s.chan n' := rfl
@[simp] theorem State.rd_dropOp (s : State) (i : Nat) (a' : Nat) : (s.dropOp i).rd a' = s.rd a' := rfl
@[simp] theorem State.cyc_dropOp (s : State) (i : Nat)  : (s.dropOp i).cyc  = s.cyc  := rfl
@[simp] theorem State.live_dropOp (s : State) (i : Nat)  : (s.dropOp i).live  = s.live  := rfl
@[simp] theorem State.fld_dropOp (s : State) (i : Nat) (o' hi' lo' : Nat) : (s.dropOp i).fld o' hi' lo' = s.fld o' hi' lo' := rfl
@[simp] theorem State.flag_dropOp (s : State) (i : Nat) (o' i' : Nat) : (s.dropOp i).flag o' i' = s.flag o' i' := rfl
@[simp] theorem State.injHits_dropOp (s : State) (i : Nat) (d' p' : Nat) : (s.dropOp i).injHits d' p' = s.injHits d' p' := rfl
@[simp] theorem State.rateAdj_dropOp (s : State) (i : Nat)  : (s.dropOp i).rateAdj  = s.rateAdj  := rfl

@[simp] theorem State.reg_updLaunch (s : State) (i q : Nat) (f : Launch → Launch) (o' : Nat) : (s.updLaunch i q f).reg o' = s.reg o' := rfl
@[simp] theorem State.lane_updLaunch (s : State) (i q : Nat) (f : Launch → Launch) (l' : LaneId) : (s.updLaunch i q f).lane l' = s.lane l' := rfl
@[simp] theorem State.tile_updLaunch (s : State) (i q : Nat) (f : Launch → Launch) (t' : Nat) : (s.updLaunch i q f).tile t' = s.tile t' := rfl
@[simp] theorem State.cluster_updLaunch (s : State) (i q : Nat) (f : Launch → Launch) (c' : Nat) : (s.updLaunch i q f).cluster c' = s.cluster c' := rfl
@[simp] theorem State.barrow_updLaunch (s : State) (i q : Nat) (f : Launch → Launch) (b' : Nat) : (s.updLaunch i q f).barrow b' = s.barrow b' := rfl
@[simp] theorem State.group_updLaunch (s : State) (i q : Nat) (f : Launch → Launch) (g' : Nat) : (s.updLaunch i q f).group g' = s.group g' := rfl
@[simp] theorem State.chan_updLaunch (s : State) (i q : Nat) (f : Launch → Launch) (n' : Nat) : (s.updLaunch i q f).chan n' = s.chan n' := rfl
@[simp] theorem State.rd_updLaunch (s : State) (i q : Nat) (f : Launch → Launch) (a' : Nat) : (s.updLaunch i q f).rd a' = s.rd a' := rfl
@[simp] theorem State.opq_updLaunch (s : State) (i q : Nat) (f : Launch → Launch) (i' : Nat) : (s.updLaunch i q f).op? i' = s.op? i' := rfl
@[simp] theorem State.cyc_updLaunch (s : State) (i q : Nat) (f : Launch → Launch)  : (s.updLaunch i q f).cyc  = s.cyc  := rfl
@[simp] theorem State.live_updLaunch (s : State) (i q : Nat) (f : Launch → Launch)  : (s.updLaunch i q f).live  = s.live  := rfl
@[simp] theorem State.fld_updLaunch (s : State) (i q : Nat) (f : Launch → Launch) (o' hi' lo' : Nat) : (s.updLaunch i q f).fld o' hi' lo' = s.fld o' hi' lo' := rfl
@[simp] theorem State.flag_updLaunch (s : State) (i q : Nat) (f : Launch → Launch) (o' i' : Nat) : (s.updLaunch i q f).flag o' i' = s.flag o' i' := rfl
@[simp] theorem State.injHits_updLaunch (s : State) (i q : Nat) (f : Launch → Launch) (d' p' : Nat) : (s.updLaunch i q f).injHits d' p' = s.injHits d' p' := rfl
@[simp] theorem State.rateAdj_updLaunch (s : State) (i q : Nat) (f : Launch → Launch)  : (s.updLaunch i q f).rateAdj  = s.rateAdj  := rfl

@[simp] theorem State.reg_emit (s : State) (o : Out) (o' : Nat) : (s.emit o).reg o' = s.reg o' := rfl
@[simp] theorem State.ctx_emit (s : State) (o : Out) (i' : Nat) : (s.emit o).ctx i' = s.ctx i' := rfl
@[simp] theorem State.lane_emit (s : State) (o : Out) (l' : LaneId) : (s.emit o).lane l' = s.lane l' := rfl
@[simp] theorem State.tile_emit (s : State) (o : Out) (t' : Nat) : (s.emit o).tile t' = s.tile t' := rfl
@[simp] theorem State.cluster_emit (s : State) (o : Out) (c' : Nat) : (s.emit o).cluster c' = s.cluster c' := rfl
@[simp] theorem State.barrow_emit (s : State) (o : Out) (b' : Nat) : (s.emit o).barrow b' = s.barrow b' := rfl
@[simp] theorem State.group_emit (s : State) (o : Out) (g' : Nat) : (s.emit o).group g' = s.group g' := rfl
@[simp] theorem State.chan_emit (s : State) (o : Out) (n' : Nat) : (s.emit o).chan n' = s.chan n' := rfl
@[simp] theorem State.rd_emit (s : State) (o : Out) (a' : Nat) : (s.emit o).rd a' = s.rd a' := rfl
@[simp] theorem State.opq_emit (s : State) (o : Out) (i' : Nat) : (s.emit o).op? i' = s.op? i' := rfl
@[simp] theorem State.cyc_emit (s : State) (o : Out)  : (s.emit o).cyc  = s.cyc  := rfl
@[simp] theorem State.live_emit (s : State) (o : Out)  : (s.emit o).live  = s.live  := rfl
@[simp] theorem State.fld_emit (s : State) (o : Out) (o' hi' lo' : Nat) : (s.emit o).fld o' hi' lo' = s.fld o' hi' lo' := rfl
@[simp] theorem State.flag_emit (s : State) (o : Out) (o' i' : Nat) : (s.emit o).flag o' i' = s.flag o' i' := rfl
@[simp] theorem State.injHits_emit (s : State) (o : Out) (d' p' : Nat) : (s.emit o).injHits d' p' = s.injHits d' p' := rfl
@[simp] theorem State.rateAdj_emit (s : State) (o : Out)  : (s.emit o).rateAdj  = s.rateAdj  := rfl

@[simp] theorem State.reg_wr (s : State) (a : Nat) (b : Byte) (o' : Nat) : (s.wr a b).reg o' = s.reg o' := rfl
@[simp] theorem State.ctx_wr (s : State) (a : Nat) (b : Byte) (i' : Nat) : (s.wr a b).ctx i' = s.ctx i' := rfl
@[simp] theorem State.lane_wr (s : State) (a : Nat) (b : Byte) (l' : LaneId) : (s.wr a b).lane l' = s.lane l' := rfl
@[simp] theorem State.tile_wr (s : State) (a : Nat) (b : Byte) (t' : Nat) : (s.wr a b).tile t' = s.tile t' := rfl
@[simp] theorem State.cluster_wr (s : State) (a : Nat) (b : Byte) (c' : Nat) : (s.wr a b).cluster c' = s.cluster c' := rfl
@[simp] theorem State.barrow_wr (s : State) (a : Nat) (b : Byte) (b' : Nat) : (s.wr a b).barrow b' = s.barrow b' := rfl
@[simp] theorem State.group_wr (s : State) (a : Nat) (b : Byte) (g' : Nat) : (s.wr a b).group g' = s.group g' := rfl
@[simp] theorem State.chan_wr (s : State) (a : Nat) (b : Byte) (n' : Nat) : (s.wr a b).chan n' = s.chan n' := rfl
@[simp] theorem State.opq_wr (s : State) (a : Nat) (b : Byte) (i' : Nat) : (s.wr a b).op? i' = s.op? i' := rfl
@[simp] theorem State.cyc_wr (s : State) (a : Nat) (b : Byte)  : (s.wr a b).cyc  = s.cyc  := rfl
@[simp] theorem State.live_wr (s : State) (a : Nat) (b : Byte)  : (s.wr a b).live  = s.live  := rfl
@[simp] theorem State.fld_wr (s : State) (a : Nat) (b : Byte) (o' hi' lo' : Nat) : (s.wr a b).fld o' hi' lo' = s.fld o' hi' lo' := rfl
@[simp] theorem State.flag_wr (s : State) (a : Nat) (b : Byte) (o' i' : Nat) : (s.wr a b).flag o' i' = s.flag o' i' := rfl
@[simp] theorem State.injHits_wr (s : State) (a : Nat) (b : Byte) (d' p' : Nat) : (s.wr a b).injHits d' p' = s.injHits d' p' := rfl
@[simp] theorem State.rateAdj_wr (s : State) (a : Nat) (b : Byte)  : (s.wr a b).rateAdj  = s.rateAdj  := rfl

@[simp] theorem State.reg_zeroMem (s : State) (lo n : Nat) (o' : Nat) : (s.zeroMem lo n).reg o' = s.reg o' := rfl
@[simp] theorem State.ctx_zeroMem (s : State) (lo n : Nat) (i' : Nat) : (s.zeroMem lo n).ctx i' = s.ctx i' := rfl
@[simp] theorem State.lane_zeroMem (s : State) (lo n : Nat) (l' : LaneId) : (s.zeroMem lo n).lane l' = s.lane l' := rfl
@[simp] theorem State.tile_zeroMem (s : State) (lo n : Nat) (t' : Nat) : (s.zeroMem lo n).tile t' = s.tile t' := rfl
@[simp] theorem State.cluster_zeroMem (s : State) (lo n : Nat) (c' : Nat) : (s.zeroMem lo n).cluster c' = s.cluster c' := rfl
@[simp] theorem State.barrow_zeroMem (s : State) (lo n : Nat) (b' : Nat) : (s.zeroMem lo n).barrow b' = s.barrow b' := rfl
@[simp] theorem State.group_zeroMem (s : State) (lo n : Nat) (g' : Nat) : (s.zeroMem lo n).group g' = s.group g' := rfl
@[simp] theorem State.chan_zeroMem (s : State) (lo n : Nat) (n' : Nat) : (s.zeroMem lo n).chan n' = s.chan n' := rfl
@[simp] theorem State.opq_zeroMem (s : State) (lo n : Nat) (i' : Nat) : (s.zeroMem lo n).op? i' = s.op? i' := rfl
@[simp] theorem State.cyc_zeroMem (s : State) (lo n : Nat)  : (s.zeroMem lo n).cyc  = s.cyc  := rfl
@[simp] theorem State.live_zeroMem (s : State) (lo n : Nat)  : (s.zeroMem lo n).live  = s.live  := rfl
@[simp] theorem State.fld_zeroMem (s : State) (lo n : Nat) (o' hi' lo' : Nat) : (s.zeroMem lo n).fld o' hi' lo' = s.fld o' hi' lo' := rfl
@[simp] theorem State.flag_zeroMem (s : State) (lo n : Nat) (o' i' : Nat) : (s.zeroMem lo n).flag o' i' = s.flag o' i' := rfl
@[simp] theorem State.injHits_zeroMem (s : State) (lo n : Nat) (d' p' : Nat) : (s.zeroMem lo n).injHits d' p' = s.injHits d' p' := rfl
@[simp] theorem State.rateAdj_zeroMem (s : State) (lo n : Nat)  : (s.zeroMem lo n).rateAdj  = s.rateAdj  := rfl

/-! ## Readers through updates of their own field -/

/-- The register written reads what was written; every other keeps its word. -/
theorem State.reg_setReg (s : State) (o : Nat) (v : Word) (o' : Nat) : (s.setReg o v).reg o' = if o' = o then v else s.reg o' := by
  show sparseGet _ (sparseSet _ _ _ _) _ = _
  rw [sparseGet_set]
  by_cases h : o' = o
  · subst h
    by_cases hv : v = regReset s.straps o' <;> simp [hv]
  · simp [h]; rfl

@[simp] theorem State.reg_setReg_self (s : State) (o : Nat) (v : Word) : (s.setReg o v).reg o = v := by simp [State.reg_setReg]

theorem State.reg_setFld (s : State) (o hi lo v o' : Nat) :
    (s.setFld o hi lo v).reg o' = if o' = o then setBits (s.reg o) hi lo v else s.reg o' := State.reg_setReg ..

@[simp] theorem State.reg_setFld_self (s : State) (o hi lo v : Nat) : (s.setFld o hi lo v).reg o = setBits (s.reg o) hi lo v :=
  State.reg_setReg_self ..

theorem State.reg_setBitsIn (s : State) (o m o' : Nat) :
    (s.setBitsIn o m).reg o' = if o' = o then s.reg o ||| BitVec.ofNat 64 m else s.reg o' := State.reg_setReg ..

theorem State.reg_incSat (s : State) (o hi lo n o' : Nat) :
    (s.incSat o hi lo n).reg o' = if o' = o then setBits (s.reg o) hi lo (sat (hi + 1 - lo) (s.fld o hi lo + n)) else s.reg o' :=
  State.reg_setReg ..

theorem State.reg_incWrap (s : State) (o hi lo n o' : Nat) :
    (s.incWrap o hi lo n).reg o' = if o' = o then setBits (s.reg o) hi lo (s.fld o hi lo + n) else s.reg o' := State.reg_setReg ..

theorem State.reg_clearRegs (s : State) (lo n o' : Nat) :
    (s.clearRegs lo n).reg o' = if lo ≤ o' ∧ o' < lo + n then regReset s.straps o' else s.reg o' := sparseGet_clear ..

theorem State.ctx_updCtx (s : State) (i i' : Nat) (f : Ctx → Ctx) : (s.updCtx i f).ctx i' = if i' = i then f (s.ctx i) else s.ctx i' :=
  nth_upd ..

@[simp] theorem State.ctx_updCtx_self (s : State) (i : Nat) (f : Ctx → Ctx) : (s.updCtx i f).ctx i = f (s.ctx i) := nth_upd_self ..

theorem State.ctx_updLaunch (s : State) (i q i' : Nat) (f : Launch → Launch) :
    (s.updLaunch i q f).ctx i' = if i' = i then (s.ctx i).updLaunch q f else s.ctx i' := State.ctx_updCtx ..

theorem State.lane_updLane (s : State) (l l' : LaneId) (f : Lane → Lane) :
    (s.updLane l f).lane l' = if laneIx l' = laneIx l then f (s.lane l) else s.lane l' := nth_upd ..

@[simp] theorem State.lane_updLane_self (s : State) (l : LaneId) (f : Lane → Lane) : (s.updLane l f).lane l = f (s.lane l) := nth_upd_self ..

theorem State.tile_updTile (s : State) (t t' : Nat) (f : Tile → Tile) :
    (s.updTile t f).tile t' = if t' = t then f (s.tile t) else s.tile t' := nth_upd ..

@[simp] theorem State.tile_updTile_self (s : State) (t : Nat) (f : Tile → Tile) : (s.updTile t f).tile t = f (s.tile t) := nth_upd_self ..

theorem State.cluster_updCluster (s : State) (c c' : Nat) (f : Cluster → Cluster) :
    (s.updCluster c f).cluster c' = if c' = c then f (s.cluster c) else s.cluster c' := nth_upd ..

@[simp] theorem State.cluster_updCluster_self (s : State) (c : Nat) (f : Cluster → Cluster) :
    (s.updCluster c f).cluster c = f (s.cluster c) := nth_upd_self ..

theorem State.barrow_updBarrow (s : State) (b b' : Nat) (f : Barrow → Barrow) :
    (s.updBarrow b f).barrow b' = if b' = b then f (s.barrow b) else s.barrow b' := nth_upd ..

theorem State.group_updGroup (s : State) (i i' : Nat) (f : Group → Group) :
    (s.updGroup i f).group i' = if i' = i then f (s.group i) else s.group i' := nth_upd ..

@[simp] theorem State.group_updGroup_self (s : State) (i : Nat) (f : Group → Group) : (s.updGroup i f).group i = f (s.group i) :=
  nth_upd_self ..

theorem State.chan_updChan (s : State) (n n' : Nat) (f : Chan → Chan) :
    (s.updChan n f).chan n' = if n' = n then f (s.chan n) else s.chan n' := nth_upd ..

/-- A byte written reads as written; every other byte of memory reads as before. -/
theorem State.rd_wr (s : State) (a : Nat) (b : Byte) (a' : Nat) : (s.wr a b).rd a' = if a' = a then b else s.rd a' := by
  show sparseGet _ (sparseSet _ _ _ _) _ = _
  rw [sparseGet_set]
  by_cases h : a' = a
  · subst h
    rw [if_pos rfl, if_pos rfl]
    split
    · rename_i e; exact e.symm
    · rfl
  · simp [h]; rfl

theorem State.rd_zeroMem (s : State) (lo n a' : Nat) : (s.zeroMem lo n).rd a' = if lo ≤ a' ∧ a' < lo + n then 0 else s.rd a' :=
  sparseGet_clear ..

/-- Bytes written from an address upwards: they read as written, every other byte as before. -/
theorem State.rd_wrBytes (s : State) (a : Nat) (bs : List Byte) (a' : Nat) :
    (s.wrBytes a bs).rd a' = if a ≤ a' ∧ a' < a + bs.length then bs.getD (a' - a) 0 else s.rd a' := by
  induction bs generalizing s a with
  | nil =>
    have : ¬ (a ≤ a' ∧ a' < a + ([] : List Byte).length) := by simp
    rw [if_neg this]; rfl
  | cons b r ih =>
    rw [State.wrBytes, ih, State.rd_wr]
    by_cases h : a' = a
    · subst h; simp
    · by_cases h2 : a + 1 ≤ a' ∧ a' < a + 1 + r.length
      · have h3 : a ≤ a' ∧ a' < a + (b :: r).length := by simp; omega
        rw [if_pos h2, if_pos h3]
        obtain ⟨k, rfl⟩ : ∃ k, a' = a + 1 + k := ⟨a' - (a + 1), by omega⟩
        have : a + 1 + k - a = k + 1 := by omega
        simp [this]
      · have h3 : ¬ (a ≤ a' ∧ a' < a + (b :: r).length) := by simp; omega
        rw [if_neg h2, if_neg h3, if_neg h]

/-! ## The canonical form of memory -/

theorem Memory.wf_wr (s : State) (a : Nat) (b : Byte) (h : Memory.wf s.cells = true) : Memory.wf (s.wr a b).cells = true :=
  sparseWf_set (fun _ => (0 : Byte)) s.cells a b h

theorem Memory.wf_zeroMem (s : State) (lo n : Nat) (h : Memory.wf s.cells = true) : Memory.wf (s.zeroMem lo n).cells = true :=
  sparseWf_clear (fun _ => (0 : Byte)) s.cells lo n h

theorem Memory.wf_wrBytes (s : State) (a : Nat) (bs : List Byte) (h : Memory.wf s.cells = true) :
    Memory.wf (s.wrBytes a bs).cells = true := by
  induction bs generalizing s a with
  | nil => exact h
  | cons b r ih => exact ih _ _ (Memory.wf_wr s a b h)

theorem Memory.wf_wrList (s : State) (l : List (Nat × Byte)) (h : Memory.wf s.cells = true) : Memory.wf (s.wrList l).cells = true := by
  induction l generalizing s with
  | nil => exact h
  | cons p r ih => exact ih _ (Memory.wf_wr s p.1 p.2 h)

end Sys2Proof.Machine
end

