-- ==== Sys2Proof/Laws/Issue.lean ====
section
/-!
SUPPORT. What issue does (R129 to R155): an instruction that issues has its own effect and nothing before it; passing an instruction changes
the lane alone.
-/
namespace Sys2Proof.Machine

open Sys2Proof

theorem injHits_none {s : State} (h : s.inject = none) (d p : Nat) : s.injHits d p = false := by
  simp [State.injHits, h]

/-- An instruction that issues does what its body says. -/
theorem State.issue_eq {s : State} {l : LaneId} {i : IWord} {cls op : Nat} {regs : List Nat} (h : s.Issues l i cls op regs)
    (ha : assigned cls op = true) (body : State → State) : s.issue l i cls op regs body = body s := by
  obtain ⟨h1, h2, h3, h4, h5, h6, h7, h8, h9, h10⟩ := h
  have hc : s.codeWord l (s.lane l).pc = some i.w := by
    have := h4; simp only [State.codeIs, Bool.and_eq_true, beq_iff_eq] at this; exact this.1
  have hl : (s.codeLine l (s.lane l).pc).isSome = true := by
    simp only [State.codeWord, Option.map_eq_some_iff] at hc
    obtain ⟨x, hx, _⟩ := hc; simp [hx]
  have hlong : bit ((s.codeWord l (s.lane l).pc).getD 0) 47 = iLong i := by simp [hc, iLong]
  have h2nd : (iLong i && (s.codeLine l (((s.lane l).pc + 8) % 2 ^ 64)).isNone) = false := by
    generalize hq : ((s.lane l).pc + 8) % 2 ^ 64 = q at *
    cases hh : iLong i with
    | false => rfl
    | true =>
      have h := h4
      unfold State.codeIs at h
      rw [hh] at h
      simp only [hq, Bool.not_true, Bool.false_or, Bool.and_eq_true, beq_iff_eq] at h
      have h' := h.2
      unfold State.codeWord at h'
      rw [Option.map_eq_some_iff] at h'
      obtain ⟨x, hx, _⟩ := h'
      rw [hx]; rfl
  have hr : regs.all (s.regReady l) = true := by simpa [List.all_eq_true] using h10
  have hln : (s.codeLine l (s.lane l).pc).isNone = false := by
    cases hq : s.codeLine l (s.lane l).pc with
    | none => rw [hq] at hl; cases hl
    | some x => rfl
  unfold State.issue
  rw [if_neg (by rw [h1]; decide), if_neg (by rw [injHits_none h2]; decide), if_neg (by rw [h3]; decide),
    if_neg (by rw [hln]; decide), if_neg (by rw [injHits_none h2]; decide), hlong, if_neg (by rw [h2nd]; decide),
    if_neg (by rw [h4]; decide), h5, h6, if_neg (by rw [ha]; decide), if_neg (by simp), if_neg (by rw [h7]; decide),
    if_neg (by rw [h8]; decide), if_neg (by rw [h9]; decide), if_neg (by rw [hr]; decide)]

/-! ## The loop test -/

@[simp] theorem loopTest_s (ln : Lane) (n : Nat) (es : List LoopEnt) : (ln.loopTest n es).s = ln.s := by
  induction es generalizing ln with
  | nil => rfl
  | cons e r ih => simp only [Lane.loopTest]; split <;> (try split) <;> simp [ih, Lane.setK]

@[simp] theorem loopTest_p (ln : Lane) (n : Nat) (es : List LoopEnt) : (ln.loopTest n es).p = ln.p := by
  induction es generalizing ln with
  | nil => rfl
  | cons e r ih => simp only [Lane.loopTest]; split <;> (try split) <;> simp [ih, Lane.setK]

@[simp] theorem loopTest_d (ln : Lane) (n : Nat) (es : List LoopEnt) : (ln.loopTest n es).d = ln.d := by
  induction es generalizing ln with
  | nil => rfl
  | cons e r ih => simp only [Lane.loopTest]; split <;> (try split) <;> simp [ih, Lane.setK]

/-- The loop test changes the pc, the loops and the k registers alone. -/
theorem loopTest_rest (ln : Lane) (n : Nat) (es : List LoopEnt) :
    ln.loopTest n es = { ln with pc := (ln.loopTest n es).pc, loops := (ln.loopTest n es).loops, k := (ln.loopTest n es).k } := by
  induction es generalizing ln with
  | nil => rfl
  | cons e r ih =>
    simp only [Lane.loopTest]
    split
    · split
      · conv => lhs; rw [ih]
        rfl
      · rfl
    · rfl

/-- An instruction that is not the last word of the innermost body passes it by. -/
theorem loopTest_straight (ln : Lane) (n : Nat) (h : ∀ e, ln.loops.head? = some e → e.last ≠ n) : ln.loopTest n ln.loops = ln := by
  cases hl : ln.loops with
  | nil => simp only [Lane.loopTest]; cases ln; simp_all
  | cons e r =>
    have := h e (by simp [hl])
    simp only [Lane.loopTest, this, if_false]
    cases ln; simp_all

/-! ## Frames -/

theorem OnlyLane.refl (l : LaneId) (s : State) : OnlyLane l s s := ⟨rfl, fun _ _ => rfl, fun _ => rfl, fun _ => rfl, rfl⟩

theorem OnlyLane.trans {l : LaneId} {s t u : State} (h : OnlyLane l s t) (k : OnlyLane l t u) : OnlyLane l s u := by
  refine ⟨?_, fun m hm => (k.others m hm).trans (h.others m hm), fun c => (k.ctxs c).trans (h.ctxs c),
    fun c => (k.launches c).trans (h.launches c), k.power.trans h.power⟩
  have h1 := h.rest
  have k1 := k.rest
  rw [k1]
  conv => lhs; rw [h1]

theorem OnlyLane.updLane (l : LaneId) (s : State) (f : Lane → Lane) : OnlyLane l s (s.updLane l f) :=
  ⟨rfl, fun m hm => by simp [State.lane_updLane, hm], fun _ => rfl, fun _ => rfl, rfl⟩

theorem updLaunch_ctx (c : Ctx) (q : Nat) (f : Launch → Launch) : { c.updLaunch q f with launches := [] } = { c with launches := [] } := rfl

theorem updLaunch_launches (c : Ctx) (q : Nat) (f : Launch → Launch) (hf : ∀ x, { f x with events := [] } = { x with events := [] }) :
    (c.updLaunch q f).launches.map (fun x => { x with events := [] }) = c.launches.map (fun x => { x with events := [] }) := by
  simp only [Ctx.updLaunch, List.map_map]
  apply List.map_congr_left
  intro x _
  simp only [Function.comp]
  split
  · exact hf x
  · rfl

theorem OnlyLane.energyEvent (l : LaneId) (s : State) (c q k n : Nat) : OnlyLane l s (s.energyEvent c q k n) := by
  refine ⟨rfl, fun _ _ => rfl, fun c' => ?_, fun c' => ?_, rfl⟩
  · show { (State.updLaunch s c q _).ctx c' with launches := [] } = _
    rw [State.ctx_updLaunch]
    split
    · rename_i h; subst h; rfl
    · rfl
  · show List.map _ ((State.updLaunch s c q _).ctx c').launches = _
    rw [State.ctx_updLaunch]
    split
    · rename_i h; subst h; exact updLaunch_launches _ _ _ fun _ => rfl
    · rfl

@[simp] theorem State.lane_energyEvent (s : State) (c q k n : Nat) (l : LaneId) : (s.energyEvent c q k n).lane l = s.lane l := rfl
@[simp] theorem State.cyc_energyEvent (s : State) (c q k n : Nat) : (s.energyEvent c q k n).cyc = s.cyc := rfl

theorem OnlyLane.spend (l : LaneId) (s : State) (n : Nat) : OnlyLane l s (s.spend l n) :=
  (OnlyLane.energyEvent l s _ _ _ _).trans (OnlyLane.updLane l _ _)

theorem State.lane_spend (s : State) (l : LaneId) (n : Nat) :
    (s.spend l n).lane l = { s.lane l with st := .issuing, wait := 0, waitArg := 0, nextIssue := s.cyc + n } := by
  unfold State.spend
  rw [State.lane_updLane_self]
  rfl

theorem OnlyLane.advance (l : LaneId) (i : IWord) (s : State) : OnlyLane l s (s.advance l i) :=
  (OnlyLane.updLane l s _).trans (OnlyLane.spend l _ _)

/-- The lane after an instruction it passes. -/
theorem State.lane_advance (s : State) (l : LaneId) (i : IWord) :
    (s.advance l i).lane l =
      { ({ s.lane l with pc := ((s.lane l).pc + iSize i) % 2 ^ 64 } : Lane).loopTest (((s.lane l).pc + iSize i - 8) % 2 ^ 64) (s.lane l).loops with
        st := .issuing, wait := 0, waitArg := 0, nextIssue := s.cyc + 1 } := by
  unfold State.advance
  rw [State.lane_spend, State.lane_updLane_self]
  rfl

@[simp] theorem State.lane_advance_s (s : State) (l : LaneId) (i : IWord) : ((s.advance l i).lane l).s = (s.lane l).s := by
  simp [State.lane_advance]
@[simp] theorem State.lane_advance_p (s : State) (l : LaneId) (i : IWord) : ((s.advance l i).lane l).p = (s.lane l).p := by
  simp [State.lane_advance]
@[simp] theorem State.lane_advance_d (s : State) (l : LaneId) (i : IWord) : ((s.advance l i).lane l).d = (s.lane l).d := by
  simp [State.lane_advance]

/-- Passing an instruction. -/
theorem Passed.advance (s : State) (l : LaneId) (i : IWord) : Passed l i s (s.advance l i) := by
  refine ⟨?_, ?_, ?_, ?_⟩
  · rw [State.lane_advance]; exact ⟨rfl, rfl, rfl⟩
  · rw [State.lane_advance]
  · intro h
    rw [State.lane_advance]
    have := loopTest_straight ({ s.lane l with pc := ((s.lane l).pc + iSize i) % 2 ^ 64 } : Lane)
      (((s.lane l).pc + iSize i - 8) % 2 ^ 64) h
    simp only at this
    rw [this]
    exact ⟨rfl, rfl, rfl⟩
  · rw [State.lane_advance, loopTest_rest]
    exact ⟨rfl, rfl, rfl, rfl, rfl, rfl, rfl, rfl⟩

/-! ## Registers of a lane -/

theorem Lane.sv_setS (x : Lane) (r : Nat) (v : Word) (r' : Nat) : (x.setS r v).sv r' = if r' = r ∧ r ≠ 0 then v else x.sv r' := by
  unfold Lane.setS Lane.sv
  by_cases h : r = 0
  · simp [h]
  · by_cases h' : r' = r
    · simp [h, h']
    · by_cases h0 : r' = 0 <;> simp [h, Ne.symm h, h', h0, nth_put]

theorem Lane.pv_setP (x : Lane) (r : Nat) (v : Bool) (r' : Nat) : (x.setP r v).pv r' = if r' = r ∧ r ≠ 0 then v else x.pv r' := by
  unfold Lane.setP Lane.pv
  by_cases h : r = 0
  · simp [h]
  · by_cases h' : r' = r
    · simp [h, h']
    · by_cases h0 : r' = 0 <;> simp [h, Ne.symm h, h', h0, nth_put]

theorem Lane.dv_setD (x : Lane) (r : Nat) (v : Desc) (r' : Nat) : (x.setD r v).dv r' = if r' = r then v else x.dv r' := nth_put ..

theorem Lane.kv_setK (x : Lane) (r v r' : Nat) : (x.setK r v).kv r' = if r' = r then v % 2 ^ 32 else x.kv r' := nth_put ..

/-! ## Writes of a lane's registers -/

/-- A lane whose registers s, p and d and whose pending results may differ, and nothing else. -/
def RegsOnly (x y : Lane) : Prop := y = { x with s := y.s, p := y.p, d := y.d, ready := y.ready, divFree := y.divFree }

theorem RegsOnly.refl (x : Lane) : RegsOnly x x := rfl

theorem RegsOnly.setS (x : Lane) (r : Nat) (v : Word) : RegsOnly x (x.setS r v) := by
  unfold Lane.setS; split <;> rfl

theorem RegsOnly.setP (x : Lane) (r : Nat) (v : Bool) : RegsOnly x (x.setP r v) := by
  unfold Lane.setP; split <;> rfl

theorem RegsOnly.trans {x y z : Lane} (h : RegsOnly x y) (k : RegsOnly y z) : RegsOnly x z := by
  unfold RegsOnly at *
  rw [k]
  conv => lhs; rw [h]

/-- Passing an instruction after registers were written. -/
theorem Passed.after {s u : State} {l : LaneId} (i : IWord) (hc : u.cyc = s.cyc) (h : RegsOnly (s.lane l) (u.lane l)) :
    Passed l i s (u.advance l i) := by
  have k := Passed.advance u l i
  unfold RegsOnly at h
  refine ⟨k.issuing, ?_, ?_, ?_⟩
  · rw [k.next, hc]
  · intro hs
    have hs' : (u.lane l).straight i := by rw [h]; exact hs
    have := k.straight hs'
    rw [h] at this
    exact this
  · have := k.launch
    rw [h] at this
    exact this

theorem State.lane_writeS (s : State) (l : LaneId) (r : Nat) (v : Word) (lat : Nat) :
    RegsOnly (s.lane l) ((s.writeS l r v lat).lane l) ∧ ((s.writeS l r v lat).lane l).p = (s.lane l).p ∧
      ((s.writeS l r v lat).lane l).d = (s.lane l).d ∧
      ∀ r', ((s.writeS l r v lat).lane l).sv r' = if r' = r ∧ r' ≠ 0 then v else (s.lane l).sv r' := by
  unfold State.writeS
  split
  · rename_i h
    refine ⟨rfl, rfl, rfl, fun r' => ?_⟩
    by_cases hr : r' = 0
    · simp [hr]
    · simp [h, hr]
  · rename_i h
    have hl : (((s.updLane l fun x => x.setS r v).pendReg l (rS r) lat).lane l).s = ((s.lane l).setS r v).s ∧
        RegsOnly (s.lane l) (((s.updLane l fun x => x.setS r v).pendReg l (rS r) lat).lane l) ∧
        (((s.updLane l fun x => x.setS r v).pendReg l (rS r) lat).lane l).p = (s.lane l).p ∧
        (((s.updLane l fun x => x.setS r v).pendReg l (rS r) lat).lane l).d = (s.lane l).d := by
      simp only [State.pendReg, State.lane_updLane_self, Lane.setS, h, if_false]
      exact ⟨trivial, rfl, trivial, trivial⟩
    refine ⟨hl.2.1, hl.2.2.1, hl.2.2.2, fun r' => ?_⟩
    have hsv : ((((s.updLane l fun x => x.setS r v).pendReg l (rS r) lat).lane l).sv r') = ((s.lane l).setS r v).sv r' := by
      unfold Lane.sv; rw [hl.1]
    rw [hsv, Lane.sv_setS]
    by_cases hr : r' = r
    · simp [hr]
    · simp [hr]

theorem OnlyLane.writeS (s : State) (l : LaneId) (r : Nat) (v : Word) (lat : Nat) : OnlyLane l s (s.writeS l r v lat) := by
  unfold State.writeS
  split
  · exact OnlyLane.refl l s
  · exact (OnlyLane.updLane l s _).trans (OnlyLane.updLane l _ _)

@[simp] theorem State.cyc_writeS (s : State) (l : LaneId) (r : Nat) (v : Word) (lat : Nat) : (s.writeS l r v lat).cyc = s.cyc := by
  unfold State.writeS; split <;> rfl

/-- s[fa] written and the instruction passed. -/
theorem State.writeS_advance (s : State) (l : LaneId) (i : IWord) (r : Nat) (v : Word) (lat : Nat) :
    Passed l i s ((s.writeS l r v lat).advance l i) ∧ OnlyLane l s ((s.writeS l r v lat).advance l i) ∧
      SameP l s ((s.writeS l r v lat).advance l i) ∧ SameD l s ((s.writeS l r v lat).advance l i) ∧
      ∀ r', (((s.writeS l r v lat).advance l i).lane l).sv r' = if r' = r ∧ r' ≠ 0 then v else (s.lane l).sv r' := by
  obtain ⟨h1, h2, h3, h4⟩ := State.lane_writeS s l r v lat
  refine ⟨Passed.after i (State.cyc_writeS ..) h1, (OnlyLane.writeS s l r v lat).trans (OnlyLane.advance l i _), ?_, ?_, ?_⟩
  · intro r'; unfold Lane.pv; rw [State.lane_advance_p, h2]
  · intro r'; unfold Lane.dv; rw [State.lane_advance_d, h3]
  · intro r'
    rw [← h4 r']
    unfold Lane.sv; rw [State.lane_advance_s]

theorem State.lane_writeP (s : State) (l : LaneId) (r : Nat) (v : Bool) :
    RegsOnly (s.lane l) ((s.writeP l r v).lane l) ∧ ((s.writeP l r v).lane l).s = (s.lane l).s ∧
      ((s.writeP l r v).lane l).d = (s.lane l).d ∧
      ∀ r', ((s.writeP l r v).lane l).pv r' = if r' = r ∧ r' ≠ 0 then v else (s.lane l).pv r' := by
  unfold State.writeP
  split
  · rename_i h
    refine ⟨rfl, rfl, rfl, fun r' => ?_⟩
    by_cases hr : r' = 0
    · simp [hr]
    · simp [h, hr]
  · rename_i h
    have hl : (((s.updLane l fun x => x.setP r v).pendReg l (rP r) 1).lane l).p = ((s.lane l).setP r v).p ∧
        RegsOnly (s.lane l) (((s.updLane l fun x => x.setP r v).pendReg l (rP r) 1).lane l) ∧
        (((s.updLane l fun x => x.setP r v).pendReg l (rP r) 1).lane l).s = (s.lane l).s ∧
        (((s.updLane l fun x => x.setP r v).pendReg l (rP r) 1).lane l).d = (s.lane l).d := by
      simp only [State.pendReg, State.lane_updLane_self, Lane.setP, h, if_false]
      exact ⟨trivial, rfl, trivial, trivial⟩
    refine ⟨hl.2.1, hl.2.2.1, hl.2.2.2, fun r' => ?_⟩
    have hsv : ((((s.updLane l fun x => x.setP r v).pendReg l (rP r) 1).lane l).pv r') = ((s.lane l).setP r v).pv r' := by
      unfold Lane.pv; rw [hl.1]
    rw [hsv, Lane.pv_setP]
    by_cases hr : r' = r
    · simp [hr]
    · simp [hr]

theorem OnlyLane.writeP (s : State) (l : LaneId) (r : Nat) (v : Bool) : OnlyLane l s (s.writeP l r v) := by
  unfold State.writeP
  split
  · exact OnlyLane.refl l s
  · exact (OnlyLane.updLane l s _).trans (OnlyLane.updLane l _ _)

@[simp] theorem State.cyc_writeP (s : State) (l : LaneId) (r : Nat) (v : Bool) : (s.writeP l r v).cyc = s.cyc := by
  unfold State.writeP; split <;> rfl

/-- p[fa] written and the instruction passed. -/
theorem State.writeP_advance (s : State) (l : LaneId) (i : IWord) (r : Nat) (v : Bool) :
    Passed l i s ((s.writeP l r v).advance l i) ∧ OnlyLane l s ((s.writeP l r v).advance l i) ∧
      SameS l s ((s.writeP l r v).advance l i) ∧ SameD l s ((s.writeP l r v).advance l i) ∧
      ∀ r', (((s.writeP l r v).advance l i).lane l).pv r' = if r' = r ∧ r' ≠ 0 then v else (s.lane l).pv r' := by
  obtain ⟨h1, h2, h3, h4⟩ := State.lane_writeP s l r v
  refine ⟨Passed.after i (State.cyc_writeP ..) h1, (OnlyLane.writeP s l r v).trans (OnlyLane.advance l i _), ?_, ?_, ?_⟩
  · intro r'; unfold Lane.sv; rw [State.lane_advance_s, h2]
  · intro r'; unfold Lane.dv; rw [State.lane_advance_d, h3]
  · intro r'
    rw [← h4 r']
    unfold Lane.pv; rw [State.lane_advance_p]

/-- d[fa] written and the instruction passed. -/
theorem State.writeD_advance (s : State) (l : LaneId) (i : IWord) (r : Nat) (v : Desc) (lat : Nat) :
    Passed l i s ((s.writeD l r v lat).advance l i) ∧ OnlyLane l s ((s.writeD l r v lat).advance l i) ∧
      SameS l s ((s.writeD l r v lat).advance l i) ∧ SameP l s ((s.writeD l r v lat).advance l i) ∧
      ∀ r', (((s.writeD l r v lat).advance l i).lane l).dv r' = if r' = r then v else (s.lane l).dv r' := by
  have hl : (s.writeD l r v lat).lane l = { (s.lane l).setD r v with ready := sparseSet 0 (s.lane l).ready (rD r) (s.cyc + lat) } := by
    simp only [State.writeD, State.pendReg, State.lane_updLane_self]
    rfl
  refine ⟨Passed.after i rfl ?_, ((OnlyLane.updLane l s _).trans (OnlyLane.updLane l _ _)).trans (OnlyLane.advance l i _), ?_, ?_, ?_⟩
  · rw [hl]; rfl
  · intro r'; unfold Lane.sv; rw [State.lane_advance_s, hl]; rfl
  · intro r'; unfold Lane.pv; rw [State.lane_advance_p, hl]; rfl
  · intro r'
    have : (((s.writeD l r v lat).advance l i).lane l).dv r' = ((s.lane l).setD r v).dv r' := by
      unfold Lane.dv; rw [State.lane_advance_d, hl]
    rw [this, Lane.dv_setD]

end Sys2Proof.Machine
end

