-- ==== Sys2Proof/WellFormed.lean ====
section
/-!
DEFINITION. Which commands are well formed: every index an operand carries names one that the largest build has (R1, R457).
A command outside these ranges names nothing the hardware has; exec still answers for it (nothing happens).
-/
namespace Sys2Proof

/-- A lane: 4 clusters, 4 lanes each (R127). -/
def laneOk (l : LaneId) : Bool := decide (l.cl < 4) && decide (l.n < 4)
/-- A context slot (R1). -/
def ctxOk (c : Nat) : Bool := decide (c < 64)
/-- A submission ring (R189). -/
def ringOk (r : Nat) : Bool := decide (r < 4)
/-- A commit-group slot (R33). -/
def slotOk (n : Nat) : Bool := decide (n < 4)
/-- A job slot (R457). -/
def jobSlotOk (n : Nat) : Bool := decide (n < 16)
/-- A tile (R1). -/
def tileOk (t : Nat) : Bool := decide (t < 16)
/-- A book slot of a Maquette (R86). -/
def bookOk (n : Nat) : Bool := decide (n < 16)
/-- A table slot (R119). -/
def tableOk (n : Nat) : Bool := decide (n < 8)
/-- A barrow (R1). -/
def barrowOk (b : Nat) : Bool := decide (b < 24)
/-- A link port (R1). -/
def portOk (p : Nat) : Bool := decide (p < 8)
/-- An attached channel (R1). -/
def chOk (n : Nat) : Bool := decide (n < 16)
/-- A barrier group (R284). -/
def groupOk (g : Nat) : Bool := decide (g < 256)
/-- A bank of a channel (R302). -/
def bankOk (b : Nat) : Bool := decide (b < 16)
/-- A semaphore (R130). -/
def semOk (n : Nat) : Bool := decide (n < 64)
/-- A domain that rests (R371). -/
def domOk : RestDom → Bool
  | .tile t => decide (t < 16)
  | .cluster c => decide (c < 4)
/-- An area that is zeroed (R115): a tile, or whole MiB of a cluster's 16 MiB. -/
def areaOk : ZeroArea → Bool
  | .tile t => decide (t < 16)
  | .range c base size => decide (c < 4) && decide (base + size ≤ 16)
/-- An offset of the 32 MiB register space (R8). -/
def offOk (a : Nat) : Bool := decide (a < 0x2000000)
/-- An offset of the 64 KiB debug window (R454). -/
def dbgOk (a : Nat) : Bool := decide (a < 0x10000)
/-- A PMBus rail (R377). -/
def railOk (r : Nat) : Bool := decide (r < 4)

/-- A head (R269): each field within its bits; one to four slots and up to four data flits. -/
def headOk (h : Head) : Bool :=
  decide (h.dst < 4096) && decide (h.src < 4096) && decide (h.vc < 4) && decide (h.hop < 32) && decide (h.phase < 2) && decide (h.job < 65536) &&
    decide (1 ≤ h.slots) && decide (h.slots ≤ 4) && decide (h.dataFlits ≤ 4) && decide (h.msgs.length ≤ h.slots)

/-- Is the command well formed? -/
def wellFormed : Instr → Bool
  | .regWr addr _ _ => offOk addr
  | .bellNowRead _ => true
  | .ppsEdge _ _ _ => true
  | .ppsMissing => true
  | .timeExchange => true
  | .timeReq _ => true
  | .timeResp _ => true
  | .linkTimeLost => true
  | .holdoverLimit => true
  | .cgOpen slot _ _ => slotOk slot
  | .cgArm slot _ _ => slotOk slot
  | .cgMemberAck slot _ => slotOk slot
  | .cgDeadline slot => slotOk slot
  | .cgApply slot => slotOk slot
  | .cgCancel slot _ _ => slotOk slot
  | .cgStaged _ => true
  | .cgRefused _ => true
  | .cgCommit _ => true
  | .cgAbort _ => true
  | .verdictLost slot => slotOk slot
  | .armMode l _ => laneOk l
  | .armLoad l _ => laneOk l
  | .armStream l _ => laneOk l
  | .armDrain l _ => laneOk l
  | .rowQuadEntry tile => tileOk tile
  | .rowQuadResult tile => tileOk tile
  | .armShadowLoad tile => tileOk tile
  | .gapStart tile => tileOk tile
  | .fillerLimitExpiry tile => tileOk tile
  | .tileClearDone tile => tileOk tile
  | .bookWriteValidate tile book => tileOk tile && bookOk book
  | .tableWriteValidate tile table => tileOk tile && tableOk table
  | .calibrationEvent l => laneOk l
  | .leaseZeroDone area => areaOk area
  | .laneLaunchStart l => laneOk l
  | .instructionFetch l _ => laneOk l
  | .addI l _ => laneOk l
  | .subI l _ => laneOk l
  | .mulI l _ => laneOk l
  | .mulh l _ => laneOk l
  | .mulhu l _ => laneOk l
  | .divu l _ => laneOk l
  | .remu l _ => laneOk l
  | .andI l _ => laneOk l
  | .orI l _ => laneOk l
  | .xorI l _ => laneOk l
  | .shl l _ => laneOk l
  | .shr l _ => laneOk l
  | .sra l _ => laneOk l
  | .minI l _ => laneOk l
  | .maxI l _ => laneOk l
  | .minu l _ => laneOk l
  | .maxu l _ => laneOk l
  | .cmpEq l _ => laneOk l
  | .cmpNe l _ => laneOk l
  | .cmpLt l _ => laneOk l
  | .cmpLe l _ => laneOk l
  | .cmpGt l _ => laneOk l
  | .cmpGe l _ => laneOk l
  | .cmpLtu l _ => laneOk l
  | .cmpLeu l _ => laneOk l
  | .cmpGtu l _ => laneOk l
  | .cmpGeu l _ => laneOk l
  | .selI l _ => laneOk l
  | .pand l _ => laneOk l
  | .por l _ => laneOk l
  | .pxor l _ => laneOk l
  | .pandn l _ => laneOk l
  | .br l _ => laneOk l
  | .call l _ => laneOk l
  | .jr l _ => laneOk l
  | .jalr l _ => laneOk l
  | .loopI l _ => laneOk l
  | .krd l _ => laneOk l
  | .ldB l _ => laneOk l
  | .ldBs l _ => laneOk l
  | .ldH l _ => laneOk l
  | .ldHs l _ => laneOk l
  | .ldW l _ => laneOk l
  | .ldWs l _ => laneOk l
  | .ldD l _ => laneOk l
  | .stB l _ => laneOk l
  | .stH l _ => laneOk l
  | .stW l _ => laneOk l
  | .stD l _ => laneOk l
  | .ldcW l _ => laneOk l
  | .ldcWs l _ => laneOk l
  | .ldcD l _ => laneOk l
  | .dld l _ => laneOk l
  | .dst l _ => laneOk l
  | .dldc l _ => laneOk l
  | .dmov l _ => laneOk l
  | .dadv l _ => laneOk l
  | .dclip l _ => laneOk l
  | .dset l _ => laneOk l
  | .dget l _ => laneOk l
  | .nop l _ => laneOk l
  | .endI l _ => laneOk l
  | .endRetire l => laneOk l
  | .trap l _ => laneOk l
  | .operationStart _ => true
  | .operationComplete _ => true
  | .vecAdd l _ => laneOk l
  | .vecSub l _ => laneOk l
  | .vecMul l _ => laneOk l
  | .vecFma l _ => laneOk l
  | .vecMin l _ => laneOk l
  | .vecMax l _ => laneOk l
  | .vecCmp l _ => laneOk l
  | .vecSel l _ => laneOk l
  | .vecCvt l _ => laneOk l
  | .vecSum l _ => laneOk l
  | .vecRqi l _ => laneOk l
  | .vecRqf l _ => laneOk l
  | .vecQmx l _ => laneOk l
  | .vecSctag l _ => laneOk l
  | .vecCbenc l _ => laneOk l
  | .vecTab l _ => laneOk l
  | .vecPoolmax l _ => laneOk l
  | .vecPoolsum l _ => laneOk l
  | .vecArgmax l _ => laneOk l
  | .vecArgmin l _ => laneOk l
  | .vecTopk l _ => laneOk l
  | .vecBoxdec l _ => laneOk l
  | .vecDot l _ => laneOk l
  | .vecSqdist l _ => laneOk l
  | .vecIou l _ => laneOk l
  | .barMove l _ => laneOk l
  | .barCrop l _ => laneOk l
  | .barReduce l _ => laneOk l
  | .barDigest l _ => laneOk l
  | .sig l _ => laneOk l
  | .waitI l _ => laneOk l
  | .waitRelease c sem => ctxOk c && semOk sem
  | .fence l _ => laneOk l
  | .barrier l _ => laneOk l
  | .barrierRelease group => groupOk group
  | .twait l _ => laneOk l
  | .twaitC l _ => laneOk l
  | .timeWaitRelease _ => true
  | .tslot l _ => laneOk l
  | .pace l _ => laneOk l
  | .ctxDoorbell c _ _ => ctxOk c
  | .ringScan c ring => ctxOk c && ringOk ring
  | .recordFetch c ring _ => ctxOk c && ringOk ring
  | .recordFetchFault c ring => ctxOk c && ringOk ring
  | .notBeforeRelease c ring => ctxOk c && ringOk ring
  | .dispatch d => ctxOk d.ctx
  | .endReport c r => ctxOk c && r.member.all fun k => decide (k.1 < 8)
  | .exceptionReport c r => ctxOk c && r.member.all fun k => decide (k.1 < 8)
  | .ctxAbort c _ _ => ctxOk c
  | .ctxKabort c _ _ => ctxOk c
  | .abortRequestArrive c _ => ctxOk c
  | .completionRecordWrite c => ctxOk c
  | .completionWriteFault c => ctxOk c
  | .ctxCqHeadWrite c _ _ => ctxOk c
  | .ringEnable c ring _ _ => ctxOk c && ringOk ring
  | .cqEnable c _ _ => ctxOk c
  | .undelAck c _ _ => ctxOk c
  | .watchSample => true
  | .descriptorQueue _ => true
  | .frameTranslated barrow _ _ => barrowOk barrow
  | .barrowOpStart barrow => barrowOk barrow
  | .segmentIssue barrow => barrowOk barrow
  | .budgetGrant => true
  | .segmentComplete barrow _ _ => barrowOk barrow
  | .barrowReplay barrow => barrowOk barrow
  | .atsTcpl _ _ _ => true
  | .hwWalk _ _ => true
  | .prgRsp _ _ => true
  | .priTimeout _ => true
  | .atsInv _ _ _ _ => true
  | .engineInvalAck _ _ => true
  | .invalAbandon _ _ => true
  | .drainInvalidate _ _ => true
  | .portEnable port _ _ => portOk port
  | .portUp port => portOk port
  | .linkReplay port => portOk port
  | .headArrive port h => portOk port && headOk h
  | .fabWrite _ => true
  | .fabReduce _ => true
  | .fabRead _ => true
  | .fabAck _ => true
  | .fabData _ => true
  | .fabRefuse _ => true
  | .fabError _ => true
  | .linkRequestTimeout _ => true
  | .creditStall port => portOk port
  | .arrive _ => true
  | .confirm _ => true
  | .missing _ => true
  | .straggler _ => true
  | .missingTimer group => groupOk group
  | .stragglerSilence group => groupOk group
  | .keyPhaseExpire slot => jobSlotOk slot
  | .mgmt _ => true
  | .mgmtReassemblyTimeout _ _ => true
  | .memCommandSlot ch => chOk ch
  | .memReadReturn ch _ _ => chOk ch
  | .refreshDue ch bank => chOk ch && bankOk bank
  | .mr4Poll ch _ _ => chOk ch
  | .channelTrained ch => chOk ch
  | .trainTimeout ch => chOk ch
  | .phyUpdate ch => chOk ch
  | .qosSlotBoundary => true
  | .memClear _ _ => true
  | .memClearDone => true
  | .memEnable _ _ => true
  | .memHpaWrite _ _ => true
  | .memInject _ _ => true
  | .sweepPage ch _ => chOk ch
  | .keySlotZero => true
  | .ctxCreate c _ _ => ctxOk c
  | .ctxResume c _ _ => ctxOk c
  | .ctxStop c _ _ => ctxOk c
  | .ctxReset c _ _ => ctxOk c
  | .ctxDestroy c _ _ => ctxOk c
  | .awningAck c _ => ctxOk c
  | .sampleDone c => ctxOk c
  | .sampleTimeout c => ctxOk c
  | .genClean c => ctxOk c
  | .contextResetComplete c => ctxOk c
  | .modTimer c => ctxOk c
  | .ctxAttnClear c _ _ => ctxOk c
  | .ctxIrqLineWrite c _ _ => ctxOk c
  | .errInject _ _ => true
  | .errLogConsumedWrite _ _ => true
  | .errBresetGo _ _ => true
  | .blockResetReady => true
  | .pmbusPoll rail _ => railOk rail
  | .voltageSettled => true
  | .pllLocked => true
  | .droopWarning tile _ => tileOk tile
  | .droopRelease => true
  | .capControl => true
  | .tempSample _ => true
  | .thermalCeilingStep => true
  | .alertAssert => true
  | .alertStatusRead _ => true
  | .alertCeilingStep => true
  | .ledgerWindow => true
  | .restEntry dom => domOk dom
  | .restWake dom => domOk dom
  | .wakeReady dom => domOk dom
  | .pwrCapWrite _ _ => true
  | .forceAlert _ _ => true
  | .forceDroop _ _ => true
  | .insWatchdogExpiry => true
  | .romSelfCheck _ => true
  | .echo _ => true
  | .regWrite _ => true
  | .regRead _ => true
  | .cgRun _ => true
  | .jobKeyLoad _ => true
  | .jobKeyErase _ => true
  | .memKeyRotate _ => true
  | .blockReset _ => true
  | .getVersion _ => true
  | .getCapabilities _ => true
  | .negotiateAlgorithms _ => true
  | .getDigests _ => true
  | .getCertificate _ => true
  | .challenge _ => true
  | .getMeasurements _ => true
  | .keyExchange _ => true
  | .finish _ => true
  | .keyUpdate _ => true
  | .heartbeat _ => true
  | .endSession _ => true
  | .insCtrlLock _ _ => true
  | .debugRead off => dbgOk off
  | .debugWrite off _ => dbgOk off
  | .cpl _ _ _ => true
  | .bmeChange _ => true
  | .flr => true
  | .linkDown => true
  | .hostportRelease _ _ => true
  | .powerOnReset => true
  | .startUp _ => true
  | .gangReadyTimeout => true
  | .wsBypass => true
  | .wsExtest => true
  | .wsIntest => true
  | .wsSafe => true
  | .wpScan => true
  | .tzSelftest _ => true
  | .testModeEntry => true
  | .restEntryComplete dom => domOk dom
  | .alertRelease => true
  | .inspectorRestartDone => true
  | .endpointFatal => true
  | .linkDownClear => true
  | .linkRateToken c => ctxOk c
  | .alignedGuardTick _ => true

end Sys2Proof
end

