-- ==== Sys2Proof/Tests/Slice0.lean ====
section
/-!
SUPPORT. Tests of the model: ill-formed commands refused, small one-step tests from the spec's own numbers, and, for every statement of
Certificates/Slice0/Obligations.lean that has hypotheses, a concrete state and operands that meet them (theorems named witness_<statement>).
-/
namespace Sys2Proof.Tests

open Sys2Proof Sys2Proof.Machine

set_option maxRecDepth 20000
set_option Elab.async false

/-! ## Small states -/

/-- A TZI 3 word by its fields (R132). -/
def tw (cls op fa ra rb imm : Nat) : IWord :=
  ⟨word (cls * 2 ^ 58 + op * 2 ^ 52 + fa * 2 ^ 42 + ra * 2 ^ 37 + rb * 2 ^ 32 + imm), 0⟩

/-- A word of a class by the bits of its layout. -/
def tl (cls op low : Nat) : IWord := ⟨word (cls * 2 ^ 58 + op * 2 ^ 52 + low), 0⟩

/-- A descriptor with element stride 1 (R143). -/
def tdesc (base fmt e0 e1 e2 s1 s2 : Nat) : Desc :=
  BitVec.ofNat 256 (base + (e0 - 1) * 2 ^ 64 + (e1 - 1) * 2 ^ 88 + (e2 - 1) * 2 ^ 104 + 2 ^ 120 + s1 * 2 ^ 144 + fmt * 2 ^ 182 + s2 * 2 ^ 192)

/-- A launch of context 0, running on cluster 0. -/
def tlaunch : Launch :=
  { (default : Launch) with ring := 0, seq := 7, gen := 1, entry := 64, consts := List.replicate 192 3, stage := .running, dispatched := true,
                            clusters := [0], events := List.replicate 13 0, work := List.replicate 6 0 }

/-- Power is good, start-up READY; context 0 is ACTIVE on tiles 0 to 3 with 2 MiB of cluster 0's scratch. -/
def base : State :=
  let s : State := State.reset
  let s : State := { s with pins := { s.pins with pwrGood := true, regsReady := true, bme := true },
                            tiles := (List.range 16).map fun t => { nth s.tiles t with lease := if t < 4 then some 0 else none },
                            cycAcc := 120000, up := 4000000 }
  let s : State := s.setReg Reg.insBoot 6
  let s : State := s.setReg (Reg.ctxLeaseCs 0) 0x20
  s.updCtx 0 fun c => { c with st := .active, gen := 1, launches := [tlaunch] }

def l0 : LaneId := ⟨0, 0⟩

/-- The lane that runs the launch, at pc 64. -/
def tlane : Lane := { Lane.reset with st := .issuing, ctx := 0, gen := 1, seq := 7, pc := 64, s4 := 4, consts := List.replicate 192 3 }

/-- The bytes of a word, least significant first. -/
def tbytes (w : Nat) (n : Nat) : List Byte := (List.range n).map fun k => BitVec.ofNat 8 (w / 256 ^ k)

/-- The instruction stands at the pc of lane 0 of cluster 0, and `f` sets what else the lane holds. -/
def onLane (i : IWord) (f : Lane → Lane) : State :=
  let s : State := base.updLane l0 fun _ => f tlane
  s.updCluster 0 fun c => { c with icache := [⟨64, 0, 1, tbytes i.w.toNat 8 ++ tbytes i.imm64.toNat 8 ++ List.replicate 48 0⟩] }

/-- Scalar register r of the lane. -/
def sreg (r : Nat) (v : Word) (x : Lane) : Lane := x.setS r v
/-- Descriptor register r of the lane. -/
def dreg (r : Nat) (v : Desc) (x : Lane) : Lane := x.setD r v

/-- Whether an instruction issues with its own effect, as a test. -/
def issuesB (s : State) (l : LaneId) (i : IWord) (cls op : Nat) (regs : List Nat) : Bool :=
  s.laneOpen l && s.inject.isNone && (s.lane l).pc % 8 == 0 && s.codeIs l i && iCls i == cls && iOp i == op && legal i &&
    s.regReady l (rP (iGp i)) && s.guard l i && regs.all (s.regReady l)

theorem issues_iff (s : State) (l : LaneId) (i : IWord) (cls op : Nat) (regs : List Nat) :
    s.Issues l i cls op regs ↔ issuesB s l i cls op regs = true := by
  constructor
  · rintro ⟨h1, h2, h3, h4, h5, h6, h7, h8, h9, h10⟩
    simp_all [issuesB]
  · intro h
    simp only [issuesB, Bool.and_eq_true, beq_iff_eq, Option.isNone_iff_eq_none, List.all_eq_true] at h
    obtain ⟨⟨⟨⟨⟨⟨⟨⟨⟨h1, h2⟩, h3⟩, h4⟩, h5⟩, h6⟩, h7⟩, h8⟩, h9⟩, h10⟩ := h
    exact ⟨h1, h2, h3, h4, h5, h6, h7, h8, h9, h10⟩

/-- Whether the registers take accesses, as a test. -/
def acceptsB (s : State) : Bool :=
  s.live && !s.pins.frozen && s.fld Reg.insBoot 3 0 == 6 && s.breset.isNone && s.inject.isNone && decide (s.gangM < s.gangN)

theorem accepts_iff (s : State) : s.Accepts ↔ acceptsB s = true := by
  constructor
  · rintro ⟨h1, h2, h3, h4, h5, h6⟩
    simp_all [acceptsB]
  · intro h
    simp only [acceptsB, Bool.and_eq_true, beq_iff_eq, Option.isNone_iff_eq_none, Bool.not_eq_true', decide_eq_true_eq] at h
    obtain ⟨⟨⟨⟨⟨h1, h2⟩, h3⟩, h4⟩, h5⟩, h6⟩ := h
    exact ⟨h1, h2, h3, h4, h5, h6⟩

/-- Whether the Inspector has nothing in hand and nothing waiting, as a test. -/
def quietB (s : State) : Bool := !s.cmdBusy && s.insp.door.isNone && s.insp.messages.all fun m => m.kind != 1

theorem quiet_iff (s : State) : s.InspectorQuiet ↔ quietB s = true := by
  constructor
  · rintro ⟨h1, h2, h3⟩
    simp_all [quietB]
  · intro h
    simp only [quietB, Bool.and_eq_true, Bool.not_eq_true', Option.isNone_iff_eq_none, List.all_eq_true, bne_iff_ne] at h
    obtain ⟨⟨h1, h2⟩, h3⟩ := h
    exact ⟨h1, h2, h3⟩

/-- Whether a context's pages take writes, as a test. -/
def pageOpenB (s : State) (c : Nat) : Bool :=
  decide (c < s.straps.contexts) && (s.ctx c).st != .free && (s.ctx c).st != .teardown && (s.ctx c).rst.isNone

theorem pageOpen_iff (s : State) (c : Nat) : s.PageOpen c ↔ pageOpenB s c = true := by
  constructor
  · rintro ⟨h1, h2, h3, h4⟩
    simp_all [pageOpenB]
  · intro h
    simp only [pageOpenB, Bool.and_eq_true, bne_iff_ne, Option.isNone_iff_eq_none, decide_eq_true_eq] at h
    obtain ⟨⟨⟨h1, h2⟩, h3⟩, h4⟩ := h
    exact ⟨h1, h2, h3, h4⟩

/-- Whether there is room for operations, as a test. -/
def roomB (s : State) (l : LaneId) (os : List Op) : Bool :=
  os.all (fun o => decide (s.queueLen o.unit l < 8)) && decide ((s.laneOps l).length + os.length ≤ 64)

theorem room_iff (s : State) (l : LaneId) (os : List Op) : Room s l os ↔ roomB s l os = true := by
  simp [Room, roomB]

/-- Whether a lane runs a launch that is not decided and no operation stands in a unit, as a test. -/
def aloneB (s : State) (l : LaneId) : Bool :=
  s.ops.isEmpty && (match (s.ctx (s.lane l).ctx).launch? (s.lane l).seq with | some x => x.decision.isNone | none => false)

theorem alone_iff (s : State) (l : LaneId) : s.RunsAlone l ↔ aloneB s l = true := by
  unfold State.RunsAlone aloneB
  cases (s.ctx (s.lane l).ctx).launch? (s.lane l).seq <;> simp

/-- An exception-valued computation answers, with an answer for which `p` holds. -/
def okAnd {α : Type} (x : Except Nat α) (p : α → Bool) : Bool :=
  match x with
  | .ok a => p a
  | .error _ => false

theorem okAnd_iff {α : Type} (x : Except Nat α) (p : α → Bool) : okAnd x p = true ↔ ∃ a, x = .ok a ∧ p a = true := by
  cases x with
  | error e => simp [okAnd]
  | ok a => exact ⟨fun h => ⟨a, rfl, h⟩, fun ⟨b, h, k⟩ => by cases h; exact k⟩

/-! ## Scalar instructions -/

theorem witness_AluResult : ∀ p ∈ aluTable,
    let i := tw 1 p.1 31 1 2 0x80000000
    let s := onLane i (sreg 1 7 ∘ sreg 2 (2 ^ 63))
    s.Issues l0 i 1 p.1 (formRegs i) ∧ (s.lane l0).divFree ≤ s.cyc := by
  simp only [issues_iff]; decide +kernel

theorem witness_CompareResult : ∀ p ∈ cmpTable, ∀ fa ∈ [0, 7],
    let i := tw 2 p.1 fa 1 2 0
    (onLane i (sreg 1 (2 ^ 63) ∘ sreg 2 7)).Issues l0 i 2 p.1 (formRegs i) := by
  simp only [issues_iff]; decide +kernel

theorem witness_PredicateAndSelect :
    (∀ p ∈ predTable, ∀ fa ∈ [0, 7], let i := tw 2 p.1 fa 0 3 0; (onLane i id).Issues l0 i 2 p.1 (formRegs i)) ∧
    (∀ fa ∈ [0, 31], let i := tw 2 0x0A fa 1 2 7; (onLane i id).Issues l0 i 2 0x0A (rP ((iVal i).toNat % 8) :: formRegs i)) := by
  simp only [issues_iff]; decide +kernel

theorem witness_BranchTaken : ∀ p ∈ branchTable,
    let i := tw 3 p.1 (if p.2.2.2 then 31 else 0) (if p.1 < 2 then 0 else 1) 0 16
    let s := onLane i (sreg 1 1024)
    s.Issues l0 i 3 p.1 (formRegs i) ∧ (∀ e ∈ (s.lane l0).loops, e.last ≠ (s.lane l0).pc) ∧ (p.2.2.1 (s.lane l0) i).toNat % 8 = 0 := by
  simp only [issues_iff]; decide +kernel

theorem witness_BranchTaken_raises :
    (∀ p ∈ branchTable,
      let i := tw 3 p.1 (if p.2.2.2 then 31 else 0) (if p.1 < 2 then 0 else 1) 0 16
      let s := onLane i (fun x => { sreg 1 1024 x with loops := [⟨0, 72, 80⟩, ⟨1, 8, 64⟩] })
      s.Issues l0 i 3 p.1 (formRegs i) ∧ s.RunsAlone l0 ∧ ∃ e ∈ (s.lane l0).loops, e.last = (s.lane l0).pc) ∧
    (∀ p ∈ branchTable, 2 ≤ p.1 →
      let i := tw 3 p.1 (if p.2.2.2 then 31 else 0) 1 0 16
      let s := onLane i (sreg 1 1028)
      s.Issues l0 i 3 p.1 (formRegs i) ∧ s.RunsAlone l0 ∧ (∀ e ∈ (s.lane l0).loops, e.last ≠ (s.lane l0).pc) ∧
        (p.2.2.1 (s.lane l0) i).toNat % 8 ≠ 0) := by
  simp only [issues_iff, alone_iff]; decide +kernel

theorem witness_LoopsRun :
    (let i := tw 4 0 3 1 0 (1 + 0xFFFF * 2 ^ 16)
     let s := onLane i (fun x => { sreg 1 5 x with loops := [⟨0, 64, 72⟩, ⟨1, 0, 80⟩, ⟨2, 0, 88⟩] })
     s.Issues l0 i 4 0 (formRegs i) ∧ (∀ e ∈ (s.lane l0).loops, e.last ≠ (s.lane l0).pc ∧ e.k ≠ iFa i) ∧ (s.lane l0).loops.length < 4 ∧
       0 < ((s.lane l0).sv (iRa i)).toNat + iImm i / 2 ^ 16 ∧ ((s.lane l0).sv (iRa i)).toNat + iImm i / 2 ^ 16 < 2 ^ 32 ∧
       0 < iImm i % 2 ^ 16 ∧ ∀ e ∈ (s.lane l0).loops.head?, (s.lane l0).pc + 8 * (iImm i % 2 ^ 16) ≤ e.last) ∧
    (∀ n ∈ [1, 2, 2 ^ 32 - 1],
     let i := tw 0xD 0 0 0 0 0
     let e : LoopEnt := ⟨3, 8, 64⟩
     let s := onLane i (fun x => { x.setK 3 n with loops := [e] })
     s.Issues l0 i 0xD 0 [] ∧ (s.lane l0).loops = [e] ∧ e.last = (s.lane l0).pc ∧ (s.lane l0).pc < 2 ^ 64 - 8 ∧ 0 < (s.lane l0).kv e.k ∧
       (s.lane l0).kv e.k = n) := by
  simp only [issues_iff]; decide +kernel

theorem witness_LoopsRun_none :
    let i := tw 4 0 3 0 0 2
    let s := onLane i (fun x => { x with loops := [⟨0, 64, 80⟩] })
    s.Issues l0 i 4 0 (formRegs i) ∧ (∀ e ∈ (s.lane l0).loops, e.last ≠ (s.lane l0).pc ∧ e.k ≠ iFa i) ∧ (s.lane l0).loops.length < 4 ∧
      (s.lane l0).sv (iRa i) = 0 ∧ iImm i < 2 ^ 16 ∧ 0 < iImm i ∧ ∀ e ∈ (s.lane l0).loops.head?, (s.lane l0).pc + 8 * iImm i ≤ e.last := by
  simp only [issues_iff]; decide +kernel

theorem witness_LoopsRun_raises : ∀ c ∈ ([(2 ^ 32 - 1, []), (2 ^ 64 - 2, []), (5, [⟨0, 0, 88⟩, ⟨1, 0, 88⟩, ⟨2, 0, 88⟩, ⟨4, 0, 88⟩]), (5, [⟨3, 0, 88⟩]),
      (5, [⟨0, 72, 80⟩, ⟨1, 8, 64⟩]), (5, [⟨0, 0, 72⟩])] : List (Nat × List LoopEnt)),
    let i := tw 4 0 3 1 0 (2 + 2 ^ 16)
    let s := onLane i (fun x => { sreg 1 (word c.1) x with loops := c.2 })
    s.Issues l0 i 4 0 (formRegs i) ∧ s.RunsAlone l0 ∧
      ((2 ^ 32 ≤ ((s.lane l0).sv (iRa i)).toNat + iImm i / 2 ^ 16 ∧ ((s.lane l0).sv (iRa i)).toNat + iImm i / 2 ^ 16 < 2 ^ 64) ∨
        4 ≤ (s.lane l0).loops.length ∨ (∃ e ∈ (s.lane l0).loops, e.k = iFa i ∨ e.last = (s.lane l0).pc) ∨
        (∃ e ∈ (s.lane l0).loops.head?, e.last < (s.lane l0).pc + 8 * (iImm i % 2 ^ 16))) := by
  simp only [issues_iff, alone_iff]; decide +kernel

theorem witness_ControlInstructions :
    (let i := tw 0xD 0 0 0 0 0; (onLane i id).Issues l0 i 0xD 0 []) ∧
    (let i := tw 4 1 31 0 3 0; (onLane i id).Issues l0 i 4 1 (formRegs i)) ∧
    (let i := tw 0xD 1 0 0 0 0; (onLane i id).Issues l0 i 0xD 1 []) := by
  simp only [issues_iff]; decide +kernel

theorem witness_TrapAndIllegalRaise :
    (let i := tw 0xD 2 0 0 0 0xFFFF
     let s := onLane i id
     s.Issues l0 i 0xD 2 [] ∧ s.RunsAlone l0) ∧
    (∀ p ∈ aluTable,
     let i : IWord := ⟨word (2 ^ 58 + p.1 * 2 ^ 52 + 2 ^ 47 + 1), 5⟩
     let s := onLane i id
     s.laneOpen l0 = true ∧ s.inject = none ∧ (s.lane l0).pc % 8 = 0 ∧ s.codeIs l0 i = true ∧ iCls i = 1 ∧ iOp i = p.1 ∧ legal i = false ∧
       s.RunsAlone l0) := by
  simp only [issues_iff, alone_iff]; decide +kernel

theorem witness_IssueHolds :
    (∀ p ∈ [(1, 0), (5, 6), (3, 1), (0xD, 1)],
     let i : IWord := ⟨word (p.1 * 2 ^ 58 + p.2 * 2 ^ 52 + 7 * 2 ^ 48), 0⟩
     let s := onLane i id
     s.laneOpen l0 = true ∧ s.inject = none ∧ (s.lane l0).pc % 8 = 0 ∧ s.codeIs l0 i = true ∧ iCls i = p.1 ∧ iOp i = p.2 ∧ legal i = true ∧
       s.regReady l0 (rP (iGp i)) = true ∧ s.guard l0 i = false) ∧
    (∀ p ∈ aluTable,
     let i := tw 1 p.1 31 1 2 0
     let s := onLane i (fun x => { x with ready := [(31, 1001)] })
     s.laneOpen l0 = true ∧ s.inject = none ∧ (s.lane l0).pc % 8 = 0 ∧ s.codeIs l0 i = true ∧ iCls i = 1 ∧ iOp i = p.1 ∧ legal i = true ∧
       s.regReady l0 (rP (iGp i)) = true ∧ s.guard l0 i = true ∧ ∃ r ∈ formRegs i, s.regReady l0 r = false) := by
  decide +kernel

/-! ## Loads, stores, constants and descriptors -/

/-- Bank, tag and offset of an address in the lane's own cluster scratch (R106). -/
def cvaddr (off : Nat) : Nat := 3 * 2 ^ 60 + 0x4000000 + off

theorem witness_PortInstructionsIssue :
    (∀ p ∈ loadTable, ∀ fa ∈ [0, 31],
      let i := tw 5 p.1 fa 1 0 0
      let s := onLane i (sreg 1 (word (cvaddr (0x200000 - p.2.2))))
      let v := ((s.lane l0).sv (iRa i) + iVal i).toNat
      s.Issues l0 i 5 p.1 (formRegs i) ∧ reaches s l0 v p.2.2 ∧ Room s l0 [s.newOp l0 i .port]) ∧
    (∀ p ∈ storeTable,
      let i := tw 5 p.1 2 1 0 0
      let s := onLane i (sreg 1 (word (cvaddr 0)))
      let v := ((s.lane l0).sv (iRa i) + iVal i).toNat
      s.Issues l0 i 5 p.1 (formRegs i) ∧ reaches s l0 v p.2.2 ∧ Room s l0 [s.newOp l0 i .port]) ∧
    (∀ op ∈ [0, 1],
      let i := tw 7 op 15 1 0 0
      let s := onLane i (sreg 1 (word (cvaddr 0x1FFFE0)))
      let v := ((s.lane l0).sv (iRa i) + iVal i).toNat
      s.Issues l0 i 7 op (formRegs i) ∧ reaches s l0 v 32 ∧ Room s l0 [s.newOp l0 i .port]) := by
  simp only [issues_iff, reaches, room_iff]; decide +kernel

/-- One operation stands in the block. -/
def withOp (s : State) (o : Op) : State := { s with ops := [o], nextOp := o.id + 1 }

theorem witness_StoresAndLoads :
    (let i := tw 5 8 2 1 0 0
     let o : Op := { (onLane i id).newOp l0 i .port with st := .running, startCyc := 988, pendBytes := [(0x4000000, 0xAB)], total := 1 }
     let s := withOp (onLane i id) o
     s.op? 0 = some o ∧ o.st = .running ∧ o.unit = .port ∧ o.startCyc + 12 ≤ s.cyc ∧ 0 < [(0xAB : Byte)].length ∧
       o.pendBytes = (List.range 1).map (fun k => (0x4000000 + k, [(0xAB : Byte)].getD k 0))) ∧
    (∀ r ∈ [1, 31], ∀ n ∈ [1, 8],
     let i := tw 5 6 r 1 0 0
     let o : Op := { (onLane i id).newOp l0 i .port with st := .running, startCyc := 988, dst := some r, tick := 0x4000000, total := n }
     let s := withOp (onLane i id) o
     s.op? 0 = some o ∧ o.st = .running ∧ o.unit = .port ∧ s.inject = none ∧ o.startCyc + 12 ≤ s.cyc ∧ o.pendBytes = [] ∧ o.dst = some r ∧
       0 < r ∧ r < 32 ∧ 0 < o.total ∧ o.total ≤ 8) := by
  decide +kernel

/-- The values at the ends of each field's range. -/
def fieldEnds : List (Nat × Word) :=
  [(0, 0), (0, 0xFFFFFFFFFFFFFFFF), (1, 1), (1, 2 ^ 24), (2, 1), (3, 65536), (4, 65536), (5, 1), (5, 255), (6, BitVec.ofInt 64 (-(2 ^ 29))),
   (7, BitVec.ofInt 64 (2 ^ 29 - 1)), (8, -1), (9, 31), (10, 15), (11, 31), (12, 255)]

theorem witness_ConstantsAndDescriptors :
    (∀ p ∈ [(0, 4), (1, 4), (2, 8)],
      let i := tw 6 p.1 31 1 0 0
      let s := onLane i (sreg 1 (word (192 - p.2)))
      let a := ((s.lane l0).sv (iRa i) + iVal i).toNat
      s.Issues l0 i 6 p.1 (formRegs i) ∧ a % p.2 = 0 ∧ a + p.2 ≤ 192) ∧
    (let i := tw 7 2 15 1 0 0
     let s := onLane i (sreg 1 160)
     let a := ((s.lane l0).sv (iRa i) + iVal i).toNat
     s.Issues l0 i 7 2 (formRegs i) ∧ a % 8 = 0 ∧ a ≤ 160) ∧
    (let i := tw 7 3 15 0 14 0; (onLane i id).Issues l0 i 7 3 (formRegs i)) ∧
    (∀ f ∈ List.range 13, let i := tw 7 (0x20 + f) 31 0 15 0; (onLane i id).Issues l0 i 7 (0x20 + f) (formRegs i)) ∧
    (let i := tw 7 5 15 1 0 3
     let s := onLane i (sreg 1 2)
     s.Issues l0 i 7 5 (formRegs i) ∧ (s.lane l0).sv (iRa i) ≠ 0) ∧
    (∀ x ∈ [1, 2, 3], let i := tw 7 4 15 1 0 x; (onLane i (sreg 1 (-1))).Issues l0 i 7 4 (formRegs i) ∧ iImm i % 4 ≠ 0) ∧
    (let i := tw 7 4 15 1 0 0
     let s := onLane i (sreg 1 4 ∘ dreg 15 (tdesc (cvaddr 0) 2 64 1 1 0 0))
     let n := ((s.lane l0).sv (iRa i)).toNat * dStr0 ((s.lane l0).dv (iFa i)) * 4
     s.Issues l0 i 7 4 (formRegs i) ∧ iImm i % 4 = 0 ∧ fmtBits (dFmt ((s.lane l0).dv (iFa i))) = some 4 ∧ n % 8 = 0) := by
  refine ⟨?_, ?_, ?_, ?_, ?_, ?_, ?_⟩ <;> simp only [issues_iff] <;> decide +kernel

theorem witness_ConstantsAndDescriptors_dset : ∀ p ∈ fieldEnds,
    let i := tw 7 (0x10 + p.1) 15 1 0 0
    let s := onLane i (sreg 1 p.2)
    s.Issues l0 i 7 (0x10 + p.1) (formRegs i) ∧ p.1 ≤ 12 ∧ fieldFits p.1 ((s.lane l0).sv (iRa i) + iVal i) := by
  intro p hp
  fin_cases hp <;> simp only [issues_iff, fieldFits] <;> decide +kernel

/-! ## Instructions that become operations -/

/-- Group 3 stands bound in mode 2 to job slot 0, which is LIVE and serves context 0. -/
def boundGroup (s : State) : State :=
  let s : State := s.setReg (Reg.fabJobCfg 0) (word (2 ^ 63 + 0x25))
  let s : State := s.setReg (Reg.fabJobStatus 0) 0x100
  s.setReg (Reg.fabBarCfg 3) (word (2 * 2 ^ 32 + 100 * 2 ^ 40))

theorem witness_SyncAndTimeIssue :
    (∀ op ∈ [0, 1],
      let i := tl 0xB op (63 * 2 ^ 41 + 1 * 2 ^ 35 + 5)
      let s := onLane i (sreg 1 0xFFFFFFFF)
      s.Issues l0 i 0xB op [rS (sRa i)] ∧ Room s l0 [s.newOp l0 i .sync]) ∧
    (let i := tl 0xB 2 0; (onLane i id).Issues l0 i 0xB 2 [] ∧ Room (onLane i id) l0 [(onLane i id).newOp l0 i .sync]) ∧
    (let i := tl 0xB 3 (2 ^ 38); (onLane i id).Issues l0 i 0xB 3 [rS (sBarRa i)] ∧ bit i.w 38 = true ∧
      Room (onLane i id) l0 [(onLane i id).newOp l0 i .sync]) ∧
    (let i := tl 0xB 3 (3 * 2 ^ 39 + 2 * 2 ^ 33)
     let s := boundGroup (onLane i (sreg 2 900))
     s.Issues l0 i 0xB 3 [rS (sBarRa i)] ∧ bit i.w 38 = false ∧ s.barCtx (bits i.w 46 39) = some (s.lane l0).ctx ∧ Room s l0 [s.newOp l0 i .sync]) ∧
    (let i := tw 0xC 0 0 1 0 0xFFFFFFFF
     let s := onLane i (sreg 1 5)
     s.Issues l0 i 0xC 0 [rS (iRa i)] ∧ Room s l0 [s.newOp l0 i .time]) ∧
    (let i := tw 0xC 3 0 0 0 7
     let s := onLane i id
     s.Issues l0 i 0xC 3 [] ∧ Room s l0 [s.newOp l0 i .time]) := by
  refine ⟨?_, ?_, ?_, ?_, ?_, ?_⟩ <;> simp only [issues_iff, room_iff] <;> decide +kernel

theorem witness_CadenceInstructionsIssue :
    (∀ p ∈ [(1, 0xFFFFFFF0), (2, 0)],
     let i : IWord := tl 0xC p.1 (31 * 2 ^ 42 + 7 * 2 ^ 33 + p.2)
     let s : State := ((onLane i id).setReg (Reg.ctxCadgrant 0) 0x80).setReg (Reg.bellCadPeriod 7) (word (4000 * 2 ^ 32))
     (s.Issues l0 i 0xC p.1 (if p.1 = 1 then [rS (iRa i), rS (iFa i)] else [rS (iFa i)])) ∧
       s.cadFor (s.lane l0).ctx (bits i.w 36 33) = some (0, 4000 * 2 ^ 32) ∧ s.laneOps l0 = [] ∧
       ∀ o : Op, o.unit = .time → Room s l0 [o]) := by
  have h : ∀ (s : State) (o : Op), o.unit = .time → s.queueLen .time l0 < 8 → (s.laneOps l0).length < 64 → Room s l0 [o] := by
    intro s o h1 h2 h3
    exact ⟨fun p hp => by simp only [List.mem_singleton] at hp; rw [hp, h1]; exact h2, h3⟩
  intro p hp
  fin_cases hp <;> refine ⟨?_, ?_, ?_, fun o ho => h _ o ho ?_ ?_⟩ <;> simp only [issues_iff] <;> decide +kernel

/-- A word of layout T on tile 0: dd d0, da d1, db d2, dc d3 where the operation uses them. -/
def vw (op dd da db dc low : Nat) : IWord := tl 9 op (2 ^ 43 + dd * 2 ^ 38 + da * 2 ^ 34 + db * 2 ^ 30 + dc * 2 ^ 26 + low)

/-- A matrix in the cluster's scratch, rows 64 bytes apart. -/
def tmat (k fmt e0 e1 : Nat) : Desc := tdesc (cvaddr (0x1000 * k)) fmt e0 e1 1 64 0

/-- A matrix of an MX format whose scales d4 names. -/
def tmx (k fmt e0 e1 : Nat) : Desc := tmat k fmt e0 e1 + BitVec.ofNat 256 (2 ^ 191 + 4 * 2 ^ 252)

/-- Words and descriptors d0 to d3 for every operation of VEC. -/
def vecWords : List (IWord × List Desc) :=
  [ (vw 0x00 0 1 2 0 0, [tmat 0 0 4 4, tmat 1 0 4 4, tmat 2 0 4 4]),
    (vw 0x01 0 1 2 0 0, [tmat 0 0 4 4, tmat 1 0 1 4, tmat 2 0 4 1]),
    (vw 0x02 0 1 2 0 0, [tmat 0 11 4 4, tmat 1 0 4 4, tmat 2 12 4 4]),
    (vw 0x03 0 1 2 3 0, [tmat 0 17 4 4, tmat 1 0 4 4, tmat 2 0 4 4, tmat 3 17 4 4]),
    (vw 0x04 0 1 2 0 0, [tmat 0 0 4 4, tmat 1 0 4 4, tmat 2 0 4 4]),
    (vw 0x05 0 1 2 0 0, [tmat 0 0 4 4, tmat 1 0 4 4, tmat 2 0 4 4]),
    (vw 0x06 0 1 2 0 5, [tmat 0 0 4 4, tmat 1 11 4 4, tmat 2 11 4 4]),
    (vw 0x07 0 1 2 3 0, [tmat 0 0 4 4, tmat 1 0 4 4, tmat 2 0 4 4, tmat 3 0 4 4]),
    (vw 0x08 0 1 0 0 0, [tmat 0 17 4 4, tmat 1 0 4 4]),
    (vw 0x08 0 0 0 0 (2 ^ 20 + 7 * 2 ^ 17), [tmat 0 16 64 4]),
    (vw 0x09 0 1 0 0 0, [tmat 0 17 1 4, tmat 1 0 4 4]),
    (vw 0x10 0 0 2 0 (2 ^ 20), [tmat 0 0 4 4, 0, tmat 2 16 4 4]),
    (vw 0x12 0 1 0 0 0, [tmx 0 5 32 4, tmat 1 17 32 4]),
    (vw 0x13 0 1 2 0 0, [0, tmx 1 5 32 4, tmat 2 1 4 1]),
    (vw 0x14 0 1 0 0 0, [tmat 0 14 4 4, tmat 1 17 4 4]),
    (vw 0x18 0 1 0 0 0, [tmat 0 0 4 4, tmat 1 0 4 4]),
    (vw 0x20 0 1 0 0 0, [tmat 0 0 4 4, tmat 1 0 4 4]),
    (vw 0x21 0 1 0 0 0, [tmat 0 0 4 4, tmat 1 0 4 4]),
    (vw 0x28 0 1 0 0 0, [tmat 0 16 1 4, tmat 1 0 4 4]),
    (vw 0x29 0 1 0 0 0, [tmat 0 16 1 4, tmat 1 0 4 4]),
    (vw 0x2A 0 1 0 3 3, [tmat 0 0 4 4, tmat 1 0 4 4, 0, tmat 3 16 4 4]),
    (vw 0x30 0 1 2 0 0, [tmat 0 11 4 4, tmat 1 11 4 4, tmat 2 11 4 4]),
    (vw 0x31 0 1 2 0 0, [tmat 0 17 4 4, tmat 1 0 4 4, tmat 2 0 4 4]),
    (vw 0x32 0 1 2 0 0, [tmat 0 17 4 4, tmat 1 0 4 4, tmat 2 0 4 4]),
    (vw 0x33 0 1 2 0 0, [tmat 0 17 4 4, tmat 1 0 4 4, tmat 2 0 4 4]) ]

/-- A lane with the descriptors of such a word; book 0 and table 0 of tile 0 are valid. -/
def vecState (m : Mode) (p : IWord × List Desc) : State :=
  let s : State := onLane p.1 (dreg 0 (p.2.getD 0 0) ∘ dreg 1 (p.2.getD 1 0) ∘ dreg 2 (p.2.getD 2 0) ∘ dreg 3 (p.2.getD 3 0) ∘
    dreg 4 (tdesc (cvaddr 0x8000) 1 1 1 1 0 0))
  let s : State := (s.wrBytes (bookAddr 0 0) [1]).wrBytes (tableAddr 0 0) [1]
  s.updTile 0 fun x => { x with books := [(true, true)], tables := [true], issuedMode := m }

theorem witness_VectorInstructionsIssue : ∀ p ∈ vecWords,
    let s := vecState Mode.initial p
    s.Issues l0 p.1 9 (iOp p.1) (s.vecRegs l0 p.1) ∧ ∃ os, s.tileOps l0 p.1 s.checkVec = .ok os ∧ roomB s l0 os = true := by
  simp only [issues_iff, ← okAnd_iff]; decide +kernel

theorem witness_VectorInstructionsIssue_all : ∀ p ∈ vecTable, p.1 ∈ vecWords.map (fun p => iOp p.1) ∨ p.1 = 0x11 := by
  intro p hp; fin_cases hp <;> decide +kernel

theorem witness_VectorInstructionsIssue_rqf :
    let p : IWord × List Desc := (vw 0x11 0 0 2 0 (2 ^ 20), [tmat 0 0 4 4, 0, tmat 2 16 4 4])
    let s := vecState ⟨0, 11, 11, false⟩ p
    s.Issues l0 p.1 9 0x11 (s.vecRegs l0 p.1) ∧ ∃ os, s.tileOps l0 p.1 s.checkVec = .ok os ∧ roomB s l0 os = true := by
  simp only [issues_iff, ← okAnd_iff]; decide +kernel

theorem witness_ArmatureInstructionsIssue :
    (let i := tl 8 0 (3 * 2 ^ 43 + 2 * 2 ^ 19 + 11 * 2 ^ 14 + 12 * 2 ^ 9)
     let s := onLane i id
     s.Issues l0 i 8 0 [] ∧ s.targets l0 (bits i.w 46 43) = .ok [0, 1] ∧ (∀ t ∈ [0, 1], (s.tile t).chainIssued = none) ∧
       actFmt 11 = true ∧ weightFmt 12 = true ∧ pairOk 11 12 false = true ∧ (∀ t ∈ [0, 1], s.queueLen (.tile t) l0 < 8) ∧
       (s.laneOps l0).length + [0, 1].length ≤ 64) ∧
    (let i := tl 8 1 (1 * 2 ^ 34)
     let s := onLane i (dreg 1 (tmat 1 0 64 64))
     s.Issues l0 i 8 1 (s.tensorRegs l0 i [tDa i] []) ∧ ∃ os, s.tileOps l0 i s.checkLoad = .ok os ∧ (roomB s l0 os && decide (os.length = 4)) = true) ∧
    (let i := tl 8 2 (1 * 2 ^ 34 + 5 * 2 ^ 21)
     let s := onLane i (dreg 1 (tmat 1 0 64 64) ∘ sreg 5 127)
     s.Issues l0 i 8 2 (s.tensorRegs l0 i (if s.streamsDb l0 i then [tDa i, tDb i] else [tDa i]) [tRs i]) ∧
       ∃ os, s.tileOps l0 i s.checkStream = .ok os ∧ roomB s l0 os = true) ∧
    (let i := tl 8 3 0
     let s := onLane i id
     s.Issues l0 i 8 3 [] ∧ s.targets l0 (bits i.w 46 43) = .ok [0, 1, 2, 3] ∧ (∀ t ∈ [0, 1, 2, 3], s.queueLen (.tile t) l0 < 8) ∧
       (s.laneOps l0).length + [0, 1, 2, 3].length ≤ 64) := by
  refine ⟨?_, ?_, ?_, ?_⟩ <;> simp only [issues_iff, ← okAnd_iff] <;> decide +kernel

theorem witness_BarrowInstructionsIssue : ∀ p ∈ ([(0, 0, 0), (1, 2 * 2 ^ 19, 0), (2, 0, 0), (3, 0, 0)] : List (Nat × Nat × Nat)),
    let i := tl 0xA p.1 (5 * 2 ^ 44 + 1 * 2 ^ 36 + (if p.1 = 1 then 30 * 2 ^ 31 + 3 * 2 ^ 19 else 0))
    let s := onLane i (dreg 0 (if p.1 = 1 then tmat 0 0 1 4 else tdesc (cvaddr 0) 16 4 4 1 64 0) ∘
      dreg 1 (if p.1 = 1 then tmat 1 1 1 4 else tdesc (cvaddr 0x1000) 16 4 4 1 64 0) ∘ sreg 31 (word (2 ^ 32 + 1)))
    s.Issues l0 i 0xA p.1 (barRegs i) ∧ s.pickBarrow l0 i = .ok 5 ∧
      ∃ o, s.checkBar { s.newOp l0 i (.barrow 5) with
        dd := (s.lane l0).dv (bits i.w 43 40), da := (s.lane l0).dv (bits i.w 39 36),
        planes := if p.1 = 1 then (List.range (cropPlanes (bits i.w 21 19) - 1)).map (fun k => (s.lane l0).dv (bits i.w 39 36 + 1 + k)) else [],
        sc := if p.1 = 1 then [(s.lane l0).sv (bits i.w 35 31), if bits i.w 35 31 ≤ 30 then (s.lane l0).sv (bits i.w 35 31 + 1) else 0] else [] } = .ok o ∧
      roomB s l0 [o] = true := by
  simp only [issues_iff, ← okAnd_iff]; decide +kernel

/-! ## Operations in their units -/

/-- One operation of lane 0 and nothing else. -/
def oneOp (i : IWord) (u : UnitId) (f : Op → Op) : State :=
  let s : State := onLane i id
  withOp s (f (s.newOp l0 i u))

theorem witness_OperationsStart :
    ∀ p ∈ ([(tl 5 6 0, .port), (tl 9 0 0, .tile 3), (tl 8 1 0, .tile 3), (tl 8 2 0, .tile 3), (tl 0xC 1 0, .time), (tl 0xC 3 7, .time), (tl 0xC 3 5, .time)] :
        List (IWord × UnitId)),
      ∃ o, (oneOp p.1 p.2 id).op? 0 = some o ∧ (oneOp p.1 p.2 id).mayStart o = true ∧ o.unit = p.2 ∧ o.iw = p.1 := by
  have h : ∀ (s : State) (u : UnitId) (i : IWord), (∃ o, s.op? 0 = some o ∧ s.mayStart o = true ∧ o.unit = u ∧ o.iw = i) ↔
      (match s.op? 0 with | some o => s.mayStart o && o.unit == u && o.iw == i | none => false) = true := by
    intro s u i
    cases s.op? 0 with
    | none => simp
    | some o => simp [and_assoc]
  simp only [h]; decide +kernel

/-- A SIG or WAIT word on semaphore `n`. -/
def syncWord (op n v : Nat) : IWord := tl 0xB op (n * 2 ^ 41 + v)

theorem witness_SemaphoresRun :
    (∀ n ∈ [0, 63],
     let s : State := (oneOp (syncWord 0 n 1) .sync (fun o => { o with st := .running, slotNo := n, total := 1 })).updCtx 0 fun c =>
       { c with sems := List.replicate 64 (2 ^ 32 - 2) }
     let o := nth s.ops 0
     s.op? 0 = some o ∧ o.st = .running ∧ o.unit = .sync ∧ iOp o.iw = 0 ∧ s.semTurn o = true ∧ nth (s.ctx o.ctx).sems o.slotNo + o.total < 2 ^ 32 ∧
       (s.ctx o.ctx).launch? o.seq = some tlaunch) ∧
    (let s : State := (oneOp (syncWord 0 5 1) .sync (fun o => { o with st := .running, slotNo := 5, total := 1 })).updCtx 0 fun c =>
       { c with semReach := [(5, 1000, 1, 9)] }
     let o := nth s.ops 0
     s.op? 0 = some o ∧ o.st = .running ∧ o.unit = .sync ∧ iOp o.iw = 0 ∧ s.semTurn o = false) ∧
    (∀ v ∈ [4, 5, 6],
     let w : SemWait := ⟨63, v, false, 0⟩
     let s : State := (oneOp (syncWord 1 63 v) .sync (fun o => { o with st := .running, slotNo := 63, total := v, arrived := true })).updCtx 0 fun c =>
       { c with sems := List.replicate 64 5, semWaits := [⟨62, 1, false, 9⟩, w] }
     (s.ctx 0).semWaits.find? (fun w => w.sem == 63) = some w ∧ s.op? w.op = some (nth s.ops 0) ∧ nth (s.ctx 0).sems 63 = 5) := by
  decide +kernel

/-- The open epoch of a barrier group. -/
def tbar (g : Nat) (ops : List Nat) (rel : Option Nat) : BarGroup :=
  { group := g, ops := ops, own := none, kids := [], kidMissing := [], sent := false, release := rel, openedUp := 0, lastStraggler := 0, lastMissing := 0 }

theorem witness_BarrierReleases :
    let x := tbar 255 [0] (some 5000)
    let s : State := { oneOp (tl 0xB 3 (255 * 2 ^ 39)) .sync (fun o => { o with st := .running, arrived := true }) with
                       barGroups := [x], bell := { Bell.reset with now := 5000 } }
    s.barGroup? 255 = some x ∧ x.release = some 5000 ∧ 5000 ≤ s.bell.now := by
  decide +kernel

theorem witness_TimedWaitsEnd :
    (∀ tick ∈ [5000, 5001],
     let s : State := { oneOp (tw 0xC 1 31 0 0 0) .time (fun o => { o with st := .running, tick := tick, slotNo := 9, dst := some 31 }) with
                        bell := { Bell.reset with now := 5000 } }
     let o := nth s.ops 0
     s.op? 0 = some o ∧ iCls o.iw = 0xC ∧ iOp o.iw ≤ 1 ∧ o.st = .running ∧ o.tick = tick ∧ s.bell.now = 5000) ∧
    (let s : State := { oneOp (tl 0xB 3 (3 * 2 ^ 39)) .sync (fun o => { o with st := .running, tick := 5000, arrived := true }) with
                        bell := { Bell.reset with now := 5000 }, barGroups := [tbar 3 [0] none] }
     let s : State := s.updTile 3 fun x => { x with gap := some default }
     let o := nth s.ops 0
     s.op? 0 = some o ∧ iCls o.iw = 0xB ∧ iOp o.iw = 3 ∧ bit o.iw.w 38 = false ∧ o.st = .running ∧ 0 < o.tick ∧ o.tick ≤ s.bell.now ∧
       (s.barGroup? (bits o.iw.w 46 39)).all (fun x => x.release.isNone) = true ∧ 3 / 4 = o.lane.cl ∧ 3 ∈ s.leaseTiles (s.lane o.lane).ctx ∧
       (s.tile 3).gap.isSome = true) := by
  decide +kernel

/-! ## Launches on a lane -/

/-- A host read of a line for lane 0. -/
def treq (tag : Nat) (d : Dest) : Req :=
  { tag := tag, path := .host, dest := d, engine := 12, ctx := 0, gen := 1, seq := 7, va := 128, pa := 128, len := 64, write := false, sentUp := 0, peer := 0,
    bytes := [], left := 0, dropped := false, ut := false }

theorem witness_InstructionLineArrives :
    let r := treq 5 (.fetch l0 128)
    let s : State := { onLane (tw 0xD 0 0 0 0 0) (fun x => { x with pc := 136 }) with reqs := [r] }
    (s.lane l0).st ≠ .idle ∧ (s.lane l0).st ≠ .ending ∧ (s.lane l0).stopped = false ∧ s.fetchLine l0 = some 128 ∧
      s.reqs.find? (fun r => r.dest == .fetch l0 128 && r.ctx == (s.lane l0).ctx && r.gen == (s.lane l0).gen && !r.dropped) = some r ∧
      r.path = .host ∧ (List.replicate 64 (0 : Byte)).length = 64 := by
  decide +kernel

theorem witness_LaunchesStartAndRetire :
    (∀ k ∈ [true, false],
     let x : Launch := { tlaunch with stage := .waiting, keep := k }
     let s : State := (onLane (tw 0xD 0 0 0 0 0) (fun x => { x with st := .idle, waiting := [7, 8] })).updCtx 0 fun c => { c with launches := [x] }
     (s.lane l0).waiting = 7 :: [8] ∧ (s.ctx (s.lane l0).ctx).launch? 7 = some x ∧ x.decision = none ∧ x.stage ≠ .stopping ∧ s.mayLaunch l0 x = true) ∧
    (let s : State := onLane (tw 0xD 0 0 0 0 0) (fun x => { x with st := .ending })
     (s.lane l0).st = .ending ∧ (s.lane l0).stopped = false ∧ s.laneOps l0 = [] ∧
       (∀ o ∈ s.ops, ¬ (o.ctx = (s.lane l0).ctx ∧ o.seq = (s.lane l0).seq)) ∧
       (∀ t ∈ s.leaseTiles (s.lane l0).ctx, t / 4 = l0.cl → (s.tile t).chain = none) ∧
       (s.ctx (s.lane l0).ctx).launch? (s.lane l0).seq = some tlaunch) := by
  decide +kernel

theorem witness_CalibrationIsReported : ∀ c ∈ ([(0, none), (0, some 1000), (1, none)] : List (Nat × Option Nat)), ∀ q ∈ [true, false],
    let s : State := onLane (tw 0xD 0 0 0 0 0) (fun x => { x with threshold := 3, accSat := 1, convSat := 2, irqEn := q })
    let s : State := (s.setReg (Reg.ctxNumStatus 0) (word c.1)).updCtx 0 fun x => { x with calibClr := c.2 }
    (s.lane l0).st ≠ .idle ∧ (s.lane l0).calib = false ∧ 0 < (s.lane l0).threshold ∧
      (s.lane l0).threshold ≤ (s.lane l0).accSat + (s.lane l0).convSat ∧ bits (s.reg (Reg.ctxNumStatus 0)) 0 0 = c.1 ∧
      (s.ctx 0).calibClr = c.2 ∧ s.cyc = 1000 ∧ (s.lane l0).irqEn = q := by
  decide +kernel

/-! ## The array -/

/-- A stream of 64 rows in int8 on tile 0, bound for slot 127 of bank 7. -/
def tstream (done : Nat) : State :=
  oneOp (tl 8 2 (2 ^ 17)) (.tile 0) fun o =>
    { o with st := .running, da := tmat 1 0 64 64, slotNo := 7 * 128 + 127, done := done, total := 16 }

theorem witness_RowQuads :
    (∀ n ∈ [0, 15], ∀ m ∈ [(⟨0, 0, 0, false⟩ : Mode), ⟨0, 11, 11, false⟩],
     let s : State := (tstream n).updTile 0 fun x => { x with passMode := m }
     let s : State := { s with ops := s.ops.map fun o => { o with mode := m, da := tmat 1 m.fmtA 64 64 } }
     let o := nth s.ops 0
     s.streamOf 0 = some o ∧ s.op? o.id = some o ∧ s.mayEnter 0 o = true ∧ s.inject = none ∧
       s.quadTag o (s.src o.ctx o.da o.scDa) o.done false = none ∧ o.mode.kind ≠ 2 ∧ o.mode.cls = (if m.fmtA = 0 then 8 else 16)) ∧
    (∀ n ∈ [0, 15],
     let s := tstream n
     let s : State := { s with ops := s.ops.map fun o => { o with mode := ⟨2, 0, 0, false⟩, db := tmat 2 0 64 64 } }
     let o := nth s.ops 0
     s.streamOf 0 = some o ∧ s.op? o.id = some o ∧ s.mayEnter 0 o = true ∧ s.inject = none ∧ o.mode.kind = 2 ∧
       s.quadTag o (s.src o.ctx o.da o.scDa) o.done false = none ∧ s.quadTag o (s.src o.ctx o.db o.scDb) o.done false = none ∧
       (o.done + 1 = o.total ↔ n = 15) ∧ bit o.iw.w 16 = false) ∧
    (∀ rs ∈ [[0, 1, 2, 3], [3]],
     let f : Flight := ⟨0, 0, rs, 1000, 7, 127, false, true, List.replicate 4 (List.replicate 64 (-5)), true, false⟩
     let s : State := (tstream 1).updTile 0 fun x => { x with flights := [{ f with ready := 1001 }, f], poison := [7 * 128 + 127] }
     (s.tile 0).flights.find? (fun f => decide (f.ready ≤ s.cyc)) = some f ∧ s.op? f.op = some (nth s.ops 0) ∧ f.acc = false ∧ 3 ∈ f.rows) ∧
    (∀ c ∈ [(7 * 128 + 126, false), (7 * 128 + 127, true)],
     let f : Flight := ⟨0, 0, [0], 1000, 7, 127, true, true, List.replicate 4 (List.replicate 64 (-5)), true, false⟩
     let s : State := (tstream 1).updTile 0 fun x => { x with flights := [f], poison := [c.1] }
     let o := nth s.ops 0
     (s.tile 0).flights.find? (fun f => decide (f.ready ≤ s.cyc)) = some f ∧ s.op? f.op = some o ∧ f.acc = true ∧ s.inject = none ∧
       decide (f.bank * 128 + f.slot ∈ (s.tile 0).poison) = c.2 ∧ s.ops = [o] ∧ o.unit = .tile 0 ∧ iCls o.iw = 8 ∧
       (s.ctx o.ctx).launch? o.seq = some tlaunch ∧ tlaunch.decision = none) := by
  decide +kernel

theorem witness_ShadowLoadBegins : ∀ m ∈ [(⟨0, 0, 0, false⟩ : Mode), ⟨0, 11, 11, false⟩], ∀ r ∈ [none, some 15, some 16],
    let s := oneOp (tl 8 1 0) (.tile 0) fun o => { o with st := .running, da := tmat 1 m.fmtA 32 64, mode := m, total := 1 }
    let s : State := s.updTile 0 fun x => { x with faulty := r }
    let o := nth s.ops 0
    s.loadOf 0 = some o ∧ s.op? o.id = some o ∧ s.mayLoad 0 o = true ∧ s.inject = none ∧ s.badTag (s.src o.ctx o.da o.scDa) false = none ∧
      (s.tile 0).faulty = r := by
  decide +kernel

theorem witness_GapsStartAndFall :
    (let s := base
     (s.tile 3).lease ≠ none ∧ (s.tile 3).gap = none ∧ (s.tile 3).rest = .awake ∧ s.streamOf 3 = none ∧
       (s.tile 3).lastEntry + (s.tile 3).passMode.cyc ≤ s.cyc) ∧
    (∀ up ∈ [4039, 4040],
     let g : Gap := ⟨0, 40, none, true, 10, 1000, 1, false, 0, 0, 0⟩
     let s : State := { base.updTile 3 (fun x => { x with gap := some g }) with up := up }
     (s.tile 3).gap = some g ∧ g.enable = true ∧ g.known = none ∧ g.falling = false ∧ g.up + 4 * g.limit = 4040 ∧ s.up = up) := by
  decide +kernel

theorem witness_ClearingAndZeroingEnd :
    (let s : State := base.updTile 3 fun x => { x with clearArr := some 1000 }; (s.tile 3).clearArr = some 1000 ∧ 1000 ≤ s.cyc) ∧
    (let s : State := base.updTile 3 fun x => { x with clearScr := some 1000 }; (s.tile 3).clearScr = some 1000 ∧ 1000 ≤ s.cyc) ∧
    (let s : State := base.updCluster 3 fun x => { x with zeroing := [(0, 1, 999), (15, 1, 1000)] }
     (s.cluster 3).zeroing.find? (fun z => z.1 == 15 && z.2.1 == 1) = some (15, 1, 1000) ∧ 1000 ≤ s.cyc) := by
  decide +kernel

theorem witness_BooksAndTablesAreJudged :
    let s : State := base.updTile 3 fun x => { x with bookDirty := [15], tableDirty := [7] }
    15 ∈ (s.tile 3).bookDirty ∧ 7 ∈ (s.tile 3).tableDirty := by
  decide +kernel

/-! ## Station time and commit groups -/

/-- The block with BELL_CTRL.src and the Bell as given. -/
def bellAt (src : Nat) (b : Bell) : State := { base.setReg Reg.bellCtrl (word src) with bell := b }

/-- A Bell that counts 5 seconds and a little. -/
def tbell (d : Nat) (l : Lock) (e : Option Nat) : Bell := { Bell.reset with now := 20000000000 + d, lock := l, nextEdge := e }

theorem witness_BellTimePort_read :
    let s : State := { base with nowLatch := some 5 }
    s.live = true ∧ s.pins.regsReady = true ∧ s.pins.frozen = false ∧ s.nowLatch = some 5 := by
  decide +kernel

theorem witness_BellTimePort :
    (∀ d ∈ [0, 4000], ∀ l ∈ [Lock.unlocked, .acquiring, .locked, .holdover],
     let s := bellAt 1 (tbell d l (some 20000000000))
     s.bellSrc = 1 ∧ (∀ e ∈ s.bell.nextEdge, e ≤ s.bell.now + 4000 ∧ s.bell.now ≤ e + 4000) ∧ nearestSecond s.bell.now = 5 ∧ 5 < 2 ^ 48) ∧
    (∀ a ∈ [true, false], ∀ l ∈ [Lock.unlocked, .acquiring, .locked, .holdover], ∀ p ∈ [(0, true), (999999999, false)],
     let s := bellAt 1 { tbell 0 l (some 20000000000) with awaitStep := a, good := 15 }
     let err : Int := (5 * 4000000000 + p.1 * 4 : Nat) - (s.bell.now : Int)
     s.bell.awaitStep = a ∧ s.bell.lock = l ∧ nearestSecond s.bell.now = 5 ∧ decide (err.natAbs ≤ s.fld Reg.bellServoX 63 40) = p.2 ∧ 15 ≤ s.bell.good) ∧
    (let s := bellAt 1 (tbell 4001 .locked (some 20000000000)); s.bellSrc = 1 ∧ s.bell.nextEdge = some 20000000000 ∧ 20000000000 + 4000 < s.bell.now) ∧
    (let s := bellAt 1 (tbell 0 .locked none); s.bellSrc = 1 ∧ s.bell.nextEdge = none ∧ nearestSecond s.bell.now ≠ 6) ∧
    (∀ m ∈ [0, 1], ∀ l ∈ [Lock.locked, .acquiring],
     let s := bellAt 1 { tbell 4001 l (some 20000000000) with missed := m }
     s.bellSrc = 1 ∧ s.bell.nextEdge = some 20000000000 ∧ 20000000000 + 4000 < s.bell.now ∧ s.bell.missed = m ∧ s.bell.lock = l) ∧
    (let s := bellAt 1 { tbell 0 .holdover none with holdEst := 1 }; s.bell.lock = .holdover ∧ s.fld Reg.bellCtrl 63 48 < s.estError) := by
  decide +kernel

/-- A message that stands admitted at port 0, from job block 1 of job 0x25. -/
def tmsg (b : MsgBody) : Delivered := ⟨0, 0x25, 9, false, 0, 20000000100, ⟨1, 0, 0, 0, b⟩⟩

/-- Link port 0 is UP, the complex enabled, the peers' blocks 8 to 15 lie behind port 0, and job slot 0 is LIVE and valid: this block is number
`me` of the 4 blocks of job 0x25, which are the blocks 8 to 11 of the fabric. -/
def linked (me : Nat) (s : State) : State :=
  let s : State := s.setReg Reg.fabCtrl 1
  let s : State := s.setReg (Reg.fabPortCfg 0) 5
  let s : State := s.setReg (Reg.fabRt 8 1) 0x8080808080808080
  let s : State := s.setReg (Reg.fabJobCfg 0) (word (2 ^ 63 + me * 2 ^ 28 + 0x25))
  let s : State := s.setReg (Reg.fabJobMap 0) 4
  let s : State := s.setReg (Reg.fabJmap 0) 0x800B800A80098008
  s.setReg (Reg.fabJobStatus 0) 0x100

theorem witness_BellLinks :
    (let s := linked 0 (bellAt (2 ^ 16) (tbell 0 .locked none))
     maskHas (s.fld Reg.bellCtrl 23 16) 0 = true ∧ s.portUp 0 = true ∧ maskHas (s.fld Reg.bellCtrl 23 16) 7 = false) ∧
    (let d := tmsg (.timeReq 77)
     let s : State := { linked 0 (bellAt 0 (tbell 0 .locked none)) with inbox := [tmsg (.timeReq 1), d] }
     s.inbox[1]? = some d ∧ d.msg.body = .timeReq 77 ∧ s.isUpstream d.port = false ∧ s.portUp d.port = true) ∧
    (let d := tmsg (.timeResp 20000000000 20000000010 20000000020)
     let s : State := { linked 0 (bellAt 0 { tbell 50 .locked none with sent := some 20000000000 :: List.replicate 7 none }) with inbox := [d] }
     s.inbox[0]? = some d ∧ nth s.bell.sent d.port = some 20000000000 ∧ s.isUpstream d.port = false) ∧
    (∀ t1 ∈ [20000000100, 0],
     let d := tmsg (.timeReq t1)
     let s : State := { linked 0 (bellAt 2 { tbell 100 .locked none with samples := [160] :: List.replicate 7 [] }) with inbox := [d] }
     let s : State := s.setReg (Reg.bellLink 0) 160
     let err : Int := (16 * (t1 : Int) + (s.fld (Reg.bellLink d.port) 31 0 : Nat) - 16 * (d.at_ : Int) + 8) / 16
     s.inbox[0]? = some d ∧ s.isUpstream d.port = true ∧ nth s.bell.samples d.port ≠ [] ∧
       decide (s.fld Reg.bellServoX 63 40 < err.natAbs) = (t1 == 0)) ∧
    (∀ l ∈ [Lock.locked, .acquiring, .unlocked, .holdover],
     let s := bellAt 2 (tbell 0 l none)
     s.bellSrc = 2 ∧ s.bell.lastMsg + 4000000 ≤ s.up ∧ s.bell.lock = l) := by
  decide +kernel

/-- The block with group 3 as given, at station time 100,000. -/
def grouped (g : Group) : State :=
  { base with groups := [Group.reset, Group.reset, Group.reset, g], bell := { Bell.reset with now := 100000 } }

/-- Members of the Bell, cluster 0 and tile 0. -/
def tmembers : Nat := 0x10101

theorem witness_GroupRuns :
    (let s := grouped Group.reset
     s.Accepts ∧ 3 < 4 ∧ (s.group 3).st.pending = false ∧ maskDiff (bits (0x000700010101 : Word) 31 0) (unitMask s.straps) = 0 ∧
       ∀ j, j < 4 → j ≠ 3 → (s.group j).st.pending = false) ∧
    (let s := grouped { Group.reset with st := .opened, members := tmembers }
     s.Accepts ∧ (s.group 3).st = .opened ∧ (s.group 3).members ≠ 0 ∧ s.bell.now + 8000 = 108000 ∧ 107999 < s.bell.now + 8000) ∧
    (let s := grouped { Group.reset with st := .armed, members := tmembers, tick := 108000 }
     let ms := maskBits 32 (maskDiff (maskAnd (s.group 3).members 0xFFFFFFFF) (s.group 3).acked)
     s.InspectorQuiet ∧ (s.group 3).st = .armed ∧ s.bell.now + 8000 ≤ (s.group 3).tick ∧ (s.group 3).job.scope = false ∧ ms ≠ [] ∧
       (∀ m ∈ ms, s.memberCause 3 m = 0) ∧ 5 ∉ ms) ∧
    (let s := grouped { Group.reset with st := .armed, members := 32, tick := 108000 }
     let ms := maskBits 32 (maskDiff (maskAnd (s.group 3).members 0xFFFFFFFF) (s.group 3).acked)
     s.InspectorQuiet ∧ (s.group 3).st = .armed ∧ s.bell.now + 8000 ≤ (s.group 3).tick ∧ (s.group 3).job.scope = false ∧ ms = [5] ∧
       s.memberCause 3 5 = 0 ∧ (s.preview (s.group 3).staged).oppRun = s.power.run) ∧
    (let s : State := (grouped { Group.reset with st := .armed, members := tmembers, tick := 108000 }).updTile 0 fun x => { x with rest := .resting }
     let ms := maskBits 32 (maskDiff (maskAnd (s.group 3).members 0xFFFFFFFF) (s.group 3).acked)
     s.InspectorQuiet ∧ (s.group 3).st = .armed ∧ s.bell.now + 8000 ≤ (s.group 3).tick ∧ (s.group 3).job.scope = false ∧
       ms.filter (fun m => s.memberCause 3 m != 0) = 16 :: [] ∧ (s.group 3).raised = false) ∧
    (let s := grouped { Group.reset with st := .armed, members := tmembers, tick := 108000, acked := 0x101 }
     s.InspectorQuiet ∧ (s.group 3).st = .armed ∧ (s.group 3).tick ≤ s.bell.now + 8000 ∧ (s.group 3).job.scope = false ∧
       (s.group 3).raised = false ∧ maskDiff (s.group 3).members (s.group 3).acked ≠ 0) ∧
    (∀ st ∈ [GState.opened, .armed, .bound],
     let s := grouped { Group.reset with st := st, members := tmembers, tick := 200000 }
     s.Accepts ∧ s.InspectorQuiet ∧ bit (1 : Word) 0 = true ∧ (s.group 3).raised = false ∧ (s.group 3).st = st) ∧
    (let s := grouped { Group.reset with st := .bound, members := 1, tick := 100000, staged := [⟨Reg.bellCadPeriod 15, allBits, 2 ^ 64 - 1⟩] }
     (s.group 3).st = .bound ∧ (s.group 3).tick ≤ s.bell.now ∧ (s.group 3).staged = [⟨Reg.bellCadPeriod 15, allBits, 2 ^ 64 - 1⟩] ∧
       s.power.trans = none ∧ s.oppRun = s.power.run) := by
  refine ⟨?_, ?_, ?_, ?_, ?_, ?_, ?_, ?_⟩ <;> (try simp only [accepts_iff, quiet_iff]) <;> decide +kernel

/-- A group of job 0x25 with 4 blocks and coordinator 2. -/
def tjob : GJob := ⟨true, 0, 4, 2, 0x25⟩

/-- Block `me` of the job, with group 3 as given and one message in hand. -/
def jobGroup (me : Nat) (g : Group) (src : Nat) (b : MsgBody) : State :=
  { linked me (grouped g) with inbox := [{ tmsg b with msg := ⟨src, 0, 0, 0, b⟩ }] }

/-- The fields of a message of group 5. -/
def tcg : CgInfo := ⟨5, 108000, 0, 1, 1⟩

theorem witness_GroupMessages :
    (∀ c ∈ [(GState.armed, true, [0, 2, 3], 108000, true), (.armed, true, [0, 1, 2, 3], 107999, true), (.armed, true, [2], 108000, false),
            (.armed, false, [0, 2, 3], 108000, false)],
     let g : Group := { Group.reset with st := c.1, ident := 5, members := tmembers, tick := c.2.2.2.1, job := tjob, sentStaged := c.2.1, held := c.2.2.1 }
     let s := jobGroup 2 g 1 (.cgStaged tcg)
     let d := nth s.inbox 0
     s.inbox[0]? = some d ∧ s.slotOfGroup tcg.ident d.job [.opened, .armed] = some 3 ∧ s.isCoord 3 = true ∧ s.slotOfJob d.job = some 0 ∧
       s.group 3 = g ∧ (s.bell.now + 8000 ≤ g.tick ↔ c.2.2.2.1 = 108000) ∧
       decide (g.sentStaged = true ∧ ∀ b, b < g.job.count → b ∈ if d.msg.src ∈ g.held then g.held else g.held ++ [d.msg.src]) = c.2.2.2.2) ∧
    (let s : State := (jobGroup 2 { Group.reset with st := .opened, ident := 5, members := tmembers } 1 (.cgStaged tcg)).setReg (Reg.cgJob 3)
       (word (2 ^ 63 + 4 * 2 ^ 32 + 2 * 2 ^ 16 + 0x25))
     s.slotOfGroup tcg.ident (nth s.inbox 0).job [.opened, .armed] = some 3 ∧ s.isCoord 3 = true ∧ s.slotOfJob 0x25 = some 0) ∧
    (let s := jobGroup 2 { Group.reset with st := .armed, ident := 5, members := tmembers, tick := 108000, job := tjob } 1 (.cgRefused tcg)
     s.slotOfGroup tcg.ident (nth s.inbox 0).job [.opened, .armed] = some 3 ∧ s.isCoord 3 = true ∧ s.slotOfJob (nth s.inbox 0).job = some 0) ∧
    (∀ c ∈ [(true, 2, 102000, true), (false, 2, 102000, false), (true, 1, 102000, false), (true, 2, 101999, false)],
     let s := jobGroup 0 { Group.reset with st := .armed, ident := 5, members := tmembers, tick := c.2.2.1, job := tjob, sentStaged := c.1 }
       c.2.1 (.cgCommit tcg)
     s.slotOfGroup tcg.ident (nth s.inbox 0).job [.armed] = some 3 ∧
       decide ((s.group 3).sentStaged = true ∧ (nth s.inbox 0).msg.src = (s.group 3).job.coord ∧ s.bell.now + 2000 ≤ (s.group 3).tick) = c.2.2.2) ∧
    (∀ st ∈ [GState.opened, .armed, .aborted],
     let s : State := (jobGroup 0 { Group.reset with st := st, ident := 5, members := tmembers, tick := 102000, job := tjob, sentStaged := true } 2
       (.cgAbort tcg)).setReg (Reg.cgJob 3) (word (2 ^ 63 + 4 * 2 ^ 32 + 2 * 2 ^ 16 + 0x25))
     s.slotOfGroup tcg.ident (nth s.inbox 0).job [.armed, .opened, .aborted] = some 3 ∧ (s.group 3).raised = false ∧
       (nth s.inbox 0).msg.src = (s.groupJob 3).coord ∧ (s.group 3).verdict = 0 ∧ s.bell.now + 2000 ≤ (s.group 3).tick) ∧
    (let s := jobGroup 0 { Group.reset with st := .armed, ident := 5, members := tmembers, tick := 102000, job := tjob, sentStaged := true } 2 .error
     (s.group 3).st = .armed ∧ (s.group 3).job.scope = true ∧ (s.group 3).sentStaged = true ∧ s.isCoord 3 = false ∧
       (s.group 3).tick ≤ s.bell.now + 2000 ∧ (s.ctx (s.group 3).job.ctx).st ≠ .free ∧ (s.ctx (s.group 3).job.ctx).rst = none) := by
  decide +kernel

theorem witness_GroupMessages_none : ∀ b ∈ [MsgBody.cgStaged tcg, .cgRefused tcg, .cgCommit tcg, .cgAbort tcg],
    let s := jobGroup 0 { Group.reset with st := .armed, ident := 6, members := tmembers, tick := 108000, job := tjob } 2 b
    s.inbox[0]? = some (nth s.inbox 0) ∧ (nth s.inbox 0).msg.body = b ∧ ∀ sts, s.slotOfGroup tcg.ident (nth s.inbox 0).job sts = none := by
  intro b hb
  refine ⟨rfl, rfl, fun sts => ?_⟩
  have h : ∀ i ∈ List.range 4, ((jobGroup 0 { Group.reset with st := .armed, ident := 6, members := tmembers, tick := 108000, job := tjob } 2 b).group i).ident ≠
      tcg.ident := by
    intro i hi
    have : i = 0 ∨ i = 1 ∨ i = 2 ∨ i = 3 := by have := List.mem_range.1 hi; omega
    rcases this with h | h | h | h <;> subst h
    · exact (by decide : Group.reset.ident ≠ tcg.ident)
    · exact (by decide : Group.reset.ident ≠ tcg.ident)
    · exact (by decide : Group.reset.ident ≠ tcg.ident)
    · exact (by decide : (6 : Nat) ≠ tcg.ident)
  simp only [State.slotOfGroup, List.findSome?_eq_none_iff, List.find?_eq_none]
  intro st _ i hi
  have := h i hi
  simp [this]

/-! ## Registers -/

theorem witness_RegisterWrites :
    (base.Accepts ∧ base.InspectorQuiet ∧ base.PageOpen 0) ∧
    (let s : State := base.updCtx 63 fun c => { c with st := .stopped }; s.Accepts ∧ s.InspectorQuiet ∧ s.PageOpen 63) ∧
    (let s : State := (base.setReg Reg.memMap 0x100000C00).setReg (Reg.memChStatus 0) 2
     s.Accepts ∧ s.flag Reg.memCtrl 0 = false ∧ s.mapBad = false ∧ bit (1 : Word) 0 = true) ∧
    (base.flag Reg.memCtrl 0 = false ∧ base.mapBad = true) ∧
    (let s : State := base.setReg Reg.memCtrl 1; s.Accepts ∧ s.flag Reg.memCtrl 0 = true ∧ bit (0 : Word) 0 = false) ∧
    (let s : State := (base.setReg Reg.memMap 0x100000C00).setReg (Reg.memChStatus 0) 2
     s.dataBytes = 7 * 2 ^ 27 ∧ bits (word (2 ^ 55 - 7 * 2 ^ 27 + 1)) 54 12 * 4096 + s.dataBytes ≤ 2 ^ 55 ∧
       2 ^ 55 < bits (word (2 ^ 55 - 7 * 2 ^ 27 + 4096)) 54 12 * 4096 + s.dataBytes) ∧
    (∀ p ∈ [118, 1180], base.straps.peakPower ≤ 10 * bits (word p) 15 0 ∧ bits (word p) 15 0 ≤ base.straps.peakPower) ∧
    (∀ p ∈ [117, 1181], 10 * bits (word p) 15 0 < base.straps.peakPower ∨ base.straps.peakPower < bits (word p) 15 0) ∧
    (let s : State := (base.setReg Reg.errLogConsumed 0xFFFFFFFE).setReg Reg.errLogWritten 2
     (∀ v ∈ [0xFFFFFFFE, 2], since32 (bits (word v) 31 0) (s.fld Reg.errLogConsumed 31 0) ≤
        since32 (s.fld Reg.errLogWritten 31 0) (s.fld Reg.errLogConsumed 31 0)) ∧
     (∀ v ∈ [3, 0xFFFFFFFD], since32 (s.fld Reg.errLogWritten 31 0) (s.fld Reg.errLogConsumed 31 0) <
        since32 (bits (word v) 31 0) (s.fld Reg.errLogConsumed 31 0))) ∧
    (let v : Word := word (1 * 2 ^ 56 + 15 * 2 ^ 50 + 2 * 2 ^ 42)
     injPlaceOk base.straps (bits v 63 56) (bits v 55 50) (bits v 49 44) (bits v 24 0) = true ∧ bits v 43 42 = 2) := by
  refine ⟨?_, ?_, ?_, ?_, ?_, ?_, ?_, ?_, ?_, ?_⟩ <;> (try simp only [accepts_iff, pageOpen_iff, quiet_iff]) <;> decide +kernel

/-- Ring 3 of context 0 is enabled with 16 entries, its head at the top of the count. -/
def ringed (h t : Nat) : State :=
  (base.setReg (Reg.ctxRingCfg 0 3) 0x401).updCtx 0 fun c => { c with rings := upd c.rings 3 fun r => { r with head := h, tail := t } }

theorem witness_SubmissionRegisters :
    (let s := ringed 0xFFFFFFF8 0xFFFFFFF8
     s.Accepts ∧ s.PageOpen 0 ∧ s.ringOn 0 3 = true ∧ s.ringOn 0 2 = false ∧
       (∀ v ∈ [0x3FFFFFFF8, 0x300000008], bits (word v) 33 32 = 3 ∧ since32 (bits (word v) 31 0) (s.ring 0 3).head ≤ s.ringSize 0 3) ∧
       (∀ v ∈ [0x300000009, 0x3FFFFFFF7], s.ringSize 0 3 < since32 (bits (word v) 31 0) (s.ring 0 3).head)) ∧
    (base.Accepts ∧ base.PageOpen 0 ∧ base.fld (Reg.ctxAbortStatus 0) 2 0 ≠ 1 ∧ base.fld (Reg.ctxKabortStatus 0) 2 0 ≠ 1) ∧
    (let s : State := (base.setReg (Reg.ctxAbortStatus 0) 1).setReg (Reg.ctxKabortStatus 0) 1
     s.Accepts ∧ s.PageOpen 0 ∧ s.fld (Reg.ctxAbortStatus 0) 2 0 = 1 ∧ s.fld (Reg.ctxKabortStatus 0) 2 0 = 1) ∧
    (let s : State := (base.setReg (Reg.ctxCqHead 0) 0xFFFFFFFF).updCtx 0 fun c => { c with written := 1 }
     s.Accepts ∧ s.PageOpen 0 ∧
       (∀ v ∈ [0xFFFFFFFF, 1], since32 (bits (word v) 31 0) (s.fld (Reg.ctxCqHead 0) 31 0) ≤ since32 (s.ctx 0).written (s.fld (Reg.ctxCqHead 0) 31 0)) ∧
       (∀ v ∈ [2, 0xFFFFFFFE], since32 (s.ctx 0).written (s.fld (Reg.ctxCqHead 0) 31 0) < since32 (bits (word v) 31 0) (s.fld (Reg.ctxCqHead 0) 31 0))) ∧
    (base.ringOn 0 3 = false ∧ base.flag (Reg.ctxCqCfg 0) 0 = false ∧
       (∀ k ∈ [4, 16], bit (word (k * 256 + 1)) 0 = true ∧ 4 ≤ bits (word (k * 256 + 1)) 12 8 ∧ bits (word (k * 256 + 1)) 12 8 ≤ 16) ∧
       (∀ k ∈ [3, 17], bit (word (k * 256 + 1)) 0 = true ∧ (bits (word (k * 256 + 1)) 12 8 < 4 ∨ 16 < bits (word (k * 256 + 1)) 12 8))) := by
  refine ⟨?_, ?_, ?_, ?_, ?_⟩ <;> (try simp only [accepts_iff, pageOpen_iff]) <;> decide +kernel

theorem witness_ContextCommands :
    (base.Accepts ∧ 63 < base.straps.contexts ∧ base.fld Reg.ctxCmdStatus 1 0 ≠ 1 ∧ (base.ctx 63).st = .free ∧ base.groupPending 63 = false ∧
       base.clean 63 (base.genOf 63) = true) ∧
    ((base.ctx 0).st ≠ .free ∧ (base.ctx 0).st = .active ∧ (base.ctx 0).rst = none) ∧
    (∀ st ∈ [CtxSt.stopped, .faulted],
     let s : State := base.updCtx 0 fun c => { c with st := st }
     s.Accepts ∧ 0 < s.straps.contexts ∧ s.fld Reg.ctxCmdStatus 1 0 ≠ 1 ∧ (s.ctx 0).st = st ∧ (s.ctx 0).rst = none ∧ s.fld (Reg.ctxUndelStatus 0) 3 0 = 0 ∧
       s.leaseTiles 0 ≠ [] ∧ s.groupPending 0 = false) := by
  refine ⟨?_, ?_, ?_⟩ <;> (try simp only [accepts_iff]) <;> decide +kernel

theorem witness_ActionRegisters :
    (∀ p ∈ [(2 ^ 60, 1), (2 ^ 61 + 4096, 2), (3 * 2 ^ 60, 3), (0, 0)],
     let s : State := { base.setReg Reg.xltDinvAddr (word p.1) with withdraws := [{ (default : Withdraw) with itag := none, drain := false }] }
     s.Accepts ∧ bit (1 : Word) 0 = true ∧ (∀ w ∈ s.withdraws, w.drain = false) ∧ (∀ b ∈ s.barrows, b.q = []) ∧ vaTag (s.fld Reg.xltDinvAddr 63 12 * 4096) = p.2) ∧
    (∀ n ∈ [0, 1, 2, 3], let s : State := base.setReg (Reg.fabPortCfg 7) (word (2 * n)); s.Accepts ∧ 7 < s.straps.ports ∧ s.fld (Reg.fabPortCfg 7) 2 1 = n) ∧
    (∀ p ∈ [(7 * 2 ^ 27 - 8192, true), (7 * 2 ^ 27 - 4096, false)],
     let s : State := ((base.setReg Reg.memMap 0x100000C00).setReg (Reg.memChStatus 0) 2).setReg Reg.memClearAddr (word p.1)
     let v : Word := word (2 * 256 + 1)
     s.Accepts ∧ bit v 0 = true ∧ s.fld Reg.memClearStatus 2 0 ≠ 1 ∧ s.clearUnit ≠ 0 ∧ s.fld Reg.memClearAddr 42 12 * 4096 % s.clearUnit = 0 ∧
       bits v 39 8 * 4096 % s.clearUnit = 0 ∧
       decide (s.fld Reg.memClearAddr 42 12 * 4096 + bits v 39 8 * 4096 ≤ s.dataBytes) = p.2) ∧
    (let s : State := base.setReg Reg.memMap 0x800; s.Accepts ∧ s.fld Reg.memClearStatus 2 0 ≠ 1 ∧ s.clearUnit = 0) ∧
    (bit (word 0x1F) 4 = true ∧ bit (word 0x0F) 4 = false ∧ bits (word 0x0F) 3 0 < base.straps.tiles ∧ (base.tile 15).rest = .awake ∧
       base.power.stretch = none) ∧
    (let s : State := { base with pins := { base.pins with frozen := true, linkDown := true } }
     s.live = true ∧ s.fld Reg.insBoot 3 0 = 6 ∧ s.inject = none ∧ s.gangM < s.gangN ∧ bit (word 8) 3 = true ∧ bit (word 8) 4 = false) := by
  refine ⟨?_, ?_, ?_, ?_, ?_, ?_⟩ <;> (try simp only [accepts_iff]) <;> decide +kernel

/-! ## Power -/

/-- The power controller as given. -/
def powered (p : Power) : State := { base with power := p }

/-- The power controller at OPP `k` and its voltage. -/
def tpower (k : Nat) : Power := { base.power with clk := k, run := k, voltMv := 10 * oppVolt k }

theorem witness_TransitionsAndDroop :
    (∀ p ∈ [(0, 0, none), (0, 1, none), (5, 1, none), (0, 1, some 5000)], ∀ x ∈ [none, some (⟨0, 0, 0, 700, 0⟩ : Stretch)],
     let tr : Transition := ⟨p.1, p.2.1, 0, p.2.2⟩
     let s := powered { tpower 2 with trans := some tr, stretch := x }
     s.live = true ∧ s.power.trans = some tr ∧ tr.stage = p.2.1 ∧ tr.atTick = p.2.2 ∧ s.power.stretch = x ∧
       (p.1 = 5 → s.power.clk ≤ tr.target) ∧ (p.1 = 0 → tr.target < s.power.clk)) ∧
    (∀ x ∈ [none, some (⟨0, 0, 0, 700, 0⟩ : Stretch)],
     let s : State := (powered { tpower 0 with stretch := x }).setReg Reg.pwrDroopX 5
     s.live = true ∧ 15 < s.straps.tiles ∧ (s.tile 15).rest = .awake ∧ s.power.stretch = x ∧
       100 * 759 < 10 * oppVolt s.power.run * (100 - s.fld Reg.pwrDroopX 7 0) ∧ 10 * oppVolt s.power.run * (100 - s.fld Reg.pwrDroopX 7 0) ≤ 100 * 760) ∧
    (∀ d ∈ [0, 1],
     let x : Stretch := ⟨5, 5, 3, 700, 3999600 + d⟩
     let s : State := (powered { tpower 0 with stretch := some x }).setReg Reg.pwrDroopX (word (100 * 2 ^ 16))
     s.live = true ∧ s.power.stretch = some x ∧ s.power.trans = none ∧
       (if d = 0 then x.lastLow + 4 * s.fld Reg.pwrDroopX 31 16 ≤ s.up else s.up < x.lastLow + 4 * s.fld Reg.pwrDroopX 31 16)) ∧
    (let x : Stretch := ⟨0, 0, 0, 700, 0⟩
     let s : State := (powered { tpower 0 with stretch := some x }).setReg Reg.pwrDroopX (word (2 * 2 ^ 8 + 5))
     let v := 10 * oppVolt s.power.run
     s.live = true ∧ s.power.stretch = some x ∧ v * (100 - s.fld Reg.pwrDroopX 7 0) ≤ 100 * 770 ∧
       100 * 770 ≤ v * (100 + s.fld Reg.pwrDroopX 15 8 - s.fld Reg.pwrDroopX 7 0) ∧ v * (100 + s.fld Reg.pwrDroopX 15 8 - s.fld Reg.pwrDroopX 7 0) < 100 * 777) ∧
    (let x : Stretch := ⟨5, 5, 3, 700, 3999600⟩
     let tr : Transition := ⟨0, 2, 0, none⟩
     let s : State := (powered { tpower 2 with stretch := some x, trans := some tr }).setReg Reg.pwrDroopX (word (100 * 2 ^ 16))
     s.live = true ∧ s.power.stretch = some x ∧ s.power.trans = some tr ∧ tr.stage = 2 ∧ tr.atTick = none ∧
       x.lastLow + 4 * s.fld Reg.pwrDroopX 31 16 ≤ s.up) ∧
    (let s : State := base.updTile 15 fun x => { x with rest := .resting }; s.straps.tiles ≤ 16 ∧ (s.tile 15).rest ≠ .awake) ∧
    (let s : State := base.setReg (Reg.pwrRailCfg 3) 0x100; s.live = true ∧ 3 < 4 ∧ s.fld (Reg.pwrRailCfg 3) 9 8 ≠ 0) := by
  decide +kernel

theorem witness_Ceilings :
    (∀ a ∈ [true, false], ∀ c ∈ [(0, 0), (2, 9), (2, 8)],
     let s : State := { powered { tpower 0 with alertCeil := c.1, alertFreeMs := c.2, statusDue := true } with pins := { base.pins with alertIn := a } }
     s.live = true ∧ s.pins.alertIn = a ∧ s.power.alertCeil = c.1 ∧ s.power.alertFreeMs = c.2 ∧ s.power.statusDue = true) ∧
    (let s : State := (base.setReg Reg.pwrTemp (word (16 * 95))).setReg Reg.pwrTherm (word (105 * 2 ^ 16 + 95 * 2 ^ 8 + 5))
     s.live = true ∧ 16 * (s.fld Reg.pwrTherm 15 8 : Int) ≤ s.hottest) ∧
    (∀ m ∈ [8, 9],
     let s : State := ((powered { tpower 0 with thermCeil := 1, coolMs := m }).setReg Reg.pwrTemp (word (16 * 90 - 1))).setReg Reg.pwrTherm
       (word (105 * 2 ^ 16 + 95 * 2 ^ 8 + 5))
     s.live = true ∧ s.hottest < 16 * (s.fld Reg.pwrTherm 15 8 : Int) - 16 * (s.fld Reg.pwrTherm 7 0 : Int) ∧ s.power.coolMs = m ∧
       s.hottest < 16 * (s.fld Reg.pwrTherm 15 8 : Int)) ∧
    (∀ d ∈ [16 * 90, 16 * 95 - 1],
     let s : State := (base.setReg Reg.pwrTemp (word d)).setReg Reg.pwrTherm (word (105 * 2 ^ 16 + 95 * 2 ^ 8 + 5))
     s.live = true ∧ 16 * (s.fld Reg.pwrTherm 15 8 : Int) - 16 * (s.fld Reg.pwrTherm 7 0 : Int) ≤ s.hottest ∧
       s.hottest < 16 * (s.fld Reg.pwrTherm 15 8 : Int)) := by
  decide +kernel

theorem witness_Ceilings_temp : ∀ v ∈ [(-641 : Int), -640, 2400, 2401],
    base.live = true ∧ 15 < base.straps.tiles ∧ (base.tile 15).rest = .awake ∧ (List.replicate 48 v)[3 * 15 + 2]? = some v ∧ base.sensors ≠ [] := by
  decide +kernel

theorem witness_Ceilings_cap :
    let s : State := (((base.setReg Reg.pwrCap 1).setReg (Reg.pwrCoef 18) 1000).setReg Reg.pwrPolicyX (word (50 * 2 ^ 16 + 30 * 2 ^ 8 + 20)))
    let s : State := { s with tiles := s.tiles.map fun x => { x with rest := .resting } }
    s.live = true ∧ s.measuredMw = none ∧ s.fld Reg.pwrPolicyX 23 16 + s.fld Reg.pwrPolicyX 15 8 + s.fld Reg.pwrPolicyX 7 0 = 100 ∧
      (100 : Rat) * ((s.fld Reg.pwrCap 15 0 - s.fld Reg.pwrPolicyX 63 48 : Nat) : Rat) < nth s.partsMw 0 + nth s.partsMw 1 ∧
      (100 : Rat) * ((s.fld Reg.pwrCap 15 0 - s.fld Reg.pwrPolicyX 63 48 : Nat) : Rat) <
        predictMw (nth s.partsMw 0) (nth s.partsMw 1) s.power.clk s.power.capCeil ∧ s.power.capCeil < 5 := by
  decide +kernel

theorem witness_LedgerAndRest :
    (base.live = true ∧ base.measuredMw = none) ∧
    (let s : State := { base.setReg Reg.pwrRest 0x8000 with up := 8000000 }; s.live = true ∧ s.tileMayRest 15 = true ∧ s.tileMayRest 14 = false) ∧
    (let s : State := { base.setReg Reg.pwrRest 0x8F000 with tiles := (List.range 16).map fun t => { nth base.tiles t with rest := if 12 ≤ t then .resting else .awake } }
     s.live = true ∧ s.clusterMayRest 3 = true) ∧
    (∀ w ∈ [true, false],
     let s : State := base.updTile 15 fun x => { x with rest := .entering 5 w }
     s.live = true ∧ s.restOf (.tile 15) = .entering 5 w ∧ s.wakeCause (.tile 15) = true) ∧
    (let s : State := base.updTile 15 fun x => { x with rest := .resting }; s.live = true ∧ s.restOf (.tile 15) = .resting ∧ s.wakeCause (.tile 15) = true) ∧
    (let s : State := base.setReg Reg.pwrRest 0x8000; s.live = true ∧ s.wakeCause (.tile 15) = false) ∧
    (∀ c ∈ [true, false], ∀ d ∈ [0, 1],
     let s : State := base.updTile 15 fun x => { x with rest := .waking (3520000 + d), clearOnWake := c }
     s.live = true ∧ s.restOf (.tile 15) = .waking (3520000 + d) ∧ s.up = 4000000 ∧ (s.tile 15).clearOnWake = c) ∧
    (∀ d ∈ [0, 1],
     let s : State := { base.updCluster 3 fun x => { x with rest := .waking (3520000 + d) } with debugHeld := [(0x1000000, clusterAddr 3)] }
     s.live = true ∧ s.restOf (.cluster 3) = .waking (3520000 + d) ∧ s.up = 4000000 ∧ inDom s.straps (.cluster 3) (clusterAddr 3) = true) := by
  decide +kernel

/-! ## Submission -/

/-- Ring 3 of context 0 as given, enabled with 16 entries; the completion ring stands in the cluster's scratch with 16 entries; the Crier runs. -/
def crier (g : Ring) (f : Ctx → Ctx) : State :=
  let s : State := base.setReg (Reg.ctxRingCfg 0 3) 0x401
  let s : State := s.setReg (Reg.ctxCqCfg 0) 0x401
  let s : State := s.setReg (Reg.ctxCqBase 0) (word (cvaddr 0x1000))
  let s : State := s.setReg Reg.criCtrl 1
  s.updCtx 0 fun c => f { c with launches := [], rings := upd c.rings 3 fun _ => g }

/-- A record. -/
def trec (n : Nat) (here : Bool) : Rec := { (default : Rec) with count := n, here := here, entry := 64, consts := List.replicate 192 0 }

/-- A failing record. -/
def tbad (st : Nat) : Decision := ⟨st, 0, 16, 0, 0, 0⟩

theorem witness_CrierFetchesAndDispatches :
    (∀ p ∈ [true, false],
     let s := crier { Ring.reset with scanning := true, head := 5, tail := 5, pending := p } id
     (s.ring 0 3).scanning = true ∧ (s.ring 0 3).head = (s.ring 0 3).tail ∧ (s.ring 0 3).pending = p) ∧
    (let s := crier { Ring.reset with scanning := true, head := 0xFFFFFFFF, tail := 0 } id
     s.wantsFetch 0 3 = true ∧ s.fetchTurn 0 = true ∧ s.inject = none) ∧
    (∀ b ∈ [none, some (tbad 0x41)], ∀ d ∈ [none, some (tbad 0x40)],
     let k : Rec := { trec 5 false with bad := d }
     let before : List Rec := [{ trec 4 true with bad := b }]
     let s := crier { Ring.reset with failed := some (5, 2 ^ 60 + 0x1500), recs := before ++ k :: [trec 6 false] } id
     (s.ring 0 3).failed = some (5, 2 ^ 60 + 0x1500) ∧ (s.ring 0 3).recs = before ++ k :: [trec 6 false] ∧ (∀ x ∈ before, x.count ≠ 5) ∧
       k.count = 5 ∧ 3 < 4 ∧ (s.ctx 0).st ≠ .teardown ∧ ((∃ x ∈ before, x.bad = none) ↔ b = none)) ∧
    (∀ T ∈ [100000, 100001],
     let k : Rec := { trec 5 true with nb := some T, fetchedAt := 92000 }
     let s : State := { crier { Ring.reset with recs := [k] } id with bell := { Bell.reset with now := 100000 } }
     (s.ring 0 3).recs.head? = some k ∧ k.nb = some T ∧ k.here = true ∧ k.released = false ∧ s.bell.now = 100000) ∧
    (∀ b ∈ [none, some (tbad 0x41)],
     let k : Rec := { trec 5 true with bad := b }
     let s := crier { Ring.reset with recs := [k, trec 6 false] } id
     s.mayDispatch 0 = true ∧ s.pickRing 0 = some 3 ∧ (s.ring 0 3).recs = k :: [trec 6 false] ∧ s.inject = none ∧ k.nb = none) ∧
    (let k : Rec := { trec 5 true with nb := some 90000, released := true, onTime := false }
     let s : State := { crier { Ring.reset with recs := [k] } id with bell := { Bell.reset with now := 100000 } }
     s.mayDispatch 0 = true ∧ s.pickRing 0 = some 3 ∧ (s.ring 0 3).recs = k :: [] ∧ s.inject = none ∧ k.bad = none) := by
  decide +kernel

/-- The block as member `m` of a gang of 2, with a launch of context 0 under way. -/
def ganged (m : Nat) : State := { base with straps := { base.straps with gangSize := 2, gangMember := m } }

theorem witness_CrierFetchesAndDispatches_gang :
    ((ganged 0).gangM = 0 ∧ (ganged 0).ganged = true) ∧
    ((ganged 1).gangM ≠ 0 ∧ ((ganged 1).ctx 0).st = .active ∧ ((ganged 1).ctx 0).rst = none ∧ ((ganged 1).ctx 0).launch? 8 = none ∧
      (ganged 1).ops = [] ∧ ((ganged 1).ctx 0).launch? 7 = some tlaunch ∧ (ganged 1).leaseClusters 0 ≠ []) := by
  decide +kernel

/-- A record's bytes: word 2 and word 3 as given. -/
def recBytes (w2 w3 : Nat) : List Byte :=
  tbytes 64 8 ++ tbytes 200000 8 ++ tbytes w2 8 ++ tbytes w3 8 ++ List.replicate 224 0

theorem witness_CrierFetchesAndDispatches_record : ∀ b ∈ [none, some (tbad 0x40)], ∀ g ∈ [0, 0x80],
    ∀ p ∈ [(0, 3, none), (1, 3, none), (2 + 7 * 4, 3, none), (3, 3, some 0x10), (0, 4, some 0x18)],
    let bs := recBytes p.1 p.2.1
    let q := { treq 9 (.record 0 3 5) with len := 256 }
    let k : Rec := { trec 5 false with bad := b }
    let s : State := { crier { Ring.reset with recs := [k], head := 6, tail := 6 } id with reqs := [q] }
    let s : State := (s.setReg (Reg.ctxCadgrant 0) (word g)).setReg (Reg.bellCadPeriod 7) (word (4000 * 2 ^ 32))
    (s.ring 0 3).recs.find? (fun k => !k.here) = some k ∧
      s.reqs.find? (fun q => q.dest == .record 0 3 k.count && q.gen == (s.ctx 0).gen && !q.dropped) = some q ∧ q.path = .host ∧
      bs.length = 256 ∧ headerBad (fun i => word (leNat ((bs.drop (8 * i)).take 8))) = p.2.2 ∧
      bits (word (leNat ((bs.drop 16).take 8))) 1 0 = p.1 % 4 ∧
      (p.1 % 4 = 2 → s.cadFor 0 (bits (word (leNat ((bs.drop 16).take 8))) 5 2) = if g = 0 then none else some (0, 4000 * 2 ^ 32)) := by
  decide +kernel

/-- Launch 5 of ring 3. -/
def tl5 : Launch := { tlaunch with ring := 3, seq := 3 * 2 ^ 32 + 5 }

/-- Context 0 with its launches. -/
def launched (ls : List Launch) (f : Ctx → Ctx) : State :=
  crier { Ring.reset with head := 8, tail := 8 } fun c => f { c with launches := ls }

theorem witness_LaunchesEnd :
    (∀ p ∈ [([0], [], []), ([], [], []), ([], [1], []), ([], [], [(⟨5, 0, 1, ⟨0x0B, 64, 7, 0, 0⟩⟩ : ExcRep)])],
     let l : Launch := { tl5 with ended := if p.1 = [] then [0] else [], gangLeft := p.2.1, excs := p.2.2 }
     let s := launched [l] id
     (s.ctx 0).launch? l.seq = some l ∧ l.decision = none ∧ l.dispatched = true ∧ l.live = p.1 ∧ l.fromLead = false ∧
       (p.2.2 ≠ [] → firstExc l.excs = some ⟨5, 0, 1, ⟨0x0B, 64, 7, 0, 0⟩⟩)) ∧
    (let l : Launch := { tl5 with gangLeft := [1] }
     let s := launched [l] id
     (s.ctx 0).launch? l.seq = some l ∧ 1 ∈ l.gangLeft ∧ 2 ∉ l.gangLeft ∧ l.decision = none ∧ s.ops = []) ∧
    (∀ p ∈ [([], [0]), ([(⟨5, 0, 1, ⟨0x0B, 64, 7, 0, 0⟩⟩ : ExcRep)], [])],
     let l : Launch := { tl5 with fromLead := true, excs := p.1, ended := p.2 }
     let s := launched [l] id
     (s.ctx 0).launch? l.seq = some l ∧ l.fromLead = true ∧ s.launchStill 0 l.seq = true ∧ s.lanesOf 0 l.seq = [] ∧ l.decision = none ∧
       l.stage ≠ .stopping ∧ (l.live = [] ↔ p.2 = [0]) ∧ (firstExc l.excs = none ↔ p.1 = [])) ∧
    (∀ w ∈ [14, 15], ∀ c ∈ [CqSt.idle, .walk],
     let l : Launch := { tl5 with decision := some ⟨0x0B, 64, 7, 0, 0, 0⟩, ended := [0] }
     let s := launched [l] fun x => { x with written := w, reserved := 1, cq := c }
     let a := clusterAddr 0 + 0x1000 + 32 * w
     (s.ctx 0).launches = l :: [] ∧ l.decision = some ⟨0x0B, 64, 7, 0, 0, 0⟩ ∧ s.launchStill 0 l.seq = true ∧ l.gangLeft = [] ∧ l.fromLead = false ∧
       (s.ctx 0).cq = c ∧ (s.ctx 0).rst = none ∧ s.inject = none ∧ s.fld (Reg.ctxUndelStatus 0) 3 0 = 0 ∧
       vaTag (s.cqVa 0 (s.ctx 0).written) = 3 ∧ s.leaseAddr 0 (s.cqVa 0 (s.ctx 0).written % 2 ^ 60) = some a ∧ scratchBase ≤ a ∧ a < 2 ^ 43 ∧
       s.inLease 0 a = true ∧ s.inLease 0 (a + 31) = true) ∧
    (let l : Launch := { tl5 with decision := some ⟨0x0B, 64, 7, 0, 0, 0⟩, ended := [0] }
     let e : TlbEnt := ⟨crierCache, 0, 1, 2 ^ 60 + 0x5000, 4096, 2 ^ 55 + 0x9000, true, true, true, false⟩
     let s : State := { (launched [l] fun x => { x with reserved := 1 }).setReg (Reg.ctxCqBase 0) (word (2 ^ 60 + 0x5000)) with tlb := [e] }
     let v := s.cqVa 0 (s.ctx 0).written
     (s.ctx 0).launches = l :: [] ∧ s.launchStill 0 l.seq = true ∧ (s.ctx 0).cq = .idle ∧ (s.ctx 0).rst = none ∧ s.inject = none ∧
       s.fld (Reg.ctxUndelStatus 0) 3 0 = 0 ∧ vaTag v = 1 ∧ tagOk v = true ∧ s.tlb.find? (fun e => e.covers crierCache 0 (s.ctx 0).gen v) = some e ∧
       e.w = true ∧ e.untrans = false ∧ s.whereIs 0 (e.phys + (v - e.page)) = .host 0x9000 ∧ s.hostHeld = false) ∧
    (∀ i ∈ [0, 3],
     let l : Launch := { tl5 with decision := some ⟨0x0B, 64, 7, 0, 0, 0⟩, ended := [0] }
     let s : State := (launched [l] fun c => { c with cq := .failed, reserved := 1 }).setReg (Reg.ctxUndelStatus 0) (word (2 ^ i - 1))
     (s.ctx 0).launches = l :: [] ∧ l.decision = some ⟨0x0B, 64, 7, 0, 0, 0⟩ ∧ (s.ctx 0).cq = .failed ∧ (s.ctx 0).st ≠ .teardown ∧ i < 4 ∧
       ∀ j, j ≤ i → (s.flag (Reg.ctxUndelStatus 0) j = true ↔ j < i)) ∧
    (∀ p ∈ [(1, false), (0, false), (0, true)], ∀ d ∈ [0, 1],
     let l : Launch := { tl5 with tally := p.1, watchTally := 0, fired := p.2, window := 1000, watchAt := d }
     let s := launched [l] id
     0 < s.straps.contexts ∧ (s.ctx 0).launches = [l] ∧ (∀ e ∈ List.range 64, e ≠ 0 → (s.ctx e).launches = []) ∧ l.dispatched = true ∧
       l.decision = none ∧ l.fromLead = false ∧ s.inject = none ∧ s.lanesOf 0 l.seq = [] ∧ (l.watchAt + 4000 * l.window ≤ s.up ↔ d = 0)) ∧
    (let l : Launch := { tl5 with tally := 0, watchTally := 0 }
     let s : State := (launched [l] id).updLane l0 fun _ => { tlane with seq := l.seq, st := .ending }
     let o : Op := { s.newOp l0 (tw 0xC 0 0 1 0 0) .time with st := .running, tick := 5000 }
     let s := withOp s o
     (s.ctx 0).launches = [l] ∧ s.lanesOf 0 l.seq = [l0] ∧ s.timeOnly l0 = true) := by
  refine ⟨?_, ?_, ?_, ?_, ?_, ?_, ?_, ?_⟩ <;> decide +kernel

theorem witness_LaunchesEnd_abort : ∀ k ∈ [true, false],
    let ring := fun (h : Nat) (rs : List Rec) (c : Ctx) => { c with rings := upd c.rings 3 fun g => { g with head := h, recs := rs } }
    let ab := fun (q : Nat) (c : Ctx) => { c with abortT := some q, abortK := some q }
    let held := fun (s : State) (q : Nat) => (if k = true then (s.ctx 0).abortK else (s.ctx 0).abortT) = some q
    let ahead := fun (s : State) (n : Nat) => since32 (s.ring 0 3).tail n
    (∀ n ∈ [8, 9],
     let s := launched [tl5] (ab (3 * 2 ^ 32 + n))
     held s (3 * 2 ^ 32 + n) ∧ s.ringOn 0 3 = true ∧ (ahead s n = 0 ∨ 2 ^ 31 < ahead s n)) ∧
    (let s := launched [tl5] (ab (2 * 2 ^ 32 + 5)); held s (2 * 2 ^ 32 + 5) ∧ s.ringOn 0 2 = false) ∧
    (let s := launched [tl5] (ab (3 * 2 ^ 32 + 5))
     held s (3 * 2 ^ 32 + 5) ∧ 0 < ahead s 5 ∧ ahead s 5 ≤ 2 ^ 31 ∧ (s.ctx 0).launch? (3 * 2 ^ 32 + 5) = some tl5 ∧ tl5.decision = none ∧ s.ops = []) ∧
    (∀ b ∈ [none, some (tbad 0x41)],
     let r : Rec := { trec 7 true with bad := b }
     let s := launched [tl5] (ab (3 * 2 ^ 32 + 7) ∘ ring 8 [r])
     held s (3 * 2 ^ 32 + 7) ∧ 0 < ahead s 7 ∧ (s.ctx 0).launch? (3 * 2 ^ 32 + 7) = none ∧
       (s.ring 0 3).recs.find? (fun k => k.count == (3 * 2 ^ 32 + 7) % 2 ^ 32) = some r ∧ r.bad = b) ∧
    (∀ m ∈ [[], List.replicate 3 (0, tbad 0x40), List.replicate 4 (0, tbad 0x40)], ∀ kept ∈ [[], [(3 * 2 ^ 32 + 6, tbad 0x40)]],
     let s := launched [] (ab (3 * 2 ^ 32 + 6) ∘ (fun c => { c with marks := m, kept := kept }) ∘ ring 5 [])
     held s (3 * 2 ^ 32 + 6) ∧ 0 < ahead s 6 ∧ ahead s 6 ≤ 2 ^ 31 ∧ (s.ctx 0).launch? (3 * 2 ^ 32 + 6) = none ∧
       (∀ k ∈ (s.ring 0 3).recs, k.count ≠ 6) ∧ ahead s 6 ≤ since32 (s.ring 0 3).tail (s.ring 0 3).head ∧ (s.ctx 0).marks = m ∧
       ((∀ m ∈ (s.ctx 0).marks ++ (s.ctx 0).kept, m.1 ≠ 3 * 2 ^ 32 + 6) ↔ kept = [])) ∧
    (let l : Launch := { tl5 with decision := some (tbad 0x0B) }
     let s := launched [l] (ab (3 * 2 ^ 32 + 5))
     held s (3 * 2 ^ 32 + 5) ∧ 0 < ahead s 5 ∧ (s.ctx 0).launch? (3 * 2 ^ 32 + 5) = some l ∧ l.decision ≠ none) ∧
    (let s := launched [] (ab (3 * 2 ^ 32 + 5) ∘ ring 6 [])
     held s (3 * 2 ^ 32 + 5) ∧ 0 < ahead s 5 ∧ (s.ctx 0).launch? (3 * 2 ^ 32 + 5) = none ∧ (s.ring 0 3).recs = [] ∧
       since32 (s.ring 0 3).tail (s.ring 0 3).head < ahead s 5) := by
  intro k hk
  fin_cases hk <;> refine ⟨?_, ?_, ?_, ?_, ?_, ?_, ?_⟩ <;> decide +kernel

theorem nth_beyond {α : Type} [Inhabited α] (l : List α) (i : Nat) (h : l.length ≤ i) : nth l i = default := by
  simp [nth, List.getD, List.getElem?_eq_none h]

/-- Slots beyond the last of the block hold no launch. -/
theorem launched_others (ls : List Launch) (f : Ctx → Ctx) (e : Nat) (h : 64 ≤ e) : ((launched ls f).ctx e).launches = [] := by
  have : (launched ls f).ctxs.length ≤ e := by
    have : (launched ls f).ctxs.length = 64 := rfl
    omega
  rw [State.ctx, nth_beyond _ _ this]; rfl

/-! ## Barrows -/

/-- The word of a BAR instruction on barrow 5, with its semaphore bits. -/
def bw5 (op sig : Nat) : IWord := tl 0xA op (5 * 2 ^ 44 + 2 ^ 36 + sig)

/-- A BAR.MOVE of `n` bytes within the cluster's scratch, as an operation of lane 0. -/
def tmove (i : IWord) (n : Nat) : Op :=
  { (onLane i id).newOp l0 i (.barrow 5) with
    dd := tdesc (cvaddr 0x3000) 0 n 1 1 0 0, da := tdesc (cvaddr 0x1000) 0 n 1 1 0 0, total := (n + 255) / 256, id := 0 }

/-- A queued descriptor of that operation. -/
def tq (n : Nat) : QDesc :=
  { (default : QDesc) with op := 0, ctx := 0, gen := 1, lane := l0, seq := 7, total := (n + 255) / 256, running := true }

/-- The block with that operation on barrow 5. -/
def onBarrow (o : Op) (q : QDesc) (st : BarSt) : State :=
  { withOp (onLane o.iw id) o with barrows := upd base.barrows 5 fun _ => ⟨st, [q]⟩ }

theorem witness_BarrowsRun_queue :
    let o := tmove (bw5 0 0) 256
    let s := withOp (onLane o.iw id) o
    s.op? 0 = some o ∧ o.unit = .barrow 5 ∧ o.st = .queued ∧ s.qdesc? 5 0 = none ∧ 5 < s.barrows.length ∧
      (∀ k, k < o.total → ∀ r ∈ segRuns o k, vaTag r.1 = 3) ∧ vaTag (dBase o.dd) ≠ 2 := by
  decide +kernel

/-- A frame of page 0x5000 of the host space, and the cache entry that fills it. -/
def tframe (v : Bool) : Frame := ⟨2 ^ 60 + 0x5000, 4096, 2 ^ 55 + 0x9000, true, true, true, false, v, false, !v, false⟩
def tent : TlbEnt := ⟨0, 0, 1, 2 ^ 60 + 0x5000, 4096, 2 ^ 55 + 0x9000, true, true, true, false⟩

theorem witness_BarrowsRun_frame :
    let o : Op := { tmove (bw5 0 0) 256 with da := tdesc (2 ^ 60 + 0x5000) 0 256 1 1 0 0 }
    let q : QDesc := { tq 256 with frames := [tframe false], running := false }
    let s : State := { onBarrow o q .idle with tlb := [tent] }
    (s.barrow 5).q = [q] ∧ q.op = 0 ∧ q.segs = [] ∧ (tframe false).valid = false ∧ (tframe false).page = pageVa (2 ^ 60 + 0x5000) ∧
      s.op? 0 = some o ∧ iOp o.iw ≠ 2 ∧ s.inject = none ∧
      (s.tlb.find? fun e => e.covers (cacheOf q.lane) q.ctx q.gen (pageVa (2 ^ 60 + 0x5000))) = some tent ∧
      s.wantPages q o = [(pageVa (2 ^ 60 + 0x5000), (tframe false).dest)] ∧
      rightsOk tent.r tent.w tent.atomic (needOf o (tframe false).dest) = true := by
  decide +kernel

theorem witness_BarrowsRun_start :
    let o := tmove (bw5 0 0) 256
    let q : QDesc := { tq 256 with running := false }
    let s := onBarrow o q .idle
    ((s.barrow 5).q.find? fun q => !q.running) = some q ∧ s.op? q.op = some o ∧ s.mayStart o = true ∧ iOp o.iw ≠ 3 ∧ s.inject = none ∧
      ((s.barrow 5).q.filter fun r => r.running).length < 2 ∧ ∀ r ∈ (s.barrow 5).q, r.running = true → r.total ≤ r.next := by
  decide +kernel

theorem witness_BarrowsRun_issue :
    let o := tmove (bw5 0 0) 256
    let s := onBarrow o (tq 256) .moving
    let x := clusterAddr 0 + 0x1000
    let y := clusterAddr 0 + 0x3000
    (s.barrow 5).q = [tq 256] ∧ (tq 256).running = true ∧ (tq 256).failing = none ∧ (tq 256).fault = none ∧ (tq 256).recheck = false ∧
      (tq 256).segs = [] ∧ (tq 256).nextSeg = some 0 ∧ (s.barrow 5).st ≠ .purging ∧ s.op? (tq 256).op = some o ∧ iOp o.iw = 0 ∧ s.inject = none ∧ 0 < 256 ∧
      srcRuns o 0 = [(cvaddr 0x1000, 256)] ∧ dstRuns o 0 = [(cvaddr 0x3000, 256)] ∧ (∀ r ∈ segRuns o 0, vaTag r.1 = 3) ∧
      s.leaseAddr o.ctx (cvaddr 0x1000 % 2 ^ 60) = some x ∧ s.leaseAddr o.ctx (cvaddr 0x3000 % 2 ^ 60) = some y ∧ scratchBase ≤ x ∧ scratchBase ≤ y ∧
      x + 256 ≤ 2 ^ 43 ∧ y + 256 ≤ 2 ^ 43 ∧ s.inLease 0 x = true ∧ s.inLease 0 (x + 256 - 1) = true ∧ s.inLease 0 y = true ∧
      s.inLease 0 (y + 256 - 1) = true := by
  decide +kernel

/-- Segments beyond the last of such a move are empty. -/
theorem tmove_beyond (i : IWord) (hi : iOp i = 0) (j : Nat) : segRuns (tmove i 256) (j + 1) = [] := by
  have h1 : streamLen (tmove i 256).da = 256 := by
    show streamLen (tdesc (cvaddr 0x1000) 0 256 1 1 0 0) = 256
    decide +kernel
  have h2 : streamLen (tmove i 256).dd = 256 := by
    show streamLen (tdesc (cvaddr 0x3000) 0 256 1 1 0 0) = 256
    decide +kernel
  have h3 : iOp (tmove i 256).iw = 0 := hi
  have e : 256 - 256 * (j + 1) = 0 := by omega
  simp [segRuns, srcRuns, dstRuns, dstUnit, segVas, segRange, h1, h2, h3, e, runsBy]

theorem witness_BarrowsRun_complete : ∀ p ∈ [(0, 0, 512), (0, 1, 512), (0, 0, 256)], ∀ sig ∈ [0, 2 ^ 30 + 63 * 2 ^ 24],
    let o : Op := { tmove (bw5 0 sig) p.2.2 with st := .running }
    let g : Seg := ⟨p.2.1, [], [], 0, true, 0, false⟩
    let q : QDesc := { tq p.2.2 with segs := [g], done := p.1 }
    let s := onBarrow o q .moving
    s.op? 0 = some o ∧ o.id = 0 ∧ (s.barrow 5).q = [q] ∧ q.op = 0 ∧ q.segs = [g] ∧ g.k = p.2.1 ∧ g.formed = true ∧ g.dead = false ∧ (∀ p ∈ g.dst, p.sent = true) ∧
      g.waits = 0 ∧ q.failing = none ∧ iOp o.iw ≠ 3 ∧ q.bitmap = [] ∧ q.done = p.1 ∧ q.done ≠ q.total ∧ bSig o.iw = decide (sig ≠ 0) ∧
      bSem o.iw < (s.ctx o.ctx).sems.length ∧ nth (s.ctx o.ctx).sems (bSem o.iw) + 1 < 2 ^ 32 := by
  decide +kernel

theorem witness_BarrowsRun_waits : ∀ g ∈ [(⟨0, [], [], 0, false, 0, false⟩ : Seg), ⟨0, [], [], 0, true, 0, true⟩, ⟨0, [], [default], 0, true, 0, false⟩,
      ⟨0, [], [], 1, true, 0, false⟩],
    let o : Op := { tmove (bw5 0 0) 512 with st := .running }
    let q : QDesc := { tq 512 with segs := [g] }
    let s := onBarrow o q .moving
    s.op? 0 = some o ∧ o.id = 0 ∧ (s.barrow 5).q = [q] ∧ q.op = 0 ∧ q.segs = [g] ∧ g.k = 0 ∧
      (g.formed = false ∨ g.dead = true ∨ (∃ p ∈ g.dst, p.sent = false) ∨ 0 < g.waits) := by
  decide +kernel

theorem witness_BarrowsRun_replay :
    let o : Op := { tmove (bw5 0 0) 256 with st := .running, da := tdesc (2 ^ 60 + 0x5000) 0 256 1 1 0 0 }
    let q : QDesc := { tq 256 with fault := some (2 ^ 60 + 0x5000), frames := [tframe true] }
    let s := onBarrow o q .stalledFault
    (s.barrow 5).q = [q] ∧ q.fault = some (2 ^ 60 + 0x5000) ∧ q.failing = none ∧ s.op? q.op = some o ∧
      (∀ f ∈ q.frames, f.valid = true ∧ 0 < f.size) ∧ (s.barrow 5).st ≠ .purging ∧
      (s.wantPages { q with fault := none, next := q.done } o) = [(2 ^ 60 + 0x5000, false)] ∧
      ∀ p ∈ s.wantPages { q with fault := none, next := q.done } o, ∃ f ∈ q.frames, f.covers p.1 p.2 = true := by
  decide +kernel

theorem witness_BarrowsRun_grant :
    (∀ f ∈ [0, 1],
     let s : State := { base with barrows := upd (upd base.barrows 3 fun b => { b with st := .stalledBudget }) 23 fun b => { b with st := .stalledBudget },
                                  grantTurn := 4 }
     let s : State := if f = 0 then s.setReg Reg.barTxn 0 else s
     (s.poolTurn = some 23 ∨ (s.poolTurn = none ∧ (((List.range s.straps.barrows).map fun i => (s.grantTurn + i) % s.straps.barrows).find? fun b =>
        (s.barrow b).st == .stalledBudget) = some 23)) ∧ ∀ q ∈ (s.barrow 23).q, q.segs = []) ∧
    (∀ b, b < base.straps.barrows → (base.barrow b).st ≠ .stalledBudget) := by
  decide +kernel

/-! ## Translation -/

/-- A translation of page 0x5000 of the host space under way for lane 0. -/
def txreq (walk held : Bool) : XReq :=
  { id := 3, engine := 12, cache := 0, ctx := 0, gen := 1, page := 2 ^ 60 + 0x5000, write := false, atomic := false, walk := walk, hostWalk := walk,
    priv := false, stale := false, after := [], running := walk, held := held }

theorem witness_TranslationResults_ats : ∀ st ∈ [true, false],
    let x : XReq := { txreq false false with stale := st }
    let s : State := { base with xreqs := [x] }
    s.relayed 3 3 = none ∧ (s.xreqs.find? fun x => x.id == 3 && !x.walk && !x.held) = some x ∧ x.gen = s.genOf 0 ∧ x.stale = st ∧ x.after = [] ∧
      ({ s with xreqs := s.xreqs.filter fun y => y.id != 3 } : State).waiters (some 0) 0 1 (2 ^ 60 + 0x5000) = [] ∧
      (∀ r ∈ [(⟨2 ^ 55 - 4096, 4096, true, false, false⟩ : AtsResult), ⟨2 ^ 54, 2 ^ 40, false, true, false⟩],
        let size := max 4096 r.size
        let used := min size (2 ^ 30)
        let b := x.page / used * used
        r.addr / size * size + (b - x.page / size * size) + used ≤ 2 ^ 55) ∧
      2 ^ 55 < (2 ^ 55 : Nat) / 4096 * 4096 + (x.page / 4096 * 4096 - x.page / 4096 * 4096) + 4096 := by
  decide +kernel

/-- One-level pages of 4 KiB: valid in bit 0, write in bit 1, the frame from bit 12. -/
def walker : State :=
  let s : State := base.setReg Reg.xltFmtX0 (word (0 + 1 * 2 ^ 8 + 63 * 2 ^ 14 + 63 * 2 ^ 20 + 63 * 2 ^ 26 + 63 * 2 ^ 32 + 63 * 2 ^ 38 + 12 * 2 ^ 44 + 51 * 2 ^ 50))
  let s : State := s.setReg Reg.xltFmtX1 (word (1 * 2 ^ 8 + 9 * 2 ^ 4))
  { s.setReg Reg.xltCtrl (word (4 * 2 ^ 8 + 2 * 2 ^ 4)) with xreqs := [txreq true false] }

theorem witness_TranslationResults_walk :
    let x := txreq true false
    (walker.xreqs.find? fun x => x.id == 3 && x.walk) = some x ∧ x.running = true ∧ x.gen = walker.genOf 0 ∧ walker.hostHeld = false ∧
      (∀ p ∈ [([word 0x9003], WalkRes.leaf 0x5000 4096 (2 ^ 55 + 0x9000) true true), ([word 0x9002], .absent), ([], .error)],
        (walker.walk x p.1).1 = p.2 ∧ (walker.walk x p.1).2.1.reads ≠ [] ∧
          ({ (walker.walk x p.1).2.2 with xreqs := (walker.walk x p.1).2.2.xreqs.filter fun y => y.id != 3 } : State).waiters (some 0) 0 1
            (2 ^ 60 + 0x5000) = []) ∧
      (let s : State := { walker with pins := { walker.pins with bme := false } }; (s.walk x [word 0x9003]).2.1.reads ≠ [] ∧ s.hostHeld = true) ∧
      (let s : State := { walker with xreqs := [{ x with running := false }, { x with id := 4, gen := 0 }] }
       (s.xreqs.find? fun x => x.id == 3 && x.walk) = some { x with running := false } ∧
         (s.xreqs.find? fun x => x.id == 4 && x.walk) = some { x with id := 4, gen := 0 } ∧ (0 : Nat) ≠ s.genOf 0) := by
  decide +kernel

/-- A page request of context 0. -/
def tpr : PageReq := { index := 511, ctx := 0, gen := 1, page := 2 ^ 60 + 0x5000, write := true, sentUp := 0, dead := false, waiting := false }

theorem witness_TranslationResults_page :
    ∀ d ∈ [0, 1], ∀ dead ∈ [true, false],
    let p : PageReq := { tpr with dead := dead }
    let s : State := { (base.setReg Reg.xltPri (word (1 * 2 ^ 32))) with pageReqs := [p], up := 4000000 - d }
    s.relayed 4 511 = none ∧ (s.pageReqs.find? fun p => p.index == 511 && !p.waiting) = some p ∧ p.dead = dead ∧ p.gen = s.genOf p.ctx ∧
      (∀ y ∈ s.pageReqs, y ≠ p → y.waiting = false) ∧ s.waiters none p.ctx p.gen p.page = [] ∧
      (dead = false → (s.pageReqs.find? fun p => p.index == 511 && !p.waiting && !p.dead) = some p) ∧
      p.sentUp + s.fld Reg.xltPri 47 32 * msT = 4000000 ∧
      ({ s with pageReqs := s.pageReqs.map fun q => if q == p then { q with dead := true } else q } : State).waiters none p.ctx p.gen p.page = [] := by
  decide +kernel

/-- A withdrawal that still waits for the engines of a mask. -/
def twd (m : Nat) (itag : Option Nat) (tags : List Nat) : Withdraw :=
  { id := 6, itag := itag, drain := false, ctxs := [0], first := 2 ^ 60, pages := 16, engines := m, arrived := 0, tags := tags, members := [] }

theorem witness_TranslationResults_withdraw :
    (let s : State := { base with withdraws := List.replicate 32 (twd 1 (some 3) []) }; 32 ≤ (s.withdraws.filter fun w => w.itag.isSome).length) ∧
    (let s : State := { base with withdraws := List.replicate 31 (twd 1 (some 3) []), tlb := [tent] }
     (s.withdraws.filter fun w => w.itag.isSome).length < 32 ∧ (s.barrows.all fun b => decide (b.q = [])) = true) ∧
    (∀ m ∈ [2 ^ 31, 2 ^ 31 + 1], ∀ itag ∈ [some 31, none], ∀ drain ∈ [true, false], ∀ a ∈ [true, false],
     let w : Withdraw := { twd m itag [9] with drain := drain }
     let s : State := { base with withdraws := [w], reqs := [{ treq 9 (.debug 0) with engine := if a then 31 else 30, abandoned := a }] }
     s.withdraws = [w] ∧ w.id = 6 ∧ 31 < 32 ∧ w.engines < 2 ^ 32 ∧ w.members = [] ∧ w.drain = drain ∧
       (∀ r ∈ s.reqs, r.tag ∈ w.tags → r.engine = 31 → r.gen ≠ s.genOf r.ctx ∨ r.abandoned = true) ∧
       (maskDiff m (2 ^ 31) = 0 ↔ m = 2 ^ 31)) ∧
    (let w := twd (2 ^ 31) (some 3) [9]
     let s : State := { base with withdraws := [w], reqs := [{ treq 9 (.debug 0) with engine := 31 }] }
     s.withdraws = [w] ∧ w.members = [] ∧ w.engines ≠ 0 ∧
       ∃ r ∈ s.reqs, r.tag ∈ w.tags ∧ r.engine = 31 ∧ r.gen = s.genOf r.ctx ∧ r.abandoned = false) := by
  refine ⟨?_, ?_, ?_, ?_⟩ <;> decide +kernel

theorem witness_TranslationResults_abandon :
    (∀ d ∈ [0, 1], ∀ dropped ∈ [true, false],
     let r : Req := { treq 9 (.record 0 3 5) with dropped := dropped }
     let s : State := { base with withdraws := [twd 1 (some 3) [9]], reqs := [r], up := 200000 - d }
     (s.withdraws.find? fun w => w.id == 6) = some (twd 1 (some 3) [9]) ∧ s.req? 9 = some r ∧ 9 ∈ (twd 1 (some 3) [9]).tags ∧ r.abandoned = false ∧
       r.dropped = dropped ∧ r.gen = s.genOf r.ctx ∧ (twd 1 (some 3) [9]).arrived + 50 * usT = 200000 ∧ r.dest = .record 0 3 5 ∧
       0 < s.ctxs.length ∧ 3 < (s.ctx 0).rings.length ∧ (s.ring 0 3).failed = none) ∧
    (∀ t ∈ [8, 9],
     let r : Req := { treq 9 (.record 0 3 5) with abandoned := t == 9 }
     let s : State := { base with withdraws := [twd 1 (some 3) [t]], reqs := [r] }
     (s.withdraws.find? fun w => w.id == 6) = some (twd 1 (some 3) [t]) ∧ s.req? 9 = some r ∧ (9 ∉ (twd 1 (some 3) [t]).tags ∨ r.abandoned = true)) := by
  decide +kernel

/-! ## The fabric -/

theorem barrows_idle (s : State) (h : ∀ x ∈ s.barrows, x.q = [] ∧ x.st ≠ .stalledBudget) : s.IdleBarrows := by
  intro b
  by_cases hb : b < s.barrows.length
  · have : s.barrow b = s.barrows[b] := by simp [State.barrow, nth, List.getD, List.getElem?_eq_getElem hb]
    rw [this]; exact h _ (List.getElem_mem hb)
  · rw [State.barrow, nth_beyond _ _ (by omega)]
    exact ⟨rfl, by decide⟩

/-- One operation in hand, as a test. -/
def oneSegmentB (s : State) (b : Nat) (q : QDesc) (g : Seg) (o : Op) (x : Launch) : Bool :=
  decide ((s.barrow b).q = [q]) && (List.range s.barrows.length).all (fun a => a == b || (s.barrow a).q.isEmpty) && decide (q.segs = [g]) &&
    q.failing.isNone && decide (s.ops = [o]) && o.id == q.op && decide ((s.ctx o.ctx).launch? o.seq = some x) && x.decision.isNone

theorem oneSegment_of (s : State) (b : Nat) (q : QDesc) (g : Seg) (o : Op) (x : Launch) (h : oneSegmentB s b q g o x = true) :
    s.OneSegment b q g o x := by
  simp only [oneSegmentB, Bool.and_eq_true, decide_eq_true_eq, beq_iff_eq, Option.isNone_iff_eq_none] at h
  obtain ⟨⟨⟨⟨⟨⟨⟨h1, h2⟩, h3⟩, h4⟩, h5⟩, h6⟩, h7⟩, h8⟩ := h
  refine ⟨h1, fun a ha => ?_, h3, h4, h5, h6, h7, h8⟩
  by_cases hb : a < s.barrows.length
  · have := (List.all_eq_true.mp h2) a (List.mem_range.mpr hb)
    simpa [ha] using this
  · rw [State.barrow, nth_beyond _ _ (by omega)]; rfl

/-- A head flit from block 9 with one message. -/
def thead (dst : Nat) (hop : Nat) (m : MsgBody) : Head :=
  { dst := dst, src := 9, vc := 0, enc := false, hop := hop, phase := 0, job := 0x25, sent := 78125000, ivSrc := 0, ivCount := 0,
    slots := 1, dataFlits := 0, msgs := [⟨1, 0, 0, 0, m⟩], sealed := [], tag := 0 }

theorem witness_BellLinks_departs : ∀ b ∈ [MsgBody.timeReq 5, .timeResp 5 6 7],
    let q : QHead := ⟨none, true, thead 0 0 b⟩
    let s : State := { linked 0 base with ports := upd base.ports 0 fun _ => { Port.reset with queue := [q] } }
    q.own = true ∧ q.slot = none ∧ s.inject = none ∧ (nth s.ports 0).queue = [q] ∧ q.head.msgs = [⟨1, 0, 0, 0, b⟩] := by
  decide +kernel

theorem witness_LinkPorts_ports :
    (∀ p ∈ [0, 7], ∀ st ∈ [0, 1, 2, 3],
     let s : State := base.setReg (Reg.fabPortCfg p) (word (2 * st + 1))
     s.straps.build ≠ .c1 ∧ p < s.straps.ports ∧ s.fld (Reg.fabPortCfg p) 2 1 = st ∧ (nth s.ports p).queue = []) ∧
    (∀ n ∈ [6, 7], ∀ p ∈ [2, 7],
     let s : State := { base.setReg (Reg.fabPortCfg p) 5 with
                          ports := upd base.ports p fun _ => { Port.reset with replays := n, buf := [(3, thead 9 0 .error)] } }
     s.straps.build ≠ .c1 ∧ p < s.straps.ports ∧ 2 ≤ p ∧ s.fld (Reg.fabPortCfg p) 2 1 = 2 ∧ (nth s.ports p).replays = n ∧
       (nth s.ports p).buf = [(3, thead 9 0 .error)]) ∧
    (linked 0 base).portUp 0 = true ∧ (linked 0 base).portUp 7 = false := by
  decide +kernel

/-- The linked block at station time 20,000,000,000, with staleness checked. -/
def heads : State :=
  let s : State := (linked 0 base).setReg Reg.fabCtrl 3
  let s : State := s.setReg Reg.fabId 8
  let s : State := (s.setReg (Reg.fabPortCfg 1) 5).setReg (Reg.fabRt 0 1) 0x8180
  { s with bell := { Bell.reset with now := 20000000000 } }

theorem witness_LinkPorts_heads :
    heads.straps.build ≠ .c1 ∧ heads.portUp 0 = true ∧ heads.portUp 7 = false ∧ heads.inject = none ∧
    heads.stale { thead 9 0 .error with sent := 78125000 - 31251 } = true ∧
    (∀ hop ∈ [30, 31], heads.stale (thead 9 hop .error) = false ∧ isTime (thead 9 hop .error) = false ∧
       (thead 9 hop .error).dst ≠ heads.fld Reg.fabId 11 0) ∧
    heads.route 0 9 = some 1 ∧ heads.portUp 1 = true ∧ (heads.setReg (Reg.fabPortCfg 1) 0).portUp 1 = false ∧
    (heads.setReg (Reg.fabPortCfg 1) 0).route 0 9 = some 1 ∧ heads.route 0 100 = none ∧ (thead 100 30 .error).dst ≠ heads.fld Reg.fabId 11 0 ∧
    (let h := thead 8 0 (.reserved 9)
     heads.stale h = false ∧ h.dst = heads.fld Reg.fabId 11 0 ∧ h.enc = false ∧ hasReserved h.msgs = true) := by
  decide +kernel

theorem witness_LinkPorts_own :
    (∀ p ∈ [(MsgBody.cgAbort tcg, none, 0), (.mgmt ⟨3, 5, 0, 1, [1]⟩, none, 1), (.read 0 64, some 1, 2), (.error, none, 3)],
     let h := thead 8 0 p.1
     let m : Msg := ⟨1, 0, 0, 0, p.1⟩
     heads.stale h = false ∧ h.dst = heads.fld Reg.fabId 11 0 ∧ h.enc = false ∧ h.msgs = [m] ∧ hasReserved [m] = false ∧ heads.answerOf h m = p.2.1 ∧
       (p.2.2 = 1 → vcOf m.body = 3) ∧ (p.2.2 = 2 → isRequest m.body = true)) ∧
    (∀ b ∈ [MsgBody.read 0 64, .ack 0],
     let h := thead 8 0 b
     let m : Msg := ⟨1, 5, 0, 0, b⟩
     heads.stale h = false ∧ hasReserved [m] = false ∧ heads.answerOf h m = some 2 ∧ (isRequest b = true ∨ isResponse b = true)) ∧
    (let h := thead 9 0 (.timeReq 5)
     heads.stale h = false ∧ isTime h = true ∧ hasReserved h.msgs = false) ∧
    (let h : Head := { thead 8 0 .error with enc := true }
     heads.stale h = false ∧ h.dst = heads.fld Reg.fabId 11 0 ∧ heads.slotOfJob h.job = some 0 ∧ heads.tagHolds 0 h = false) := by
  decide +kernel

/-- A head whose tag is the one that its key gives is taken (R282). -/
theorem witness_LinkPorts_tag :
    let h : Head := { thead 8 0 .error with enc := true }
    let h : Head := { h with tag := Config.gcmTag 5 (headIv h) (headAad h) h.sealed }
    let s : State := { heads with keys := upd heads.keys 0 fun _ => (⟨some 5, 0, none⟩, KeyPhase.empty) }
    s.slotOfJob h.job = some 0 ∧ s.tagHolds 0 h = true := by
  intro h0 h s
  have h1 : s.keyPhase (s.fld (Reg.fabJobCfg 0) 59 56) 0 = ⟨some 5, 0, none⟩ := by decide +kernel
  have h2 : s.keyInForce (s.fld (Reg.fabJobCfg 0) 59 56) = 0 := by decide +kernel
  refine ⟨by decide +kernel, ?_⟩
  have hp : h.phase = 0 := rfl
  have ht : h.tag = Config.gcmTag 5 (headIv h) (headAad h) h.sealed := rfl
  simp only [State.tagHolds, hp, h1, h2, ht, beq_self_eq_true, Bool.true_or, Bool.and_self]

/-- A request to job block 1, outstanding on port 0. -/
def tlreq (d : Dest) (w : Bool) : Req := { treq 9 d with path := .link 0 0x25, peer := 1, write := w, sentUp := 0, len := 256 }

/-- A segment of two pieces, the second of which has its bytes. -/
def tseg (formed : Bool) : Seg :=
  { k := 0, src := [⟨cvaddr 0x1000, 256, some 0, false, true, none⟩, ⟨cvaddr 0x1100, 0, some 0, false, true, none⟩],
    dst := [⟨cvaddr 0x3000, 256, some (clusterAddr 0 + 0x3000), false, true, none⟩], waits := 1, formed := formed, clamps := 0, dead := false }

/-- One operation on barrow 5 with such a segment in flight, at uptime `up`. -/
def inFlight (formed : Bool) (r : Req) (up : Nat) : State :=
  let o : Op := { tmove (bw5 0 0) 256 with st := .running }
  { linked 0 (onBarrow o { tq 256 with segs := [tseg formed], next := 1 } .moving) with reqs := [r], up := up }

/-- The one request outstanding is the last of its segment. -/
theorem lastOf_only (s : State) (b op k tag : Nat) (r : Req) (h : s.reqs = [r]) (ht : r.tag = tag) : s.LastOf b op k tag := by
  intro y hy hn
  rw [h, List.mem_singleton] at hy
  exact absurd ((congrArg Req.tag hy).trans ht) hn

theorem witness_LinkPorts_timeout :
    (∀ d ∈ [true, false], ∀ up ∈ [7999999, 8000000],
     let r : Req := { tlreq (.ackSeg 5 0 0) true with dropped := d }
     let s : State := { linked 0 base with reqs := [r], up := up }
     s.req? 9 = some r ∧ r.path = .link 0 0x25 ∧ r.dropped = d ∧ r.sentUp + 2 * msT = 8000000 ∧ s.IdleBarrows) ∧
    (∀ d ∈ [Dest.seg 5 0 0 0, Dest.ackSeg 5 0 0],
     let r := tlreq d (d == .ackSeg 5 0 0)
     let s := inFlight true r 8000000
     let q : QDesc := { tq 256 with segs := [tseg true], next := 1 }
     s.req? 9 = some r ∧ r.path = .link 0 0x25 ∧ r.sentUp + 2 * msT ≤ s.up ∧ r.dropped = false ∧ r.gen = s.genOf r.ctx ∧
       (r.dest = .seg 5 q.op 0 0 ∨ r.dest = .ackSeg 5 q.op 0) ∧ (tseg true).k = 0 ∧
       s.LastOf 5 q.op 0 9 ∧ s.OneSegment 5 q (tseg true) { tmove (bw5 0 0) 256 with st := .running } tlaunch) := by
  constructor
  · intro d hd up hu
    refine ⟨?_, ?_, ?_, ?_, barrows_idle _ ?_⟩ <;> fin_cases hd <;> fin_cases hu <;> decide +kernel
  · intro d hd
    refine ⟨?_, ?_, ?_, ?_, ?_, ?_, ?_, ?_, oneSegment_of _ _ _ _ _ _ ?_⟩ <;> fin_cases hd <;> (try exact lastOf_only _ _ _ _ _ _ rfl rfl) <;> decide +kernel

theorem witness_LinkPorts_rest :
    (∀ now ∈ [99999, 100000],
     let s : State := { base with keys := upd base.keys 15 fun _ => (⟨some 5, 0, none⟩, ⟨some 6, 0, some 100000⟩), bell := { Bell.reset with now := now } }
     (s.keyPhase 15 (1 - s.keyInForce 15)).until_ = some 100000 ∧ s.bell.now = now) ∧
    (∀ up ∈ [3999, 4000], let s : State := { base with up := up }; 63 < s.ctxs.length ∧ (s.ctx 63).tokenAt + usT = 4000 ∧ s.IdleBarrows) := by
  refine ⟨?_, fun up hu => ⟨?_, ?_, barrows_idle _ ?_⟩⟩
  · decide +kernel
  all_goals fin_cases hu <;> decide +kernel

/-- A request of a peer at this block, whose job does not ask for encryption. -/
def asked (m : MsgBody) : State := { linked 0 base with inbox := [tmsg m] }

/-- Attached memory: one channel in service. -/
def withMem (s : State) : State := ((s.setReg Reg.memMap 0x100000C00).setReg (Reg.memChStatus 0) 2).setReg Reg.memCtrl 1

theorem witness_PeerMessages_requests :
    (∀ a ∈ [scratchBase + 0x100, 7 * 2 ^ 27 - 64, 7 * 2 ^ 27 - 63], ∀ n ∈ [5, 64],
     let bs : List Byte := List.replicate n 7
     let s := withMem (asked (.write a n bs))
     s.inbox[0]? = some (tmsg (.write a n bs)) ∧ s.inject = none ∧ bs.length = n ∧ 0 < n ∧ s.slotOfJob (tmsg (.write a n bs)).job = some 0 ∧
       s.flag (Reg.fabJobCfg 0) 62 = false ∧ s.straps.build ≠ .c1 ∧ s.route 8 9 = some 0 ∧ s.portUp 0 = true ∧
       (scratchBase ≤ a ∨ (s.memRange a n = false ∧ s.memRoom a n true = true ∧ decide (0 < s.partLines a n) = (n == 5)) ∨
         s.memRange a n = decide (n = 64))) ∧
    (let s := withMem (asked .error)
     scratchBase > 7 * 2 ^ 27 - 64 ∧ s.memRange (7 * 2 ^ 27 - 64) 64 = false ∧ s.memRoom (7 * 2 ^ 27 - 64) 64 true = true ∧
       s.partLines (7 * 2 ^ 27 - 64) 64 = 0 ∧ 0 < s.partLines (7 * 2 ^ 27 - 64) 5 ∧ s.memRoom (7 * 2 ^ 27 - 64) 5 true = true ∧
       s.memRange (7 * 2 ^ 27 - 64) 5 = false ∧ s.memRange (7 * 2 ^ 27 - 63) 64 = true ∧ s.memRoom (7 * 2 ^ 27 - 64) 64 false = true) ∧
    ((asked .error).memRoom 0 64 true = false ∧ (asked .error).memRoom 0 64 false = false ∧
      (asked .error).memRange 0 64 = true) ∧
    (let full : Chan := { Chan.reset with reads := List.replicate 64 (default : MReq), writes := List.replicate 64 (default : MReq) }
     let s := withMem (asked .error)
     let s : State := { s with mem := { s.mem with chans := upd s.mem.chans 0 fun _ => full } }
     s.memRange 0 64 = false ∧ s.memRoom 0 64 true = false ∧ s.memRoom 0 64 false = false) ∧
    (∀ a ∈ [scratchBase, 0x100],
     let s := asked (.reduce a 4 0 16 [1, 2, 3, 4])
     s.inbox[0]? = some (tmsg (.reduce a 4 0 16 [1, 2, 3, 4])) ∧ s.inject = none ∧ [1, 2, 3, 4].length = 4 ∧ decide (scratchBase ≤ a) = (a != 0x100)) ∧
    (∀ a ∈ [scratchBase, 7 * 2 ^ 27 - 64, 7 * 2 ^ 27 - 63],
     let s := withMem (asked (.read a 64))
     s.inbox[0]? = some (tmsg (.read a 64)) ∧ s.inject = none) := by
  decide +kernel

theorem witness_PeerMessages_unasked : ∀ m ∈ [MsgBody.ack 0, .data [1], .refuse 2, .error],
    (asked m).inbox[0]? = some (tmsg m) ∧ (asked m).answered (tmsg m) = none := by
  decide +kernel

theorem witness_PeerMessages_answers :
    (let r := { tlreq (.ackSeg 5 0 0) true with tag := 0 }
     let g : Seg := { tseg true with dst := [⟨cvaddr 0x3000, 256, some 0, false, true, none⟩] }
     let q : QDesc := { tq 256 with segs := [g], next := 1 }
     let o : Op := { tmove (bw5 0 0) 256 with st := .running }
     ∀ m ∈ [MsgBody.ack 3, .refuse 1, .error],
     let s : State := { linked 0 (onBarrow o q .moving) with reqs := [r], inbox := [tmsg m] }
     s.inbox[0]? = some (tmsg m) ∧ s.answered (tmsg m) = some r ∧ r.dropped = false ∧ r.gen = s.genOf r.ctx ∧ s.OneSegment 5 q g o tlaunch ∧
       s.LastOf 5 q.op g.k r.tag ∧ g.dead = false ∧ s.inject = none ∧ r.write = true ∧ r.dest = .ackSeg 5 q.op g.k ∧ g.formed = true ∧ (∀ p ∈ g.src, p.sent = true) ∧ (∀ p ∈ g.dst, p.sent = true)) ∧
    (let r := { tlreq (.seg 5 0 0 0) false with tag := 0 }
     let q : QDesc := { tq 256 with segs := [tseg false], next := 1 }
     let o : Op := { tmove (bw5 0 0) 256 with st := .running }
     let bs : List Byte := List.replicate 256 7
     let s : State := { linked 0 (onBarrow o q .moving) with reqs := [r], inbox := [tmsg (.data bs)] }
     s.inbox[0]? = some (tmsg (.data bs)) ∧ s.answered (tmsg (.data bs)) = some r ∧ r.dropped = false ∧ r.gen = s.genOf r.ctx ∧
       s.OneSegment 5 q (tseg false) o tlaunch ∧ (tseg false).dead = false ∧ s.inject = none ∧ r.write = false ∧ r.dest = .seg 5 q.op (tseg false).k 0 ∧ bs.length = r.len ∧
       (tseg false).formed = false ∧ (∀ p ∈ (tseg false).src, p.sent = true) ∧ (∀ p ∈ (tseg false).dst, p.bytes = none ∧ p.pa.isSome = true) ∧ 1 ≠ 0 ∧
       (((tseg false).src[1]?).map fun p => p.bytes) = some none) := by
  constructor
  · intro r g q o m hm
    refine ⟨?_, ?_, ?_, ?_, oneSegment_of _ _ _ _ _ _ ?_, lastOf_only _ _ _ _ _ r rfl rfl, ?_, ?_, ?_, ?_, ?_, ?_, ?_⟩ <;> fin_cases hm <;> decide +kernel
  · refine ⟨?_, ?_, ?_, ?_, oneSegment_of _ _ _ _ _ _ ?_, ?_, ?_, ?_, ?_, ?_, ?_, ?_, ?_, ?_, ?_⟩ <;> decide +kernel

theorem witness_PeerMessages_mgmt : ∀ p ∈ [(0, 0), (65, 0), (1, 0), (1, 1), (2, 1), (64, 63)], ∀ kind ∈ [0, 1, 2, 3, 4, 5, 6, 7],
    let f : MgmtFrag := ⟨kind, 5, p.2, p.1, [1]⟩
    let s := asked (.mgmt f)
    s.inbox[0]? = some (tmsg (.mgmt f)) ∧ s.insp.partials = [] ∧ f.count = p.1 ∧ f.index = p.2 ∧ s.ganged = false := by
  decide +kernel

theorem witness_PeerMessages_relay : ∀ m ∈ [0, 1],
    let f : MgmtFrag := ⟨4, 5, 0, 1, [1]⟩
    let s := ((ganged m).setReg (Reg.fabJobMap 15) 2).setReg (Reg.fabJmap 0) 0x80098008
    let s : State := { s with inbox := [tmsg (.mgmt f)] }
    s.inbox[0]? = some (tmsg (.mgmt f)) ∧ s.ganged = true ∧ s.gangM = m ∧ s.memberOf (tmsg (.mgmt f)).srcFab = some 1 := by
  decide +kernel

/-- Group 3 is bound to job slot 0 in mode 2 at epoch 5, with children 1 and 2 or only child 1, below block 3 or at the root; its epoch is open. -/
def treed (root : Bool) (kids : Nat) (x : BarGroup) (m : Delivered) : State :=
  let s : State := linked 0 base
  let s : State := s.setReg (Reg.fabBarCfg 3) (word (2 * 2 ^ 32 + kids * 2 ^ 17 + 3 * 2 ^ 5 + (if root then 16 else 0)))
  let s : State := s.setReg (Reg.fabBchild 0) 0x0000000000020001
  let s : State := s.setReg (Reg.fabBarStatus 3) (word (5 * 2 ^ 49))
  { s with barGroups := [x], inbox := [m] }

/-- What a child reports. -/
def tarr (g e : Nat) : ArriveInfo :=
  { group := g, epoch := e, count := 1, slack := -5, slackBlock := 1, leastTick := 0, greatestTick := 0, noneFlag := true, pace := 7, paceBlock := 0, overruns := 0 }

theorem witness_BarrierTree_arrive :
    (let a := tarr 3 5
     let x := tbar 3 [] none
     let s := treed false 2 x (tmsg (.arrive a))
     s.inbox[0]? = some (tmsg (.arrive a)) ∧ s.barMsgOk a.group (tmsg (.arrive a)).job (tmsg (.arrive a)).msg = true ∧
       a.epoch % 2 ^ 15 = s.barEpoch a.group ∧ (tmsg (.arrive a)).msg.src ∈ s.barKids a.group ∧ s.barGroup? a.group = some x ∧ x.own = none ∧
       (∀ p ∈ x.kids, p.1 ≠ (tmsg (.arrive a)).msg.src)) ∧
    (let a := tarr 3 5
     let x := { tbar 3 [] none with own := some (tarr 3 5) }
     let s := treed false 1 x (tmsg (.arrive a))
     s.barMsgOk a.group (tmsg (.arrive a)).job (tmsg (.arrive a)).msg = true ∧ a.epoch % 2 ^ 15 = s.barEpoch a.group ∧ s.barGroup? a.group = some x ∧
       x.sent = false ∧ x.kids = [] ∧ s.barKids a.group = [(tmsg (.arrive a)).msg.src] ∧ s.barRoot a.group = false ∧
       s.jobMap (s.barSlot 3) (s.barParent 3) = some 11 ∧ s.flag (Reg.fabJobCfg (s.barSlot 3)) 62 = false ∧ s.route 8 11 = some 0 ∧ s.portUp 0 = true) ∧
    (∀ mode ∈ [1, 2], ∀ none_ ∈ [true, false],
     let a : ArriveInfo := { tarr 3 5 with noneFlag := none_, leastTick := 10, greatestTick := 20 }
     let x := { tbar 3 [] none with own := some a }
     let s := treed true 1 x (tmsg (.arrive a))
     let s : State := s.setReg (Reg.fabBarCfg 3) (word (mode * 2 ^ 32 + 1 * 2 ^ 17 + 3 * 2 ^ 5 + 16))
     s.inbox[0]? = some (tmsg (.arrive a)) ∧ s.barMsgOk a.group (tmsg (.arrive a)).job (tmsg (.arrive a)).msg = true ∧
       a.epoch % 2 ^ 15 = s.barEpoch a.group ∧ (tmsg (.arrive a)).msg.src ∈ s.barKids a.group ∧ s.barGroup? a.group = some x ∧ x.sent = false ∧
       x.kids = [] ∧ s.barKids a.group = [(tmsg (.arrive a)).msg.src] ∧ s.barRoot a.group = true ∧ s.barMode a.group = mode ∧
       (joinArrive a a).noneFlag = none_ ∧ (joinArrive a a).leastTick < (joinArrive a a).greatestTick) ∧
    (let a := tarr 3 5
     let s : State := { treed false 2 (tbar 3 [] none) (tmsg (.arrive a)) with barGroups := [] }
     s.inbox[0]? = some (tmsg (.arrive a)) ∧ s.barMsgOk a.group (tmsg (.arrive a)).job (tmsg (.arrive a)).msg = true ∧
       a.epoch % 2 ^ 15 = s.barEpoch a.group ∧ (tmsg (.arrive a)).msg.src ∈ s.barKids a.group ∧ s.barGroup? a.group = none) ∧
    (let s := treed false 1 (tbar 3 [] none) (tmsg (.arrive (tarr 3 5)))
     s.barMsgOk 3 0x26 (tmsg (.arrive (tarr 3 5))).msg = false ∧ 2 ∉ s.barKids 3) ∧
    (let a := tarr 3 4
     a.epoch % 2 ^ 15 ≠ (treed false 1 (tbar 3 [] none) (tmsg (.arrive a))).barEpoch a.group) := by
  refine ⟨?_, ?_, ?_, ?_, ?_, ?_⟩ <;> decide +kernel

/-- A message from the parent, job block 3. -/
def fromParent (b : MsgBody) : Delivered := { tmsg b with msg := ⟨3, 0, 0, 0, b⟩ }

theorem witness_BarrierTree_rest :
    (let c : ConfirmInfo := ⟨3, 5, 90000, -5, 1, 7, 0, 0⟩
     let x := tbar 3 [] none
     let s := treed false 2 x (fromParent (.confirm c))
     s.inbox[0]? = some (fromParent (.confirm c)) ∧ c.group < 256 ∧ s.barMsgOk c.group (fromParent (.confirm c)).job (fromParent (.confirm c)).msg = true ∧
       c.epoch % 2 ^ 15 = s.barEpoch c.group ∧ (fromParent (.confirm c)).msg.src = s.barParent c.group ∧ s.barRoot c.group = false ∧
       s.barGroup? c.group = some x ∧ s.straps.build ≠ .c1) ∧
    (let d := tmsg (.missing 3 5 2)
     let s := treed false 2 (tbar 3 [] none) d
     s.inbox[0]? = some d ∧ s.barMsgOk 3 d.job d.msg = true ∧ 5 % 2 ^ 15 = s.barEpoch 3 ∧ d.msg.src ∈ s.barKids 3 ∧ s.barGroup? 3 = some (tbar 3 [] none)) ∧
    (let d := fromParent (.straggler 3 5 2)
     let s := treed false 2 (tbar 3 [] none) d
     s.inbox[0]? = some d ∧ s.barMsgOk 3 d.job d.msg = true ∧ 5 % 2 ^ 15 = s.barEpoch 3 ∧ d.msg.src = s.barParent 3 ∧ (3 : Nat) < 256) ∧
    (let x := { tbar 3 [] none with sent := true }
     (treed false 2 x (tmsg .error)).barGroup? 3 = some x ∧ x.sent = true) ∧
    (∀ r ∈ [none, some 5], ∀ root ∈ [true, false],
     let x := { tbar 3 [] none with release := r }
     let s := treed root 2 x (tmsg .error)
     s.barGroup? 3 = some x ∧ x.release = r ∧ s.barRoot 3 = root) ∧
    (∀ root ∈ [true, false], ∀ d ∈ [0, 1],
     let x := tbar 3 [] none
     let s : State := { treed root 2 x (tmsg .error) with up := 400000 - d }
     s.barGroup? 3 = some x ∧ x.sent = false ∧ x.lastMissing + 100 * usT = 400000 ∧ s.lowestMissing 3 x = some 0 ∧ s.barRoot 3 = root) ∧
    (∀ d ∈ [0, 1],
     let x := tbar 3 [] none
     let s : State := { treed false 2 x (tmsg .error) with up := 1200000 - d }
     s.barGroup? 3 = some x ∧ x.release = none ∧ s.barRoot 3 = false ∧ max x.lastStraggler x.openedUp + 300 * usT = 1200000) := by
  refine ⟨?_, ?_, ?_, ?_, ?_, ?_, ?_⟩ <;> decide +kernel

/-! ## Attached memory -/

/-- Channel 0 as given, in service. -/
def channel (f : Chan → Chan) : State :=
  let s := withMem base
  { s.setReg Reg.memPolicyX (word (16 * 2 ^ 40)) with
      mem := { s.mem with chans := upd s.mem.chans 0 fun x => f { x with phy := 2 }, slots := 1 :: List.replicate 15 0 } }

theorem base_idle : base.IdleBarrows := barrows_idle _ (by decide +kernel)

theorem channel_idle (f : Chan → Chan) : (channel f).IdleBarrows := base_idle

/-- A line request without a waiting reader. -/
def tmreq (w : Bool) (tags : List Nat) : MReq :=
  { tags := tags, line := 64, write := w, ctx := 0, accepted := 0, part := false, ord := 0, fwd := false, old := List.replicate 64 9, puts := [] }

theorem witness_AttachedMemory_slots :
    ((channel id).driven 0 = true ∧ (channel id).driven 1 = false) ∧
    (∀ d ∈ [0, 1], ∀ nb ∈ [true, false], ∀ ctl ∈ [1, 3],
     let r : Refresh := ⟨15, 4000000 + d, nb, 7, 4000000⟩
     let s := (channel fun x => { x with refresh := [r] }).setReg Reg.memCtrl (word ctl)
     s.driven 0 = true ∧
       nextRefresh s.up (s.chan 0).refreshNow (s.chan 0).refresh = (if d = 0 ∨ nb = false then some r else none) ∧ s.flag Reg.memCtrl 1 = decide (ctl = 3) ∧
       s.flag Reg.memPolicyX 4 = false) ∧
    (∀ k ∈ [0, 1, 2],
     let s := channel fun x => { x with updateUntil := if k = 0 then 4000001 else 0 }
     let s := if k = 1 then s.setReg (Reg.memChStatus 0) 3 else if k = 2 then s.setReg Reg.memCtrl 0 else s
     s.driven 0 = true ∧ nextRefresh s.up (s.chan 0).refreshNow (s.chan 0).refresh = none ∧
       (s.memOn = false ∨ s.fld (Reg.memChStatus 0) 2 0 ≠ 2 ∨ s.up < (s.chan 0).updateUntil)) := by
  refine ⟨?_, ?_, ?_⟩ <;> decide +kernel

theorem witness_AttachedMemory_serves :
    (∀ page ∈ [[], [(1, 128)]], ∀ w ∈ [true, false], ∀ part ∈ [true, false],
     let q := { tmreq w (if w then [] else [9]) with part := part && w }
     let s := channel fun x => { x with reads := if w then [] else [q], writes := if w then [q] else [] }
     let r : Req := { treq 9 (.debug 0) with left := 2 }
     let s : State := { s with mem := { s.mem with pages := page }, reqs := [r] }
     s.driven 0 = true ∧ nextRefresh s.up (s.chan 0).refreshNow (s.chan 0).refresh = none ∧ s.memOn = true ∧ s.fld (Reg.memChStatus 0) 2 0 = 2 ∧
       (s.chan 0).updateUntil ≤ s.up ∧ s.quadRoom 0 = true ∧ (s.chan 0).inflight = [] ∧ s.debugHeld = [] ∧
       (s.chan 0).reads = (if w then [] else [q]) ∧ (s.chan 0).writes = (if w then [q] else []) ∧ q.write = w ∧ q.fwd = false ∧ s.slotOk q.ctx = true ∧
       0 < s.fld Reg.memPolicyX 47 40 ∧ s.pageSlot (s.pageOf (64 * q.line)) = (if page = [] then none else some 0) ∧ s.req? 9 = some r ∧
       q.part = (part && w) ∧ q.tags = (if w then [] else [9]) ∧ s.memInj 1 q.line = false) := by
  decide +kernel

theorem witness_AttachedMemory_idle : ∀ q : MReq, (channel fun x => { x with reads := [q] }).IdleBarrows ∧ (channel fun x => { x with writes := [q] }).IdleBarrows := by
  exact fun q => ⟨channel_idle _, channel_idle _⟩

theorem witness_AttachedMemory_return :
    (∀ left ∈ [0, 1, 2], ∀ again ∈ [none, some 7], ∀ bad ∈ [true, false], ∀ mac ∈ [true, false],
     let f : Fly := ⟨tmreq false [9], 0, again, mac, bad, false⟩
     let r : Req := { treq 9 (.debug 0x1000000) with path := .attached 0, left := left, bytes := List.replicate 8 5 }
     let s : State := { channel (fun x => { x with inflight := [f] }) with reqs := [r] }
     ((s.chan 0).inflight.find? fun f => f.req.tags.contains 9) = some f ∧ s.memInj 2 f.req.line = false ∧ f.req.tags = [9] ∧
       f.req.write = false ∧ f.bad = bad ∧ f.again = again ∧ s.req? 9 = some r ∧ r.left = left ∧ r.dest = .debug 0x1000000 ∧ r.dropped = false ∧
       (f.macRead = false ∨ LinkCheck.clean = .clean)) ∧
    (let f : Fly := ⟨tmreq true [9], 0, some 8, false, false, false⟩
     let s := channel (fun x => { x with inflight := [f] })
     ((s.chan 0).inflight.find? fun f => f.req.tags.contains 9) = some f ∧ s.memInj 2 f.req.line = false ∧ f.req.tags = [9] ∧ f.macRead = false ∧
       f.req.write = true ∧ f.cleared = false ∧ f.req.old.length = 64 ∧ s.req? 9 = none ∧ (∀ w ∈ (s.chan 0).writes, w.line ≠ f.req.line) ∧
       f.again ≠ none) ∧
    (∀ f : Fly, ∀ r : Req, ({ channel (fun x => { x with inflight := [f] }) with reqs := [r] } : State).IdleBarrows) ∧
    (((channel id).chan 0).inflight.find? fun f => f.req.tags.contains 9) = none := by
  refine ⟨?_, ?_, fun f r => channel_idle fun x => { x with inflight := [f] }, ?_⟩ <;> decide +kernel

theorem witness_AttachedMemory_rest :
    (∀ d ∈ [0, 1],
     let s := channel fun x => { x with dues := List.replicate 15 0 ++ [4000000 + d] }
     s.driven 0 = true ∧ nth (s.chan 0).dues (15 % 16) = s.up + d ∧ maskHas s.memMask 0 = true ∧ s.fld (Reg.memChStatus 0) 2 0 = 2 ∧
       maskHas s.memMask 1 = false) ∧
    (∀ t0 ∈ [0, 1, 2],
     let s : State := { ((channel fun x => { x with trainStart := some t0 }).setReg (Reg.memChStatus 0) 1).setReg Reg.memCtrl 0 with up := 160000001 }
     0 < s.straps.channels ∧ maskHas s.memMask 0 = true ∧ s.fld (Reg.memChStatus 0) 2 0 = 1 ∧ (s.chan 0).trainStart = some t0 ∧
       1 + 40 * msT = s.up ∧ s.flag Reg.memCtrl 0 = false ∧ s.memMask < 2 ^ s.straps.channels ∧ s.memCount ∈ [1, 2, 4, 8, 16] ∧
       s.fld Reg.memMap 17 16 ≠ 3 ∧ 8 ≤ s.fld Reg.memMap 12 8 ∧ s.fld Reg.memMap 12 8 ≤ 16 ∧
       (∀ c ∈ maskBits 16 s.memMask, c ≠ 0 → s.fld (Reg.memChStatus c) 2 0 = 2)) ∧
    (let s := ((channel fun x => { x with trainStart := some 0 }).setReg (Reg.memChStatus 0) 1).setReg Reg.memMap 0x300000C00
     (s.chan 0).trainStart = some 0 ∧ maskHas s.memMask 0 = true ∧ ∃ c ∈ maskBits 16 s.memMask, c ≠ 0 ∧ s.fld (Reg.memChStatus c) 2 0 ≠ 2) ∧
    (let s := (base.setReg (Reg.ctxQosTable 3) (word (128 * 2 ^ 56))).setReg (Reg.ctxQos 0) 0x10000
     31 < 32 ∧ s.slotOwner 31 ≠ none) ∧
    (∀ k, k < 32 → base.slotOwner k = none) ∧ base.mem.clear = none ∧ base.draining = none ∧
    (let j : ClearJob := ⟨0, 4096, 0, [9]⟩
     let s : State := { base with mem := { base.mem with clear := some j } }
     s.mem.clear = some j ∧ (∀ r ∈ s.reqs, r.tag ∉ j.tags) ∧ (∃ r ∈ [treq 9 (.debug 0)], r.tag ∈ j.tags)) := by
  refine ⟨?_, ?_, ?_, ?_, ?_, ?_, ?_, ?_⟩ <;> decide +kernel

theorem witness_AttachedMemory_keys :
    (let s : State := { base with mem := { base.mem with slots := 2 :: 1 :: List.replicate 14 0, pages := [(2 ^ 32 + 1, 128)] } }
     s.draining = some 0 ∧ s.pageSlot (1 * 2 ^ 32 + 1) = some 0 ∧ s.slotOwner (s.slotNow % 32) = none ∧ s.pageSlot (1 * 2 ^ 32 + 2) ≠ some 0 ∧
       0 < s.slotPages 0) ∧
    (let s : State := { base with mem := { base.mem with slots := 2 :: 1 :: List.replicate 14 0, pages := [(2 ^ 32 + 1, 129)] } }
     s.draining = some 0 ∧ s.slotPages 0 = 0 ∧ s.slotRefs 0 = 0) := by
  decide +kernel

/-! ## Resets -/

/-- A reset of context 0 under way. -/
def treset (phase : Nat) (acks : List Nat) (destroy command : Bool) : CtxReset :=
  { cause := 1, destroy := destroy, command := command, oldGen := 0, began := 0, acks := acks, phase := phase, capture := [],
    tiles := [0, 1, 2, 3], ranges := [(0, 0, 2)], words := [] }

/-- Context 0 in that reset, at station time `now`. -/
def resetting (r : CtxReset) (now : Nat) : State :=
  let s : State := base.updCtx 0 fun c => { c with rst := some r, launches := [] }
  { s with bell := { Bell.reset with now := now } }

theorem witness_ContextResets :
    (∀ d ∈ [0, 1],
     let s : State := { ((base.updCtx 0 fun c => { c with modFrom := some 0 }).setReg (Reg.ctxIrq 0) (word (1000 * 2 ^ 32))).setReg (Reg.ctxAttn 0) (word (2 ^ 48)) with
                        up := 4000000 - d }
     (s.ctx 0).modFrom = some 0 ∧ s.fld (Reg.ctxIrq 0) 47 32 ≠ 0 ∧ 0 + s.fld (Reg.ctxIrq 0) 47 32 * usT = 4000000 ∧ s.fld (Reg.ctxAttn 0) 63 48 ≠ 0) ∧
    (base.clean 0 (base.genOf 0) = true ∧ (base.updCtx 0 fun c => { c with retired := [(1, 3999999)] }).clean 0 1 = false) ∧
    (∀ en ∈ [0, 1],
     let es := base.awningEngines [0, 1, 2, 3]
     let e := es.getLastD 0
     let s : State := (resetting (treset 0 es.dropLast false true) 0).setReg Reg.errSampleEn (word en)
     0 < s.straps.contexts ∧ e ∈ s.awningEngines [0, 1, 2, 3] ∧ e ∉ es.dropLast ∧ es.length ≤ es.dropLast.length + 1 ∧
       ([] : List Nat).length + 1 < es.length ∧ s.flag Reg.errSampleEn 0 = decide (en = 1)) ∧
    (let es := base.awningEngines [0, 1, 2, 3]
     (∃ e ∈ es, e < 24) ∧ (∃ e ∈ es, 24 ≤ e) ∧ 1 < es.length ∧ 0 ∈ [0] ∧ 99 ∉ es) ∧
    (∀ p ∈ [(0, 0), (1, 1), (63, 64)], ∀ b ∈ [2 ^ 55 + 0x10000, clusterAddr 0], ∀ bme ∈ [true, false],
     let s : State := (((resetting (treset 1 [] false true) 200000).setReg Reg.errDumpCfg (word (256 + 64))).setReg Reg.errDumpStatus (word (2 ^ p.1 - 1))).setReg
       Reg.errDumpBase (word b)
     let s : State := { s with pins := { s.pins with bme := bme } }
     let a := s.fld Reg.errDumpBase 55 12 * 4096 + 0x44000 * p.1
     s.flag Reg.errDumpCfg 8 = true ∧ p.1 < min 64 (s.fld Reg.errDumpCfg 6 0) ∧
       (∀ j, j ≤ p.1 → (maskHas (s.reg Reg.errDumpStatus).toNat j = true ↔ j < p.1)) ∧ (treset 1 [] false true).began + 50 * usT ≤ s.bell.now ∧
       s.hostHeld = !bme ∧
       ((a / 2 ^ 55 % 2 = 1 ∧ s.hpaOf (a % 2 ^ 55) = none) ∨ (a / 2 ^ 55 % 2 = 0 ∧ scratchBase ≤ a % 2 ^ 43))) ∧
    ((resetting (treset 1 [] false true) 199999).flag Reg.errDumpCfg 8 = false ∧
       (resetting (treset 1 [] false true) 199999).bell.now < (treset 1 [] false true).began + 50 * usT) ∧
    (∀ d ∈ [true, false], ∀ c ∈ [true, false],
     let r := treset 2 [] d c
     let s := resetting r 0
     (s.ctx 0).rst = some r ∧ r.phase = 2 ∧ s.zeroed r = true ∧ s.clean 0 (s.genOf 0) = true ∧ r.destroy = d ∧ r.command = c ∧
       (s.updCluster 0 fun x => { x with zeroing := [(0, 2, 5)] }).zeroed r = false) ∧
    (let s : State := { base with breset := some 5 }; s.breset = some 5 ∧ s.straps.gangSize < 2) := by
  refine ⟨?_, ?_, ?_, ?_, ?_, ?_, ?_, ?_⟩ <;> decide +kernel

/-! ## The Inspector -/

/-- The Inspector runs with operator session 0x50. -/
def inspecting (st : Nat) : State :=
  { base with insp := { Inspector.reset with st := st, session := some 0x50, secret := [1, 2, 3], wdOn := true } }

/-- A frame with its correct tag, counter 1, for a block 0. -/
def tframeOf (op n : Nat) (b : CmdBody) : CmdFrame :=
  let c : CmdFrame := { length := n, counter := 1, session := 0x50, target := 0, body := b, tag := 0, mailbox := true }
  { c with tag := cmdTag (inspecting 1).insp.cmdKey (cmdBytes op c) }

/-- Everything of TakesCommand but the tag, as a test. -/
def takesB (s : State) (op : Nat) (c : CmdFrame) : Bool :=
  s.live && s.insp.st == 1 && !s.cmdBusy && s.insp.queue.isEmpty && s.insp.door.isNone && (s.insp.messages.all fun m => m.kind != 1) && c.mailbox &&
    (QCmd.of op c none).fits && s.insp.session == some c.session && c.target == s.fld Reg.fabId 11 0 &&
    decide ((s.reg Reg.insCmdLast).toNat < c.counter) && decide (c.counter < 2 ^ 64)

theorem takes_of (op n : Nat) (b : CmdBody) (h : takesB (inspecting 1) op (tframeOf op n b) = true) :
    (inspecting 1).TakesCommand op (tframeOf op n b) := by
  simp only [takesB, Bool.and_eq_true, decide_eq_true_eq, beq_iff_eq, Bool.not_eq_true', List.isEmpty_iff, Option.isNone_iff_eq_none,
    List.all_eq_true, bne_iff_ne] at h
  obtain ⟨⟨⟨⟨⟨⟨⟨⟨⟨⟨⟨h1, h2⟩, h3⟩, h4⟩, h5⟩, h6⟩, h7⟩, h8⟩, h9⟩, h10⟩, h11⟩, h12⟩ := h
  exact ⟨⟨h1, h2⟩, ⟨h3, h4, h5, h6⟩, h7, h8, h9, rfl, h10, h11, h12⟩

/-- Every command with the length of its payload and a body. -/
def tcommands : List (Nat × Nat × CmdBody) :=
  [ (0x01, 3, .echo [1, 2, 3]), (0x10, 12, .regWrite [(Reg.ctxIrq 0, 5)]), (0x11, 4, .regRead [Reg.bellNow]),
    (0x12, 32, .cgRun 3 5 0x10101 0 [] 200000), (0x20, 44, .jobKeyLoad 15 1 (List.replicate 40 0)), (0x21, 4, .jobKeyErase 15),
    (0x30, 0, .memKeyRotate), (0x40, 0, .blockReset) ]

theorem witness_InspectorCommands : ∀ p ∈ tcommands, (inspecting 1).TakesCommand p.1 (tframeOf p.1 p.2.1 p.2.2) := by
  intro p hp
  apply takes_of
  fin_cases hp <;> decide +kernel

theorem witness_InspectorCommands_rest :
    ((inspecting 1).Accepts ∧ (inspecting 1).PageOpen 0 ∧ (inspecting 1).inject = none ∧ (∀ j, j < 4 → ((inspecting 1).group j).st.pending = false) ∧
      0x10101 < 2 ^ 32 ∧ 0x10101 ≠ 0 ∧ maskDiff 0x10101 (unitMask (inspecting 1).straps) = 0 ∧ (inspecting 1).bell.now + 8000 ≤ 200000) ∧
    (15 < (inspecting 1).keys.length ∧ 1 ≠ (inspecting 1).keyInForce 15 ∧ ((inspecting 1).keyPhase 15 1).until_ = none ∧
      0 = (inspecting 1).keyInForce 15) ∧
    (∀ j, j < (inspecting 1).straps.jobSlots → (inspecting 1).flag (Reg.fabJobCfg j) 63 = true →
      (inspecting 1).fld (Reg.fabJobCfg j) 59 56 ≠ 15) ∧
    ((inspecting 1).draining = none ∧
      ({ inspecting 1 with mem := { MemCtl.reset with slots := [2, 1] } } : State).draining ≠ none ∧ (inspecting 1).breset = none) ∧
    (∀ st ∈ [1, 2, 3], (inspecting st).live = true ∧ (inspecting st).InspectorQuiet ∧ (inspecting st).insp.queue = [] ∧ (inspecting st).insp.st = st) ∧
    ({ inspecting 3 with insp := { (inspecting 3).insp with wdOn := false } } : State).insp.wdOn = false ∧
    ((tframeOf 1 3 (.echo [1, 2, 3])).mailbox = true ∧ (QCmd.of 0x01 (tframeOf 1 4 (.echo [1, 2, 3])) none).fits = false ∧
      (QCmd.of 0x01 (tframeOf 1 3 (.echo [1, 2, 3])) none).fits = true ∧ (inspecting 1).insp.session = some (tframeOf 1 3 (.echo [])).session ∧
      (inspecting 1).insp.session ≠ some 0x51 ∧ 4095 ≠ (inspecting 1).fld Reg.fabId 11 0) := by
  refine ⟨?_, ?_, ?_, ?_, ?_, ?_, ?_⟩ <;> (try simp only [accepts_iff, pageOpen_iff, quiet_iff]) <;> decide +kernel

theorem witness_InspectorCommands_tag :
    let c : CmdFrame := { tframeOf 1 3 (.echo [1, 2, 3]) with tag := (tframeOf 1 3 (.echo [1, 2, 3])).tag + 1 }
    cmdTag (inspecting 1).insp.cmdKey (cmdBytes 0x01 c) ≠ c.tag := by
  exact Nat.ne_of_lt (Nat.lt_succ_self _)

theorem witness_InspectorCommands_again :
    let c := tframeOf 1 3 (.echo [1, 2, 3])
    let l : LastCmd := ⟨.of 1 c none, 7, [9], 0⟩
    let s : State := { (inspecting 1).setReg Reg.insCmdLast 1 with insp := { (inspecting 1).insp with last := some l } }
    cmdTag s.insp.cmdKey (cmdBytes 0x01 c) = c.tag ∧ s.insp.last = some l ∧ l.state = 0 ∧ l.cmd.frame.counter = c.counter ∧ l.cmd.frame.tag = c.tag ∧
      l.status < 256 ∧ c.counter ≤ (s.reg Reg.insCmdLast).toNat ∧ s.reg Reg.insCmdLast = word c.counter ∧ (inspecting 1).insp.last = none ∧
      c.counter ≤ (((inspecting 1).setReg Reg.insCmdLast 1).reg Reg.insCmdLast).toNat := by
  exact ⟨rfl, rfl, rfl, rfl, rfl, by decide, by decide +kernel, by decide +kernel, rfl, by decide +kernel⟩

theorem witness_InspectorCommands_timers :
    (∀ d ∈ [0, 1],
     let s : State := { ((inspecting 1).setReg Reg.pwrInswdt 1) with up := 4000000 - d }
     s.live = true ∧ s.inject = none ∧ s.insp.wdOn = true ∧ s.insp.watchFrom + s.fld Reg.pwrInswdt 15 0 * msT = 4000000) ∧
    (∀ d ∈ [0, 1],
     let s : State := { inspecting 2 with up := 40000 - d }
     s.live = true ∧ s.insp.st = 2 ∧ s.insp.queue = [] ∧ s.insp.restartFrom + 10 * usT = 40000) ∧
    (∀ d ∈ [0, 1],
     let s : State := { inspecting 1 with up := 240000000000 - d }
     s.live = true ∧ s.insp.st = 1 ∧ s.insp.lastCheck + 60000 * msT = 240000000000) := by
  decide +kernel

/-- The Inspector with an SPDM connection as given. -/
def connected (ver cap alg : Bool) (kex : Option Nat) : State :=
  { (inspecting 1).setReg Reg.insStatus 0x11 with
    insp := { (inspecting 1).insp with spdmVer := ver, spdmCap := cap, spdmAlg := alg, kex := kex } }

theorem witness_Attestation :
    ((inspecting 2).spdmOn = false ∧ (inspecting 1).spdmOn = true ∧ (inspecting 1).insp.messages = [] ∧ (inspecting 1).insp.spdmVer = false ∧
      (inspecting 1).insp.spdmCap = false ∧ (inspecting 1).insp.spdmAlg = false ∧ (inspecting 1).insp.kex = none) ∧
    ((connected true true true (some 9)).spdmOn = true ∧ (connected true true true (some 9)).insp.messages = [] ∧
      (connected true true true (some 9)).insp.spdmVer = true ∧ (connected true true true (some 9)).insp.spdmCap = true ∧
      (connected true true true (some 9)).insp.spdmAlg = true ∧ (connected true true true (some 9)).insp.kex = some 9) ∧
    (base.gangM = 0 ∧ base.ganged = false ∧ (ganged 1).gangM ≠ 0 ∧ (ganged 0).gangN ≤ 2 ∧ (connected true true true none).measurement 0xFE = none) ∧
    (let s : State := (connected true true true none).setReg Reg.insCtrl 1
     s.fld Reg.insStatus 5 4 = 1 ∧ s.flag Reg.insCtrl 0 = true ∧ (connected true true true none).flag Reg.insCtrl 0 = false) ∧
    (∀ r : SpdmReq, r.session = some 0x50 → (inspecting 1).inSession r = true) ∧ (∀ r : SpdmReq, r.session = none → (inspecting 1).inSession r = false) := by
  refine ⟨by decide +kernel, by decide +kernel, by decide +kernel, by decide +kernel, fun r h => ?_, fun r h => ?_⟩ <;> simp [State.inSession, h] <;> decide +kernel

theorem witness_Attestation_measurement : ∃ l, (connected true true true none).measurement 1 = some l := ⟨_, rfl⟩

/-! ## The ports, start-up and test -/

theorem witness_HostPort_cpl :
    (base.req? 9 = none ∧ base.relayed 1 9 = none ∧
      ({ ganged 0 with relays := [⟨1, 9, 1, 5⟩] } : State).relayed 1 9 = some ⟨1, 9, 1, 5⟩) ∧
    (let r : Req := { treq 9 (.fetch l0 128) with dropped := true }
     let s : State := { base with reqs := [r] }
     s.req? 9 = some r ∧ r.path = .host ∧ s.inject = none ∧ r.dropped = true) ∧
    (let r : Req := treq 9 (.fetch l0 128)
     let s : State := { base with reqs := [r] }
     s.req? 9 = some r ∧ r.dropped = false ∧ r.gen = s.genOf r.ctx ∧ l0.cl < s.clusters.length ∧ r.len = 64) ∧
    (let r : Req := { treq 9 (.seg 5 0 0 0) with len := 256 }
     let s := inFlight false r 0
     s.req? 9 = some r ∧ r.path = .host ∧ r.dropped = false ∧ r.gen = s.genOf r.ctx ∧ r.ut = false ∧ r.dest = .seg 5 0 0 0 ∧ (tseg false).k = 0) := by
  decide +kernel

theorem witness_HostPort_idle (r : Req) : ({ base with reqs := [r] } : State).IdleBarrows := base_idle

theorem witness_HostPort_segment :
    (inFlight false { treq 9 (.seg 5 0 0 0) with len := 256 } 0).OneSegment 5 { tq 256 with segs := [tseg false], next := 1 } (tseg false)
      { tmove (bw5 0 0) 256 with st := .running } tlaunch ∧
    (inFlight false { treq 9 (.seg 5 0 0 0) with len := 256 } 0).LastOf 5 0 0 9 :=
  ⟨oneSegment_of _ _ _ _ _ _ (by decide +kernel), lastOf_only _ _ _ _ _ _ rfl rfl⟩

theorem witness_HostPort_pins :
    (State.reset.live = false ∧ base.live = true ∧ base.xreqs = [] ∧ base.pageReqs = [] ∧ base.dumpHeld = [] ∧ base.straps.freezeMode = false ∧ base.breset = none) ∧
    (let s : State := { base with straps := { base.straps with freezeMode := true } }; s.live = true ∧ s.straps.freezeMode = true ∧ s.pins.frozen = false) ∧
    ((ganged 0).live = true ∧ (ganged 0).ganged = true ∧ (ganged 0).gangM = 0 ∧ 0 < (ganged 0).ctxs.length ∧ ((ganged 0).ctx 0).st ≠ .free ∧
      ((ganged 0).ctx 0).rst = none ∧ (ganged 1).gangM ≠ 0) ∧
    (let x := txreq false true
     let s : State := { base with xreqs := [x], pins := { base.pins with bme := false } }
     s.xreqs = [x] ∧ x.held = true ∧ s.pageReqs = [] ∧ s.dumpHeld = [] ∧ s.pins.linkDown = false ∧ s.pins.frozen = false ∧ s.pins.fatalHold = false) := by
  decide +kernel

theorem witness_HostPort_debug :
    (∀ t ∈ [3, 15],
     let s : State := base.setReg (Reg.dbgApSel 0) (word (tileAddr t))
     s.aperture 0 = (0, 0, tileAddr t) ∧ placeOf s.straps (tileAddr t + 0x3FFFF8) = .tile t 0x3FFFF8 ∧ (s.tile t).rest = .awake ∧
       s.lessee (tileAddr t + 0x3FFFF8) = (if t = 3 then some 0 else none) ∧ 0 < s.ctxs.length ∧ s.pins.regsReady = true ∧
       0x3FFFF8 % 8 = 0 ∧ 0x3FFFF8 < 0x400000 ∧ ((s.tile 15).lease = none ∧ (s.tile 15).clearing = false) ∧ (s.tile 3).lease ≠ none) := by
  decide +kernel

/-- Inputs of a good start-up of a block that is not ganged. -/
def goodStart : StartInputs :=
  { gangSize := 0, gangMember := 0, c1Channels := 4, capDefault := 950, freezeMode := false, romOk := true, svnA := some 1, svnB := none, seedOk := true,
    keyOk := true, repair := none, test := ⟨[], [], false, []⟩, chcap := 0, trained := 0, rfm := false, gangReady := false }

theorem witness_StartUpAndTest :
    (base.pins.pwrGood = true ∧ State.reset.pins.pwrGood = false ∧ State.reset.pins.testMode = false ∧ State.reset.pins.testHold = false) ∧
    (goodStart.gangSize = 0 ∧ goodStart.gangMember = 0 ∧ goodStart.romOk = true ∧ (goodStart.svnA ≠ none ∨ goodStart.svnB ≠ none) ∧
      goodStart.test.scratchFail = false ∧ goodStart.test.rows = [] ∧ goodStart.test.other = [] ∧ goodStart.repair = none) ∧
    (∀ d ∈ [0, 1],
     let s : State := { (base.setReg Reg.insBoot 5) with straps := { base.straps with gangSize := 8 }, up := 600000000 - d }
     s.live = true ∧ 2 ≤ s.straps.gangSize ∧ s.straps.gangSize ≤ 8 ∧ s.straps.gangMember = 0 ∧ s.fld Reg.insBoot 3 0 = 5 ∧ 150 * msT = 600000000) := by
  decide +kernel

/-! ## Rules of the whole machine -/

theorem witness_HardwiredRegisters :
    (let i := tw 1 0 0 1 2 5; iFa i = 0 ∧ (onLane i id).Issues l0 i 1 0 (formRegs i)) ∧
    (let i := tw 2 0 0 1 2 5; iFa i = 0 ∧ (onLane i id).Issues l0 i 2 0 (formRegs i)) := by
  simp only [issues_iff]; decide +kernel

theorem witness_StrictContextsDraw : (base.setReg (Reg.ctxQos 63) 0x10000).flag (Reg.ctxQos 63) 16 = true := by
  decide +kernel

theorem witness_StepOnEmptyQueue :
    (State.reset.pending = [] ∧ State.reset.live = false) ∧ (base.pending = [] ∧ base.live = true ∧ base.rateAdj = 0 ∧ base.bell.rateAcc = 0) := by
  decide +kernel

theorem witness_MemoryReadAfterWrite : Memory.wf base.cells = true ∧ (base.wrBytes 0x4000000 [1, 0, 2]).cells = [(0x4000000, 1), (0x4000002, 2)] := by
  decide +kernel

theorem witness_StepKeepsMemoryCanonical : Memory.wf base.cells = true ∧ ∃ t, step base = .next t := ⟨by decide +kernel, _, rfl⟩

/-! ## Ill-formed commands, one for each check, and well-formed neighbours -/

theorem test_lane_bound : wellFormed (.addI ⟨4, 0⟩ ⟨0, 0⟩) = false ∧ wellFormed (.addI ⟨0, 4⟩ ⟨0, 0⟩) = false ∧
    wellFormed (.addI ⟨3, 3⟩ ⟨0, 0⟩) = true := by decide

theorem test_context_bound : wellFormed (.dispatch ⟨64, none⟩) = false ∧ wellFormed (.dispatch ⟨63, none⟩) = true := by decide

theorem test_ring_bound : wellFormed (.ringScan 0 4) = false ∧ wellFormed (.ringScan 0 3) = true := by decide

theorem test_group_slot_bound : wellFormed (.cgApply 4) = false ∧ wellFormed (.cgApply 3) = true := by decide

theorem test_job_slot_bound : wellFormed (.keyPhaseExpire 16) = false ∧ wellFormed (.keyPhaseExpire 15) = true := by decide

theorem test_tile_bound : wellFormed (.gapStart 16) = false ∧ wellFormed (.gapStart 15) = true := by decide

theorem test_book_bound : wellFormed (.bookWriteValidate 0 16) = false ∧ wellFormed (.bookWriteValidate 0 15) = true := by decide

theorem test_table_bound : wellFormed (.tableWriteValidate 0 8) = false ∧ wellFormed (.tableWriteValidate 0 7) = true := by decide

theorem test_barrow_bound : wellFormed (.segmentIssue 24) = false ∧ wellFormed (.segmentIssue 23) = true := by decide

theorem test_port_bound : wellFormed (.portUp 8) = false ∧ wellFormed (.portUp 7) = true := by decide

theorem test_channel_bound : wellFormed (.phyUpdate 16) = false ∧ wellFormed (.phyUpdate 15) = true := by decide

theorem test_barrier_group_bound : wellFormed (.barrierRelease 256) = false ∧ wellFormed (.barrierRelease 255) = true := by decide

theorem test_bank_bound : wellFormed (.refreshDue 0 16) = false ∧ wellFormed (.refreshDue 0 15) = true := by decide

theorem test_semaphore_bound : wellFormed (.waitRelease 0 64) = false ∧ wellFormed (.waitRelease 0 63) = true := by decide

theorem test_domain_bound : wellFormed (.restEntry (.cluster 4)) = false ∧ wellFormed (.restEntry (.tile 15)) = true := by decide

theorem test_area_bound : wellFormed (.leaseZeroDone (.range 0 9 8)) = false ∧ wellFormed (.leaseZeroDone (.range 3 8 8)) = true := by decide

theorem test_offset_bound : wellFormed (.regWr 0x2000000 false (.full 0)) = false ∧ wellFormed (.regWr 0x1FFFFF8 false (.full 0)) = true := by decide

theorem test_debug_offset_bound : wellFormed (.debugRead 0x10000) = false ∧ wellFormed (.debugRead 0xFFFF) = true := by decide

theorem test_rail_bound : wellFormed (.pmbusPoll 4 ⟨0, 0, 0, 0, true⟩) = false ∧ wellFormed (.pmbusPoll 3 ⟨0, 0, 0, 0, true⟩) = true := by decide

theorem test_head_bounds :
    wellFormed (.headArrive 0 { thead 9 0 .error with slots := 0 }) = false ∧ wellFormed (.headArrive 0 { thead 9 0 .error with slots := 5 }) = false ∧
    wellFormed (.headArrive 0 { thead 9 0 .error with dataFlits := 5 }) = false ∧ wellFormed (.headArrive 0 (thead 4096 0 .error)) = false ∧
    wellFormed (.headArrive 0 (thead 9 32 .error)) = false ∧ wellFormed (.headArrive 0 (thead 4095 31 .error)) = true := by decide

theorem test_member_bound : wellFormed (.endReport 0 ⟨7, some (8, default)⟩) = false ∧ wellFormed (.endReport 0 ⟨7, none⟩) = true := by decide

/-- The command table gives no row any bits, so no word spells a command. -/
theorem test_no_word_is_a_command : decodeTableWord 64 0 = none ∧ decodeTableWord 0 0 = none := by decide

/-! ## The spec's own examples -/

/-- The cadence of a 30 frame-per-second camera: s(1), s(2), s(3) and s(30) after the origin (R30, its example). -/
theorem test_cadence_slots : [1, 2, 3, 30].map (slotStart 0 0x07F2815555555556) = [133333333, 266666666, 400000000, 4000000000] := by decide +kernel

/-- The other rounding of that period starts slot 3 one tick early (R30, its example). -/
theorem test_cadence_rounded_down : slotStart 0 0x07F2815555555555 3 = 399999999 := by decide +kernel

/-- v = acc / 4 + 128 to uint8: ties to even, and the two clamps that count (R94, its example). -/
theorem test_requantise_uint8 :
    [506, 508, 510, -510, -514, -518].map (fun a : Int => convert 1 (Val.ofRat ((a : Rat) / 4 + 128))) =
      [⟨254, false, false⟩, ⟨255, false, false⟩, ⟨255, true, false⟩, ⟨0, false, false⟩, ⟨0, false, false⟩, ⟨0, true, false⟩] := by
  decide +kernel

/-- The scale of a KESTREL block whose largest value is 7.0 (R98, its example). -/
theorem test_mxfp4_scale : mxScale 9 [Val.ofInt 7, Val.ofInt (-5), Val.ofRat (5 / 2)] = 0 := by decide +kernel

/-- 7.0, 5.0, 2.5 and 0.25 on the E2M1 grid: 6 counted, 4, 2 and +0 (R98, its example). -/
theorem test_mxfp4_elements :
    [Val.ofInt 7, Val.ofInt 5, Val.ofRat (5 / 2), Val.ofRat (1 / 4)].map (convert 9) =
      [⟨7, true, false⟩, ⟨6, false, false⟩, ⟨4, false, false⟩, ⟨0, false, false⟩] := by
  decide +kernel

/-- The CB4 book of R99's example. -/
def exBook : List Val := [-96, -48, -24, -12, -6, -3, -1, 0, 1, 3, 6, 12, 24, 48, 96, 112].map Val.ofInt

/-- A tie takes the lower index, and an index outside the book is clamped and counted (R99, its example). -/
theorem test_codebook_index :
    [2, 120, 121, -119, -120].map (fun v : Int => encodeBook exBook (Val.ofInt v)) =
      [⟨8, false, false⟩, ⟨15, false, false⟩, ⟨15, true, false⟩, ⟨0, false, false⟩, ⟨0, true, false⟩] := by
  decide +kernel

/-- Attached memory as in the address example: 16 channels of 4 GiB, hash 1, granule 2^12. -/
def exMem : State := base.setReg Reg.memMap (word (0xFFFF * 2 ^ 32 + 2 * 2 ^ 16 + 12 * 2 ^ 8 + 1))

/-- Local address 0x9_8765_4340 lies in channel 7 at 0x9876_5340, bank group 1, bank 2, row 0x1_30EC (R299, R300, their example). -/
theorem test_attached_address : exMem.chanOf 0x987654340 = (7, 0x98765340) ∧ bankRow 0x98765340 = (4 * 1 + 2, 0x130EC) ∧
    exMem.dataBytes = 56 * 2 ^ 30 := by decide +kernel

/-! ## One step -/

/-- Two commands that wait are taken first in, first out, and only the first is taken. -/
theorem test_first_in_first_out :
    (match step { onLane (tw 0 5 2 1 3 0) (sreg 1 5) with pending := [.divu l0 (tw 0 5 2 1 3 0), .addI l0 (tw 0 0 2 1 3 0)] } with
     | .next s => s.pending == [.addI l0 (tw 0 0 2 1 3 0)]
     | _ => false) = true := by decide +kernel

end Sys2Proof.Tests
end

section
/-! SUPPORT. Fields of a word by their bits: what `bits`, `bit` and `setBits` read, and the word that a register holds once its RW, W1C and W1S
fields have taken a write (R10). -/
namespace Sys2Proof.Machine

open Sys2Proof

/-! ## Fields by their bits -/

/-- Two words that agree on the bits of a field read the same there. -/
theorem bits_congr {a b : Word} {hi lo : Nat} (h : ∀ i, lo ≤ i → i ≤ hi → a.getLsbD i = b.getLsbD i) : bits a hi lo = bits b hi lo := by
  apply Nat.eq_of_testBit_eq
  intro i
  simp only [bits, Nat.testBit_mod_two_pow, Nat.testBit_div_two_pow, BitVec.testBit_toNat]
  by_cases hi' : i < hi + 1 - lo
  · rw [h (i + lo) (by omega) (by omega)]
  · simp [hi']

theorem bit_eq_getLsbD (w : Word) (i : Nat) : bit w i = w.getLsbD i := by
  rw [bit, bits, ← BitVec.testBit_toNat, Nat.testBit_eq_decide_div_mod_eq, show i + 1 - i = 1 by omega, pow_one]
  rfl

/-- A flag is the one-bit field. -/
theorem bit_of_bits {a b : Word} {i : Nat} (h : bits a i i = bits b i i) : bit a i = bit b i := by rw [bit, bit, h]

@[simp] theorem word_toNat (w : Word) : word w.toNat = w := by simp [word]

theorem getLsbD_word (n i : Nat) : (word n).getLsbD i = (decide (i < 64) && n.testBit i) := BitVec.getLsbD_ofNat ..

/-- A word with a field replaced, bit by bit. -/
theorem getLsbD_setBits (w : Word) (hi lo v i : Nat) (hlo : lo ≤ hi) (hhi : hi < 64) :
    (setBits w hi lo v).getLsbD i = if lo ≤ i ∧ i ≤ hi then v.testBit (i - lo) else w.getLsbD i := by
  obtain ⟨n, rfl⟩ : ∃ n, hi = lo + n := ⟨hi - lo, by omega⟩
  by_cases h64 : i < 64
  case neg => rw [if_neg (by omega), BitVec.getLsbD_of_ge _ _ (by omega), BitVec.getLsbD_of_ge _ _ (by omega)]
  have parts : w.toNat = 2 ^ lo * (2 ^ (n + 1) * (w.toNat / 2 ^ lo / 2 ^ (n + 1)) + w.toNat / 2 ^ lo % 2 ^ (n + 1)) + w.toNat % 2 ^ lo := by
    rw [Nat.div_add_mod, Nat.div_add_mod]
  have replaced : w.toNat - w.toNat / 2 ^ lo % 2 ^ (n + 1) * 2 ^ lo + v % 2 ^ (n + 1) * 2 ^ lo =
      2 ^ lo * (2 ^ (n + 1) * (w.toNat / 2 ^ lo / 2 ^ (n + 1)) + v % 2 ^ (n + 1)) + w.toNat % 2 ^ lo := by
    rw [Nat.mul_add, Nat.mul_comm _ (w.toNat / 2 ^ lo % 2 ^ (n + 1))] at parts
    rw [Nat.mul_add, Nat.mul_comm _ (v % 2 ^ (n + 1))]
    omega
  rw [setBits, bits, show lo + n + 1 - lo = n + 1 by omega, BitVec.getLsbD_ofNat, ← BitVec.testBit_toNat, replaced,
    Nat.testBit_two_pow_mul_add _ (Nat.mod_lt _ (by positivity)), Nat.testBit_two_pow_mul_add _ (Nat.mod_lt _ (by positivity)),
    Nat.testBit_mod_two_pow, Nat.testBit_mod_two_pow, Nat.testBit_div_two_pow, Nat.testBit_div_two_pow, decide_eq_true h64, Bool.true_and]
  by_cases below : i < lo
  · rw [if_pos below, if_neg (by omega), decide_eq_true below, Bool.true_and]
  · rw [if_neg below]
    by_cases inside : i - lo < n + 1
    · rw [if_pos inside, if_pos (by omega), decide_eq_true inside, Bool.true_and]
    · rw [if_neg inside, if_neg (by omega), show i - lo - (n + 1) + (n + 1) + lo = i by omega]

/-- The field replaced reads the value, cut to its width. -/
theorem bits_setBits_same (w : Word) (hi lo v : Nat) (hlo : lo ≤ hi) (hhi : hi < 64) :
    bits (setBits w hi lo v) hi lo = v % 2 ^ (hi + 1 - lo) := by
  apply Nat.eq_of_testBit_eq
  intro i
  simp only [bits, Nat.testBit_mod_two_pow, Nat.testBit_div_two_pow, BitVec.testBit_toNat, getLsbD_setBits w hi lo v _ hlo hhi]
  by_cases hi' : i < hi + 1 - lo
  · rw [if_pos (by omega), Nat.add_sub_cancel]
  · simp [hi']

/-! ## Masks by their bits -/

@[simp] theorem testBit_maskAnd (a b i : Nat) : (maskAnd a b).testBit i = (a.testBit i && b.testBit i) := Nat.testBit_and ..

@[simp] theorem testBit_maskOr (a b i : Nat) : (maskOr a b).testBit i = (a.testBit i || b.testBit i) := Nat.testBit_or ..

@[simp] theorem testBit_maskDiff (a b i : Nat) : (maskDiff a b).testBit i = (a.testBit i && !b.testBit i) := by
  show (a - (a &&& b)).testBit i = _
  induction i generalizing a b with
  | zero =>
    have low := @Nat.and_mod_two_eq_one a b
    have hle : a &&& b ≤ a := Nat.and_le_left
    rw [Nat.testBit_zero, Nat.testBit_zero, Nat.testBit_zero, ← decide_not, ← Bool.decide_and, decide_eq_decide]
    omega
  | succ i ih =>
    have low := @Nat.and_mod_two_eq_one a b
    have hle : a &&& b ≤ a := Nat.and_le_left
    have half : (a &&& b) / 2 = a / 2 &&& b / 2 := Nat.and_div_two
    rw [Nat.testBit_succ, show (a - (a &&& b)) / 2 = a / 2 - (a / 2 &&& b / 2) by omega, ih, Nat.testBit_succ, Nat.testBit_succ]

@[simp] theorem maskDiff_zero (a : Nat) : maskDiff a 0 = a := by
  show a - (a &&& 0) = a
  simp

@[simp] theorem maskAnd_zero (a : Nat) : maskAnd a 0 = 0 := Nat.and_zero a

@[simp] theorem zero_maskAnd (a : Nat) : maskAnd 0 a = 0 := Nat.zero_and a

@[simp] theorem maskOr_zero (a : Nat) : maskOr a 0 = a := Nat.or_zero a

@[simp] theorem zero_maskOr (a : Nat) : maskOr 0 a = a := Nat.zero_or a

theorem testBit_maskNat (hi lo i : Nat) : (maskNat hi lo).testBit i = (decide (lo ≤ i) && decide (i < hi + 1)) := by
  rw [maskNat, Nat.testBit_mul_two_pow, Nat.testBit_two_pow_sub_one]
  by_cases h : lo ≤ i <;> simp [h]; omega

/-- The mask holds every bit of the field. -/
theorem testBit_of_covers {m hi lo i : Nat} (h : maskAnd m (maskNat hi lo) = maskNat hi lo) (h1 : lo ≤ i) (h2 : i ≤ hi) : m.testBit i = true := by
  have := congrArg (Nat.testBit · i) h
  have hi' : i < hi + 1 := by omega
  simpa [testBit_maskNat, h1, hi'] using this

/-- The mask holds no bit of the field. -/
theorem testBit_of_misses {m hi lo i : Nat} (h : maskAnd m (maskNat hi lo) = 0) (h1 : lo ≤ i) (h2 : i ≤ hi) : m.testBit i = false := by
  have := congrArg (Nat.testBit · i) h
  have hi' : i < hi + 1 := by omega
  simpa [testBit_maskNat, h1, hi'] using this

/-! ## A register's word after a write (R10) -/

/-- The word of a register that held `old` once the fields of the masks `rw`, `w1c` and `w1s` have taken the write `v`. -/
def taken (old rw w1c w1s v : Nat) : Nat :=
  maskOr (maskDiff (maskOr (maskDiff old rw) (maskAnd v rw)) (maskAnd v w1c)) (maskAnd v w1s)

theorem testBit_taken (old rw w1c w1s v i : Nat) :
    (taken old rw w1c w1s v).testBit i =
      ((((old.testBit i && !rw.testBit i) || (v.testBit i && rw.testBit i)) && !(v.testBit i && w1c.testBit i)) ||
        (v.testBit i && w1s.testBit i)) := by
  simp [taken]

/-- An RW field takes the write's value. -/
theorem bits_taken_of_covers {rw hi lo : Nat} (h : maskAnd rw (maskNat hi lo) = maskNat hi lo) (old v : Nat) :
    bits (word (taken old rw 0 0 v)) hi lo = bits (word v) hi lo :=
  bits_congr fun i h1 h2 => by simp [getLsbD_word, testBit_taken, testBit_of_covers h h1 h2]

theorem bits_taken_word {rw hi lo : Nat} (h : maskAnd rw (maskNat hi lo) = maskNat hi lo) (old : Nat) (v : Word) :
    bits (word (taken old rw 0 0 v.toNat)) hi lo = bits v hi lo := by
  rw [bits_taken_of_covers h, word_toNat]

/-- A field that the write does not reach keeps its value. -/
theorem bits_taken_of_misses {rw hi lo : Nat} (h : maskAnd rw (maskNat hi lo) = 0) (old v : Nat) :
    bits (word (taken old rw 0 0 v)) hi lo = bits (word old) hi lo :=
  bits_congr fun i h1 h2 => by simp [getLsbD_word, testBit_taken, testBit_of_misses h h1 h2]

end Sys2Proof.Machine
end

section
/-! SUPPORT. What a register access error changes (R9, R344, R348): registers of the error log, and what is sent. -/
namespace Sys2Proof.Machine

open Sys2Proof

/-! ## What is sent and the words of the registers -/

/-- Nothing but registers and what is sent differs. -/
def RegsAndOut (s t : State) : Prop := ∃ r o, t = { s with regs := r, out := o }

theorem RegsAndOut.refl (s : State) : RegsAndOut s s := ⟨s.regs, s.out, rfl⟩

theorem RegsAndOut.trans {s t u : State} (h : RegsAndOut s t) (k : RegsAndOut t u) : RegsAndOut s u := by
  obtain ⟨r, o, rfl⟩ := h
  obtain ⟨r', o', rfl⟩ := k
  exact ⟨r', o', rfl⟩

theorem RegsAndOut.eq {s t : State} (h : RegsAndOut s t) : t = { s with regs := t.regs, out := t.out } := by
  obtain ⟨r, o, rfl⟩ := h
  rfl

theorem RegsAndOut.insp {s t : State} (h : RegsAndOut s t) : t.insp = s.insp := by
  obtain ⟨r, o, rfl⟩ := h
  rfl

theorem RegsAndOut.setReg (s : State) (o : Nat) (v : Word) : RegsAndOut s (s.setReg o v) := ⟨_, _, rfl⟩

theorem RegsAndOut.emit (s : State) (x : Out) : RegsAndOut s (s.emit x) := ⟨_, _, rfl⟩

/-! ## The error log -/

theorem RegsAndOut.putLog (s : State) (e j : Nat) (ws : List Word) : RegsAndOut s (s.putLog e j ws) := by
  induction ws generalizing s j with
  | nil => exact .refl s
  | cons w r ih => exact (RegsAndOut.setReg s _ w).trans (ih _ _)

theorem State.reg_putLog (s : State) (e j o : Nat) (ws : List Word) (h : ∀ k, j ≤ k → k < j + ws.length → o ≠ Reg.errLog e k) :
    (s.putLog e j ws).reg o = s.reg o := by
  induction ws generalizing s j with
  | nil => rfl
  | cons w r ih =>
    rw [State.putLog, ih _ _ fun k h1 h2 => h k (by omega) (by simp only [List.length_cons]; omega), State.reg_setReg,
      if_neg (h j le_rfl (by simp))]

/-- The four words of a record lie in the log. -/
theorem State.reg_putLog_record (s : State) (e n now o : Nat) (r : Report) (he : e < 64) (h : o < 0x9000 ∨ 0x9800 ≤ o) :
    (s.putLog e 0 (r.words n now)).reg o = s.reg o :=
  s.reg_putLog e 0 o _ fun k _ hk => by
    have : k < 4 := by simpa [Report.words] using hk
    simp only [Reg.errLog]; omega

theorem RegsAndOut.record_corrected (s : State) (r : Report) (hr : r.sev = 0) : RegsAndOut s (s.record r) := by
  simp only [State.record, hr, beq_self_eq_true, if_true]
  split
  · exact (RegsAndOut.putLog ..).trans (.setReg ..)
  · exact .setReg ..

theorem State.reg_record_corrected (s : State) (r : Report) (o : Nat) (hr : r.sev = 0) (ho : o ≠ Reg.errLogWritten)
    (h : o < 0x9000 ∨ 0x9800 ≤ o) : (s.record r).reg o = s.reg o := by
  simp only [State.record, hr, beq_self_eq_true, if_true]
  split
  · rw [State.reg_incWrap, if_neg ho, State.reg_putLog_record _ _ _ _ _ _ (Nat.mod_lt _ (by omega)) h]
  · rw [if_neg (by simp), State.reg_incSat, if_neg ho]

/-! ## An access error -/

theorem State.reg_errPulse (s : State) (r : Report) (o : Nat) : (s.errPulse r).reg o = s.reg o := by
  simp only [State.errPulse]
  split
  · split <;> rfl
  all_goals rfl

theorem RegsAndOut.errPulse (s : State) (r : Report) : RegsAndOut s (s.errPulse r) := by
  simp only [State.errPulse]
  split
  · split
    · exact .emit ..
    · exact .refl s
  · exact .emit ..
  · exact .emit ..
  · exact .refl s

/-- An access error changes registers and sends, and does nothing else. -/
theorem RegsAndOut.regError (s : State) (off : Nat) : RegsAndOut s (s.regError off) := by
  simp only [State.regError, State.detect, beq_self_eq_true, if_true, Bool.true_and]
  split
  · exact (RegsAndOut.errPulse ..).trans (.setReg ..)
  · exact ((RegsAndOut.errPulse ..).trans (.setReg ..)).trans (.record_corrected _ _ rfl)

/-- Of a register outside the log an access error changes the count of its detector only. -/
theorem State.reg_regError (s : State) (off o : Nat) (ho : o ≠ Reg.errLogWritten) (h : o < 0x9000 ∨ 0x9800 ≤ o) :
    (s.regError off).reg o = (s.incSat (Reg.errCnt 0x14) 31 0 1).reg o := by
  have count (t : State) (ht : ∀ x, t.reg x = s.reg x) : (t.incSat (Reg.errCnt 0x14) 31 0 1).reg o = (s.incSat (Reg.errCnt 0x14) 31 0 1).reg o := by
    simp only [State.reg_incSat, State.fld, ht]
  simp only [State.regError, State.detect, beq_self_eq_true, if_true, Bool.true_and]
  split
  · exact count _ (State.reg_errPulse s _)
  · rw [State.reg_record_corrected _ _ _ rfl ho h]
    exact count _ (State.reg_errPulse s _)

/-- A register outside ERR_ keeps its word through an access error. -/
theorem State.reg_regError_outside (s : State) (off o : Nat) (h : o < 0x8000 ∨ 0xA000 ≤ o) : (s.regError off).reg o = s.reg o := by
  rw [State.reg_regError _ _ _ (by simp only [Reg.errLogWritten]; omega) (by omega), State.reg_incSat,
    if_neg (by simp only [Reg.errCnt]; omega)]

/-- The count of access errors grows by one, up to its largest value. -/
theorem State.errCnt_regError (s : State) (off : Nat) :
    (s.regError off).fld (Reg.errCnt 0x14) 31 0 = min (s.fld (Reg.errCnt 0x14) 31 0 + 1) (2 ^ 32 - 1) := by
  rw [State.fld, State.reg_regError _ _ _ (by decide) (by decide), State.reg_incSat, if_pos rfl, bits_setBits_same _ _ _ _ (by omega) (by omega)]
  exact Nat.mod_eq_of_lt (by simp only [sat]; omega)

end Sys2Proof.Machine
end

section
/-! SUPPORT. Registers of the map by their offsets (R443, R445, R450): the name, the indexes and the fields of those that statements write. -/
namespace Sys2Proof.Machine

open Sys2Proof

/-! ## The fields of each register written, highest first (R10, R449) -/

def memCtrlFields : List Field := [⟨1, 1, .ro, .operator⟩, ⟨0, 0, .rw, .operator⟩]
def memInjectFields : List Field := [⟨63, 62, .rw, .operator⟩, ⟨42, 6, .rw, .operator⟩]
def memHpaFields : List Field := [⟨54, 12, .rw, .host⟩, ⟨0, 0, .rw, .host⟩]
def pwrCapFields : List Field := [⟨15, 0, .rw, .operator⟩]
def errLogConsumedFields : List Field := [⟨31, 0, .rw, .host⟩]
def errInjectFields : List Field :=
  [⟨63, 56, .rw, .operator⟩, ⟨55, 50, .rw, .operator⟩, ⟨49, 44, .rw, .operator⟩, ⟨43, 42, .rw, .operator⟩, ⟨41, 41, .ro, .operator⟩,
    ⟨24, 0, .rw, .operator⟩]
def insCtrlFields : List Field := [⟨0, 0, .w1s, .operator⟩]
def ctxIrqFields : List Field := [⟨47, 32, .rw, .host⟩, ⟨31, 24, .rw, .host⟩, ⟨1, 0, .rw, .host⟩]
def ctxAttnFields : List Field := [⟨63, 48, .ro, .host⟩, ⟨15, 8, .ro, .host⟩, ⟨2, 2, .w1c, .host⟩, ⟨1, 1, .w1c, .host⟩, ⟨0, 0, .w1c, .host⟩]

/-! ## What an offset names -/

/-- The offset names register `n` with indexes `ix` and fields `fs`. -/
structure Names (t : Straps) (off : Nat) (n : RegName) (ix : List Nat) (fs : List Field) (i : RegInst) : Prop where
  decodes : decodeReg t off = some i
  name : i.row.name = n
  index : i.ix = ix
  fields : i.row.fields = fs

theorem absentQuiet_of_decodes {t : Straps} {off : Nat} {i : RegInst} (h : decodeReg t off = some i) : absentQuiet t off = false := by
  rw [decodeReg] at h
  split at h
  · cases h
  · rename_i h'; simpa using h'

/-- A unit's own registers below the kernel pages stand in every build, but for the fabric's and the page-table formats. -/
theorem absentQuiet_low (t : Straps) {off : Nat} (h : off < 0x20000) (h0 : off ≠ Reg.xltFmt) (h1 : off ≠ Reg.xltFmtX0) (h2 : off ≠ Reg.xltFmtX1) :
    absentQuiet t off = false := by
  have a : ¬ 0x20000 ≤ off := by omega
  have b : ¬ 0x100000 ≤ off := by omega
  simp [absentQuiet, a, b, h0, h1, h2]

/-- Registers of a context's page stand in every build, but for the page-table roots. -/
theorem absentQuiet_page (t : Straps) (c k : Nat) (hk : k < 0x1000) (h0 : k ≠ 0x908) (h1 : k ≠ 0x910) :
    absentQuiet t (0x100000 + k + 0x1000 * c) = false := by
  have a : ¬ 0x100000 + k + 0x1000 * c < 0x40000 := by omega
  have m : (0x100000 + k + 0x1000 * c) % 0x1000 = k := by omega
  have f0 : 0x100000 + k + 0x1000 * c ≠ Reg.xltFmt := by simp only [Reg.xltFmt]; omega
  have f1 : 0x100000 + k + 0x1000 * c ≠ Reg.xltFmtX0 := by simp only [Reg.xltFmtX0]; omega
  have f2 : 0x100000 + k + 0x1000 * c ≠ Reg.xltFmtX1 := by simp only [Reg.xltFmtX1]; omega
  simp [absentQuiet, a, m, h0, h1, f0, f1, f2]

/-- A unit register by its fixed offset, from the rows of its range. -/
theorem decodeReg_low (t : Straps) {off : Nat} (h : off < 0x20000) (h0 : off ≠ Reg.xltFmt) (h1 : off ≠ Reg.xltFmtX0) (h2 : off ≠ Reg.xltFmtX1) :
    decodeReg t off = findRow t off (rowsAt off) := by
  rw [decodeReg, absentQuiet_low t h h0 h1 h2]; rfl

theorem names_memCtrl (t : Straps) : ∃ i, Names t Reg.memCtrl .memCtrl [] memCtrlFields i :=
  ⟨_, (decodeReg_low t (by decide) (by decide) (by decide) (by decide)).trans rfl, rfl, rfl, rfl⟩

theorem names_memInject (t : Straps) : ∃ i, Names t Reg.memInject .memInject [] memInjectFields i :=
  ⟨_, (decodeReg_low t (by decide) (by decide) (by decide) (by decide)).trans rfl, rfl, rfl, rfl⟩

theorem names_memHpa (t : Straps) : ∃ i, Names t Reg.memHpa .memHpa [] memHpaFields i :=
  ⟨_, (decodeReg_low t (by decide) (by decide) (by decide) (by decide)).trans rfl, rfl, rfl, rfl⟩

theorem names_pwrCap (t : Straps) : ∃ i, Names t Reg.pwrCap .pwrCap [] pwrCapFields i :=
  ⟨_, (decodeReg_low t (by decide) (by decide) (by decide) (by decide)).trans rfl, rfl, rfl, rfl⟩

theorem names_errLogConsumed (t : Straps) : ∃ i, Names t Reg.errLogConsumed .errLogConsumed [] errLogConsumedFields i :=
  ⟨_, (decodeReg_low t (by decide) (by decide) (by decide) (by decide)).trans rfl, rfl, rfl, rfl⟩

theorem names_errInject (t : Straps) : ∃ i, Names t Reg.errInject .errInject [] errInjectFields i :=
  ⟨_, (decodeReg_low t (by decide) (by decide) (by decide) (by decide)).trans rfl, rfl, rfl, rfl⟩

theorem names_insCtrl (t : Straps) : ∃ i, Names t Reg.insCtrl .insCtrl [] insCtrlFields i :=
  ⟨_, (decodeReg_low t (by decide) (by decide) (by decide) (by decide)).trans rfl, rfl, rfl, rfl⟩

theorem contexts_le (t : Straps) : t.contexts ≤ 64 := by
  unfold Straps.contexts
  split <;> omega

/-- One register for each context: a row of a page reaches distance `k` from the row's own place in the page of context `c` at distance 0 only. -/
theorem matchDims_page (t : Straps) {c : Nat} (hc : c < t.contexts) {k : Nat} (hk : k < 0x1000) :
    matchDims t (k + 0x1000 * c) [(0x1000, fun t => t.contexts)] = if k = 0 then some [c] else none := by
  have q : (k + 0x1000 * c) / 0x1000 = c := by omega
  have m : (k + 0x1000 * c) % 0x1000 = k := by omega
  by_cases h : k = 0 <;> simp [matchDims, q, m, hc, h]

/-- A row of a context's kernel page, one register for each context, names the offset `k` of page `c` exactly at its own offset `j`. -/
theorem findRow_page (t : Straps) {c j k : Nat} (hc : c < t.contexts) (hj : j ≤ k) (hk : k < 0x1000) (r : RegRow) (rs : List RegRow)
    (hb : r.base = 0x100000 + j) (hd : r.dims = [(0x1000, fun t => t.contexts)]) :
    findRow t (0x100000 + k + 0x1000 * c) (r :: rs) = if k = j then some ⟨r, [c]⟩ else findRow t (0x100000 + k + 0x1000 * c) rs := by
  have le : r.base ≤ 0x100000 + k + 0x1000 * c := by omega
  have d : 0x100000 + k + 0x1000 * c - r.base = (k - j) + 0x1000 * c := by omega
  rw [findRow, if_pos le, hd, d, matchDims_page t hc (by omega)]
  by_cases h : k = j
  · subst h; simp
  · rw [if_neg (show ¬ k - j = 0 by omega), if_neg h]

theorem decodeReg_kernelPage (t : Straps) {c k : Nat} (hc : c < t.contexts) (hk : k < 0x1000) (h0 : k ≠ 0x908) (h1 : k ≠ 0x910) :
    decodeReg t (0x100000 + k + 0x1000 * c) = findRow t (0x100000 + k + 0x1000 * c) kernelRows := by
  have h64 := contexts_le t
  have rows : rowsAt (0x100000 + k + 0x1000 * c) = kernelRows := by
    simp only [rowsAt]
    repeat rw [if_neg (by omega)]
    rw [if_pos (by omega)]
  rw [decodeReg, absentQuiet_page t c k hk h0 h1, rows]; rfl

/-- The rows of the kernel page before CTX_IRQ are none that an offset from CTX_IRQ upwards names. -/
theorem findRow_kernelRows_from_ctxIrq (t : Straps) {c k : Nat} (hc : c < t.contexts) (h : 0x28 < k) (hk : k < 0x1000) :
    findRow t (0x100000 + k + 0x1000 * c) kernelRows = findRow t (0x100000 + k + 0x1000 * c) (kernelRows.drop 4) := by
  rw [kernelRows, findRow_page t (j := 0x10) hc (by omega) hk _ _ rfl rfl, if_neg (by omega),
    findRow_page t (j := 0x18) hc (by omega) hk _ _ rfl rfl, if_neg (by omega),
    findRow_page t (j := 0x20) hc (by omega) hk _ _ rfl rfl, if_neg (by omega),
    findRow_page t (j := 0x28) hc (by omega) hk _ _ rfl rfl, if_neg (by omega)]
  rfl

theorem names_ctxIrq (t : Straps) {c : Nat} (hc : c < t.contexts) : ∃ i, Names t (Reg.ctxIrq c) .ctxIrq [c] ctxIrqFields i := by
  have decodes := (decodeReg_kernelPage t (k := 0x30) hc (by omega) (by omega) (by omega)).trans
    (findRow_kernelRows_from_ctxIrq t hc (by omega) (by omega))
  rw [kernelRows, List.drop_succ_cons, List.drop_succ_cons, List.drop_succ_cons, List.drop_succ_cons, List.drop_zero,
    findRow_page t (j := 0x30) hc (by omega) (by omega) _ _ rfl rfl, if_pos rfl] at decodes
  exact ⟨_, decodes, rfl, rfl, rfl⟩

theorem names_ctxAttn (t : Straps) {c : Nat} (hc : c < t.contexts) : ∃ i, Names t (Reg.ctxAttn c) .ctxAttn [c] ctxAttnFields i := by
  have decodes := (decodeReg_kernelPage t (k := 0x38) hc (by omega) (by omega) (by omega)).trans
    (findRow_kernelRows_from_ctxIrq t hc (by omega) (by omega))
  rw [kernelRows, List.drop_succ_cons, List.drop_succ_cons, List.drop_succ_cons, List.drop_succ_cons, List.drop_zero,
    findRow_page t (j := 0x30) hc (by omega) (by omega) _ _ rfl rfl, if_neg (by omega),
    findRow_page t (j := 0x38) hc (by omega) (by omega) _ _ rfl rfl, if_pos rfl] at decodes
  exact ⟨_, decodes, rfl, rfl, rfl⟩

end Sys2Proof.Machine
end

section
/-! SUPPORT. A register write from the host port to the register's own action: admission (R428, R430, R436, R444, R445, R451), rights (R412, R447,
R449) and the fields that take the write (R10). -/
namespace Sys2Proof.Machine

open Sys2Proof

/-! ## Admission -/

/-- The address of an offset of this block's own space (R444). -/
theorem ownAddress_split (m : Nat) {off : Nat} (h : off < 2 ^ 25) : (m * 2 ^ 25 + off) / 2 ^ 25 = m ∧ (m * 2 ^ 25 + off) % 2 ^ 25 = off := by
  omega

theorem State.busWrite_own {s : State} (ha : s.Accepts) {off : Nat} (h : off < 2 ^ 25) (mark : Bool) (f : WForm) :
    s.busWrite (s.gangM * 2 ^ 25 + off) mark f = s.localWrite ⟨mark, false⟩ off f := by
  obtain ⟨hm, ho⟩ := ownAddress_split s.gangM h
  have member : ¬ s.gangN ≤ s.gangM := Nat.not_le.2 ha.member
  simp only [State.busWrite, hm, ho, ha.powered, ha.thawed, if_neg member]
  simp

/-- A write with the wrong width or off its alignment is an access error (R9). -/
theorem State.busWrite_bad {s : State} (ha : s.Accepts) {off : Nat} (h : off < 2 ^ 25) (mark : Bool) :
    s.busWrite (s.gangM * 2 ^ 25 + off) mark .bad = s.regError off := by
  rw [State.busWrite_own ha h]
  simp [State.localWrite, State.accessInj, ha.ready, ha.noReset, ha.noInjection]

theorem State.busWrite_register {s : State} (ha : s.Accepts) {off : Nat} {i : RegInst} (hd : decodeReg s.straps off = some i)
    (h : off < 0x1000000) (h8 : off % 8 = 0) (mark : Bool) {f : WForm} (hf : f ≠ .bad) :
    s.busWrite (s.gangM * 2 ^ 25 + off) mark f = s.writeReg ⟨mark, false⟩ off i f := by
  have low : ¬ 0x1000000 ≤ off := by omega
  rw [State.busWrite_own ha (by omega)]
  simp [State.localWrite, State.accessInj, ha.ready, ha.noReset, ha.noInjection, hf, h8, low, absentQuiet_of_decodes hd, hd]

theorem WForm.full_ne_bad (v : Word) : WForm.full v ≠ .bad := nofun

theorem WForm.lo_ne_bad (v : BitVec 32) : WForm.lo v ≠ .bad := nofun

theorem WForm.hi_ne_bad (v : BitVec 32) : WForm.hi v ≠ .bad := nofun

/-! ## Slots and rights -/

theorem State.slotStops_unit (s : State) {off : Nat} (h : off < 0x100000) (i : RegInst) (m : Nat) : s.slotStops off i m = none := by
  have : pageCtx off = none := by rw [pageCtx, if_neg (by omega), if_neg (by omega)]
  rw [State.slotStops, this]

/-- Register `k` of the kernel page of a slot whose pages take writes (R451). -/
theorem State.slotStops_kernelPage {s : State} {c : Nat} (hp : s.PageOpen c) {k : Nat} (hk : k < 0x1000) (i : RegInst) (m : Nat) :
    s.slotStops (0x100000 + k + 0x1000 * c) i m = none := by
  have h64 := contexts_le s.straps
  have hc := hp.inBuild
  have page : pageCtx (0x100000 + k + 0x1000 * c) = some (c, true) := by
    rw [pageCtx, if_pos (by omega), show (0x100000 + k + 0x1000 * c - 0x100000) / 0x1000 = c by omega]
  simp [State.slotStops, page, State.slotGone, hp.taken, hp.standing, hp.noReset]

theorem State.mayWrite_operator (s : State) {w : Who} (hw : w.operator = true) (i : RegInst) {f : Field} (hf : f.wr ≠ .inspector) :
    s.mayWrite w i f = true := by
  unfold State.mayWrite
  split
  · contradiction
  · exact hw
  · simp [hw]

theorem State.mayWrite_host (s : State) (w : Who) {i : RegInst} (hi : i.row.name ∉ [.errLogConsumed, .fabJobCfg, .fabJobMap]) {f : Field}
    (hf : f.wr = .host) : s.mayWrite w i f = true := by
  simp only [List.mem_cons, List.not_mem_nil, or_false, not_or] at hi
  obtain ⟨h1, h2, h3⟩ := hi
  simp [State.mayWrite, hf, h1, h2, h3]

/-- The bits of the fields of a list that satisfy a test. -/
def fieldsMask (fs : List Field) (p : Field → Bool) : Nat := fs.foldl (fun m f => if p f then m + maskNat f.hi f.lo else m) 0

theorem fieldMask_eq (r : RegRow) (p : Field → Bool) : fieldMask r p = fieldsMask r.fields p := rfl

theorem fieldsMask_congr {fs : List Field} {p q : Field → Bool} (h : ∀ f ∈ fs, p f = q f) : fieldsMask fs p = fieldsMask fs q := by
  unfold fieldsMask
  generalize 0 = m
  induction fs generalizing m with
  | nil => rfl
  | cons f r ih => rw [List.foldl_cons, List.foldl_cons, h f (by simp), ih fun g hg => h g (by simp [hg])]

theorem fieldsMask_none (fs : List Field) : fieldsMask fs (fun _ => false) = 0 := by
  unfold fieldsMask
  induction fs with
  | nil => rfl
  | cons f r ih => exact ih

/-- A writer that may write every field of a register that takes writes reaches them all, and nothing is logged. -/
theorem State.rights_all (s : State) (w : Who) (off : Nat) (i : RegInst) (m v : Nat)
    (h : ∀ f ∈ i.row.fields, f.acc ≠ .ro → s.mayWrite w i f = true) :
    s.rights w off i m v = (fieldsMask i.row.fields fun f => f.acc != .ro, false) := by
  have mine : fieldMask i.row (fun f => f.acc != .ro && s.mayWrite w i f) = fieldsMask i.row.fields fun f => f.acc != .ro := by
    rw [fieldMask_eq]
    apply fieldsMask_congr
    intro f hf
    by_cases ro : f.acc = .ro
    · simp [ro]
    · simp [h f hf ro]
  have other : fieldMask i.row (fun f => f.acc != .ro && !s.mayWrite w i f) = 0 := by
    rw [fieldMask_eq, ← fieldsMask_none i.row.fields]
    apply fieldsMask_congr
    intro f hf
    by_cases ro : f.acc = .ro
    · simp [ro]
    · simp [h f hf ro]
  simp only [State.rights, mine, other, beq_self_eq_true, if_true]

/-! ## The fields that take a write -/

/-- Of a register with fields `fs`, none of them staged or write-only, a write of the bits `m` reaches the RW, W1C and W1S fields `rw`, `w1c` and
`w1s`, and not none. -/
structure Takes (fs : List Field) (m rw w1c w1s : Nat) : Prop where
  noSh : maskAnd (maskAnd (fieldsMask fs fun f => f.acc != .ro) m) (fieldsMask fs fun f => f.acc == .sh) = 0
  onRw : maskAnd (maskAnd (fieldsMask fs fun f => f.acc != .ro) m) (fieldsMask fs fun f => f.acc == .rw) = rw
  onW1c : maskAnd (maskAnd (fieldsMask fs fun f => f.acc != .ro) m) (fieldsMask fs fun f => f.acc == .w1c) = w1c
  onW1s : maskAnd (maskAnd (fieldsMask fs fun f => f.acc != .ro) m) (fieldsMask fs fun f => f.acc == .w1s) = w1s
  onWo : maskAnd (maskAnd (fieldsMask fs fun f => f.acc != .ro) m) (fieldsMask fs fun f => f.acc == .wo) = 0
  noWo : (fs.any fun f => f.acc == .wo) = false
  reaches : maskOr (maskOr rw w1c) w1s ≠ 0

theorem Takes.mask_ne_zero {fs : List Field} {m rw w1c w1s : Nat} (h : Takes fs m rw w1c w1s) :
    maskAnd (fieldsMask fs fun f => f.acc != .ro) m ≠ 0 := by
  intro h0
  apply h.reaches
  rw [← h.onRw, ← h.onW1c, ← h.onW1s, h0]
  simp

theorem takes_memCtrl : Takes memCtrlFields allBits 1 0 0 := ⟨rfl, rfl, rfl, rfl, rfl, rfl, by decide⟩

theorem takes_memInject : Takes memInjectFields allBits 0xC00007FFFFFFFFC0 0 0 := ⟨rfl, rfl, rfl, rfl, rfl, rfl, by decide⟩

theorem takes_memHpa : Takes memHpaFields allBits 0x7FFFFFFFFFF001 0 0 := ⟨rfl, rfl, rfl, rfl, rfl, rfl, by decide⟩

theorem takes_pwrCap : Takes pwrCapFields allBits 0xFFFF 0 0 := ⟨rfl, rfl, rfl, rfl, rfl, rfl, by decide⟩

theorem takes_errLogConsumed : Takes errLogConsumedFields allBits 0xFFFFFFFF 0 0 := ⟨rfl, rfl, rfl, rfl, rfl, rfl, by decide⟩

theorem takes_errInject : Takes errInjectFields allBits 0xFFFFFC0001FFFFFF 0 0 := ⟨rfl, rfl, rfl, rfl, rfl, rfl, by decide⟩

theorem takes_insCtrl : Takes insCtrlFields allBits 0 0 1 := ⟨rfl, rfl, rfl, rfl, rfl, rfl, by decide⟩

theorem takes_ctxAttn : Takes ctxAttnFields allBits 0 7 0 := ⟨rfl, rfl, rfl, rfl, rfl, rfl, by decide⟩

theorem takes_ctxIrq_full : Takes ctxIrqFields allBits 0xFFFFFF000003 0 0 := ⟨rfl, rfl, rfl, rfl, rfl, rfl, by decide⟩

theorem takes_ctxIrq_lo : Takes ctxIrqFields loHalf 0xFF000003 0 0 := ⟨rfl, rfl, rfl, rfl, rfl, rfl, by decide⟩

theorem takes_ctxIrq_hi : Takes ctxIrqFields hiHalf 0xFFFF00000000 0 0 := ⟨rfl, rfl, rfl, rfl, rfl, rfl, by decide⟩

/-- The write of a register whose fields all take it as R10 says comes to the register's action. -/
theorem State.writeReg_acts (s : State) (w : Who) {off : Nat} {n : RegName} {ix : List Nat} {fs : List Field} {i : RegInst}
    (hi : Names s.straps off n ix fs i) (hn : n ∉ [.ctxXltCfg, .insCmdBuf, .bellStep]) {f : WForm} (hs : s.slotStops off i (wMask f) = none)
    (hw : ∀ x ∈ fs, x.acc ≠ .ro → s.mayWrite w i x = true) {rw w1c w1s : Nat} (ht : Takes fs (wMask f) rw w1c w1s) :
    s.writeReg w off i f = s.act w off i (s.reg off) (word (taken (s.reg off).toNat rw w1c w1s (wVal f)))
      (word (maskAnd (wVal f) (maskOr w1c w1s))) := by
  simp only [List.mem_cons, List.not_mem_nil, or_false, not_or] at hn
  obtain ⟨n1, n2, n3⟩ := hn
  have whole : splitJoins i.row = false := by
    have noWo : ∀ x ∈ fs, (x.acc == .wo) = false := by simpa using ht.noWo
    simp only [splitJoins, hi.name, hi.fields, Bool.or_eq_false_iff, Bool.and_eq_false_iff]
    refine ⟨by simpa using n3, .inl ?_⟩
    simp only [List.any_eq_false]
    intro x hx
    simp [noWo x hx]
  have live : deadBits s.straps i = 0 := by simp [deadBits, hi.name, n1]
  have buffer : (i.row.name == RegName.insCmdBuf) = false := by simp [hi.name, n2]
  have reached := ht.mask_ne_zero
  have acts := ht.reaches
  rw [State.writeReg, hs]
  simp only [s.rights_all w off i _ _ (hi.fields ▸ hw), hi.fields, whole]
  simp only [beq_iff_eq, reached, if_false, Bool.false_eq_true]
  simp only [State.perform, live, maskDiff_zero, fieldMask_eq, hi.fields, ht.noSh, ht.onRw, ht.onW1c, ht.onW1s, ht.onWo, beq_self_eq_true, if_true,
    maskOr_zero, zero_maskOr, beq_iff_eq, acts, if_false, buffer, Bool.false_eq_true, word_toNat, taken]

/-- A host-port write of such a register. -/
theorem State.busWrite_acts {s : State} (ha : s.Accepts) (mark : Bool) {off : Nat} {n : RegName} {ix : List Nat} {fs : List Field} {i : RegInst}
    (hi : Names s.straps off n ix fs i) (hn : n ∉ [.ctxXltCfg, .insCmdBuf, .bellStep]) (h : off < 0x1000000) (h8 : off % 8 = 0) {f : WForm}
    (hf : f ≠ .bad) (hs : s.slotStops off i (wMask f) = none) (hw : ∀ x ∈ fs, x.acc ≠ .ro → s.mayWrite ⟨mark, false⟩ i x = true)
    {rw w1c w1s : Nat} (ht : Takes fs (wMask f) rw w1c w1s) :
    s.busWrite (s.gangM * 2 ^ 25 + off) mark f =
      s.act ⟨mark, false⟩ off i (s.reg off) (word (taken (s.reg off).toNat rw w1c w1s (wVal f))) (word (maskAnd (wVal f) (maskOr w1c w1s))) := by
  rw [State.busWrite_register ha hi.decodes h h8 mark hf, State.writeReg_acts s _ hi hn hs hw ht]

end Sys2Proof.Machine
end

section
/-! PROOFS. Register writes (O36): the word that each register holds after a write, and the statement put together from them. -/
namespace Sys2Proof.Machine

open Sys2Proof

/-! ## The Inspector has nothing to take up -/

theorem State.InspectorQuiet.of_insp {s t : State} (h : s.InspectorQuiet) (e : t.insp = s.insp) : t.InspectorQuiet :=
  ⟨by rw [State.cmdBusy, e]; exact h.free, e ▸ h.door, e ▸ h.messages⟩

theorem State.msgSettle_quiet {s : State} (h : s.InspectorQuiet) (n : Nat) : s.msgSettle n = s := by
  have noCommand : (s.insp.messages.find? fun (m : Partial) => m.kind == 1) = none := by
    rw [List.find?_eq_none]
    intro m hm
    simpa using h.messages m hm
  cases n with
  | zero => rfl
  | succ n => rw [State.msgSettle, noCommand]

theorem State.cgSettle_quiet {s : State} (h : s.InspectorQuiet) : s.cgSettle = s := by
  have free := h.free
  unfold State.cgSettle
  split
  · rename_i l hl
    rw [State.cmdBusy, hl, Option.any_some] at free
    rw [if_neg (by simp [free])]
  · rfl

theorem State.cmdSettle_quiet {s : State} (h : s.InspectorQuiet) : s.cmdSettle = s := by
  unfold State.cmdSettle
  simp only [State.cgSettle_quiet h, h.door, State.msgSettle_quiet h, ite_self]

theorem exec_regWr {s t : State} {addr : Nat} {mark : Bool} {f : WForm} (hq : s.InspectorQuiet) (h : s.busWrite addr mark f = t)
    (e : t.insp = s.insp) : exec (.regWr addr mark f) s = .next t := by
  show Host.Outcome.next (s.busWrite addr mark f).cmdSettle = _
  rw [h, State.cmdSettle_quiet (hq.of_insp e)]

/-- A command that writes one register answers with what the host-port write of it leaves. -/
theorem exec_wrOut {c : Instr} {s t : State} {off : Nat} {mark : Bool} {f : WForm} (hc : exec c s = wrOut s off mark f)
    (h : s.busWrite (s.gangM * 2 ^ 25 + off) mark f = t) : exec c s = .next t := hc.trans (congrArg Host.Outcome.next h)

/-! ## Frames -/

theorem State.setReg_frame (s : State) (o : Nat) (v : Word) : s.setReg o v = { s with regs := (s.setReg o v).regs } := rfl

theorem SameRegs.setReg (s : State) (o : Nat) (v : Word) : SameRegs [o] s (s.setReg o v) := fun o' h => by
  rw [State.reg_setReg, if_neg (by simpa using h)]

/-- An answer that has one register written, and what holds of that register. -/
theorem exists_setReg {s : State} {o : Nat} {w : Word} {x : Host.Outcome State Fault Refusal} (h : x = .next (s.setReg o w)) {P : State → Prop}
    (hp : P (s.setReg o w)) : ∃ t, x = .next t ∧ t = { s with regs := t.regs } ∧ SameRegs [o] s t ∧ P t :=
  ⟨_, h, State.setReg_frame s o w, SameRegs.setReg s o w, hp⟩

/-- An answer that refuses the value of a register outside ERR_: the register keeps its word, and only registers of the error log and what is sent
change. -/
theorem exists_refused {s : State} {o : Nat} (ho : o < 0x8000 ∨ 0xA000 ≤ o) {x : Host.Outcome State Fault Refusal}
    (h : x = .next (s.regError o)) : ∃ t, x = .next t ∧ t = { s with regs := t.regs, out := t.out } ∧ t.reg o = s.reg o :=
  ⟨_, h, (RegsAndOut.regError s o).eq, State.reg_regError_outside s o o ho⟩

theorem State.fld_setReg_self (s : State) (o : Nat) (v : Word) (hi lo : Nat) : (s.setReg o v).fld o hi lo = bits v hi lo := by
  rw [State.fld, State.reg_setReg_self]

theorem State.flag_setReg_self (s : State) (o : Nat) (v : Word) (i : Nat) : (s.setReg o v).flag o i = bit v i := by
  rw [State.flag, State.reg_setReg_self]

/-! ## Writes by the operator of the unit registers -/

/-- A write with the operator mark of a unit register comes to the register's action. -/
theorem State.operatorWrite_acts {s : State} (ha : s.Accepts) {off : Nat} {n : RegName} {fs : List Field} {i : RegInst}
    (hi : Names s.straps off n [] fs i) (hn : n ∉ [.ctxXltCfg, .insCmdBuf, .bellStep]) (h : off < 0x100000) (h8 : off % 8 = 0)
    (hw : ∀ x ∈ fs, x.wr ≠ .inspector) {rw w1c w1s : Nat} (ht : Takes fs allBits rw w1c w1s) (v : Word) :
    s.busWrite (s.gangM * 2 ^ 25 + off) true (.full v) =
      s.act ⟨true, false⟩ off i (s.reg off) (word (taken (s.reg off).toNat rw w1c w1s v.toNat)) (word (maskAnd v.toNat (maskOr w1c w1s))) :=
  State.busWrite_acts ha true hi hn (by omega) h8 (WForm.full_ne_bad v) (s.slotStops_unit h i _) (fun x hx _ => s.mayWrite_operator rfl i (hw x hx)) ht

theorem State.write_memInject {s : State} (ha : s.Accepts) (v : Word) :
    s.busWrite (s.gangM * 2 ^ 25 + Reg.memInject) true (.full v) =
      s.setReg Reg.memInject (word (taken (s.reg Reg.memInject).toNat 0xC00007FFFFFFFFC0 0 0 v.toNat)) := by
  obtain ⟨i, hi⟩ := names_memInject s.straps
  rw [State.operatorWrite_acts ha hi (by decide) (by decide) (by decide) (by decide) takes_memInject]
  simp only [State.act, hi.name]

theorem State.write_insCtrl {s : State} (ha : s.Accepts) (v : Word) :
    s.busWrite (s.gangM * 2 ^ 25 + Reg.insCtrl) true (.full v) =
      s.setReg Reg.insCtrl (word (taken (s.reg Reg.insCtrl).toNat 0 0 1 v.toNat)) := by
  obtain ⟨i, hi⟩ := names_insCtrl s.straps
  rw [State.operatorWrite_acts ha hi (by decide) (by decide) (by decide) (by decide) takes_insCtrl]
  simp only [State.act, hi.name]

theorem State.write_memCtrl {s : State} (ha : s.Accepts) (v : Word) :
    s.busWrite (s.gangM * 2 ^ 25 + Reg.memCtrl) true (.full v) = s.wrMemCtrl (word (taken (s.reg Reg.memCtrl).toNat 1 0 0 v.toNat)) := by
  obtain ⟨i, hi⟩ := names_memCtrl s.straps
  rw [State.operatorWrite_acts ha hi (by decide) (by decide) (by decide) (by decide) takes_memCtrl]
  simp only [State.act, hi.name]

theorem State.write_pwrCap {s : State} (ha : s.Accepts) (v : Word) :
    s.busWrite (s.gangM * 2 ^ 25 + Reg.pwrCap) true (.full v) = s.wrCap (word (taken (s.reg Reg.pwrCap).toNat 0xFFFF 0 0 v.toNat)) := by
  obtain ⟨i, hi⟩ := names_pwrCap s.straps
  rw [State.operatorWrite_acts ha hi (by decide) (by decide) (by decide) (by decide) takes_pwrCap]
  simp only [State.act, hi.name]

theorem State.write_errLogConsumed {s : State} (ha : s.Accepts) (v : Word) :
    s.busWrite (s.gangM * 2 ^ 25 + Reg.errLogConsumed) true (.full v) = s.wrLogConsumed (bits v 31 0) := by
  obtain ⟨i, hi⟩ := names_errLogConsumed s.straps
  rw [State.operatorWrite_acts ha hi (by decide) (by decide) (by decide) (by decide) takes_errLogConsumed]
  simp only [State.act, hi.name]
  rw [bits_taken_word rfl]

theorem State.write_errInject {s : State} (ha : s.Accepts) (v : Word) :
    s.busWrite (s.gangM * 2 ^ 25 + Reg.errInject) true (.full v) =
      s.wrInject (word (taken (s.reg Reg.errInject).toNat 0xFFFFFC0001FFFFFF 0 0 v.toNat)) := by
  obtain ⟨i, hi⟩ := names_errInject s.straps
  rw [State.operatorWrite_acts ha hi (by decide) (by decide) (by decide) (by decide) takes_errInject]
  simp only [State.act, hi.name]

/-! ## Writes by the kernel -/

theorem State.write_memHpa {s : State} (ha : s.Accepts) (mark : Bool) (v : Word) :
    s.busWrite (s.gangM * 2 ^ 25 + Reg.memHpa) mark (.full v) = s.wrHpa (word (taken (s.reg Reg.memHpa).toNat 0x7FFFFFFFFFF001 0 0 v.toNat)) := by
  obtain ⟨i, hi⟩ := names_memHpa s.straps
  have writer : ∀ x ∈ memHpaFields, x.wr = .host := by decide
  rw [State.busWrite_acts ha mark hi (by decide) (by decide) (by decide) (WForm.full_ne_bad v) (s.slotStops_unit (by decide) i _)
    (fun x hx _ => s.mayWrite_host _ (by rw [hi.name]; decide) (writer x hx)) takes_memHpa]
  simp only [State.act, hi.name, wVal]

/-- A write of CTX_IRQ, whole or of a half: the RW fields it reaches take its value. -/
theorem State.write_ctxIrq {s : State} (ha : s.Accepts) {c : Nat} (hp : s.PageOpen c) (mark : Bool) {f : WForm} (hf : f ≠ .bad) {rw : Nat}
    (ht : Takes ctxIrqFields (wMask f) rw 0 0) :
    s.busWrite (s.gangM * 2 ^ 25 + Reg.ctxIrq c) mark f =
      s.setReg (Reg.ctxIrq c) (word (taken (s.reg (Reg.ctxIrq c)).toNat rw 0 0 (wVal f))) := by
  obtain ⟨i, hi⟩ := names_ctxIrq s.straps hp.inBuild
  have h64 := contexts_le s.straps
  have hc := hp.inBuild
  have writer : ∀ x ∈ ctxIrqFields, x.wr = .host := by decide
  rw [State.busWrite_acts ha mark hi (by decide) (by simp only [Reg.ctxIrq]; omega) (by simp only [Reg.ctxIrq]; omega) hf
    (State.slotStops_kernelPage hp (k := 0x30) (by omega) i _) (fun x hx _ => s.mayWrite_host _ (by rw [hi.name]; decide) (writer x hx)) ht]
  simp only [State.act, hi.name]

theorem State.write_ctxAttn {s : State} (ha : s.Accepts) {c : Nat} (hp : s.PageOpen c) (mark : Bool) (v : Word) :
    s.busWrite (s.gangM * 2 ^ 25 + Reg.ctxAttn c) mark (.full v) = s.clearAttn c (word (maskAnd v.toNat 7)) := by
  obtain ⟨i, hi⟩ := names_ctxAttn s.straps hp.inBuild
  have h64 := contexts_le s.straps
  have hc := hp.inBuild
  have writer : ∀ x ∈ ctxAttnFields, x.wr = .host := by decide
  rw [State.busWrite_acts ha mark hi (by decide) (by simp only [Reg.ctxAttn]; omega) (by simp only [Reg.ctxAttn]; omega) (WForm.full_ne_bad v)
    (State.slotStops_kernelPage hp (k := 0x38) (by omega) i _) (fun x hx _ => s.mayWrite_host _ (by rw [hi.name]; decide) (writer x hx))
    takes_ctxAttn]
  simp only [State.act, hi.name, hi.index, nth_cons_zero, wVal, maskOr_zero]

end Sys2Proof.Machine
end

section
/-! PROOFS. Register writes (O36): what each register of the statement reads after a write, clause by clause, and the statement. -/
namespace Sys2Proof.Machine

open Sys2Proof

/-! ## CTX_IRQ, whole and by halves (R9, R10) -/

theorem ctxIrq_bounds {t : Straps} {c : Nat} (hc : c < t.contexts) : 0x100000 ≤ Reg.ctxIrq c ∧ Reg.ctxIrq c < 0x200000 := by
  have h64 := contexts_le t
  simp only [Reg.ctxIrq]; omega

theorem ctxIrq_full (s : State) (c : Nat) (v : Word) :
    let t := s.setReg (Reg.ctxIrq c) (word (taken (s.reg (Reg.ctxIrq c)).toNat 0xFFFFFF000003 0 0 v.toNat))
    t.fld (Reg.ctxIrq c) 47 32 = bits v 47 32 ∧ t.fld (Reg.ctxIrq c) 31 24 = bits v 31 24 ∧ t.fld (Reg.ctxIrq c) 1 0 = bits v 1 0 := by
  simp only [State.fld_setReg_self]
  exact ⟨bits_taken_word rfl _ v, bits_taken_word rfl _ v, bits_taken_word rfl _ v⟩

theorem ctxIrq_lo (s : State) (c : Nat) (v : BitVec 32) :
    let t := s.setReg (Reg.ctxIrq c) (word (taken (s.reg (Reg.ctxIrq c)).toNat 0xFF000003 0 0 v.toNat))
    t.fld (Reg.ctxIrq c) 47 32 = bits (s.reg (Reg.ctxIrq c)) 47 32 ∧ t.fld (Reg.ctxIrq c) 31 24 = v.toNat / 2 ^ 24 ∧
      t.fld (Reg.ctxIrq c) 1 0 = v.toNat % 4 := by
  have hv := v.isLt
  simp only [State.fld_setReg_self]
  refine ⟨by rw [bits_taken_of_misses rfl, word_toNat], ?_, ?_⟩
  · rw [bits_taken_of_covers rfl, bits, word, BitVec.toNat_ofNat]; omega
  · rw [bits_taken_of_covers rfl, bits, word, BitVec.toNat_ofNat]; omega

theorem ctxIrq_hi (s : State) (c : Nat) (v : BitVec 32) :
    let t := s.setReg (Reg.ctxIrq c) (word (taken (s.reg (Reg.ctxIrq c)).toNat 0xFFFF00000000 0 0 (v.toNat * 2 ^ 32)))
    t.fld (Reg.ctxIrq c) 47 32 = v.toNat % 2 ^ 16 ∧ t.fld (Reg.ctxIrq c) 31 0 = bits (s.reg (Reg.ctxIrq c)) 31 0 := by
  have hv := v.isLt
  simp only [State.fld_setReg_self]
  refine ⟨?_, by rw [bits_taken_of_misses rfl, word_toNat]⟩
  rw [bits_taken_of_covers rfl, bits, word, BitVec.toNat_ofNat]; omega

/-! ## CTX_ATTN (R10, R331) -/

theorem State.clearAttn_keep {m : Word} (h : bit m 0 = false) (s : State) (c : Nat) :
    s.clearAttn c m = s.setReg (Reg.ctxAttn c) (s.reg (Reg.ctxAttn c) &&& ~~~(m &&& 7)) := by
  simp only [State.clearAttn, h, Bool.false_eq_true, if_false]

theorem State.clearAttn_completion {m : Word} (h : bit m 0 = true) (s : State) (c : Nat) :
    s.clearAttn c m = ((s.setReg (Reg.ctxAttn c) (s.reg (Reg.ctxAttn c) &&& ~~~(m &&& 7))).setFld (Reg.ctxAttn c) 63 48 0).updCtx c
      fun x => { x with modFrom := none } := by
  simp only [State.clearAttn, h, if_true]

theorem State.ctx_clearAttn (s : State) (c : Nat) (m : Word) (d : Nat) :
    (s.clearAttn c m).ctx d = if d = c ∧ bit m 0 = true then { s.ctx d with modFrom := none } else s.ctx d := by
  cases hm : bit m 0
  · rw [State.clearAttn_keep hm, if_neg (by simp), State.ctx_setReg]
  · rw [State.clearAttn_completion hm, State.ctx_updCtx, State.ctx_setFld, State.ctx_setReg]
    by_cases hd : d = c
    · rw [if_pos hd, if_pos ⟨hd, rfl⟩, hd]
    · rw [if_neg hd, if_neg (by simp [hd]), State.ctx_setFld, State.ctx_setReg]

/-- Nothing but registers and contexts differs. -/
def RegsAndCtxs (s t : State) : Prop := ∃ r x, t = { s with regs := r, ctxs := x }

theorem RegsAndCtxs.setReg (s : State) (o : Nat) (v : Word) : RegsAndCtxs s (s.setReg o v) := ⟨_, _, rfl⟩

theorem RegsAndCtxs.updCtx (s : State) (c : Nat) (f : Ctx → Ctx) : RegsAndCtxs s (s.updCtx c f) := ⟨_, _, rfl⟩

theorem RegsAndCtxs.trans {s t u : State} (h : RegsAndCtxs s t) (k : RegsAndCtxs t u) : RegsAndCtxs s u := by
  obtain ⟨r, x, rfl⟩ := h
  obtain ⟨r', x', rfl⟩ := k
  exact ⟨r', x', rfl⟩

theorem RegsAndCtxs.eq {s t : State} (h : RegsAndCtxs s t) : t = { s with regs := t.regs, ctxs := t.ctxs } := by
  obtain ⟨r, x, rfl⟩ := h
  rfl

theorem RegsAndCtxs.clearAttn (s : State) (c : Nat) (m : Word) : RegsAndCtxs s (s.clearAttn c m) := by
  cases hm : bit m 0
  · rw [State.clearAttn_keep hm]
    exact .setReg _ _ _
  · rw [State.clearAttn_completion hm]
    exact ((RegsAndCtxs.setReg _ _ _).trans (.setReg _ _ _)).trans (.updCtx _ _ _)

theorem State.reg_clearAttn_ne (s : State) (c : Nat) (m : Word) {o : Nat} (h : o ≠ Reg.ctxAttn c) : (s.clearAttn c m).reg o = s.reg o := by
  cases hm : bit m 0
  · rw [State.clearAttn_keep hm, State.reg_setReg, if_neg h]
  · rw [State.clearAttn_completion hm, State.reg_updCtx, State.reg_setFld, if_neg h, State.reg_setReg, if_neg h]

theorem State.reg_clearAttn (s : State) (c : Nat) (m : Word) :
    (s.clearAttn c m).reg (Reg.ctxAttn c) =
      if bit m 0 = true then setBits (s.reg (Reg.ctxAttn c) &&& ~~~(m &&& 7)) 63 48 0 else s.reg (Reg.ctxAttn c) &&& ~~~(m &&& 7) := by
  cases hm : bit m 0
  · rw [State.clearAttn_keep hm, State.reg_setReg_self, if_neg Bool.false_ne_true]
  · rw [State.clearAttn_completion hm, State.reg_updCtx, State.reg_setFld_self, State.reg_setReg_self, if_pos rfl]

/-- Below `held` CTX_ATTN loses the bits of the mask and keeps the others. -/
theorem State.getLsbD_clearAttn (s : State) (c : Nat) (m : Word) {i : Nat} (h : i < 48) :
    ((s.clearAttn c m).reg (Reg.ctxAttn c)).getLsbD i = ((s.reg (Reg.ctxAttn c)).getLsbD i && !(m.getLsbD i && (7 : Word).getLsbD i)) := by
  have h64 : i < 64 := by omega
  rw [State.reg_clearAttn]
  split
  · rw [getLsbD_setBits _ _ _ _ _ (by omega) (by omega), if_neg (by omega)]; simp [h64]
  · simp [h64]

/-- The W1C bits that a write of CTX_ATTN carries are those of its value. -/
theorem getLsbD_attnMask (v : Word) {j : Nat} (h : j < 3) : (word (maskAnd v.toNat 7)).getLsbD j = v.getLsbD j := by
  have h7 : (7 : Nat).testBit j = true := by interval_cases j <;> rfl
  rw [getLsbD_word, testBit_maskAnd, BitVec.testBit_toNat, h7, decide_eq_true (by omega : j < 64), Bool.true_and, Bool.and_true]

theorem ctxAttn_write (s : State) (c : Nat) (v : Word) :
    let t := s.clearAttn c (word (maskAnd v.toNat 7))
    (∀ j, j < 3 → t.flag (Reg.ctxAttn c) j = (s.flag (Reg.ctxAttn c) j && !bit v j)) ∧
      t.fld (Reg.ctxAttn c) 15 8 = s.fld (Reg.ctxAttn c) 15 8 ∧
      t.fld (Reg.ctxAttn c) 63 48 = if bit v 0 = true then 0 else s.fld (Reg.ctxAttn c) 63 48 := by
  have completion : bit (word (maskAnd v.toNat 7)) 0 = bit v 0 := by rw [bit_eq_getLsbD, bit_eq_getLsbD, getLsbD_attnMask v (by omega)]
  have outside {i : Nat} (h : 3 ≤ i) : (7 : Word).getLsbD i = false := by
    rw [← BitVec.testBit_toNat]
    exact Nat.testBit_lt_two_pow (lt_of_lt_of_le (by decide : (7 : Word).toNat < 2 ^ 3) (Nat.pow_le_pow_right (by omega) h))
  refine ⟨fun j hj => ?_, bits_congr fun i h1 h2 => ?_, ?_⟩
  · have inside : (7 : Word).getLsbD j = true := by interval_cases j <;> rfl
    rw [State.flag, State.flag, bit_eq_getLsbD, bit_eq_getLsbD, bit_eq_getLsbD, State.getLsbD_clearAttn _ _ _ (by omega), getLsbD_attnMask v hj, inside,
      Bool.and_true]
  · rw [State.getLsbD_clearAttn _ _ _ (by omega), outside (by omega), Bool.and_false, Bool.not_false, Bool.and_true]
  · rw [State.fld, State.reg_clearAttn, completion]
    split
    · rw [bits_setBits_same _ _ _ _ (by omega) (by omega), Nat.zero_mod]
    · exact bits_congr fun i h1 h2 => by
        rw [BitVec.getLsbD_and, BitVec.getLsbD_not, BitVec.getLsbD_and, outside (by omega), decide_eq_true (by omega : i < 64)]
        simp

/-! ## MEM_CTRL (R316, R460) -/

theorem State.wrMemCtrl_enable {s : State} {new : Word} (hoff : s.flag Reg.memCtrl 0 = false) (hmap : s.mapBad = false) :
    s.wrMemCtrl new = s.setReg Reg.memCtrl new := by
  simp [State.wrMemCtrl, hoff, hmap]

theorem State.wrMemCtrl_refused {s : State} {new : Word}
    (h : s.flag Reg.memCtrl 0 = false ∧ s.mapBad = true ∧ bit new 0 = true ∨ s.flag Reg.memCtrl 0 = true ∧ bit new 0 = false) :
    s.wrMemCtrl new = s.regError Reg.memCtrl := by
  rcases h with ⟨hoff, hmap, hnew⟩ | ⟨hon, hnew⟩
  · simp [State.wrMemCtrl, hoff, hmap, hnew]
  · simp [State.wrMemCtrl, hon, hnew]

theorem memCtrl_enable_bit (old : Nat) (v : Word) : bit (word (taken old 1 0 0 v.toNat)) 0 = bit v 0 :=
  bit_of_bits (bits_taken_word rfl old v)

/-! ## MEM_HPA, PWR_CAP, ERR_LOG_CONSUMED and ERR_INJECT (R460, R382, R348, R352) -/

theorem memHpa_fields (old : Nat) (v : Word) :
    bits (word (taken old 0x7FFFFFFFFFF001 0 0 v.toNat)) 54 12 = bits v 54 12 ∧ bit (word (taken old 0x7FFFFFFFFFF001 0 0 v.toNat)) 0 = bit v 0 :=
  ⟨bits_taken_word rfl old v, bit_of_bits (bits_taken_word rfl old v)⟩

theorem pwrCap_field (old : Nat) (v : Word) : bits (word (taken old 0xFFFF 0 0 v.toNat)) 15 0 = bits v 15 0 :=
  bits_taken_word rfl old v

theorem State.wrHpa_taken {s : State} {new : Word} (h : bits new 54 12 * 4096 + s.dataBytes ≤ 2 ^ 55) : s.wrHpa new = s.setReg Reg.memHpa new := by
  rw [State.wrHpa, if_neg (Nat.not_lt.2 h)]

theorem State.wrHpa_refused {s : State} {new : Word} (h : 2 ^ 55 < bits new 54 12 * 4096 + s.dataBytes) : s.wrHpa new = s.regError Reg.memHpa := by
  rw [State.wrHpa, if_pos h]

theorem State.wrCap_taken {s : State} {new : Word} (h1 : s.straps.peakPower ≤ 10 * bits new 15 0) (h2 : bits new 15 0 ≤ s.straps.peakPower) :
    s.wrCap new = s.setReg Reg.pwrCap new := by
  simp [State.wrCap, h1, h2]

theorem State.wrCap_refused {s : State} {new : Word} (h : 10 * bits new 15 0 < s.straps.peakPower ∨ s.straps.peakPower < bits new 15 0) :
    s.wrCap new = s.regError Reg.pwrCap := by
  simp [State.wrCap, h]

/-- What is armed once ERR_INJECT takes a value whose place its detector has, and a SECDED detector's kind. -/
theorem State.wrInject_armed {s : State} {w : Word} (hplace : injPlaceOk s.straps (bits w 63 56) (bits w 55 50) (bits w 49 44) (bits w 24 0) = true)
    (hkind : bits w 63 56 = 1 ∨ bits w 63 56 = 2 → bits w 43 42 = 1 ∨ bits w 43 42 = 2) :
    s.wrInject w =
      { s with inject := some ⟨bits w 63 56, bits w 55 50, bits w 49 44, bits w 43 42, bits w 24 0⟩ }.setReg Reg.errInject (setBits w 41 41 1) := by
  have secded : ((bits w 63 56 == 1 || bits w 63 56 == 2) && bits w 43 42 != 1 && bits w 43 42 != 2) = false := by
    by_cases h : bits w 63 56 = 1 ∨ bits w 63 56 = 2
    · rcases hkind h with k | k <;> simp [k]
    · rw [not_or] at h; simp [h.1, h.2]
  simp [State.wrInject, hplace, secded]

theorem errInject_fields (old : Nat) (v : Word) :
    let w := word (taken old 0xFFFFFC0001FFFFFF 0 0 v.toNat)
    bits w 63 56 = bits v 63 56 ∧ bits w 55 50 = bits v 55 50 ∧ bits w 49 44 = bits v 49 44 ∧ bits w 43 42 = bits v 43 42 ∧
      bits w 24 0 = bits v 24 0 := by
  exact ⟨bits_taken_word rfl old v, bits_taken_word rfl old v, bits_taken_word rfl old v, bits_taken_word rfl old v, bits_taken_word rfl old v⟩

/-- A register written in a state with another injection point. -/
theorem exists_armed {s : State} {j : Option Inject} {o : Nat} {w : Word} {x : Host.Outcome State Fault Refusal}
    (h : x = .next ({ s with inject := j }.setReg o w)) {P : State → Prop} (hp : P ({ s with inject := j }.setReg o w)) :
    ∃ t, x = .next t ∧ t = { s with regs := t.regs, inject := t.inject } ∧ SameRegs [o] s t ∧ P t :=
  ⟨_, h, rfl, SameRegs.setReg { s with inject := j } o w, hp⟩

/-! ## The statement -/

/-- Settles O36: each command is the host-port write of its register, which the admission and the rights let through to the register's action; the
word that the action stores is read field by field, and a refused value comes to an access error, which keeps every register outside ERR_. -/
theorem registerWrites : Obligations.RegisterWrites := by
  unfold Obligations.RegisterWrites
  refine ⟨fun s c mark ha hq hp => ⟨fun v => ?irqWhole, fun v => ?irqLow, fun v => ?irqHigh, ?irqBad, fun v => ?irqLine⟩,
    fun s c mark v ha hp => ?attn, fun s v ha => ⟨?inject, ?lock, fun hoff hmap hv => ?enable, fun hoff hmap hv => ?badMap,
    fun hon hv => ?disable⟩, fun s mark v ha => ⟨fun h => ?hpa, fun h => ?hpaBeyond⟩, fun s v ha => ⟨fun h1 h2 => ?cap, fun h => ?capOutside,
    fun h => ?consumed, fun h => ?consumedBeyond, fun hplace hkind => ?arm⟩⟩
  case irqWhole =>
    have whole := State.write_ctxIrq ha hp mark (WForm.full_ne_bad v) takes_ctxIrq_full
    exact exists_setReg (exec_regWr hq whole (State.setReg_insp ..)) (ctxIrq_full s c v)
  case irqLow =>
    have low := State.write_ctxIrq ha hp mark (WForm.lo_ne_bad v) takes_ctxIrq_lo
    exact exists_setReg (exec_regWr hq low (State.setReg_insp ..)) (ctxIrq_lo s c v)
  case irqHigh =>
    have high := State.write_ctxIrq ha hp mark (WForm.hi_ne_bad v) takes_ctxIrq_hi
    exact exists_setReg (exec_regWr hq high (State.setReg_insp ..)) (ctxIrq_hi s c v)
  case irqBad =>
    obtain ⟨above, below⟩ := ctxIrq_bounds hp.inBuild
    have error := RegsAndOut.regError s (Reg.ctxIrq c)
    exact ⟨_, exec_regWr hq (State.busWrite_bad ha (by omega) mark) error.insp, error.eq, State.reg_regError_outside s _ _ (.inr (by omega)),
      State.errCnt_regError s _⟩
  case irqLine =>
    have whole := State.write_ctxIrq ha hp mark (WForm.full_ne_bad v) takes_ctxIrq_full
    exact exists_setReg (exec_wrOut rfl whole) (ctxIrq_full s c v)
  case attn =>
    obtain ⟨flags, cause, held⟩ := ctxAttn_write s c v
    refine ⟨_, exec_wrOut rfl (State.write_ctxAttn ha hp mark v), (RegsAndCtxs.clearAttn ..).eq,
      fun o ho => State.reg_clearAttn_ne _ _ _ (by simpa using ho), flags, cause, held, fun d hd => ?_, ?_⟩
    · rw [State.ctx_clearAttn, if_neg (by simp [hd])]
    · rw [State.ctx_clearAttn]; split <;> rfl
  case inject =>
    refine exists_setReg (exec_wrOut rfl (State.write_memInject ha v)) ⟨?_, ?_⟩ <;> rw [State.fld_setReg_self, bits_taken_word rfl]
  case lock =>
    refine exists_setReg (exec_wrOut rfl (State.write_insCtrl ha v)) ?_
    rw [State.flag_setReg_self, State.flag, bit_eq_getLsbD, bit_eq_getLsbD, bit_eq_getLsbD, getLsbD_word, testBit_taken, BitVec.testBit_toNat,
      BitVec.testBit_toNat]
    simp
  case enable =>
    refine exists_setReg (exec_wrOut rfl ((State.write_memCtrl ha v).trans (State.wrMemCtrl_enable hoff hmap))) ?_
    rw [State.flag_setReg_self, memCtrl_enable_bit, hv]
  case badMap =>
    have enable := (memCtrl_enable_bit (s.reg Reg.memCtrl).toNat v).trans hv
    have refused := State.wrMemCtrl_refused (.inl ⟨hoff, hmap, enable⟩)
    exact exists_refused (.inl (by decide)) (exec_wrOut rfl ((State.write_memCtrl ha v).trans refused))
  case disable =>
    have enable := (memCtrl_enable_bit (s.reg Reg.memCtrl).toNat v).trans hv
    have refused := State.wrMemCtrl_refused (.inr ⟨hon, enable⟩)
    exact exists_refused (.inl (by decide)) (exec_wrOut rfl ((State.write_memCtrl ha v).trans refused))
  case hpa =>
    obtain ⟨base, window⟩ := memHpa_fields (s.reg Reg.memHpa).toNat v
    refine exists_setReg (exec_wrOut rfl ((State.write_memHpa ha mark v).trans (State.wrHpa_taken (base ▸ h)))) ⟨?_, ?_⟩
    · rw [State.fld_setReg_self, base]
    · rw [State.flag_setReg_self, window]
  case hpaBeyond =>
    obtain ⟨base, -⟩ := memHpa_fields (s.reg Reg.memHpa).toNat v
    exact exists_refused (.inl (by decide)) (exec_wrOut rfl ((State.write_memHpa ha mark v).trans (State.wrHpa_refused (base ▸ h))))
  case cap =>
    have cap := pwrCap_field (s.reg Reg.pwrCap).toNat v
    refine exists_setReg (exec_wrOut rfl ((State.write_pwrCap ha v).trans (State.wrCap_taken (cap ▸ h1) (cap ▸ h2)))) ?_
    rw [State.fld_setReg_self, cap]
  case capOutside =>
    have cap := pwrCap_field (s.reg Reg.pwrCap).toNat v
    exact exists_refused (.inl (by decide)) (exec_wrOut rfl ((State.write_pwrCap ha v).trans (State.wrCap_refused (cap ▸ h))))
  case consumed =>
    have taken := (State.write_errLogConsumed ha v).trans (if_pos h)
    refine exists_setReg (exec_wrOut rfl taken) ?_
    rw [State.fld_setReg_self, bits_setBits_same _ _ _ _ (by omega) (by omega)]
    exact Nat.mod_eq_of_lt (Nat.mod_lt _ (by omega))
  case consumedBeyond => exact exec_wrOut rfl ((State.write_errLogConsumed ha v).trans (if_neg (Nat.not_le.2 h)))
  case arm =>
    obtain ⟨det, place, ctx, kind, param⟩ := errInject_fields (s.reg Reg.errInject).toNat v
    have armed := State.wrInject_armed (s := s) (by rw [det, place, ctx, param]; exact hplace) (by rw [det, kind]; exact hkind)
    refine exists_armed (exec_wrOut rfl ((State.write_errInject ha v).trans armed)) ⟨?_, ?_⟩
    · rw [State.setReg_inject, det, place, ctx, kind, param]
    · rw [State.flag_setReg_self, bit, bits_setBits_same _ _ _ _ (by omega) (by omega)]; rfl

end Sys2Proof.Machine
end

section
/-! PROOFS. What power-on reset leaves (O58) and a step on an empty queue (O2): with nothing waiting, a tick changes time and the accounts alone. -/
namespace Sys2Proof.Machine

open Sys2Proof

/-! ## Power-on reset (R434, R456) -/

/-- CTX_LEASE stands first among the registers of a context's page. -/
theorem decodeReg_ctxLease (t : Straps) {c : Nat} (hc : c < t.contexts) :
    decodeReg t (Reg.ctxLease c) = kernelRows.head?.map fun r => ⟨r, [c]⟩ := by
  refine (decodeReg_kernelPage t (k := 0x10) hc (by omega) (by omega) (by omega)).trans ?_
  rw [kernelRows, findRow_page t (j := 0x10) hc (by omega) (by omega) _ _ rfl rfl, if_pos rfl]
  rfl

/-- Settles O58: each part is computed from the reset state, the leases register by register through the row that names them. -/
theorem resetState : Obligations.ResetState := by
  unfold Obligations.ResetState
  refine ⟨rfl, rfl, rfl, ?contexts, by decide, rfl, ?leases, ?ports, by decide, rfl, rfl, rfl⟩
  case contexts =>
    intro x hx
    rw [(List.mem_replicate.1 hx).2]
    exact ⟨rfl, rfl⟩
  case leases =>
    intro c hc
    show regReset Straps.initial (Reg.ctxLease c) = 0
    rw [regReset, decodeReg_ctxLease _ hc]
    rfl
  case ports =>
    intro p hp
    interval_cases p <;> rfl

/-! ## Elements of a mapped list -/

/-- What a map leaves of each element, it leaves of the element read by number. -/
theorem nth_map_keeps {α β : Type} [Inhabited α] (f : α → α) (g : α → β) (h : ∀ x, g (f x) = g x) (l : List α) (k : Nat) :
    g (nth (l.map f) k) = g (nth l k) := by
  simp only [nth, List.getD_eq_getElem?_getD, List.getElem?_map]
  cases l[k]? with
  | none => rfl
  | some x => exact h x

theorem nth_mapIdx_keeps {α β : Type} [Inhabited α] (f : Nat → α → α) (g : α → β) (h : ∀ i x, g (f i x) = g x) (l : List α) (k : Nat) :
    g (nth (l.mapIdx f) k) = g (nth l k) := by
  simp only [nth, List.getD_eq_getElem?_getD, List.getElem?_mapIdx]
  cases l[k]? with
  | none => rfl
  | some x => exact h k x

/-! ## A tick with nothing waiting (log entry 3) -/

theorem Port.next_of_empty {x : Port} (h : x.queue = []) (requests : Bool) : x.next requests = none := by
  simp [Port.next, h]

/-- Ports with empty queues send nothing. -/
theorem State.portsTick_empty (s : State) {ps : List Nat} (h : ∀ p ∈ ps, (nth s.ports p).queue = []) : s.portsTick ps = s := by
  induction ps with
  | nil => rfl
  | cons p r ih =>
    have rest := ih fun q hq => h q (List.mem_cons_of_mem _ hq)
    simp only [State.portsTick, Port.next_of_empty (h p List.mem_cons_self), ite_self, rest]

/-- Where nothing waits for it, a tick of the block is a tick of its clocks. -/
theorem State.idle_of_quiet {s : State} (h : s.Quiet) : s.idle = s.tick := by
  obtain ⟨door, messages, free⟩ := h.inspector
  have inspector : s.tick.InspectorQuiet := ⟨free, door, fun m hm => by rw [show s.tick.insp.messages = [] from messages] at hm; cases hm⟩
  have ports : s.tick.portsTick (List.range 8) = s.tick := s.tick.portsTick_empty fun p hp => h.ports p (List.mem_range.1 hp)
  have loop : s.tick.loopTick = s.tick := by rw [State.loopTick, show s.tick.loop = [] from h.loop]
  have alone : s.tick.relayTick = s.tick := by rw [State.relayTick, show s.tick.ganged = false from h.alone]; rfl
  rw [State.idle, ports, loop, alone, State.cmdSettle_quiet inspector]

/-! ## What a tick leaves -/

/-- At the nominal rate, with no part of a tick saved up, station time advances by one (R15, R19). -/
theorem State.tick_bell_nominal {s : State} (rate : s.rateAdj = 0) (acc : s.bell.rateAcc = 0) :
    s.tick.bell = { s.bell with now := (s.bell.now + 1) % 2 ^ 64 } := by
  simp [State.tick, rate, acc]

theorem Tile.tickLeak_keeps (mv : Nat) (x : Tile) : { x.tickLeak mv with leakOwn := 0, leakFree := 0 } = { x with leakOwn := 0, leakFree := 0 } := by
  unfold Tile.tickLeak
  split
  · rfl
  · split <;> rfl

theorem Cluster.tickLeak_keeps (mv : Nat) (x : Cluster) : { x.tickLeak mv with leak := 0 } = { x with leak := 0 } := by
  unfold Cluster.tickLeak
  split <;> rfl

theorem State.tickCtx_keeps (s : State) (i : Nat) (c : Ctx) : { s.tickCtx i c with launches := [] } = { c with launches := [] } := by
  unfold State.tickCtx
  split <;> rfl

/-- The launches of a context go on but for their running times (R336). -/
theorem State.tickCtx_launches (s : State) (i : Nat) (c : Ctx) :
    (s.tickCtx i c).launches.map (fun x => { x with runSt := 0, thrSt := 0 }) = c.launches.map (fun x => { x with runSt := 0, thrSt := 0 }) := by
  unfold State.tickCtx
  split
  · rfl
  · rw [List.map_map]
    refine List.map_congr_left fun x _ => ?_
    simp only [Function.comp]
    split <;> rfl

/-! ## The statement -/

theorem step_of_empty {s : State} (h : s.pending = []) : step s = .next (if s.live then s.idle else s) := by
  rw [step, h]

/-- Settles O2: on an empty queue a step is a tick of the clocks, whose accounts change element by element. -/
theorem stepOnEmptyQueue : Obligations.StepOnEmptyQueue := by
  unfold Obligations.StepOnEmptyQueue
  intro s hp
  refine ⟨⟨_, step_of_empty hp⟩, fun dark => ?_, fun live quiet => ⟨s.tick, ?_, ?_, State.tick_bell_nominal, fun k => ?_, fun k => ?_, rfl, fun c => ⟨?_, ?_⟩⟩⟩
  · rw [step_of_empty hp, dark]; rfl
  · rw [step_of_empty hp, live, State.idle_of_quiet quiet]; rfl
  · simp only [State.tick]
    split <;> rfl
  · exact nth_map_keeps _ (fun x : Tile => { x with leakOwn := 0, leakFree := 0 }) (Tile.tickLeak_keeps _) s.tiles k
  · exact nth_map_keeps _ (fun x : Cluster => { x with leak := 0 }) (Cluster.tickLeak_keeps _) s.clusters k
  · exact nth_mapIdx_keeps _ (fun x : Ctx => { x with launches := [] }) s.tickCtx_keeps s.ctxs c
  · exact nth_mapIdx_keeps _ (fun x : Ctx => x.launches.map fun x => { x with runSt := 0, thrSt := 0 }) s.tickCtx_launches s.ctxs c

end Sys2Proof.Machine
end

section
/-! SUPPORT. The Bell's state under a measured phase error, a lost reference and a change of lock (R19 to R27, R42). -/
namespace Sys2Proof.Machine

open Sys2Proof

/-! ## Words and registers -/

theorem bits_lt (w : Word) (hi lo : Nat) : bits w hi lo < 2 ^ (hi + 1 - lo) := Nat.mod_lt _ (by positivity)

/-- An integer of 32 bits is what its low 32 bits spell. -/
theorem signed_unsignedOf {v : Int} (h : -2 ^ 31 ≤ v) (h' : v < 2 ^ 31) : signed 32 (unsignedOf 32 v) = v := by
  unfold signed unsignedOf
  norm_num at h h' ⊢
  split_ifs <;> omega

theorem unsignedOf_lt (n : Nat) (v : Int) : unsignedOf n v < 2 ^ n := by
  have pos : (0 : Int) < (2 ^ n : Nat) := by positivity
  have := Int.emod_nonneg v pos.ne'
  have := Int.emod_lt_of_pos v pos
  rw [unsignedOf]
  omega

theorem State.fld_setReg_ne (s : State) {o o' : Nat} (v : Word) (h : o' ≠ o) (hi lo : Nat) : (s.setReg o v).fld o' hi lo = s.fld o' hi lo := by
  rw [State.fld, State.reg_setReg, if_neg h, State.fld]

theorem State.fld_setFld_self (s : State) (o : Nat) {hi lo v : Nat} (hlo : lo ≤ hi) (hhi : hi < 64) :
    (s.setFld o hi lo v).fld o hi lo = v % 2 ^ (hi + 1 - lo) := by
  rw [State.fld, State.reg_setFld_self, bits_setBits_same _ _ _ _ hlo hhi]

theorem SameRegs.refl (l : List Nat) (s : State) : SameRegs l s s := fun _ _ => rfl

theorem SameRegs.trans {l : List Nat} {s t u : State} (h : SameRegs l s t) (k : SameRegs l t u) : SameRegs l s u :=
  fun o ho => (k o ho).trans (h o ho)

theorem SameRegs.mono {l m : List Nat} {s t : State} (h : SameRegs l s t) (sub : ∀ o ∈ l, o ∈ m) : SameRegs m s t :=
  fun o ho => h o fun ho' => ho (sub o ho')

theorem SameRegs.fld {l : List Nat} {s t : State} (h : SameRegs l s t) {o : Nat} (ho : o ∉ l) (hi lo : Nat) : t.fld o hi lo = s.fld o hi lo := by
  rw [State.fld, h o ho, State.fld]

theorem SameRegs.flag {l : List Nat} {s t : State} (h : SameRegs l s t) {o : Nat} (ho : o ∉ l) (i : Nat) : t.flag o i = s.flag o i := by
  rw [State.flag, h o ho, State.flag]

theorem SameRegs.setFld (s : State) (o hi lo v : Nat) : SameRegs [o] s (s.setFld o hi lo v) := SameRegs.setReg s o _

theorem SameRegs.setBitsIn (s : State) (o m : Nat) : SameRegs [o] s (s.setBitsIn o m) := SameRegs.setReg s o _

theorem SameRegs.updBell (s : State) (f : Bell → Bell) : SameRegs [] s (s.updBell f) := fun _ _ => rfl

/-! ## Event bits (R11, R340) -/

theorem State.flag_setBitsIn (s : State) (o m i : Nat) (h : i < 64) : (s.setBitsIn o m).flag o i = (s.flag o i || m.testBit i) := by
  rw [State.flag, State.reg_setBitsIn, if_pos rfl, State.flag, bit_eq_getLsbD, bit_eq_getLsbD, BitVec.getLsbD_or, BitVec.getLsbD_ofNat,
    decide_eq_true h, Bool.true_and]

theorem SameRegs.bellEvent (s : State) (m : Nat) : SameRegs [Reg.bellEvent, Reg.ctxMgmt] s (s.bellEvent m) :=
  ((SameRegs.setBitsIn s Reg.bellEvent m).mono (by simp)).trans ((SameRegs.setBitsIn _ Reg.ctxMgmt _).mono (by simp))

theorem State.flag_bellEvent (s : State) (m i : Nat) (h : i < 64) : (s.bellEvent m).flag Reg.bellEvent i = (s.flag Reg.bellEvent i || m.testBit i) :=
  ((SameRegs.setBitsIn (s.setBitsIn Reg.bellEvent m) Reg.ctxMgmt (2 ^ 5)).flag (by decide) i).trans (s.flag_setBitsIn _ m i h)

theorem State.bellEvent_sets (s : State) {m i : Nat} (h : i < 64) (hm : m.testBit i = true) : (s.bellEvent m).flag Reg.bellEvent i = true := by
  rw [State.flag_bellEvent s m i h, hm, Bool.or_true]

/-! ## What disciplining leaves -/

/-- Nothing but registers, the Bell and the count of free values differs; of the Bell, only its lock and what the servo keeps; of the registers, the
rate, the estimate, and the events. -/
structure Disciplined (s t : State) : Prop where
  rest : ∃ r b f, t = { s with regs := r, bell := b, free := f }
  bell : ∃ l g a w, t.bell = { s.bell with lock := l, good := g, acqAdj := a, awaitStep := w }
  regs : SameRegs [Reg.bellFreq, Reg.bellStatus, Reg.bellEvent, Reg.ctxMgmt] s t

theorem Disciplined.refl (s : State) : Disciplined s s := ⟨⟨_, _, _, rfl⟩, ⟨_, _, _, _, rfl⟩, SameRegs.refl _ s⟩

theorem Disciplined.trans {s t u : State} (h : Disciplined s t) (k : Disciplined t u) : Disciplined s u := by
  obtain ⟨⟨r, b, f, ht⟩, ⟨l, g, a, w, hb⟩, hr⟩ := h
  obtain ⟨⟨r', b', f', hu⟩, ⟨l', g', a', w', hb'⟩, hr'⟩ := k
  exact ⟨⟨r', b', f', by rw [hu, ht]⟩, ⟨l', g', a', w', by rw [hb', hb]⟩, hr.trans hr'⟩

theorem Disciplined.eq {s t : State} (h : Disciplined s t) : t = { s with regs := t.regs, bell := t.bell, free := t.free } := by
  obtain ⟨⟨r, b, f, rfl⟩, -, -⟩ := h
  rfl

theorem Disciplined.now {s t : State} (h : Disciplined s t) : t.bell.now = s.bell.now := by
  obtain ⟨-, ⟨l, g, a, w, hb⟩, -⟩ := h
  rw [hb]

theorem Disciplined.inbox {s t : State} (h : Disciplined s t) : t.inbox = s.inbox := by
  obtain ⟨⟨r, b, f, ht⟩, -, -⟩ := h
  rw [ht]

theorem Disciplined.lastMsg {s t : State} (h : Disciplined s t) : t.bell.lastMsg = s.bell.lastMsg := by
  obtain ⟨-, ⟨l, g, a, w, hb⟩, -⟩ := h
  rw [hb]

theorem Disciplined.setRate (s : State) (r : Int) : Disciplined s (s.setRate r) :=
  ⟨⟨_, _, _, rfl⟩, ⟨_, _, _, _, rfl⟩, (SameRegs.setFld s Reg.bellFreq 31 0 _).mono (by simp)⟩

theorem Disciplined.bellEvent (s : State) (m : Nat) : Disciplined s (s.bellEvent m) :=
  ⟨⟨_, _, _, rfl⟩, ⟨_, _, _, _, rfl⟩, (SameRegs.bellEvent s m).mono (by simp)⟩

theorem Disciplined.servo (s : State) : Disciplined s s.servo :=
  ⟨⟨_, _, _, rfl⟩, ⟨_, _, _, _, rfl⟩, (SameRegs.setFld s.draw.2 Reg.bellFreq 31 0 _).mono (by simp)⟩

theorem Disciplined.good (s : State) (g : Nat) : Disciplined s (s.updBell fun b => { b with good := g }) :=
  ⟨⟨_, _, _, rfl⟩, ⟨_, _, _, _, rfl⟩, (SameRegs.updBell s _).mono (by simp)⟩

/-! ## A change of lock (R26, R42) -/

theorem State.setLock_rest (s : State) (l : Lock) : ∃ r, s.setLock l = { s with regs := r, bell := { s.bell with lock := l } } := by
  simp only [State.setLock]
  split
  · exact ⟨_, rfl⟩
  · split <;> exact ⟨_, rfl⟩

@[simp] theorem State.bell_setLock (s : State) (l : Lock) : (s.setLock l).bell = { s.bell with lock := l } := by
  obtain ⟨r, h⟩ := s.setLock_rest l
  rw [h]

theorem SameRegs.setLock (s : State) (l : Lock) : SameRegs [Reg.bellEvent, Reg.ctxMgmt] s (s.setLock l) := by
  have plain : SameRegs [Reg.bellEvent, Reg.ctxMgmt] s (s.updBell fun b => { b with lock := l }) := (SameRegs.updBell s _).mono (by simp)
  simp only [State.setLock]
  split
  · exact plain.trans (SameRegs.bellEvent _ 2)
  · split
    · exact plain.trans (SameRegs.bellEvent _ 1)
    · exact plain

theorem Disciplined.setLock (s : State) (l : Lock) : Disciplined s (s.setLock l) := by
  obtain ⟨r, h⟩ := s.setLock_rest l
  exact ⟨⟨_, _, _, h⟩, ⟨_, _, _, _, s.bell_setLock l⟩, (SameRegs.setLock s l).mono (by simp)⟩

/-- A lock that is left sets lock_lost. -/
theorem State.setLock_lost {s : State} {l : Lock} (h : s.bell.lock = .locked) (hl : l ≠ .locked) :
    s.setLock l = (s.updBell fun b => { b with lock := l }).bellEvent 1 := by
  simp [State.setLock, h, hl]

/-- Any other change but the gain of the lock sets no event. -/
theorem State.setLock_plain {s : State} {l : Lock} (h : s.bell.lock ≠ .locked) (hl : l ≠ .locked) :
    s.setLock l = s.updBell fun b => { b with lock := l } := by
  simp [State.setLock, h, hl]

/-! ## The rate (R19) -/

theorem SameRegs.rateAdj {l : List Nat} {s t : State} (h : SameRegs l s t) (ho : Reg.bellFreq ∉ l) : t.rateAdj = s.rateAdj := by
  rw [State.rateAdj, h.fld ho, State.rateAdj]

theorem State.rateAdj_setRate (s : State) {r : Int} (h : -2 ^ 31 ≤ r) (h' : r < 2 ^ 31) : (s.setRate r).rateAdj = r := by
  rw [State.rateAdj, State.setRate, State.fld_setFld_self _ _ (by omega) (by omega), Nat.mod_eq_of_lt (unsignedOf_lt 32 r), signed_unsignedOf h h']

/-- The servo's rate stays within slew_ppm of the nominal one. -/
theorem State.servo_rateAdj (s : State) : s.servo.rateAdj.natAbs ≤ s.fld Reg.bellServoX 39 32 * 100000 := by
  have slew : s.fld Reg.bellServoX 39 32 < 256 := bits_lt _ 39 32
  have within (l : Nat) (v : Int) (hl : l < 256) : (clampInt (-(l * 100000 : Int)) (l * 100000) v).natAbs ≤ l * 100000 ∧
      -2 ^ 31 ≤ clampInt (-(l * 100000 : Int)) (l * 100000) v ∧ clampInt (-(l * 100000 : Int)) (l * 100000) v < 2 ^ 31 := by
    unfold clampInt; omega
  obtain ⟨slewed, low, high⟩ := within _ (signed 32 s.draw.1) slew
  have rate : s.servo.rateAdj = _ := State.rateAdj_setRate s.draw.2 low high
  rw [rate]
  exact slewed

/-! ## The reference is lost (R20, R24, R26, R27) -/

theorem State.lostReference_locked {s : State} (h : s.bell.lock = .locked) :
    s.lostReference = (((s.updBell fun b => { b with lock := .holdover }).bellEvent 1).updBell fun b =>
      { b with holdUp := s.up, holdEst := s.fld Reg.bellStatus 63 32 }) := by
  simp only [State.lostReference, h]
  rw [State.setLock_lost h (by decide)]

theorem State.lostReference_acquiring {s : State} (h : s.bell.lock = .acquiring) :
    s.lostReference = (s.setRate s.bell.acqAdj).updBell fun b => { b with lock := .unlocked } := by
  simp only [State.lostReference, h]
  exact State.setLock_plain (h.trans_ne (by decide)) (by decide)

theorem State.lostReference_other {s : State} (h : s.bell.lock = .unlocked ∨ s.bell.lock = .holdover) : s.lostReference = s := by
  rcases h with h | h <;> simp only [State.lostReference, h]

/-- What a lost reference leaves, whatever the lock. -/
theorem State.lostReference_rest (s : State) :
    ∃ r l u e, s.lostReference = { s with regs := r, bell := { s.bell with lock := l, holdUp := u, holdEst := e } } := by
  cases h : s.bell.lock with
  | locked => rw [State.lostReference_locked h]; exact ⟨_, _, _, _, rfl⟩
  | acquiring => rw [State.lostReference_acquiring h]; exact ⟨_, _, _, _, rfl⟩
  | unlocked => rw [State.lostReference_other (.inl h)]; exact ⟨_, _, _, _, rfl⟩
  | holdover => rw [State.lostReference_other (.inr h)]; exact ⟨_, _, _, _, rfl⟩

theorem SameRegs.lostReference_locked {s : State} (h : s.bell.lock = .locked) : SameRegs [Reg.bellEvent, Reg.ctxMgmt] s s.lostReference := by
  rw [State.lostReference_locked h]
  exact (((SameRegs.updBell s _).mono (by simp)).trans (SameRegs.bellEvent _ 1)).trans ((SameRegs.updBell _ _).mono (by simp))

/-- Event bits that are set stay set when the reference is lost. -/
theorem State.lostReference_flag {s : State} {i : Nat} (hi : i < 64) (h : s.flag Reg.bellEvent i = true) :
    s.lostReference.flag Reg.bellEvent i = true := by
  cases hl : s.bell.lock with
  | locked =>
    have set := State.flag_bellEvent (s.updBell fun b => { b with lock := .holdover }) 1 i hi
    rw [(SameRegs.updBell s _).flag (List.not_mem_nil) i, h, Bool.true_or] at set
    rw [State.lostReference_locked hl, (SameRegs.updBell _ _).flag (List.not_mem_nil) i, set]
  | acquiring =>
    rw [State.lostReference_acquiring hl, (SameRegs.updBell _ _).flag (List.not_mem_nil) i]
    exact ((SameRegs.setFld s Reg.bellFreq 31 0 _).flag (by decide) i).trans h
  | unlocked => rw [State.lostReference_other (.inl hl)]; exact h
  | holdover => rw [State.lostReference_other (.inr hl)]; exact h

/-- LOCKED goes to HOLDOVER at the rate in force, and says so. -/
theorem State.lostReference_holds {s : State} (h : s.bell.lock = .locked) :
    s.lostReference.bell.lock = .holdover ∧ s.lostReference.rateAdj = s.rateAdj ∧ s.lostReference.flag Reg.bellEvent 0 = true := by
  refine ⟨by rw [State.lostReference_locked h]; rfl, (SameRegs.lostReference_locked h).rateAdj (by decide), ?_⟩
  rw [State.lostReference_locked h, (SameRegs.updBell _ _).flag (List.not_mem_nil)]
  exact State.bellEvent_sets _ (by decide) rfl

/-- ACQUIRING goes to UNLOCKED with the rate from before. -/
theorem State.lostReference_forgets {s : State} (h : s.bell.lock = .acquiring) :
    s.lostReference.bell.lock = .unlocked ∧ s.lostReference.fld Reg.bellFreq 31 0 = unsignedOf 32 s.bell.acqAdj := by
  rw [State.lostReference_acquiring h, (SameRegs.updBell _ _).fld (List.not_mem_nil)]
  exact ⟨rfl, (State.fld_setFld_self s Reg.bellFreq (by omega) (by omega)).trans (Nat.mod_eq_of_lt (unsignedOf_lt 32 _))⟩

/-! ## A phase error measured (R19, R21, R26) -/

/-- An error beyond step_limit: the Bell forgets the rate that acquisition learnt, unlocks, and waits for the operator's step. -/
def State.unlocks (s : State) : State :=
  (((if s.bell.lock == .acquiring then s.setRate s.bell.acqAdj else s).setLock .unlocked).updBell fun b => { b with awaitStep := true }).bellEvent 16

/-- Acquisition begins with the first measurement of an UNLOCKED or HOLDOVER Bell. -/
def State.acquires (s : State) : State :=
  match s.bell.lock with
  | .unlocked | .holdover => (s.setLock .acquiring).updBell fun b => { b with good := 0, acqAdj := s.rateAdj }
  | _ => s

/-- est_error takes the servo's estimate. -/
def State.estimates (s : State) : State := s.draw.2.setFld Reg.bellStatus 63 32 s.draw.1

/-- The lock is gained with 16 measurements within 2 st in a row. -/
def State.gains (s : State) : State := if s.bell.lock == .acquiring && decide (16 ≤ s.bell.good) then s.setLock .locked else s

/-- The measurements within 2 st in a row, with one more of `err`. -/
def Bell.measures (err : Int) (b : Bell) : Bell := { b with good := if err.natAbs ≤ 2 then b.good + 1 else 0 }

/-- A measurement is one of the three: beyond the limit, without effect until the operator's step, or followed by the servo. -/
theorem State.measured_eq (s : State) (err : Int) :
    s.measured err =
      let u := s.setReg Reg.bellOffset (wordOfInt err)
      if u.fld Reg.bellServoX 63 40 < err.natAbs then u.unlocks else if u.bell.awaitStep then u
      else (u.acquires.servo.estimates.updBell (Bell.measures err)).gains := rfl

theorem State.measured_beyond {s : State} {err : Int} (h : s.fld Reg.bellServoX 63 40 < err.natAbs) :
    s.measured err = (s.setReg Reg.bellOffset (wordOfInt err)).unlocks := by
  rw [← State.fld_setReg_ne s (o := Reg.bellOffset) (wordOfInt err) (by decide)] at h
  rw [State.measured_eq]
  exact if_pos h

theorem State.measured_waiting {s : State} {err : Int} (h : err.natAbs ≤ s.fld Reg.bellServoX 63 40) (hw : s.bell.awaitStep = true) :
    s.measured err = s.setReg Reg.bellOffset (wordOfInt err) := by
  rw [← State.fld_setReg_ne s (o := Reg.bellOffset) (wordOfInt err) (by decide)] at h
  rw [State.measured_eq]
  exact (if_neg (by omega)).trans (if_pos hw)

theorem State.measured_within {s : State} {err : Int} (h : err.natAbs ≤ s.fld Reg.bellServoX 63 40) (hw : s.bell.awaitStep = false) :
    s.measured err = ((s.setReg Reg.bellOffset (wordOfInt err)).acquires.servo.estimates.updBell (Bell.measures err)).gains := by
  rw [← State.fld_setReg_ne s (o := Reg.bellOffset) (wordOfInt err) (by decide)] at h
  rw [State.measured_eq]
  exact (if_neg (by omega)).trans (if_neg (Bool.eq_false_iff.mp hw))

theorem Disciplined.awaits (s : State) : Disciplined s (s.updBell fun b => { b with awaitStep := true }) :=
  ⟨⟨_, _, _, rfl⟩, ⟨_, _, _, _, rfl⟩, (SameRegs.updBell s _).mono (by simp)⟩

theorem Disciplined.unlocks (s : State) : Disciplined s s.unlocks := by
  refine Disciplined.trans ?_ (((Disciplined.setLock _ _).trans (.awaits _)).trans (.bellEvent _ _))
  split
  · exact .setRate s _
  · exact .refl s

theorem Disciplined.acquires (s : State) : Disciplined s s.acquires := by
  have begins : Disciplined s ((s.setLock .acquiring).updBell fun b => { b with good := 0, acqAdj := s.rateAdj }) :=
    (Disciplined.setLock s .acquiring).trans ⟨⟨_, _, _, rfl⟩, ⟨_, _, _, _, rfl⟩, (SameRegs.updBell _ _).mono (by simp)⟩
  unfold State.acquires
  split
  · exact begins
  · exact begins
  · exact Disciplined.refl s

theorem Disciplined.estimates (s : State) : Disciplined s s.estimates :=
  ⟨⟨_, _, _, rfl⟩, ⟨_, _, _, _, rfl⟩, (SameRegs.setFld s.draw.2 Reg.bellStatus 63 32 _).mono (by simp)⟩

theorem State.bell_servo (s : State) : s.servo.bell = s.bell := by
  simp only [State.servo, State.setRate, State.setFld_bell, State.draw]

theorem State.bell_estimates (s : State) : s.estimates.bell = s.bell := by
  rw [State.estimates, State.setFld_bell, State.draw]

theorem Disciplined.measures (s : State) (err : Int) : Disciplined s (s.updBell (Bell.measures err)) :=
  ⟨⟨_, _, _, rfl⟩, ⟨_, _, _, _, rfl⟩, (SameRegs.updBell s _).mono (by simp)⟩

theorem Disciplined.gains (s : State) : Disciplined s s.gains := by
  unfold State.gains
  split
  · exact .setLock s _
  · exact .refl s

/-- Besides BELL_OFFSET a measurement changes what disciplining changes. -/
theorem Disciplined.measured (s : State) (err : Int) : Disciplined (s.setReg Reg.bellOffset (wordOfInt err)) (s.measured err) := by
  rw [State.measured_eq]
  dsimp only
  split
  · exact .unlocks _
  · split
    · exact .refl _
    · exact ((((Disciplined.acquires _).trans (.servo _)).trans (.estimates _)).trans (.measures _ err)).trans (.gains _)

theorem State.measured_offset (s : State) (err : Int) : (s.measured err).reg Reg.bellOffset = wordOfInt err := by
  rw [(Disciplined.measured s err).regs _ (by decide), State.reg_setReg_self]

theorem SameRegs.measured (s : State) (err : Int) :
    SameRegs [Reg.bellOffset, Reg.bellFreq, Reg.bellStatus, Reg.bellEvent, Reg.ctxMgmt] s (s.measured err) :=
  ((SameRegs.setReg s Reg.bellOffset _).mono (by simp)).trans ((Disciplined.measured s err).regs.mono (by simp))

theorem State.bell_unlocks (s : State) : s.unlocks.bell = { s.bell with lock := .unlocked, awaitStep := true } := by
  have keeps : (if s.bell.lock == .acquiring then s.setRate s.bell.acqAdj else s).bell = s.bell := by split <;> rfl
  show (fun b : Bell => { b with awaitStep := true }) (State.setLock _ _).bell = _
  rw [State.bell_setLock, keeps]

/-- A rate that acquisition had not changed stays when the Bell unlocks. -/
theorem State.rateAdj_unlocks {s : State} (h : s.bell.lock ≠ .acquiring) : s.unlocks.rateAdj = s.rateAdj := by
  unfold State.unlocks
  rw [if_neg (by simpa using h), (SameRegs.bellEvent _ 16).rateAdj (by decide), (SameRegs.updBell _ _).rateAdj (by decide),
    (SameRegs.setLock s _).rateAdj (by decide)]

/-- Beyond step_limit the Bell unlocks and waits for the operator's step. -/
theorem State.measured_unlocks {s : State} {err : Int} (h : s.fld Reg.bellServoX 63 40 < err.natAbs) :
    (s.measured err).bell.lock = .unlocked ∧ (s.measured err).bell.awaitStep = true ∧ (s.measured err).flag Reg.bellEvent 4 = true ∧
      (s.bell.lock ≠ .acquiring → (s.measured err).rateAdj = s.rateAdj) := by
  rw [State.measured_beyond h, State.bell_unlocks]
  refine ⟨rfl, rfl, State.bellEvent_sets _ (by decide) rfl, fun hl => ?_⟩
  rw [State.rateAdj_unlocks (s := s.setReg Reg.bellOffset (wordOfInt err)) hl, (SameRegs.setReg s Reg.bellOffset _).rateAdj (by decide)]

theorem State.lock_gains (s : State) : s.gains.bell.lock = if s.bell.lock = .acquiring ∧ 16 ≤ s.bell.good then .locked else s.bell.lock := by
  by_cases h : s.bell.lock = .acquiring ∧ 16 ≤ s.bell.good <;> simp [State.gains, h]

/-- The lock after a measurement that the servo follows. -/
theorem State.measured_lock {s : State} {err : Int} (h : err.natAbs ≤ s.fld Reg.bellServoX 63 40) (hw : s.bell.awaitStep = false) :
    (s.bell.lock = .unlocked ∨ s.bell.lock = .holdover → (s.measured err).bell.lock = .acquiring) ∧
    (s.bell.lock = .locked → (s.measured err).bell.lock = .locked) ∧
    (s.bell.lock = .acquiring → (s.measured err).bell.lock = if err.natAbs ≤ 2 ∧ 15 ≤ s.bell.good then .locked else .acquiring) := by
  rw [State.measured_within h hw]
  rw [State.lock_gains, State.updBell_bell, State.bell_estimates, State.bell_servo]
  refine ⟨fun hl => ?_, fun hl => ?_, fun hl => ?_⟩
  · have few : (if err.natAbs ≤ 2 then 0 + 1 else 0) < 16 := by split <;> omega
    rcases hl with hl | hl <;> simpa [State.acquires, hl, Bell.measures] using few
  · simp [State.acquires, hl, Bell.measures]
  · by_cases small : err.natAbs ≤ 2 <;> simp [State.acquires, hl, Bell.measures, small]

theorem State.measured_rate {s : State} {err : Int} (h : err.natAbs ≤ s.fld Reg.bellServoX 63 40) (hw : s.bell.awaitStep = false) :
    (s.measured err).rateAdj.natAbs ≤ s.fld Reg.bellServoX 39 32 * 100000 := by
  rw [State.measured_within h hw, ← State.fld_setReg_ne s (o := Reg.bellOffset) (wordOfInt err) (by decide)]
  generalize s.setReg Reg.bellOffset (wordOfInt err) = u
  rw [← (Disciplined.acquires u).regs.fld (o := Reg.bellServoX) (by decide)]
  have kept (v : State) : (v.estimates.updBell (Bell.measures err)).gains.rateAdj = v.rateAdj := by
    have gains : SameRegs [Reg.bellEvent, Reg.ctxMgmt] (v.estimates.updBell (Bell.measures err)) (v.estimates.updBell (Bell.measures err)).gains := by
      unfold State.gains
      split
      · exact SameRegs.setLock _ _
      · exact SameRegs.refl _ _
    rw [gains.rateAdj (by decide), (SameRegs.updBell _ _).rateAdj (by decide)]
    exact (SameRegs.setFld v.draw.2 Reg.bellStatus 63 32 _).rateAdj (by decide)
  rw [kept]
  exact u.acquires.servo_rateAdj

end Sys2Proof.Machine
end

section
/-! PROOFS. The Bell under src PORT (O32). -/
namespace Sys2Proof.Machine

open Sys2Proof

/-! ## Reads of BELL_NOW (R17) -/

/-- Where registers are ready and the port is not frozen, a read is answered. -/
theorem exec_bellNowRead {s : State} (live : s.live = true) (ready : s.pins.regsReady = true) (thawed : s.pins.frozen = false) :
    exec (.bellNowRead .full) s = .next (s.emit (.regCpl Reg.bellNow (word s.bell.now))) ∧
    exec (.bellNowRead .lo) s =
      .next ({ s with nowLatch := some (s.bell.now / 2 ^ 32) }.emit (.regCpl Reg.bellNow (word (s.bell.now % 2 ^ 32)))) ∧
    exec (.bellNowRead .hi) s =
      .next ({ s with nowLatch := none }.emit (.regCpl Reg.bellNow (word (s.nowLatch.getD (s.bell.now / 2 ^ 32) * 2 ^ 32)))) ∧
    exec (.bellNowRead .bad) s = .next ((s.regError Reg.bellNow).emit (.regCpl Reg.bellNow 0)) := by
  have read (part : RForm) : exec (.bellNowRead part) s = .next (bellNowReadS part s) := rfl
  simp [read, bellNowReadS, live, ready, thawed]

/-! ## Edges at the time port (R19, R20) -/

/-- An edge now is outside the window of the one that is expected. -/
def State.edgeOutside (s : State) : Bool :=
  match s.bell.nextEdge with
  | some e => decide (s.bell.now + 4000 < e) || decide (e + 4000 < s.bell.now)
  | none => false

theorem State.edgeOutside_some {s : State} {e : Nat} (next : s.bell.nextEdge = some e)
    (out : e + 4000 < s.bell.now ∨ s.bell.now + 4000 < e) : s.edgeOutside = true := by
  simp [State.edgeOutside, next, out.symm]

theorem State.edgeOutside_within {s : State} (win : ∀ e, s.bell.nextEdge = some e → e ≤ s.bell.now + 4000 ∧ s.bell.now ≤ e + 4000) :
    s.edgeOutside = false := by
  cases next : s.bell.nextEdge with
  | none => simp [State.edgeOutside, next]
  | some e => simp [State.edgeOutside, next, win e next]

/-- An edge taken as the last one seen. -/
def State.seesEdge (s : State) : State := s.updBell fun b => { b with missed := 0, nextEdge := some (s.bell.now + 4000000000) }

/-- An edge whose time of day matches: captured, then measured. -/
def State.captures (s : State) (sec : Nat) : State := (s.seesEdge.setReg Reg.bellPps (word s.bell.now)).setReg Reg.bellTod (word (sec % 2 ^ 48))

theorem exec_ppsEdge {s : State} (sec nanos : Nat) (valid : Bool) (src : s.bellSrc = 1) :
    exec (.ppsEdge sec nanos valid) s = .next (
      if s.edgeOutside then s.bellEvent 4
      else if !valid || nearestSecond s.bell.now != sec then s.seesEdge.bellEvent 8
      else (s.captures sec).measured ((sec : Int) * 4000000000 + nanos * 4 - s.bell.now)) := by
  have keep : ¬ (s.bellSrc != 1) = true := by rw [src]; decide
  exact congrArg _ (if_neg keep)

theorem SameRegs.captures (s : State) (sec : Nat) : SameRegs [Reg.bellPps, Reg.bellTod] s (s.captures sec) :=
  ((SameRegs.setReg s.seesEdge Reg.bellPps _).mono (by simp)).trans ((SameRegs.setReg _ Reg.bellTod _).mono (by simp))

/-- An edge in its window with a matching time of day. -/
theorem exec_ppsEdge_taken {s : State} {sec : Nat} (nanos : Nat) (src : s.bellSrc = 1)
    (win : ∀ e, s.bell.nextEdge = some e → e ≤ s.bell.now + 4000 ∧ s.bell.now ≤ e + 4000) (near : nearestSecond s.bell.now = sec) :
    exec (.ppsEdge sec nanos true) s = .next ((s.captures sec).measured ((sec : Int) * 4000000000 + nanos * 4 - s.bell.now)) := by
  rw [exec_ppsEdge sec nanos true src, State.edgeOutside_within win, near]
  simp

/-- The window of the expected edge has passed. -/
def State.missesEdge (s : State) (e : Nat) : State :=
  (s.bellEvent 4).updBell fun b => { b with missed := b.missed + 1, nextEdge := some (e + 4000000000) }

theorem exec_ppsMissing {s : State} {e : Nat} (src : s.bellSrc = 1) (next : s.bell.nextEdge = some e) (past : e + 4000 < s.bell.now) :
    exec .ppsMissing s = .next (if 2 ≤ s.bell.missed + 1 then (s.missesEdge e).lostReference else s.missesEdge e) := by
  have miss : exec .ppsMissing s = .next (ppsMissingS s) := rfl
  rw [miss, ppsMissingS, next]
  simp only [src, past, beq_self_eq_true, decide_true, Bool.and_self, if_true]
  rfl

theorem exec_holdoverLimit {s : State} (hold : s.bell.lock = .holdover) (past : s.fld Reg.bellCtrl 63 48 < s.estError) :
    exec .holdoverLimit s = .next (s.bellEvent 32) := by
  have limit : exec .holdoverLimit s = .next (holdoverLimitS s) := rfl
  rw [limit, holdoverLimitS, hold, decide_eq_true past]
  rfl

/-- Settles O32: each command is one equation, and the state it gives is read through what a measurement and a lost reference leave. -/
theorem bellTimePort : Obligations.BellTimePort := by
  unfold Obligations.BellTimePort
  refine ⟨fun s live ready thawed => ?reads, fun s sec nanos src win near small => ?taken, fun s sec nanos valid src => ⟨fun e next out => ?outside,
    fun win differs => ?mismatch⟩, fun s e src next past => ?missing, fun s hold past => ?limit⟩
  case reads =>
    obtain ⟨full, lo, hi, bad⟩ := exec_bellNowRead live ready thawed
    refine ⟨full, lo, fun h latched => ?_, _, bad, ?_, by simp [State.emit]⟩
    · rw [hi, latched]; rfl
    · exact ((RegsAndOut.regError s Reg.bellNow).trans (RegsAndOut.emit _ _)).eq
  case taken =>
    intro err
    have capt : (s.captures sec).fld Reg.bellServoX 63 40 = s.fld Reg.bellServoX 63 40 := (SameRegs.captures s sec).fld (by decide) _ _
    have rate : (s.captures sec).rateAdj = s.rateAdj := (SameRegs.captures s sec).rateAdj (by decide)
    have left := Disciplined.measured (s.captures sec) err
    have regs := SameRegs.measured (s.captures sec) err
    refine ⟨(s.captures sec).measured err, by rw [exec_ppsEdge_taken nanos src win near]; push_cast [err]; rfl, left.eq, ?_, ?_, State.measured_offset _ err,
      left.now, ?_, ?_, ((SameRegs.captures s sec).mono (by simp)).trans (regs.mono (by simp)), fun within waits => ?_, fun within follows => ?_,
      fun beyond => ?_⟩
    · rw [regs _ (by decide), State.captures, State.reg_setReg, if_neg (by decide), State.reg_setReg_self]
    · rw [regs _ (by decide), State.captures, State.reg_setReg_self, Nat.mod_eq_of_lt small]
    · obtain ⟨-, ⟨l, g, a, w, bell⟩, -⟩ := left
      rw [bell]; rfl
    · obtain ⟨-, ⟨l, g, a, w, bell⟩, -⟩ := left
      rw [bell]; rfl
    · rw [State.measured_waiting (s := s.captures sec) (capt ▸ within) waits]
      exact ⟨rfl, ((SameRegs.setReg _ Reg.bellOffset _).rateAdj (by decide)).trans rate⟩
    · have slewed := State.measured_rate (s := s.captures sec) (capt ▸ within) follows
      rw [(SameRegs.captures s sec).fld (by decide)] at slewed
      exact ⟨slewed, State.measured_lock (s := s.captures sec) (capt ▸ within) follows⟩
    · obtain ⟨lock, waits, event, kept⟩ := State.measured_unlocks (s := s.captures sec) (err := err) (capt ▸ beyond)
      exact ⟨lock, waits, event, fun h => (kept h).trans rate⟩
  case outside =>
    refine ⟨_, by rw [exec_ppsEdge sec nanos valid src, State.edgeOutside_some next out, if_pos rfl], rfl, State.bellEvent_sets s (by decide) rfl,
      SameRegs.bellEvent s 4⟩
  case mismatch =>
    have wrong : (!valid || nearestSecond s.bell.now != sec) = true := by
      rcases differs with h | h <;> simp [h]
    refine ⟨s.seesEdge.bellEvent 8, by rw [exec_ppsEdge sec nanos valid src, State.edgeOutside_within win, wrong]; rfl, State.bellEvent_sets _ (by decide) rfl,
      ?_, rfl, SameRegs.bellEvent s.seesEdge 8⟩
    exact (SameRegs.bellEvent s.seesEdge 8).rateAdj (by decide)
  case missing =>
    have event : (s.missesEdge e).flag Reg.bellEvent 2 = true := State.bellEvent_sets s (by decide) rfl
    have rate : (s.missesEdge e).rateAdj = s.rateAdj := (SameRegs.bellEvent s 4).rateAdj (by decide)
    by_cases first : s.bell.missed = 0
    · refine ⟨s.missesEdge e, by rw [exec_ppsMissing src next past, first]; rfl, rfl, event, rfl, rfl, rfl, fun _ => rfl, fun h => absurd h (by omega)⟩
    · obtain ⟨r, l, up, est, rest⟩ := (s.missesEdge e).lostReference_rest
      refine ⟨(s.missesEdge e).lostReference, by rw [exec_ppsMissing src next past]; exact congrArg _ (if_pos (by omega)), by rw [rest]; rfl,
        State.lostReference_flag (by decide) event, by rw [rest]; rfl, by rw [rest]; rfl, by rw [rest]; rfl, fun h => absurd h first,
        fun _ => ⟨fun locked => ?_, fun acquiring => State.lostReference_forgets (s := s.missesEdge e) acquiring⟩⟩
      obtain ⟨lock, rate', lost⟩ := State.lostReference_holds (s := s.missesEdge e) locked
      exact ⟨lock, rate'.trans rate, lost⟩
  case limit => exact ⟨_, exec_holdoverLimit hold past, rfl, State.bellEvent_sets s (by decide) rfl, SameRegs.bellEvent s 32⟩

end Sys2Proof.Machine
end

section
/-! SUPPORT. Heads that wait at an output: what sending them leaves (R268, R271, R273). -/
namespace Sys2Proof.Machine

open Sys2Proof

/-- Heads have been sent, or dropped for want of a route: they wait behind those that waited, the drops are counted, and nothing else differs. -/
structure Sent (s t : State) : Prop where
  rest : ∃ r l p, t = { s with regs := r, loop := l, ports := p }
  regs : SameRegs [Reg.fabDrops, Reg.fabEvent] s t
  waits : ∀ p, ∃ l, (nth t.ports p).queue = (nth s.ports p).queue ++ l

theorem Sent.refl (s : State) : Sent s s := ⟨⟨_, _, _, rfl⟩, SameRegs.refl _ s, fun _ => ⟨[], (List.append_nil _).symm⟩⟩

theorem Sent.trans {s t u : State} (h : Sent s t) (k : Sent t u) : Sent s u := by
  obtain ⟨⟨r, l, p, ht⟩, hr, hw⟩ := h
  obtain ⟨⟨r', l', p', hu⟩, hr', hw'⟩ := k
  refine ⟨⟨r', l', p', by rw [hu, ht]⟩, hr.trans hr', fun n => ?_⟩
  obtain ⟨m, hm⟩ := hw n
  obtain ⟨m', hm'⟩ := hw' n
  exact ⟨m ++ m', by rw [hm', hm, List.append_assoc]⟩

theorem State.fabEvent_two (s : State) : s.fabEvent 2 = if s.straps.build = .c1 then s else s.setBitsIn Reg.fabEvent 2 := by
  have ofFabric : ¬ (maskHas 2 6 || maskHas 2 7) = true := by decide
  rw [State.fabEvent, if_neg ofFabric]

theorem Sent.setReg (s : State) {o : Nat} (v : Word) (h : o ∈ [Reg.fabDrops, Reg.fabEvent]) : Sent s (s.setReg o v) :=
  ⟨⟨_, _, _, rfl⟩, (SameRegs.setReg s o v).mono (by simpa using h), fun _ => ⟨[], (List.append_nil _).symm⟩⟩

/-- A head without a route changes the drops and their event alone. -/
theorem Sent.dropHead (s : State) : Sent s (s.dropHead 1) := by
  have drops : Sent s (s.incSat Reg.fabDrops 63 48 1) := .setReg s _ (by simp)
  have event (u : State) : Sent u (u.fabEvent 2) := by
    rw [State.fabEvent_two]
    split
    · exact .refl u
    · exact .setReg u _ (by simp)
  exact drops.trans (event _)

/-- A head waits last at the output of a port. -/
def State.enqueue (s : State) (p : Nat) (q : QHead) : State :=
  { s with ports := upd s.ports p fun x => { x with queue := x.queue ++ [q] } }

theorem State.ports_enqueue (s : State) (p : Nat) (q : QHead) (n : Nat) :
    nth (s.enqueue p q).ports n = if n = p then { nth s.ports p with queue := (nth s.ports p).queue ++ [q] } else nth s.ports n := nth_upd ..

theorem State.sendPort_up {s : State} {p : Nat} (up : s.portUp p = true) (own : Bool) (slot : Option Nat) (h : Head) :
    s.sendPort p own slot h = s.enqueue p ⟨slot, own, h⟩ := if_pos up

theorem Sent.enqueue (s : State) (p : Nat) (q : QHead) : Sent s (s.enqueue p q) := by
  refine ⟨⟨_, _, _, rfl⟩, SameRegs.refl _ s, fun n => ?_⟩
  rw [State.ports_enqueue]
  split
  case isTrue h => exact ⟨[q], by rw [h]⟩
  case isFalse => exact ⟨[], (List.append_nil _).symm⟩

theorem Sent.sendPort (s : State) (p : Nat) (own : Bool) (slot : Option Nat) (h : Head) : Sent s (s.sendPort p own slot h) := by
  unfold State.sendPort
  split
  · exact .enqueue s p _
  · exact .dropHead s

theorem Sent.sendTime (s : State) (p : Nat) (b : MsgBody) : Sent s (s.sendTime p b) := Sent.sendPort ..

end Sys2Proof.Machine
end
section
/-! PROOFS. Time over links (O33). -/
namespace Sys2Proof.Machine

open Sys2Proof

/-! ## Exchanges (R23) -/

/-- The head of a time message for the neighbour. -/
def State.timeHead (s : State) (b : MsgBody) : QHead := ⟨none, true, s.headOf 0 0 { src := 0, jgen := 0, gctx := 0, tag := 0, body := b }⟩

theorem State.sendTime_up {s : State} {p : Nat} (up : s.portUp p = true) (b : MsgBody) : s.sendTime p b = s.enqueue p (s.timeHead b) :=
  State.sendPort_up up ..

/-- An exchange started on a port: it is noted, and its TIME_REQ waits. -/
def State.asks (s : State) (p : Nat) : State :=
  (s.updBell fun b => { b with sent := put b.sent p (some b.now) }).enqueue p (s.timeHead (.timeReq s.bell.now))

theorem State.startExchange_cons {s : State} {p : Nat} (up : s.portUp p = true) (r : List Nat) : s.startExchange (p :: r) = (s.asks p).startExchange r := by
  rw [State.startExchange]
  exact congrArg (State.startExchange · r) (State.sendTime_up (s := s.updBell _) up _)

/-- What exchanges started on ports that are UP leave: of each of them, the time and a TIME_REQ. -/
structure Asked (ps : List Nat) (s t : State) : Prop where
  rest : ∃ b p, t = { s with bell := { s.bell with sent := b }, ports := p }
  asked : ∀ p ∈ ps, nth t.bell.sent p = some s.bell.now ∧
    (nth t.ports p).queue = (nth s.ports p).queue ++ [s.timeHead (.timeReq s.bell.now)]
  others : ∀ p, p ∉ ps → nth t.bell.sent p = nth s.bell.sent p ∧ nth t.ports p = nth s.ports p

theorem Asked.startExchange (ps : List Nat) (distinct : ps.Nodup) (s : State) (up : ∀ p ∈ ps, s.portUp p = true) :
    Asked ps s (s.startExchange ps) := by
  induction ps generalizing s with
  | nil => exact ⟨⟨_, _, rfl⟩, fun p h => absurd h List.not_mem_nil, fun _ _ => ⟨rfl, rfl⟩⟩
  | cons p ps ih =>
    obtain ⟨new, distinct⟩ := List.nodup_cons.mp distinct
    have sent (n : Nat) : nth (s.asks p).bell.sent n = if n = p then some s.bell.now else nth s.bell.sent n := nth_put ..
    have port (n : Nat) : nth (s.asks p).ports n = if n = p then { nth s.ports p with queue := (nth s.ports p).queue ++ [s.timeHead (.timeReq s.bell.now)] } else nth s.ports n := nth_upd ..
    obtain ⟨⟨b, q, rest⟩, asked, others⟩ := ih distinct (s.asks p) fun n hn => up n (.tail _ hn)
    rw [State.startExchange_cons (up p List.mem_cons_self)]
    refine ⟨⟨b, q, rest⟩, fun n hn => ?_, fun n hn => ?_⟩
    · rcases List.mem_cons.mp hn with rfl | hn
      · obtain ⟨h1, h2⟩ := others n new
        rw [h1, h2, sent, port, if_pos rfl, if_pos rfl]
        exact ⟨rfl, rfl⟩
      · obtain ⟨h1, h2⟩ := asked n hn
        rw [h1, h2, port, if_neg (by rintro rfl; exact new ‹_›)]
        exact ⟨rfl, rfl⟩
    · obtain ⟨ne, hn⟩ := not_or.mp (List.mem_cons.not.mp hn)
      obtain ⟨h1, h2⟩ := others n hn
      rw [h1, h2, sent, port, if_neg ne, if_neg ne]
      exact ⟨rfl, rfl⟩

theorem mem_maskBits (n m i : Nat) : i ∈ maskBits n m ↔ i < n ∧ maskHas m i = true := by
  rw [maskBits, List.mem_filter, List.mem_range]

/-! ## Time messages (R23, R24) -/

theorem State.take_eq {s : State} {k : Nat} {d : Delivered} (h : s.inbox[k]? = some d) :
    s.take k = some (d, { s with inbox := s.inbox.eraseIdx k }) := by
  rw [State.take, h]

theorem exec_timeReq {s : State} {k t1 : Nat} {d : Delivered} (h : s.inbox[k]? = some d) (body : d.msg.body = .timeReq t1) :
    exec (.timeReq k) s = .next
      ((({ s with inbox := s.inbox.eraseIdx k } : State).sendTime d.port (.timeResp t1 d.at_ s.bell.now)).upstreamTime d.port t1 d.at_) := by
  have run : exec (.timeReq k) s = .next (timeReqS k s) := rfl
  rw [run, timeReqS, State.take_eq h]
  simp only [body]

theorem State.upstreamTime_other {s : State} {p : Nat} (h : s.isUpstream p = false) (t at_ : Nat) : s.upstreamTime p t at_ = s := by
  simp [State.upstreamTime, h]

/-- Time from upstream disciplines by the link's delay, once this block has measured it. -/
theorem State.upstreamTime_measured {s : State} {p : Nat} (up : s.isUpstream p = true) (known : nth s.bell.samples p ≠ []) (t at_ : Nat) :
    s.upstreamTime p t at_ = (s.updBell fun b => { b with lastMsg := s.up }).measured
      ((16 * (t : Int) + (s.fld (Reg.bellLink p) 31 0 : Nat) - 16 * (at_ : Int) + 8) / 16) := by
  have delay : s.upstreamDelay p = (s.fld (Reg.bellLink p) 31 0, s) := if_neg (by simpa using known)
  rw [State.upstreamTime, if_pos up, delay]

/-- The exchange under way on a port ends: its delay joins the last 64, and BELL_LINKn takes their mean. -/
def State.endsExchange (s : State) (p : Nat) (l : List Int) : State :=
  (s.updBell fun b => { b with samples := put b.samples p l, sent := put b.sent p none }).setFld (Reg.bellLink p) 31 0 (unsignedOf 32 (meanOf l))

theorem SameRegs.endsExchange (s : State) (p : Nat) (l : List Int) : SameRegs [Reg.bellLink p] s (s.endsExchange p l) :=
  SameRegs.setFld (s.updBell fun b => { b with samples := put b.samples p l, sent := put b.sent p none }) (Reg.bellLink p) 31 0 _

theorem exec_timeResp {s : State} {k t1 t2 t3 : Nat} {d : Delivered} (got : s.inbox[k]? = some d) (body : d.msg.body = .timeResp t1 t2 t3)
    (due : nth s.bell.sent d.port = some t1) (other : s.isUpstream d.port = false) (other' : ∀ l,
      (({ s with inbox := s.inbox.eraseIdx k } : State).endsExchange d.port l).isUpstream d.port = s.isUpstream d.port) :
    let m : Int := (((t2 : Int) - t1) + ((d.at_ : Int) - t3)) * 8 + signed 16 (s.fld (Reg.bellLink d.port) 63 48)
    exec (.timeResp k) s =
      .next (({ s with inbox := s.inbox.eraseIdx k } : State).endsExchange d.port ((m :: nth s.bell.samples d.port).take 64)) := by
  intro m
  have run : exec (.timeResp k) s = .next (timeRespS k s) := rfl
  have due' : (s.bell.sent.getD d.port none == some t1) = true := by rw [beq_iff_eq]; exact due
  rw [run, timeRespS, State.take_eq got]
  simp only [body, due', if_true]
  exact congrArg _ (State.upstreamTime_other ((other' _).trans other) _ _)

/-- A millisecond without time from upstream: the limit starts again, the event is set, and the reference is lost. -/
theorem exec_linkTimeLost {s : State} (src : s.bellSrc = 2) (late : s.bell.lastMsg + 4000000 ≤ s.up) :
    exec .linkTimeLost s = .next ((s.updBell fun b => { b with lastMsg := s.up }).bellEvent 64).lostReference := by
  have run : exec .linkTimeLost s = .next (linkTimeLostS s) := rfl
  have late : (s.bellSrc == 2 && decide (s.bell.lastMsg + msT ≤ s.up)) = true := by
    simp [src, show msT = 4000000 from rfl, late]
  rw [run, linkTimeLostS, if_pos late]

/-! ## Departure (R23, R270) -/

/-- Without an armed injection a head put on a port is sent as it is, and only the port's own counts change. -/
theorem State.onPort_unarmed {s : State} (unarmed : s.inject = none) (p : Nat) (h : Head) :
    (∃ link, (s.onPort p h).out = s.out ++ [.flit p link h]) ∧ (nth (s.onPort p h).ports p).queue = (nth s.ports p).queue ∧
      (s.onPort p h).bell = s.bell := by
  have plain : (decide (2 ≤ p) && s.injHits 0x0A 49 && s.inject.any fun (j : Inject) => j.param == p) = false := by
    rw [injHits_none unarmed, Bool.and_false, Bool.false_and]
  simp only [State.onPort, plain, Bool.false_eq_true, if_false]
  exact ⟨⟨_, rfl⟩, by rw [nth_upd_self]; rfl, rfl⟩

/-- Is a TIME_REQ among the messages of a head? -/
def asksTime (h : Head) : Bool := h.msgs.any fun m => match m.body with | .timeReq _ => true | _ => false

/-- The departure of a TIME_REQ is noted. -/
def State.notesRequest (s : State) (p : Nat) (h : Head) : State :=
  if asksTime h then s.updBell fun b => { b with sent := put b.sent p (some s.bell.now) } else s

/-- The heads `l` leave a queue in the head `h`. -/
def State.unqueues (s : State) (p : Nat) (q : QHead) (l : List QHead) (h : Head) : State :=
  { s with ports := upd s.ports p fun x => { x with
    queue := without x.queue l
    passed := if q.head.vc == 0 then 0 else if x.queue.any (fun r => r.head.vc == 0) then x.passed + flitsOf h else 0 } }

/-- The flits of a request count against the pace. -/
def State.countsStart (s : State) (h : Head) : State :=
  if h.vc == 0 then
    s.updPower fun p => { p with linkStarts := if p.linkStarts.1 == s.up / usT then (p.linkStarts.1, p.linkStarts.2 + flitsOf h) else (s.up / usT, flitsOf h) }
  else s

/-- The head in which this block's own message leaves at `now`, when no other that waits can join it. -/
def stampedHead (now : Nat) (h : Head) : Head := { headWith h (h.msgs.map (stampTime now)) with sent := now / 256 % 2 ^ 32 }

theorem State.depart_alone {s : State} {p : Nat} {q : QHead} (own : q.own = true) (unslotted : q.slot = none) (alone : (nth s.ports p).queue = [q]) :
    s.depart p q = (((s.notesRequest p (stampedHead s.bell.now q.head)).unqueues p q [q] (stampedHead s.bell.now q.head)).countsStart
      (stampedHead s.bell.now q.head)).onPort p (stampedHead s.bell.now q.head) := by
  have joins : q.joins q = true := by simp [QHead.joins, own]
  have carried : ((nth s.ports p).queue.filter q.joins).take 4 = [q] := by simp [alone, joins]
  have messages : ([q].map fun r => r.head.msgs.map (stampTime s.bell.now)).flatten = q.head.msgs.map (stampTime s.bell.now) := by simp
  simp only [State.depart, own, unslotted, if_true, carried, messages]
  rfl

theorem State.notesRequest_rest (s : State) (p : Nat) (h : Head) : ∃ b, s.notesRequest p h = { s with bell := b } := by
  unfold State.notesRequest
  split
  · exact ⟨_, rfl⟩
  · exact ⟨s.bell, rfl⟩

theorem State.countsStart_rest (s : State) (h : Head) : ∃ w, s.countsStart h = { s with power := w } := by
  unfold State.countsStart
  split
  · exact ⟨_, rfl⟩
  · exact ⟨s.power, rfl⟩

/-- What the departure of a message that waits alone leaves. -/
theorem State.depart_leaves {s : State} {p : Nat} {q : QHead} (own : q.own = true) (unslotted : q.slot = none) (unarmed : s.inject = none)
    (alone : (nth s.ports p).queue = [q]) :
    (∃ link, (s.depart p q).out = s.out ++ [.flit p link (stampedHead s.bell.now q.head)]) ∧ (nth (s.depart p q).ports p).queue = [] ∧
      (s.depart p q).bell = (s.notesRequest p (stampedHead s.bell.now q.head)).bell := by
  obtain ⟨b, noted⟩ := s.notesRequest_rest p (stampedHead s.bell.now q.head)
  obtain ⟨w, counted⟩ := ((s.notesRequest p (stampedHead s.bell.now q.head)).unqueues p q [q] (stampedHead s.bell.now q.head)).countsStart_rest
    (stampedHead s.bell.now q.head)
  have emptied : without (nth s.ports p).queue [q] = [] := by simp [alone, without]
  rw [State.depart_alone own unslotted alone, counted, noted]
  obtain ⟨sent, queue, bell⟩ := State.onPort_unarmed
    (s := { ({ s with bell := b } : State).unqueues p q [q] (stampedHead s.bell.now q.head) with power := w }) unarmed p (stampedHead s.bell.now q.head)
  refine ⟨sent, queue.trans ?_, bell⟩
  rw [State.unqueues, nth_upd_self]
  exact emptied

/-- Settles O33: exchanges by induction over the ports served, the answers by the equation of each command, a departure by what it leaves of a
message that waits alone. -/
theorem bellLinks : Obligations.BellLinks := by
  unfold Obligations.BellLinks
  refine ⟨fun s => ?exchange, fun s k t1 d got body other up => ?answer, fun s k t1 d got body upstream known => ?discipline,
    fun s k t1 t2 t3 d got body due other => ?delay, fun s p q m own unslotted unarmed alone one time => ?departs, fun s src late => ?lost⟩
  case exchange =>
    let ps := (maskBits 8 (s.fld Reg.bellCtrl 23 16)).filter s.portUp
    have served (p : Nat) : p ∈ ps ↔ p < 8 ∧ maskHas (s.fld Reg.bellCtrl 23 16) p = true ∧ s.portUp p = true := by
      rw [List.mem_filter, mem_maskBits, and_assoc]
    obtain ⟨⟨b, q, rest⟩, asked, others⟩ := Asked.startExchange ps ((List.nodup_range.filter _).filter _) s fun p hp => (List.mem_filter.mp hp).2
    refine ⟨s.startExchange ps, rfl, by rw [rest], by rw [rest], by rw [rest], fun p h8 serve up => ?_, fun p h => others p (mt (served p).mp h)⟩
    obtain ⟨noted, waits⟩ := asked p ((served p).mpr ⟨h8, serve, up⟩)
    exact ⟨noted, _, waits, rfl, rfl, rfl, rfl⟩
  case answer =>
    let s' : State := { s with inbox := s.inbox.eraseIdx k }
    refine ⟨s'.enqueue d.port (s'.timeHead (.timeResp t1 d.at_ s.bell.now)), s'.timeHead (.timeResp t1 d.at_ s.bell.now), ?_, rfl, ?_, fun p hp => ?_, rfl, rfl, rfl⟩
    · rw [exec_timeReq got body, State.sendTime_up (s := s') up, State.upstreamTime_other]
      exact other
    · rw [State.ports_enqueue, if_pos rfl]
    · rw [State.ports_enqueue, if_neg hp]
  case discipline =>
    intro err
    let s' : State := { s with inbox := s.inbox.eraseIdx k }
    let u := s'.sendTime d.port (.timeResp t1 d.at_ s.bell.now)
    have sent : Sent s' u := Sent.sendTime ..
    obtain ⟨r, l, ps, rest⟩ := sent.rest
    have bell : u.bell = s.bell := by rw [rest]
    have inbox : u.inbox = s.inbox.eraseIdx k := by rw [rest]
    have up : u.up = s.up := by rw [rest]
    have low : d.port < 16 := by
      have chosen : s.fld Reg.bellCtrl 11 8 = d.port := beq_iff_eq.mp (Bool.and_elim_right upstream)
      exact chosen ▸ bits_lt _ 11 8
    have upstream' : u.isUpstream d.port = true := by
      rw [← upstream, State.isUpstream, State.bellSrc, sent.regs.fld (by decide), sent.regs.fld (by decide)]
      rfl
    have link : u.fld (Reg.bellLink d.port) 31 0 = s.fld (Reg.bellLink d.port) 31 0 :=
      sent.regs.fld (by simp [Reg.bellLink, Reg.fabDrops, Reg.fabEvent]; omega) _ _
    have limit : u.fld Reg.bellServoX 63 40 = s.fld Reg.bellServoX 63 40 := sent.regs.fld (by decide) _ _
    let v := u.updBell fun b => { b with lastMsg := u.up }
    have run : exec (.timeReq k) s = .next (v.measured err) := by
      rw [exec_timeReq got body, State.upstreamTime_measured upstream' (by rw [bell]; exact known), link]
    have left := Disciplined.measured v err
    refine ⟨v.measured err, run, ?_, ?_, State.measured_offset v err, ?_, fun beyond => (State.measured_unlocks (s := v) (limit ▸ beyond)).1⟩
    · rw [left.inbox, State.setReg_inbox, State.updBell_inbox, inbox]
    · rw [left.lastMsg, State.setReg_bell, State.updBell_bell, up]
    · rw [left.now, State.setReg_bell, State.updBell_bell, bell]
  case delay =>
    intro m
    let s' : State := { s with inbox := s.inbox.eraseIdx k }
    let l := (m :: nth s.bell.samples d.port).take 64
    have low : Reg.bellLink d.port ≠ Reg.bellCtrl := by simp only [Reg.bellLink, Reg.bellCtrl]; omega
    have regs (l : List Int) : SameRegs [Reg.bellLink d.port] s (s'.endsExchange d.port l) :=
      SameRegs.endsExchange s' d.port l
    have same (l : List Int) : (s'.endsExchange d.port l).isUpstream d.port = s.isUpstream d.port := by
      rw [State.isUpstream, State.isUpstream, State.bellSrc, State.bellSrc, (regs l).fld (by simpa using low.symm), (regs l).fld (by simpa using low.symm)]
    refine ⟨s'.endsExchange d.port l, exec_timeResp got body due other same, ?_, ?_, ?_, ?_, regs l, ?_⟩
    · rw [State.endsExchange, State.setFld_inbox, State.updBell_inbox]
    · rw [State.endsExchange, State.setFld_bell, State.updBell_bell]
      exact nth_put_self ..
    · rw [State.endsExchange, State.setFld_bell, State.updBell_bell]
      exact nth_put_self ..
    · rw [State.endsExchange, State.fld_setFld_self _ _ (by omega) (by omega), Nat.mod_eq_of_lt (unsignedOf_lt 32 _)]
    · rfl
  case departs =>
    have head : (stampedHead s.bell.now q.head).msgs = [stampTime s.bell.now m] := by simp [stampedHead, headWith, one]
    obtain ⟨⟨link, sent⟩, empty, bell⟩ := State.depart_leaves own unslotted unarmed alone
    refine ⟨link, _, sent, head, rfl, empty, fun ⟨a, ha⟩ => ?_⟩
    have asks : asksTime (stampedHead s.bell.now q.head) = true := by simp [asksTime, head, stampTime, ha]
    rw [bell, State.notesRequest, if_pos asks]
    exact nth_put_self ..
  case lost =>
    let u := (s.updBell fun b => { b with lastMsg := s.up }).bellEvent 64
    have rate : u.rateAdj = s.rateAdj := (SameRegs.bellEvent (s.updBell _) 64).rateAdj (by decide)
    have event : u.flag Reg.bellEvent 6 = true := State.bellEvent_sets (s.updBell _) (by decide) rfl
    obtain ⟨r, l, up, est, rest⟩ := u.lostReference_rest
    refine ⟨u.lostReference, exec_linkTimeLost src late, by rw [rest]; rfl, State.lostReference_flag (by decide) event, fun locked => ?_, fun acquiring => ?_,
      fun other => ?_⟩
    · obtain ⟨lock, rate', -⟩ := State.lostReference_holds (s := u) locked
      exact ⟨lock, rate'.trans rate⟩
    · exact (State.lostReference_forgets (s := u) acquiring).1
    · rw [State.lostReference_other (s := u) other]; rfl

end Sys2Proof.Machine
end

section
/-! SUPPORT. What most commands of the model leave alone: the commit groups and the context resets under way (R35, R354). A lemma for each update
says that it keeps them, so that simp carries the fact through any of their compositions. -/
namespace Sys2Proof.Machine

open Sys2Proof

/-! ## The relation -/

/-- The commit groups are as they were, and so is every context's reset. -/
def Keeps (s t : State) : Prop := t.groups = s.groups ∧ ∀ c, (t.ctx c).rst = (s.ctx c).rst

@[simp] theorem Keeps.refl (s : State) : Keeps s s := ⟨rfl, fun _ => rfl⟩

theorem Keeps.trans {s t u : State} (h : Keeps s t) (k : Keeps t u) : Keeps s u := ⟨k.1.trans h.1, fun c => (k.2 c).trans (h.2 c)⟩

/-- What keeps them does not matter to what they are compared with. -/
theorem Keeps.iff {s t : State} (h : Keeps s t) (z : State) : Keeps z t ↔ Keeps z s :=
  ⟨fun k => ⟨h.1.symm.trans k.1, fun c => (h.2 c).symm.trans (k.2 c)⟩, fun k => k.trans h⟩

theorem Keeps.of_eq {s t : State} (groups : t.groups = s.groups) (ctxs : t.ctxs = s.ctxs) : Keeps s t :=
  ⟨groups, fun c => by rw [State.ctx, State.ctx, ctxs]⟩

/-- A step that keeps them, taken for each entry of a list, keeps them. -/
theorem keeps_foldl {α : Type} {f : State → α → State} (h : ∀ s a, Keeps s (f s a)) (z s : State) (l : List α) :
    Keeps z (l.foldl f s) ↔ Keeps z s := by
  induction l generalizing s with
  | nil => rfl
  | cons a l ih => exact (ih (f s a)).trans ((h s a).iff z)

/-- Where a step that keeps them may be left out. -/
theorem keeps_ite {p : Prop} [Decidable p] {t : State} (z s : State) (h : Keeps s t) : Keeps z (if p then t else s) ↔ Keeps z s := by
  split
  · exact h.iff z
  · rfl

/-! ## Updates of one unit -/

section
variable (z s : State)

@[simp] theorem keeps_setReg (o : Nat) (v : Word) : Keeps z (s.setReg o v) ↔ Keeps z s := (Keeps.of_eq rfl rfl).iff z
@[simp] theorem keeps_setFld (o hi lo v : Nat) : Keeps z (s.setFld o hi lo v) ↔ Keeps z s := (Keeps.of_eq rfl rfl).iff z
@[simp] theorem keeps_setBitsIn (o m : Nat) : Keeps z (s.setBitsIn o m) ↔ Keeps z s := (Keeps.of_eq rfl rfl).iff z
@[simp] theorem keeps_incSat (o hi lo n : Nat) : Keeps z (s.incSat o hi lo n) ↔ Keeps z s := (Keeps.of_eq rfl rfl).iff z
@[simp] theorem keeps_incWrap (o hi lo n : Nat) : Keeps z (s.incWrap o hi lo n) ↔ Keeps z s := (Keeps.of_eq rfl rfl).iff z
@[simp] theorem keeps_updLane (l : LaneId) (f : Lane → Lane) : Keeps z (s.updLane l f) ↔ Keeps z s := (Keeps.of_eq rfl rfl).iff z
@[simp] theorem keeps_updTile (t : Nat) (f : Tile → Tile) : Keeps z (s.updTile t f) ↔ Keeps z s := (Keeps.of_eq rfl rfl).iff z
@[simp] theorem keeps_updCluster (k : Nat) (f : Cluster → Cluster) : Keeps z (s.updCluster k f) ↔ Keeps z s := (Keeps.of_eq rfl rfl).iff z
@[simp] theorem keeps_updBarrow (b : Nat) (f : Barrow → Barrow) : Keeps z (s.updBarrow b f) ↔ Keeps z s := (Keeps.of_eq rfl rfl).iff z
@[simp] theorem keeps_updMem (f : MemCtl → MemCtl) : Keeps z (s.updMem f) ↔ Keeps z s := (Keeps.of_eq rfl rfl).iff z
@[simp] theorem keeps_updChan (n : Nat) (f : Chan → Chan) : Keeps z (s.updChan n f) ↔ Keeps z s := (Keeps.of_eq rfl rfl).iff z
@[simp] theorem keeps_updPower (f : Power → Power) : Keeps z (s.updPower f) ↔ Keeps z s := (Keeps.of_eq rfl rfl).iff z
@[simp] theorem keeps_updBell (f : Bell → Bell) : Keeps z (s.updBell f) ↔ Keeps z s := (Keeps.of_eq rfl rfl).iff z
@[simp] theorem keeps_updOp (id : Nat) (f : Op → Op) : Keeps z (s.updOp id f) ↔ Keeps z s := (Keeps.of_eq rfl rfl).iff z
@[simp] theorem keeps_dropOp (id : Nat) : Keeps z (s.dropOp id) ↔ Keeps z s := (Keeps.of_eq rfl rfl).iff z
@[simp] theorem keeps_emit (o : Out) : Keeps z (s.emit o) ↔ Keeps z s := (Keeps.of_eq rfl rfl).iff z
@[simp] theorem keeps_wr (a : Nat) (b : Byte) : Keeps z (s.wr a b) ↔ Keeps z s := (Keeps.of_eq rfl rfl).iff z
@[simp] theorem keeps_zeroMem (lo n : Nat) : Keeps z (s.zeroMem lo n) ↔ Keeps z s := (Keeps.of_eq rfl rfl).iff z
@[simp] theorem keeps_updKey (k p : Nat) (f : KeyPhase → KeyPhase) : Keeps z (s.updKey k p f) ↔ Keeps z s := (Keeps.of_eq rfl rfl).iff z
@[simp] theorem keeps_addReq (r : Req) : Keeps z (s.addReq r) ↔ Keeps z s := (Keeps.of_eq rfl rfl).iff z
@[simp] theorem keeps_tlbPut (e : TlbEnt) : Keeps z (s.tlbPut e) ↔ Keeps z s := (Keeps.of_eq rfl rfl).iff z
@[simp] theorem keeps_dropRange (cs : List Nat) (first len : Nat) : Keeps z (s.dropRange cs first len) ↔ Keeps z s := (Keeps.of_eq rfl rfl).iff z
@[simp] theorem keeps_recheckSegs (c : Nat) : Keeps z (s.recheckSegs c) ↔ Keeps z s := (Keeps.of_eq rfl rfl).iff z

@[simp] theorem keeps_draw : Keeps z s.draw.2 ↔ Keeps z s := (Keeps.of_eq rfl rfl).iff z

/-! ## Parts of the state replaced -/

@[simp] theorem keeps_free (n : Nat) : Keeps z { s with free := n } ↔ Keeps z s := (Keeps.of_eq rfl rfl).iff z
@[simp] theorem keeps_lanes (l : List Lane) : Keeps z { s with lanes := l } ↔ Keeps z s := (Keeps.of_eq rfl rfl).iff z
@[simp] theorem keeps_barGroups (l : List BarGroup) : Keeps z { s with barGroups := l } ↔ Keeps z s := (Keeps.of_eq rfl rfl).iff z
@[simp] theorem keeps_nextTag (n : Nat) : Keeps z { s with nextTag := n } ↔ Keeps z s := (Keeps.of_eq rfl rfl).iff z
@[simp] theorem keeps_tlb (l : List TlbEnt) : Keeps z { s with tlb := l } ↔ Keeps z s := (Keeps.of_eq rfl rfl).iff z
@[simp] theorem keeps_xreqs (l : List XReq) : Keeps z { s with xreqs := l } ↔ Keeps z s := (Keeps.of_eq rfl rfl).iff z
theorem keeps_withdraws (l : List Withdraw) (n : Nat) : Keeps z { s with withdraws := l, nextWd := n } ↔ Keeps z s := (Keeps.of_eq rfl rfl).iff z
@[simp] theorem keeps_grantTurn (n : Nat) : Keeps z { s with grantTurn := n } ↔ Keeps z s := (Keeps.of_eq rfl rfl).iff z

/-- A context's own state but for its reset. -/
@[simp] theorem keeps_updCtx {c : Nat} {f : Ctx → Ctx} (h : ∀ x, (f x).rst = x.rst) : Keeps z (s.updCtx c f) ↔ Keeps z s := by
  refine Keeps.iff (s := s) (t := s.updCtx c f) ⟨rfl, fun n => ?_⟩ z
  rw [State.ctx_updCtx]
  split
  case isTrue e => rw [h, e]
  case isFalse => rfl

@[simp] theorem keeps_updLaunch (c q : Nat) (f : Launch → Launch) : Keeps z (s.updLaunch c q f) ↔ Keeps z s := keeps_updCtx z s fun _ => rfl

/-! ## Memory, events and the log -/

@[simp] theorem keeps_wrBytes (a : Nat) (l : List Byte) : Keeps z (s.wrBytes a l) ↔ Keeps z s := by
  induction l generalizing s a with
  | nil => rfl
  | cons b r ih => simp [State.wrBytes, ih]

@[simp] theorem keeps_wrList (l : List (Nat × Byte)) : Keeps z (s.wrList l) ↔ Keeps z s := by
  induction l generalizing s with
  | nil => rfl
  | cons b r ih => simp [State.wrList, ih]

@[simp] theorem keeps_memEvent (m : Nat) : Keeps z (s.memEvent m) ↔ Keeps z s := by simp [State.memEvent]
@[simp] theorem keeps_barEvent (m : Nat) : Keeps z (s.barEvent m) ↔ Keeps z s := by simp [State.barEvent]
@[simp] theorem keeps_xltEvent (m : Nat) : Keeps z (s.xltEvent m) ↔ Keeps z s := by simp [State.xltEvent]
@[simp] theorem keeps_mgmt (i : Nat) : Keeps z (s.mgmt i) ↔ Keeps z s := by simp [State.mgmt]
@[simp] theorem keeps_memOut (c a : Nat) : Keeps z (s.memOut c a) ↔ Keeps z s := by simp [State.memOut]

@[simp] theorem keeps_fabEvent (m : Nat) : Keeps z (s.fabEvent m) ↔ Keeps z s := by
  unfold State.fabEvent
  split
  · rfl
  · dsimp only
    split <;> simp

@[simp] theorem keeps_putLog (i j : Nat) (ws : List Word) : Keeps z (s.putLog i j ws) ↔ Keeps z s := by
  induction ws generalizing s j with
  | nil => rfl
  | cons w r ih => simp [State.putLog, ih]

@[simp] theorem keeps_record (r : Report) : Keeps z (s.record r) ↔ Keeps z s := by
  unfold State.record
  dsimp only
  split_ifs <;> simp

@[simp] theorem keeps_errPulse (r : Report) : Keeps z (s.errPulse r) ↔ Keeps z s := by
  unfold State.errPulse
  dsimp only
  split <;> (try split) <;> simp

@[simp] theorem keeps_detect (r : Report) : Keeps z (s.detect r) ↔ Keeps z s := by
  unfold State.detect
  dsimp only
  split_ifs <;> simp

@[simp] theorem keeps_disarm : Keeps z s.disarm ↔ Keeps z s := (keeps_setFld ..).trans ((Keeps.of_eq rfl rfl).iff z)

/-! ## The link -/

@[simp] theorem keeps_dropHead (w : Nat) : Keeps z (s.dropHead w) ↔ Keeps z s := by simp [State.dropHead]

@[simp] theorem keeps_sendPort (p : Nat) (own : Bool) (slot : Option Nat) (h : Head) : Keeps z (s.sendPort p own slot h) ↔ Keeps z s := by
  unfold State.sendPort
  split
  · exact (Keeps.of_eq rfl rfl).iff z
  · simp

@[simp] theorem keeps_originate (slot : Option Nat) (job dst : Nat) (m : Msg) : Keeps z (s.originate slot job dst m) ↔ Keeps z s := by
  unfold State.originate
  dsimp only
  split
  · rfl
  · split
    · exact (Keeps.of_eq rfl rfl).iff z
    · split <;> simp

@[simp] theorem keeps_sendJob (j b g t : Nat) (body : MsgBody) : Keeps z (s.sendJob j b g t body) ↔ Keeps z s := by
  unfold State.sendJob
  split <;> simp

@[simp] theorem keeps_sendPeer (slot c j t : Nat) (body : MsgBody) : Keeps z (s.sendPeer slot c j t body) ↔ Keeps z s := by
  unfold State.sendPeer
  split
  · split <;> simp
  · simp

/-! ## Registers that follow others -/

@[simp] theorem keeps_setRegs (l : List (Nat × Nat)) : Keeps z (s.setRegs l) ↔ Keeps z s := by
  induction l generalizing s with
  | nil => rfl
  | cons a r ih => simp [State.setRegs, ih]

@[simp] theorem keeps_markExpert (b : Nat) : Keeps z (s.markExpert b) ↔ Keeps z s := by simp [State.markExpert]

@[simp] theorem keeps_applyBasic (o : Nat) (r : RegName) (ix : List Nat) (c : Nat) : Keeps z (s.applyBasic o r ix c) ↔ Keeps z s := by
  unfold State.applyBasic
  split <;> simp

@[simp] theorem keeps_putField (o m v : Nat) : Keeps z (s.putField o m v) ↔ Keeps z s := by
  unfold State.putField
  dsimp only
  split
  · split
    · split <;> simp
    · split <;> simp
  · rfl

@[simp] theorem keeps_preview (l : List Staged) : Keeps z (s.preview l) ↔ Keeps z s := keeps_foldl (fun s w => by simp) z s l

/-! ## Voltage and clock -/

@[simp] theorem keeps_writeVolt (o : Nat) (l : List Nat) : Keeps z (s.writeVolt o l) ↔ Keeps z s := by
  induction l generalizing s with
  | nil => rfl
  | cons r rs ih =>
    rw [State.writeVolt, ih]
    split <;> simp

@[simp] theorem keeps_setVolt (o : Nat) : Keeps z (s.setVolt o) ↔ Keeps z s := by simp [State.setVolt]

@[simp] theorem keeps_startTransition (t : Nat) (a : Option Nat) : Keeps z (s.startTransition t a) ↔ Keeps z s := by
  unfold State.startTransition
  split_ifs <;> simp

@[simp] theorem keeps_redecide : Keeps z s.redecide ↔ Keeps z s := by
  unfold State.redecide
  dsimp only
  split_ifs <;> simp

@[simp] theorem keeps_switchClock : Keeps z s.switchClock ↔ Keeps z s := by
  unfold State.switchClock
  split
  · dsimp only
    split_ifs <;> simp
  · rfl

@[simp] theorem keeps_switchTo (t : Nat) : Keeps z (s.switchTo t) ↔ Keeps z s := by
  unfold State.switchTo
  dsimp only
  split_ifs <;> simp

@[simp] theorem keeps_undoRaise : Keeps z s.undoRaise ↔ Keeps z s := by
  unfold State.undoRaise
  dsimp only
  split_ifs <;> simp

@[simp] theorem keeps_applyOpp : Keeps z s.applyOpp ↔ Keeps z s := by
  unfold State.applyOpp
  dsimp only
  split_ifs <;> simp

/-! ## Launches and operations that stop -/

@[simp] theorem keeps_countSat (l : LaneId) (a c : Nat) (n : Bool) : Keeps z (s.countSat l a c n) ↔ Keeps z s := by simp [State.countSat]

@[simp] theorem keeps_stickyNan (c : Nat) (n : Bool) : Keeps z (s.stickyNan c n) ↔ Keeps z s := by
  unfold State.stickyNan
  split <;> simp

@[simp] theorem keeps_landPrefix (t : Nat) (o : Op) : Keeps z (s.landPrefix t o) ↔ Keeps z s := by
  simp [State.landPrefix, State.draw]

@[simp] theorem keeps_setBarSt (b : Nat) (st : BarSt) : Keeps z (s.setBarSt b st) ↔ Keeps z s := by simp [State.setBarSt]

@[simp] theorem keeps_restBarrow (b : Nat) : Keeps z (s.restBarrow b) ↔ Keeps z s := by
  unfold State.restBarrow
  split <;> simp

@[simp] theorem keeps_stopOp (o : Op) : Keeps z (s.stopOp o) ↔ Keeps z s := by
  unfold State.stopOp
  dsimp only
  split
  · rfl
  · split <;> simp
  · split
    · rfl
    · rw [keeps_dropOp, keeps_barGroups]
      simp
  · simp
  · split_ifs <;> simp
  · rfl
  · split <;> simp

@[simp] theorem keeps_stopOps (l : List Op) : Keeps z (s.stopOps l) ↔ Keeps z s := by
  induction l generalizing s with
  | nil => rfl
  | cons o r ih => simp [State.stopOps, ih]

@[simp] theorem keeps_tell (c : Nat) (m : GangMsg) (l : List Nat) : Keeps z (s.tell c m l) ↔ Keeps z s := by
  induction l generalizing s with
  | nil => rfl
  | cons k r ih => simp [State.tell, ih]

@[simp] theorem keeps_stopLaunch (c q : Nat) : Keeps z (s.stopLaunch c q) ↔ Keeps z s := by
  simp only [State.stopLaunch, keeps_stopOps, keeps_updLaunch, keeps_lanes]
  split
  · split <;> simp
  · rfl

@[simp] theorem keeps_raiseAt (c q cl n : Nat) (e : Exc) : Keeps z (s.raiseAt c q cl n e) ↔ Keeps z s := by
  unfold State.raiseAt
  split
  · split <;> simp
  · rfl

@[simp] theorem keeps_energyEvent (c q k n : Nat) : Keeps z (s.energyEvent c q k n) ↔ Keeps z s := by simp [State.energyEvent]
@[simp] theorem keeps_workUp (c q k n : Nat) : Keeps z (s.workUp c q k n) ↔ Keeps z s := by simp [State.workUp]

@[simp] theorem keeps_fillers (t n : Nat) : Keeps z (s.fillers t n) ↔ Keeps z s := by
  unfold State.fillers
  dsimp only
  split
  · split
    · simp
    · simp
  · simp

@[simp] theorem keeps_settleGap (t : Nat) : Keeps z (s.settleGap t) ↔ Keeps z s := by
  unfold State.settleGap
  split
  · dsimp only
    split
    · rfl
    · simp
  · rfl

/-! ## Scratch and memory in hand -/

@[simp] theorem keeps_countEcc (a : Nat) (bad : Bool) : Keeps z (s.countEcc a bad) ↔ Keeps z s := by
  unfold State.countEcc
  split
  · split <;> simp
  · split <;> simp
  · rfl

@[simp] theorem keeps_checkScr (c : Option (Nat × Nat)) (q : Option Nat) (a : Nat) : Keeps z (s.checkScr c q a).2 ↔ Keeps z s := by
  unfold State.checkScr
  split <;> simp

@[simp] theorem keeps_markDirty (a : Nat) : Keeps z (s.markDirty a) ↔ Keeps z s := by
  unfold State.markDirty
  split <;> simp

@[simp] theorem keeps_store (a : Nat) (l : List Byte) : Keeps z (s.store a l) ↔ Keeps z s := by
  unfold State.store
  dsimp only
  split <;> simp

@[simp] theorem keeps_queueReads (t c : Nat) (l : List Nat) : Keeps z (s.queueReads t c l) ↔ Keeps z s := by
  induction l generalizing s with
  | nil => rfl
  | cons a r ih => simp [State.queueReads, ih]

@[simp] theorem keeps_queueWrites (t c a : Nat) (bs : List Byte) (l : List Nat) : Keeps z (s.queueWrites t c a bs l) ↔ Keeps z s := by
  induction l generalizing s with
  | nil => rfl
  | cons n r ih => simp [State.queueWrites, ih]

@[simp] theorem keeps_acceptRead (r : Req) : Keeps z (s.acceptRead r) ↔ Keeps z s := by simp [State.acceptRead]

@[simp] theorem keeps_acceptWrite (r : Req) (bs : List Byte) : Keeps z (s.acceptWrite r bs).2 ↔ Keeps z s := by
  unfold State.acceptWrite
  dsimp only
  split
  · simp
  · simp

@[simp] theorem keeps_reduceAt (f op n : Nat) (bs : List Byte) (a : Nat) : Keeps z (s.reduceAt f op n bs a).2 ↔ Keeps z s := by
  induction n generalizing s bs a with
  | zero => rfl
  | succ n ih => simp [State.reduceAt, ih]

/-! ## Translation -/

@[simp] theorem keeps_countTc (c : Nat) (hit : Bool) : Keeps z (s.countTc c hit) ↔ Keeps z s := by
  unfold State.countTc
  split_ifs <;> simp

@[simp] theorem keeps_lookup (ch c g va need : Nat) : Keeps z (s.lookup ch c g va need).2 ↔ Keeps z s := by
  unfold State.lookup
  split
  · simp
  · dsimp only
    split_ifs <;> simp

@[simp] theorem keeps_sendAts (x : XReq) : Keeps z (s.sendAts x) ↔ Keeps z s := by
  unfold State.sendAts
  split <;> simp

@[simp] theorem keeps_takeWalkers (n : Nat) : Keeps z (s.takeWalkers n) ↔ Keeps z s := by
  induction n generalizing s with
  | zero => rfl
  | succ n ih =>
    rw [State.takeWalkers]
    split
    · split
      · rw [ih, keeps_xreqs]
      · rfl
    · rfl

@[simp] theorem keeps_startX (e ch c g va need : Nat) : Keeps z (s.startX e ch c g va need).2 ↔ Keeps z s := by
  unfold State.startX
  dsimp only
  split_ifs
  · rfl
  · rfl
  · exact (keeps_takeWalkers ..).trans ((Keeps.of_eq rfl rfl).iff z)
  · exact (keeps_sendAts ..).trans ((Keeps.of_eq rfl rfl).iff z)

@[simp] theorem keeps_noteFault (c va e need n : Nat) : Keeps z (s.noteFault c va e need n) ↔ Keeps z s := by simp [State.noteFault]

/-! ## Barrow operations -/

@[simp] theorem keeps_updQ (b op : Nat) (f : QDesc → QDesc) : Keeps z (s.updQ b op f) ↔ Keeps z s := by simp [State.updQ]
@[simp] theorem keeps_updSeg (b op k : Nat) (f : Seg → Seg) : Keeps z (s.updSeg b op k f) ↔ Keeps z s := by simp [State.updSeg]
@[simp] theorem keeps_reapSegs (b op : Nat) : Keeps z (s.reapSegs b op) ↔ Keeps z s := by simp [State.reapSegs]
@[simp] theorem keeps_killHeld (b op p : Nat) (d : Bool) : Keeps z (s.killHeld b op p d) ↔ Keeps z s := by simp [State.killHeld]

@[simp] theorem keeps_settle (b op : Nat) : Keeps z (s.settle b op) ↔ Keeps z s := by
  unfold State.settle
  dsimp only
  split
  · split
    · split
      · simp
      · split
        · simp
        · rw [keeps_raiseAt]
          split
          · simp
          · simp
    · simp
  · simp

@[simp] theorem keeps_failOp (b op c a : Nat) : Keeps z (s.failOp b op c a) ↔ Keeps z s := by
  unfold State.failOp
  split <;> simp

@[simp] theorem keeps_waitFault (p c : Nat) (w : Waiter) : Keeps z (s.waitFault p c w) ↔ Keeps z s := by
  unfold State.waitFault
  dsimp only
  split
  · split <;> simp
  · simp
  · simp [Ctx.updRing]
  · simp

@[simp] theorem keeps_fillFrame (b op p : Nat) (d : Bool) : Keeps z (s.fillFrame b op p d) ↔ Keeps z s := by
  unfold State.fillFrame
  split
  · split
    · simp
    · split
      · dsimp only
        split
        · split
          · split <;> simp
          · simp
        · simp
        · split <;> simp
      · rfl
  · rfl

@[simp] theorem keeps_fillFrames (b op : Nat) (l : List Frame) : Keeps z (s.fillFrames b op l) ↔ Keeps z s := by
  induction l generalizing s with
  | nil => rfl
  | cons f r ih =>
    rw [State.fillFrames, ih]
    split <;> simp

@[simp] theorem keeps_refillGo (b op n : Nat) : Keeps z (State.refillGo b op n s) ↔ Keeps z s := by
  induction n generalizing s with
  | zero => rfl
  | succ n ih =>
    rw [State.refillGo]
    split
    · simp [ih, apply_ite (Keeps z)]
    · rfl

@[simp] theorem keeps_refillOps (l : List (Nat × Nat)) : Keeps z (s.refillOps l) ↔ Keeps z s := by
  induction l generalizing s with
  | nil => rfl
  | cons p r ih => simp [State.refillOps, State.refill, ih]

@[simp] theorem keeps_refillAll : Keeps z s.refillAll ↔ Keeps z s := by simp [State.refillAll]

@[simp] theorem keeps_withdraw (i : Option Nat) (d : Bool) (cs : List Nat) (f n : Nat) : Keeps z (s.withdraw i d cs f n) ↔ Keeps z s := by
  simp only [State.withdraw, keeps_refillAll, keeps_withdraws, keeps_dropRange]

@[simp] theorem keeps_withdrawAll (c : Nat) : Keeps z (s.withdrawAll c) ↔ Keeps z s := by simp [State.withdrawAll]

@[simp] theorem keeps_segWithdraw (c n : Nat) : Keeps z (s.segWithdraw c n) ↔ Keeps z s := by
  unfold State.segWithdraw
  split
  · rfl
  · simp only [keeps_withdraws, keeps_dropRange]

/-! ## Barrows go on -/

@[simp] theorem keeps_spendTx (b : Nat) : Keeps z (s.spendTx b) ↔ Keeps z s := by
  unfold State.spendTx
  split <;> simp

@[simp] theorem keeps_takeTokens (c b n : Nat) : Keeps z (s.takeTokens c b n).2 ↔ Keeps z s := by
  unfold State.takeTokens
  dsimp only
  split_ifs <;> simp

theorem keeps_of_takeTokens {c b n : Nat} {ok : Bool} {t : State} (h : s.takeTokens c b n = (ok, t)) : Keeps z t ↔ Keeps z s := by
  rw [← keeps_takeTokens z s c b n, h]

@[simp] theorem keeps_failSeg (b op k c a : Nat) : Keeps z (s.failSeg b op k c a) ↔ Keeps z s := by simp [State.failSeg]

@[simp] theorem keeps_scrEnergy (c q a n : Nat) : Keeps z (s.scrEnergy c q a n) ↔ Keeps z s := by
  unfold State.scrEnergy
  dsimp only
  split <;> simp

@[simp] theorem keeps_gotPiece (b op k i : Nat) (bs : List Byte) : Keeps z (s.gotPiece b op k i bs) ↔ Keeps z s := by simp [State.gotPiece]

@[simp] theorem keeps_timeoutInj (b : Nat) (r : Req) : Keeps z (s.timeoutInj b r).2 ↔ Keeps z s := by
  unfold State.timeoutInj
  split <;> simp

@[simp] theorem keeps_sentDst (b op k i : Nat) (w : Bool) (n : Nat) : Keeps z (s.sentDst b op k i w n) ↔ Keeps z s := by simp [State.sentDst]

@[simp] theorem keeps_sendSrc (b op k i : Nat) : Keeps z (s.sendSrc b op k i) ↔ Keeps z s := by
  unfold State.sendSrc
  split
  · split
    · split
      · dsimp only
        split
        case h_1 => split_ifs <;> simp
        case h_2 => split_ifs <;> simp
        case h_3 =>
          split
          · rfl
          · split
            next h => exact keeps_of_takeTokens z s h
            next h => simp [keeps_of_takeTokens z s h]
        case h_4 => simp
      · rfl
    · rfl
  · rfl

@[simp] theorem keeps_sendDst (b op k i : Nat) : Keeps z (s.sendDst b op k i) ↔ Keeps z s := by
  unfold State.sendDst
  split
  · split
    · split
      · dsimp only
        split
        case h_1 => split_ifs <;> simp
        case h_2 => split_ifs <;> simp
        case h_3 =>
          split
          · rfl
          · split
            next h => exact keeps_of_takeTokens z s h
            next h => simp [keeps_of_takeTokens z s h]
        case h_4 => simp
      · rfl
    · rfl
  · rfl

@[simp] theorem keeps_formSeg (b op k : Nat) : Keeps z (s.formSeg b op k) ↔ Keeps z s := by
  unfold State.formSeg
  split
  · split <;> simp
  · rfl

@[simp] theorem keeps_sendSrcs (b op k : Nat) (l : List Nat) : Keeps z (s.sendSrcs b op k l) ↔ Keeps z s := by
  induction l generalizing s with
  | nil => rfl
  | cons i r ih => simp [State.sendSrcs, ih]

@[simp] theorem keeps_sendDsts (b op k : Nat) (l : List Nat) : Keeps z (s.sendDsts b op k l) ↔ Keeps z s := by
  induction l generalizing s with
  | nil => rfl
  | cons i r ih => simp [State.sendDsts, ih]

@[simp] theorem keeps_pumpSeg (b op k : Nat) : Keeps z (s.pumpSeg b op k) ↔ Keeps z s := by
  unfold State.pumpSeg
  split
  · split <;> simp
  · rfl

@[simp] theorem keeps_pumpSegs (b op : Nat) (l : List Nat) : Keeps z (s.pumpSegs b op l) ↔ Keeps z s := by
  induction l generalizing s with
  | nil => rfl
  | cons k r ih => simp [State.pumpSegs, ih]

@[simp] theorem keeps_budgetState (b : Nat) : Keeps z (s.budgetState b) ↔ Keeps z s := by
  unfold State.budgetState
  dsimp only
  split
  · simp
  · split <;> simp

@[simp] theorem keeps_rebind (b op : Nat) : Keeps z (s.rebind b op) ↔ Keeps z s := by
  unfold State.rebind
  split
  · split <;> simp
  · rfl

@[simp] theorem keeps_pumpOps (b : Nat) (l : List Nat) : Keeps z (s.pumpOps b l) ↔ Keeps z s := by
  induction l generalizing s with
  | nil => rfl
  | cons op r ih =>
    rw [State.pumpOps, ih]
    split <;> simp

@[simp] theorem keeps_pumpAll (l : List Nat) : Keeps z (s.pumpAll l) ↔ Keeps z s := by
  induction l generalizing s with
  | nil => rfl
  | cons b r ih => simp [State.pumpAll, State.pump, ih]

@[simp] theorem keeps_pumpBarrows : Keeps z s.pumpBarrows ↔ Keeps z s := by simp [State.pumpBarrows]

/-! ## Leases and resets -/

@[simp] theorem keeps_awningTile (t : Nat) : Keeps z (s.awningTile t) ↔ Keeps z s := by simp [State.awningTile]
@[simp] theorem keeps_unlease (t : Nat) : Keeps z (s.unlease t) ↔ Keeps z s := by simp [State.unlease]
@[simp] theorem keeps_zeroTile (t : Nat) : Keeps z (s.zeroTile t) ↔ Keeps z s := by simp [State.zeroTile]
@[simp] theorem keeps_newLease (c t : Nat) : Keeps z (s.newLease c t) ↔ Keeps z s := by simp [State.newLease]

@[simp] theorem keeps_zeroRun (k lo hi : Nat) : Keeps z (s.zeroRun k lo hi) ↔ Keeps z s := by
  unfold State.zeroRun
  split <;> simp

@[simp] theorem keeps_applyLease (c : Nat) (old : Word) : Keeps z (s.applyLease c old) ↔ Keeps z s := by
  have runs (u : State) (k : Nat) : Keeps u
      (let (b, n) := csRange old k
       let (b', n') := csRange (u.reg (Reg.ctxLeaseCs c)) k
       if n' == 0 then u.zeroRun k b (b + n) else (u.zeroRun k b (min (b + n) b')).zeroRun k (max b (b' + n')) (b + n)) := by
    dsimp only
    split <;> simp
  simp only [State.applyLease]
  rw [keeps_foldl runs, keeps_foldl fun u t => by simp, keeps_foldl fun u t => by simp]

@[simp] theorem keeps_retireSlot (c : Nat) : Keeps z (s.retireSlot c) ↔ Keeps z s := by
  unfold State.retireSlot
  split <;> simp

@[simp] theorem keeps_dropAbort (o : Nat) : Keeps z (s.dropAbort o) ↔ Keeps z s := by
  unfold State.dropAbort
  split <;> simp

/-- The units' state for a context replaced. -/
theorem keeps_purged (ops : List Op) (lanes : List Lane) (gs : List BarGroup) (bs : List Barrow) (tlb : List TlbEnt) (xs : List XReq) (ps : List PageReq)
    (ks : List Cluster) : Keeps z { s with ops := ops, lanes := lanes, barGroups := gs, barrows := bs, tlb := tlb, xreqs := xs, pageReqs := ps, clusters := ks } ↔
      Keeps z s := (Keeps.of_eq rfl rfl).iff z

@[simp] theorem keeps_purge (c : Nat) : Keeps z (s.purge c) ↔ Keeps z s := by
  simp only [State.purge, keeps_takeWalkers]
  refine (keeps_updCtx _ _ (by intro; rfl)).trans ((keeps_purged ..).trans (keeps_foldl (fun u o => ?_) z s _))
  split
  · split <;> simp
  · simp

@[simp] theorem keeps_flipPhase (k p : Nat) : Keeps z (s.flipPhase k p) ↔ Keeps z s := by
  unfold State.flipPhase
  dsimp only
  split <;> simp

@[simp] theorem keeps_applyJob (j : Nat) : Keeps z (s.applyJob j) ↔ Keeps z s := by simp [State.applyJob]
@[simp] theorem keeps_applyBar (g : Nat) : Keeps z (s.applyBar g) ↔ Keeps z s := by simp [State.applyBar]
@[simp] theorem keeps_stepBell (v : Nat) : Keeps z (s.stepBell v) ↔ Keeps z s := by simp [State.stepBell]

/-- What a group's values put in force leaves the groups and the resets alone. -/
theorem keeps_applyGroup (i : Nat) : Keeps z (s.applyGroup i) ↔ Keeps z s := by
  simp only [State.applyGroup, keeps_applyOpp]
  refine Iff.trans (b := ?_) ?step ?rest
  case step =>
    split
    · exact keeps_stepBell ..
    · exact Iff.rfl
  case rest =>
    rw [keeps_foldl fun u b => by simp, keeps_foldl fun u j => by simp, keeps_foldl fun u p => by simp, keeps_foldl fun u c => by simp]
    refine Iff.trans (b := ?_) ?refill ?keys
    case refill =>
      split
      · exact Iff.rfl
      · exact keeps_refillAll ..
    case keys =>
      rw [keeps_foldl fun u c => by simp, keeps_foldl, keeps_preview, keeps_foldl fun u p => by simp]
      intro u w
      split
      · split <;> simp
      · simp

/-! ## What a context reset captures -/

@[simp] theorem keeps_drawBytes (n : Nat) : Keeps z (s.drawBytes n).2 ↔ Keeps z s := by
  induction n generalizing s with
  | zero => rfl
  | succ n ih => simp [State.drawBytes, ih]

@[simp] theorem keeps_laneImage (l : LaneId) : Keeps z (s.laneImage l).2 ↔ Keeps z s := by simp [State.laneImage]

@[simp] theorem keeps_captureLane (c k : Nat) : Keeps z (s.captureLane c k).2 ↔ Keeps z s := by
  unfold State.captureLane
  split <;> simp

@[simp] theorem keeps_captureLanes (c : Nat) (l : List Nat) : Keeps z (s.captureLanes c l).2 ↔ Keeps z s := by
  induction l generalizing s with
  | nil => rfl
  | cons k r ih => simp [State.captureLanes, ih]

@[simp] theorem keeps_descImage (q : QDesc) : Keeps z (s.descImage q).2 ↔ Keeps z s := by
  unfold State.descImage
  split <;> rfl

@[simp] theorem keeps_descImages (l : List QDesc) : Keeps z (s.descImages l).2 ↔ Keeps z s := by
  induction l generalizing s with
  | nil => rfl
  | cons q r ih => simp [State.descImages, ih]

@[simp] theorem keeps_capture (c : Nat) : Keeps z (s.capture c).2 ↔ Keeps z s := by simp [State.capture]

end

/-- A context reset that begins takes its cause, and leaves the groups alone. -/
theorem State.beginReset_begins {s : State} {c : Nat} (cause : Nat) (destroy command : Bool) (taken : (s.ctx c).st ≠ .free) (standing : (s.ctx c).rst = none) :
    (s.beginReset c cause destroy command).groups = s.groups ∧ ((s.beginReset c cause destroy command).ctx c).rst.map (fun r => r.cause) = some cause := by
  have goes : ¬ ((s.ctx c).rst.isSome || (s.ctx c).st == .free) = true := by simp [taken, standing]
  obtain ⟨u, after, groups, rst⟩ : ∃ u, Keeps u (s.beginReset c cause destroy command) ∧ u.groups = s.groups ∧
      (u.ctx c).rst.map (fun r => r.cause) = some cause := by
    simp only [State.beginReset]
    rw [if_neg goes]
    apply Exists.intro
    refine ⟨?after, ?groups, ?rst⟩
    case after =>
      rw [keeps_pumpBarrows, keeps_setReg, keeps_dropAbort, keeps_dropAbort, keeps_foldl fun u t => by simp, keeps_purge, keeps_retireSlot]
      apply (keeps_ite _ _ ?told).mpr (.refl _)
      exact (keeps_tell ..).mpr (.refl _)
    case groups =>
      rw [State.updCtx_groups]
      split
      · exact ((keeps_capture s (s.record _) c).mpr ((keeps_record s s _).mpr (.refl s))).1
      · exact ((keeps_record s s _).mpr (.refl s)).1
    case rst =>
      rw [State.ctx_updCtx_self]
      rfl
  exact ⟨after.1.trans groups, by rw [after.2 c, rst]⟩

theorem State.beginReset_groups (s : State) (c cause : Nat) (destroy command : Bool) : (s.beginReset c cause destroy command).groups = s.groups := by
  by_cases stays : ((s.ctx c).rst.isSome || (s.ctx c).st == .free) = true
  · rw [State.beginReset, if_pos stays]
  · have goes : (s.ctx c).rst = none ∧ (s.ctx c).st ≠ .free := by simpa using stays
    exact (State.beginReset_begins cause destroy command goes.2 goes.1).1

end Sys2Proof.Machine
end

section
/-! SUPPORT. Writes of registers whose fields are all write-only: CG_OPEN, CG_ARM and CG_CANCEL (R9, R10, R34, R36). -/
namespace Sys2Proof.Machine

open Sys2Proof

/-- Fields that are all write-only and the host's: the bits that a whole write reaches. -/
structure WriteOnly (fs : List Field) (m : Nat) : Prop where
  all : ∀ f ∈ fs, f.acc = .wo ∧ f.wr = .host
  mask : fieldsMask fs (fun f => f.acc != .ro) = m
  reaches : maskAnd m allBits = m ∧ m ≠ 0

theorem WriteOnly.fields {fs : List Field} {m : Nat} (h : WriteOnly fs m) (a : Acc) :
    maskAnd m (fieldsMask fs fun f => f.acc == a) = if a = .wo then m else 0 := by
  by_cases wo : a = .wo
  · have same : fieldsMask fs (fun f => f.acc == a) = m := by
      rw [← h.mask]
      exact fieldsMask_congr fun f hf => by rw [(h.all f hf).1, wo]; rfl
    rw [same, if_pos wo]
    exact Nat.and_self m
  · have none : fieldsMask fs (fun f => f.acc == a) = 0 := by
      rw [← fieldsMask_none fs]
      exact fieldsMask_congr fun f hf => by rw [(h.all f hf).1]; simp [Ne.symm wo]
    rw [none, maskAnd_zero, if_neg wo]

/-- A write whose bits are all of write-only fields comes to the register's action. -/
theorem State.perform_writeOnly (s : State) (w : Who) {off : Nat} {i : RegInst} {m : Nat} (wo : WriteOnly i.row.fields m)
    (hn : i.row.name ∉ [.ctxXltCfg, .insCmdBuf]) (v : Nat) :
    s.perform w off i m v = s.act w off i (s.reg off) (s.reg off) (word (maskAnd v m)) := by
  simp only [List.mem_cons, List.not_mem_nil, or_false, not_or] at hn
  have live : deadBits s.straps i = 0 := by simp [deadBits, hn.1]
  have buffer : (i.row.name == RegName.insCmdBuf) = false := by simp [hn.2]
  simp [State.perform, live, fieldMask_eq, wo.fields, wo.reaches.2, buffer]

/-- A whole write of such a register comes to its action with the bits it has; a register whose halves join lets go of the half it held. -/
theorem State.write_writeOnly {s : State} (ha : s.Accepts) (mark : Bool) {off : Nat} {n : RegName} {ix : List Nat} {fs : List Field} {i : RegInst}
    {m : Nat} (hi : Names s.straps off n ix fs i) (hn : n ∉ [.ctxXltCfg, .insCmdBuf, .errLogConsumed, .fabJobCfg, .fabJobMap]) (wo : WriteOnly fs m)
    (low : off < 0x100000) (h8 : off % 8 = 0) (v : Word) :
    s.busWrite (s.gangM * 2 ^ 25 + off) mark (.full v) =
      (if splitJoins i.row then s.setLatch off none else s).act ⟨mark, false⟩ off i (s.reg off) (s.reg off) (word (maskAnd v.toNat m)) := by
  have wo' : WriteOnly i.row.fields m := hi.fields ▸ wo
  have host : ∀ f ∈ i.row.fields, f.acc ≠ .ro → s.mayWrite ⟨mark, false⟩ i f = true := fun f hf _ =>
    s.mayWrite_host _ (by rw [hi.name]; simp_all) (wo'.all f hf).2
  have name : i.row.name ∉ [.ctxXltCfg, .insCmdBuf] := by rw [hi.name]; simp_all
  have reached : (maskAnd m (wMask (.full v)) == 0) = false := beq_eq_false_iff_ne.mpr (by rw [show wMask (.full v) = allBits from rfl, wo.reaches.1]; exact wo.reaches.2)
  rw [State.busWrite_register ha hi.decodes (by omega) h8 mark (WForm.full_ne_bad v), State.writeReg, s.slotStops_unit low]
  simp only [s.rights_all _ off i _ _ host, wo'.mask, reached, Bool.false_eq_true, if_false]
  split
  · exact State.perform_writeOnly _ _ wo' name _
  · rw [show maskAnd m (wMask (.full v)) = m from wo.reaches.1]
    exact State.perform_writeOnly _ _ wo' name _

theorem maskAnd_allBits (v : Word) : maskAnd v.toNat allBits = v.toNat :=
  (Nat.and_two_pow_sub_one_eq_mod v.toNat 64).trans (Nat.mod_eq_of_lt v.isLt)

/-! ## The registers of a commit group that act -/

def cgOpenFields : List Field := [⟨47, 32, .wo, .host⟩, ⟨31, 0, .wo, .host⟩]
def cgArmFields : List Field := [⟨63, 0, .wo, .host⟩]
def cgCancelFields : List Field := [⟨0, 0, .wo, .host⟩]

theorem names_cgOpen (t : Straps) {i : Nat} (hi : i < 4) : ∃ r, Names t (Reg.cgOpen i) .cgOpen [i] cgOpenFields r := by
  interval_cases i <;> exact ⟨_, (decodeReg_low t (by decide) (by decide) (by decide) (by decide)).trans rfl, rfl, rfl, rfl⟩

theorem names_cgArm (t : Straps) {i : Nat} (hi : i < 4) : ∃ r, Names t (Reg.cgArm i) .cgArm [i] cgArmFields r := by
  interval_cases i <;> exact ⟨_, (decodeReg_low t (by decide) (by decide) (by decide) (by decide)).trans rfl, rfl, rfl, rfl⟩

theorem names_cgCancel (t : Straps) {i : Nat} (hi : i < 4) : ∃ r, Names t (Reg.cgCancel i) .cgCancel [i] cgCancelFields r := by
  interval_cases i <;> exact ⟨_, (decodeReg_low t (by decide) (by decide) (by decide) (by decide)).trans rfl, rfl, rfl, rfl⟩

theorem writeOnly_cgOpen : WriteOnly cgOpenFields 0xFFFFFFFFFFFF := ⟨by decide, rfl, rfl, by decide⟩
theorem writeOnly_cgArm : WriteOnly cgArmFields allBits := ⟨by decide, rfl, rfl, by decide⟩
theorem writeOnly_cgCancel : WriteOnly cgCancelFields 1 := ⟨by decide, rfl, rfl, by decide⟩

/-- CG_OPEN written whole (R34). -/
theorem State.write_cgOpen {s : State} (ha : s.Accepts) {i : Nat} (hi : i < 4) (mark : Bool) (v : Word) :
    s.busWrite (s.gangM * 2 ^ 25 + Reg.cgOpen i) mark (.full v) =
      (s.setLatch (Reg.cgOpen i) none).wrCgOpen i (word (maskAnd v.toNat 0xFFFFFFFFFFFF)) false := by
  obtain ⟨r, names⟩ := names_cgOpen s.straps hi
  have joins : splitJoins r.row = true := by rw [splitJoins, names.name, names.fields]; rfl
  rw [State.write_writeOnly ha mark names (by decide) writeOnly_cgOpen (by simp only [Reg.cgOpen]; omega) (by simp only [Reg.cgOpen]; omega), joins, if_pos rfl]
  simp only [State.act, names.name, names.index]
  rfl

/-- CG_ARM written whole (R34). -/
theorem State.write_cgArm {s : State} (ha : s.Accepts) {i : Nat} (hi : i < 4) (mark : Bool) (v : Word) :
    s.busWrite (s.gangM * 2 ^ 25 + Reg.cgArm i) mark (.full v) = (s.setLatch (Reg.cgArm i) none).wrCgArm i v := by
  obtain ⟨r, names⟩ := names_cgArm s.straps hi
  have joins : splitJoins r.row = true := by rw [splitJoins, names.name, names.fields]; rfl
  have whole : word (maskAnd v.toNat allBits) = v := by rw [maskAnd_allBits, word_toNat]
  rw [State.write_writeOnly ha mark names (by decide) writeOnly_cgArm (by simp only [Reg.cgArm]; omega) (by simp only [Reg.cgArm]; omega), joins, if_pos rfl, whole]
  simp only [State.act, names.name, names.index]
  rfl

/-- CG_CANCEL written whole (R36). -/
theorem State.write_cgCancel {s : State} (ha : s.Accepts) {i : Nat} (hi : i < 4) (mark : Bool) (v : Word) :
    s.busWrite (s.gangM * 2 ^ 25 + Reg.cgCancel i) mark (.full v) = s.wrCgCancel i (word (maskAnd v.toNat 1)) := by
  obtain ⟨r, names⟩ := names_cgCancel s.straps hi
  have apart : splitJoins r.row = false := by rw [splitJoins, names.name, names.fields]; rfl
  rw [State.write_writeOnly ha mark names (by decide) writeOnly_cgCancel (by simp only [Reg.cgCancel]; omega) (by simp only [Reg.cgCancel]; omega), apart]
  simp only [State.act, names.name, names.index]
  rfl

end Sys2Proof.Machine
end

section
/-! SUPPORT. Commit groups: what an abort, a verdict sent and an acknowledgement leave (R34, R35, R39). -/
namespace Sys2Proof.Machine

open Sys2Proof

/-! ## Abort (R35, R376) -/

/-- A group aborted with a cause and the members it names. -/
def Group.aborted (cause failed : Nat) (g : Group) : Group :=
  { g with st := .aborted, cause := cause, failed := failed, staged := [], raised := false }

theorem State.cgAbort_eq (s : State) (i cause failed : Nat) :
    s.cgAbort i cause failed =
      (if (s.group i).raised then (s.updGroup i (Group.aborted cause failed)).undoRaise else s.updGroup i (Group.aborted cause failed)).mgmt 0 := rfl

/-- A group for which no voltage was raised. -/
theorem State.cgAbort_calm {s : State} {i : Nat} (calm : (s.group i).raised = false) (cause failed : Nat) :
    s.cgAbort i cause failed = (s.updGroup i (Group.aborted cause failed)).mgmt 0 := by
  rw [State.cgAbort_eq, calm]
  rfl

theorem Keeps.group {s t : State} (h : Keeps s t) (i : Nat) : t.group i = s.group i := by rw [State.group, State.group, h.1]

theorem State.group_cgAbort (s : State) (i cause failed j : Nat) :
    (s.cgAbort i cause failed).group j = if j = i then (s.group i).aborted cause failed else s.group j := by
  have kept : Keeps (s.updGroup i (Group.aborted cause failed)) (s.cgAbort i cause failed) := by
    rw [State.cgAbort_eq]
    split <;> simp
  rw [kept.group, State.group_updGroup]

/-- The voltage controller's state and its requests to the rails. -/
def PowerAndOut (s t : State) : Prop := ∃ p o, t = { s with power := p, out := o }

theorem PowerAndOut.refl (s : State) : PowerAndOut s s := ⟨_, _, rfl⟩

theorem PowerAndOut.trans {s t u : State} (h : PowerAndOut s t) (k : PowerAndOut t u) : PowerAndOut s u := by
  obtain ⟨p, o, rfl⟩ := h
  obtain ⟨p', o', rfl⟩ := k
  exact ⟨p', o', rfl⟩

theorem PowerAndOut.updPower (s : State) (f : Power → Power) : PowerAndOut s (s.updPower f) := ⟨_, _, rfl⟩

theorem PowerAndOut.writeVolt (s : State) (o : Nat) (l : List Nat) : PowerAndOut s (s.writeVolt o l) := by
  induction l generalizing s with
  | nil => exact .refl s
  | cons r rs ih =>
    rw [State.writeVolt]
    refine PowerAndOut.trans ?_ (ih _)
    split
    · exact ⟨_, _, rfl⟩
    · exact .refl s

theorem PowerAndOut.setVolt (s : State) (o : Nat) : PowerAndOut s (s.setVolt o) := (PowerAndOut.writeVolt s o _).trans (.updPower _ _)

theorem PowerAndOut.startTransition (s : State) (t : Nat) (a : Option Nat) : PowerAndOut s (s.startTransition t a) := by
  unfold State.startTransition
  split
  · refine PowerAndOut.trans ?_ (.updPower _ _)
    split
    · exact .refl s
    · exact .setVolt s t
  · split
    · exact (PowerAndOut.setVolt s t).trans (.updPower _ _)
    · exact .updPower s _

theorem PowerAndOut.undoRaise (s : State) : PowerAndOut s s.undoRaise := by
  unfold State.undoRaise
  dsimp only
  split
  · exact (PowerAndOut.startTransition s _ _).trans (.setVolt _ _)
  · exact .startTransition s _ _

/-- What an abort leaves alone. -/
theorem State.cgAbort_rest (s : State) (i cause failed : Nat) :
    ∃ g r p o, s.cgAbort i cause failed = { s with groups := g, regs := r, power := p, out := o } := by
  rw [State.cgAbort_eq]
  split
  · obtain ⟨p, o, h⟩ := PowerAndOut.undoRaise (s.updGroup i (Group.aborted cause failed))
    rw [h]
    exact ⟨_, _, _, _, rfl⟩
  · exact ⟨_, _, _, _, rfl⟩

theorem SameRegs.cgAbort (s : State) (i cause failed : Nat) : SameRegs [Reg.ctxMgmt] s (s.cgAbort i cause failed) := by
  rw [State.cgAbort_eq]
  split
  · obtain ⟨p, o, h⟩ := PowerAndOut.undoRaise (s.updGroup i (Group.aborted cause failed))
    rw [h]
    exact SameRegs.setBitsIn { s.updGroup i (Group.aborted cause failed) with power := p, out := o } Reg.ctxMgmt _
  · exact SameRegs.setBitsIn (s.updGroup i (Group.aborted cause failed)) Reg.ctxMgmt _

theorem State.flag_mgmt (s : State) {i : Nat} (h : i < 64) : (s.mgmt i).flag Reg.ctxMgmt i = true := by
  rw [State.mgmt, State.flag_setBitsIn s _ _ _ h, Nat.testBit_two_pow_self, Bool.or_true]

/-- An abort as it stands where no voltage was raised: the group, and its bit of the management interrupt. -/
theorem State.cgAbort_leaves {s : State} {i : Nat} (calm : (s.group i).raised = false) (cause failed : Nat) :
    s.cgAbort i cause failed = { s with groups := (s.cgAbort i cause failed).groups, regs := (s.cgAbort i cause failed).regs } ∧
      (s.cgAbort i cause failed).flag Reg.ctxMgmt 0 = true := by
  rw [State.cgAbort_calm calm]
  exact ⟨rfl, State.flag_mgmt _ (by decide)⟩

/-! ## Only one group changes -/

/-- The groups of the other slots are as they were, and this slot's keeps its tick. -/
structure OneGroup (i : Nat) (s t : State) : Prop where
  tick : (t.group i).tick = (s.group i).tick
  others : ∀ j, j ≠ i → t.group j = s.group j

theorem OneGroup.refl (i : Nat) (s : State) : OneGroup i s s := ⟨rfl, fun _ _ => rfl⟩

theorem OneGroup.trans {i : Nat} {s t u : State} (h : OneGroup i s t) (k : OneGroup i t u) : OneGroup i s u :=
  ⟨k.tick.trans h.tick, fun j hj => (k.others j hj).trans (h.others j hj)⟩

theorem OneGroup.of_keeps {i : Nat} {s t : State} (h : Keeps s t) : OneGroup i s t :=
  ⟨by rw [h.group], fun j _ => h.group j⟩

theorem OneGroup.updGroup (s : State) {i : Nat} {f : Group → Group} (h : ∀ g, (f g).tick = g.tick) : OneGroup i s (s.updGroup i f) :=
  ⟨by rw [State.group_updGroup_self, h], fun j hj => by rw [State.group_updGroup, if_neg hj]⟩

theorem OneGroup.cgAbort (s : State) (i cause failed : Nat) : OneGroup i s (s.cgAbort i cause failed) :=
  ⟨by rw [State.group_cgAbort, if_pos rfl]; rfl, fun j hj => by rw [State.group_cgAbort, if_neg hj]⟩

/-! ## Messages of a group (R39) -/

theorem Sent.keeps {s t : State} (h : Sent s t) : Keeps s t := by
  obtain ⟨⟨r, l, p, rfl⟩, -, -⟩ := h
  exact .of_eq rfl rfl

theorem Sent.originate (s : State) (slot : Option Nat) (job dst : Nat) (m : Msg) : Sent s (s.originate slot job dst m) := by
  unfold State.originate
  dsimp only
  split
  · exact .refl s
  · split
    · exact ⟨⟨_, _, _, rfl⟩, SameRegs.refl _ s, fun _ => ⟨[], (List.append_nil _).symm⟩⟩
    · split
      · exact .sendPort s _ _ _ _
      · exact .dropHead s

theorem Sent.sendJob (s : State) (j b g t : Nat) (body : MsgBody) : Sent s (s.sendJob j b g t body) := by
  unfold State.sendJob
  split
  · exact .originate s _ _ _ _
  · exact .refl s

theorem Sent.sendCg (s : State) (i b : Nat) (body : MsgBody) : Sent s (s.sendCg i b body) := by
  unfold State.sendCg
  split
  · exact .sendJob s _ _ _ _ _
  · exact .refl s

/-- Messages sent to each of a list of blocks. -/
theorem Sent.foldl_sendCg (s : State) (i : Nat) (body : MsgBody) (l : List Nat) : Sent s (l.foldl (fun s b => s.sendCg i b body) s) := by
  induction l generalizing s with
  | nil => exact .refl s
  | cons b l ih => exact (Sent.sendCg s i b body).trans (ih _)

theorem Sent.sendCgAll (s : State) (i : Nat) (body : MsgBody) : Sent s (s.sendCgAll i body) := Sent.foldl_sendCg ..

/-- The ABORT that the coordinator sends, with the blocks that it misses. -/
def Group.abortMessage (g : Group) : MsgBody := .cgAbort ⟨g.ident, g.tick, 8, g.missingBlocks.headD 0, g.missingBlocks.length⟩

/-- A group whose verdict is ABORT, with how many blocks it misses and the lowest. -/
def Group.judged (missing first : Nat) (g : Group) : Group := { g with verdict := 2, missing := missing, firstMissing := first }

/-- The coordinator sends ABORT and keeps its verdict. -/
def State.sendsAbort (s : State) (i : Nat) : State :=
  (s.sendCgAll i (s.group i).abortMessage).updGroup i (Group.judged (s.group i).missingBlocks.length ((s.group i).missingBlocks.headD 0))

theorem State.coordAbort_eq (s : State) (i : Nat) :
    s.coordAbort i = if (s.group i).st == .aborted then s.sendsAbort i else (s.sendsAbort i).cgAbort i 8 0 := rfl

theorem OneGroup.coordAbort (s : State) (i : Nat) : OneGroup i s (s.coordAbort i) := by
  have told : OneGroup i s (s.sendsAbort i) := (OneGroup.of_keeps (Sent.sendCgAll s i _).keeps).trans (.updGroup _ fun _ => rfl)
  rw [State.coordAbort_eq]
  split
  · exact told
  · exact told.trans (.cgAbort ..)

theorem OneGroup.coordCheck (s : State) (i : Nat) : OneGroup i s (s.coordCheck i) := by
  unfold State.coordCheck
  dsimp only
  split
  · split
    · exact .coordAbort s i
    · refine (OneGroup.of_keeps (Sent.sendCgAll ..).keeps).trans (.updGroup _ ?_)
      exact fun _ => rfl
  · exact .refl i s

theorem OneGroup.sendRefused (s : State) (i cause : Nat) : OneGroup i s (s.sendRefused i cause) := by
  unfold State.sendRefused
  dsimp only
  split
  · exact .refl i s
  · split
    · exact .coordAbort s i
    · exact .of_keeps (Sent.sendCg ..).keeps

theorem OneGroup.allAcked (s : State) (i : Nat) : OneGroup i s (s.allAcked i) := by
  unfold State.allAcked
  dsimp only
  split
  · exact .updGroup s fun _ => rfl
  · split
    · exact (OneGroup.cgAbort s i _ _).trans (.sendRefused _ _ _)
    · split
      · refine (OneGroup.updGroup s ?_).trans (.coordCheck _ _)
        exact fun _ => rfl
      · refine (OneGroup.of_keeps (Sent.sendCg ..).keeps).trans (.updGroup _ ?_)
        exact fun _ => rfl

end Sys2Proof.Machine
end

section
/-! PROOFS. A commit group in one block (O34). -/
namespace Sys2Proof.Machine

open Sys2Proof

/-! ## Opening, arming and cancelling (R34, R36) -/

/-- A group as CG_OPEN opens it for a host. -/
def openedGroup (v : Word) : Group := { Group.reset with st := .opened, ident := bits v 47 32, members := bits v 31 0 }

theorem State.wrCgOpen_opens {s : State} {i : Nat} {v : Word} (idle : (s.group i).st.pending = false) (build : maskDiff (bits v 31 0) (unitMask s.straps) = 0)
    (alone : ∀ j, j < 4 → j ≠ i → (s.group j).st.pending = false) : s.wrCgOpen i v false = s.updGroup i fun _ => openedGroup v := by
  have none : ((List.range 4).filter fun j => j != i && (s.group j).st.pending) = [] := by
    rw [List.filter_eq_nil_iff]
    intro j hj
    by_cases same : j = i
    · simp [same]
    · simp [alone j (List.mem_range.mp hj) same]
  simp [State.wrCgOpen, idle, build, none, openedGroup, Group.reset]

/-- The bits that CG_OPEN has are those of the word written. -/
theorem bits_cgOpen (v : Word) {hi : Nat} (lo : Nat) (h : hi ≤ 47) : bits (word (maskAnd v.toNat 0xFFFFFFFFFFFF)) hi lo = bits v hi lo := by
  refine bits_congr fun i _ hi => ?_
  have covered : (0xFFFFFFFFFFFF : Nat).testBit i = true := by
    have : i ≤ 47 := by omega
    interval_cases i <;> rfl
  rw [getLsbD_word, testBit_maskAnd, covered, Bool.and_true, decide_eq_true (by omega), Bool.true_and]
  rfl

theorem openedGroup_masked (v : Word) : openedGroup (word (maskAnd v.toNat 0xFFFFFFFFFFFF)) = openedGroup v := by
  rw [openedGroup, openedGroup, bits_cgOpen v 32 (by omega), bits_cgOpen v 0 (by omega)]

/-- The group armed at a tick. -/
def State.armed (s : State) (i tick : Nat) : State :=
  s.updGroup i fun g => { g with st := .armed, tick := tick, armAt := s.bell.now, job := gJobOf (s.reg (Reg.cgJob i)) }

theorem State.wrCgArm_arms {s : State} {i : Nat} (opened : (s.group i).st = .opened) (v : Word) :
    s.wrCgArm i v =
      let tick := if v = 0 then s.bell.now + 12000 else v.toNat
      if tick < s.bell.now + 8000 then (s.armed i tick).cgAbort i 5 0
      else if (s.group i).members == 0 then (s.armed i tick).allAcked i else s.armed i tick := by
  have goes : ¬ ((s.group i).st != .opened) = true := by rw [opened]; decide
  rw [State.wrCgArm, if_neg goes]
  have members : ((s.armed i (if v = 0 then s.bell.now + 12000 else v.toNat)).group i).members = (s.group i).members := by
    rw [State.armed, State.group_updGroup_self]
  rw [← members]
  rfl

theorem State.wrCgCancel_aborts {s : State} {i : Nat} {v : Word} (asked : bit v 0 = true) (st : (s.group i).st = .opened ∨ (s.group i).st = .armed) :
    s.wrCgCancel i v = s.cgAbort i 6 0 := by
  rcases st with st | st <;> simp [State.wrCgCancel, asked, st]

theorem State.wrCgCancel_late {s : State} {i : Nat} {v : Word} (st : (s.group i).st = .bound) : s.wrCgCancel i v = s := by
  simp [State.wrCgCancel, st]

/-! ## Acknowledgement and deadline (R34, R35) -/

theorem State.sendRefused_local {s : State} {i : Nat} (h : (s.group i).job.scope = false) (cause : Nat) : s.sendRefused i cause = s := by
  simp [State.sendRefused, h]

theorem State.allAcked_local {s : State} {i : Nat} (h : (s.group i).job.scope = false) : s.allAcked i = s.updGroup i fun g => { g with st := .bound } := by
  simp [State.allAcked, h]

/-- No raise is needed where the operating point stays, or where a transition runs. -/
theorem State.groupRaise_none {s : State} {i : Nat} (h : (s.preview (s.group i).staged).oppRun = s.power.run ∨ s.power.trans.isSome = true) :
    s.groupRaise i = s := by
  rcases h with h | h <;> simp [State.groupRaise, h]

/-- The members that a mask asks, without those that have answered. -/
def State.askedMembers (s : State) (i mask : Nat) : List Nat := maskBits 32 (maskDiff (maskAnd (s.group i).members mask) (s.group i).acked)

/-- The answers of a group's members kept. -/
def State.acks (s : State) (i : Nat) (ms : List Nat) : State := s.updGroup i fun g => { g with acked := maskOr g.acked (maskOf ms) }

theorem cgMemberAckS_acked {s : State} {i mask : Nat} (st : (s.group i).st = .armed) (early : s.bell.now + 8000 ≤ (s.group i).tick)
    (some : s.askedMembers i mask ≠ []) (all : ∀ m ∈ s.askedMembers i mask, s.memberCause i m = 0)
    (run : 5 ∈ s.askedMembers i mask → (s.preview (s.group i).staged).oppRun = s.power.run ∨ s.power.trans.isSome = true) :
    cgMemberAckS i mask s =
      if maskDiff (s.group i).members ((s.acks i (s.askedMembers i mask)).group i).acked == 0 then (s.acks i (s.askedMembers i mask)).allAcked i
      else s.acks i (s.askedMembers i mask) := by
  have goes : ¬ ((s.group i).st != .armed || decide ((s.group i).tick < s.bell.now + 8000)) = true := by simp [st, early]
  have none : ((s.askedMembers i mask).filter fun m => s.memberCause i m != 0) = [] := by
    rw [List.filter_eq_nil_iff]
    intro m hm
    simp [all m hm]
  have raise : (if (s.askedMembers i mask).contains 5 then s.groupRaise i else s) = s := by
    split
    next h => exact State.groupRaise_none (run (by simpa using h))
    · rfl
  have asked : (s.askedMembers i mask).isEmpty = false := by simpa using some
  rw [State.askedMembers] at none raise asked
  rw [cgMemberAckS, if_neg goes]
  simp only [none, asked, raise]
  rfl

theorem cgMemberAckS_refused {s : State} {i mask m : Nat} {r : List Nat} (st : (s.group i).st = .armed) (early : s.bell.now + 8000 ≤ (s.group i).tick)
    (bad : ((s.askedMembers i mask).filter fun m => s.memberCause i m != 0) = m :: r) :
    cgMemberAckS i mask s = (s.cgAbort i (s.memberCause i m) (maskOf (m :: r))).sendRefused i (s.memberCause i m) := by
  have goes : ¬ ((s.group i).st != .armed || decide ((s.group i).tick < s.bell.now + 8000)) = true := by simp [st, early]
  rw [State.askedMembers] at bad
  rw [cgMemberAckS, if_neg goes]
  simp only [bad]

theorem cgDeadlineS_silent {s : State} {i : Nat} (st : (s.group i).st = .armed) (due : (s.group i).tick ≤ s.bell.now + 8000) (job : (s.group i).job.scope = false)
    (silent : maskDiff (s.group i).members (s.group i).acked ≠ 0) :
    cgDeadlineS i s = s.cgAbort i 4 (maskDiff (s.group i).members (s.group i).acked) := by
  simp [cgDeadlineS, st, due, job, silent]

/-! ## What is put in force at the tick (R14, R34) -/

theorem cgApplyS_due {s : State} {i : Nat} (st : (s.group i).st = .bound) (due : (s.group i).tick ≤ s.bell.now) :
    cgApplyS i s = ((s.applyGroup i).updGroup i fun g => { g with st := .applied, staged := [], raised := false }).mgmt 0 := by
  have goes : ¬ ((s.group i).st != .bound || decide (s.bell.now < (s.group i).tick)) = true := by simp [st, due]
  rw [cgApplyS, if_neg goes]

theorem decodeReg_bellCadPeriod (t : Straps) {n : Nat} (hn : n < 16) :
    ∃ r, decodeReg t (Reg.bellCadPeriod n) = some r ∧ r.row.name = .bellCadPeriod ∧ r.ix = [n] := by
  have low : decodeReg t (Reg.bellCadPeriod n) = findRow t (Reg.bellCadPeriod n) (rowsAt (Reg.bellCadPeriod n)) := by
    apply decodeReg_low <;> simp only [Reg.bellCadPeriod, Reg.xltFmt, Reg.xltFmtX0, Reg.xltFmtX1] <;> omega
  rw [low]
  obtain ⟨build, _⟩ := t
  cases build <;> interval_cases n <;> exact ⟨_, rfl, rfl, rfl⟩

/-- A register below the units' own keeps the operating point: it follows from registers above. -/
theorem State.oppRun_setReg (s : State) {o : Nat} (v : Word) (low : o < 0x1000) : (s.setReg o v).oppRun = s.oppRun := by
  have fld (o' hi lo : Nat) (h : 0x1000 ≤ o') : (s.setReg o v).fld o' hi lo = s.fld o' hi lo := s.fld_setReg_ne v (by omega) hi lo
  have flag (o' i : Nat) (h : 0x1000 ≤ o') : (s.setReg o v).flag o' i = s.flag o' i := by
    rw [State.flag, State.reg_setReg, if_neg (by omega), State.flag]
  have live (job : Nat) : (s.setReg o v).paceLive job = s.paceLive job := by
    have cfg (j : Nat) : 0x1000 ≤ Reg.fabJobCfg j := by simp only [Reg.fabJobCfg]; omega
    have status (j : Nat) : 0x1000 ≤ Reg.fabJobStatus j := by simp only [Reg.fabJobStatus]; omega
    simp only [State.paceLive, State.jobState, flag _ _ (cfg _), fld _ _ _ (cfg _), fld _ _ _ (status _), State.setReg_straps]
  have want : (s.setReg o v).oppWant = s.oppWant := by
    simp only [State.oppWant, fld _ _ _ (show 0x1000 ≤ Reg.pwrOpp by decide), State.setReg_lanes]
  simp only [State.oppRun, State.oppReq, State.paceOpp, State.paceCeil, want, live, fld _ _ _ (show 0x1000 ≤ Reg.pwrOpp by decide), State.setReg_power]

/-- A group that stages a cadence's period alone puts it in force, and nothing else. -/
theorem State.applyGroup_cadence {s : State} {i n v : Nat} (hn : n < 16) (hv : v < 2 ^ 64) (staged : (s.group i).staged = [⟨Reg.bellCadPeriod n, allBits, v⟩])
    (still : s.power.trans = none) (run : s.oppRun = s.power.run) : s.applyGroup i = s.setReg (Reg.bellCadPeriod n) (word v) := by
  obtain ⟨r, decodes, name, index⟩ := decodeReg_bellCadPeriod s.straps hn
  have regs : s.stagedRegs [⟨Reg.bellCadPeriod n, allBits, v⟩] = [(.bellCadPeriod, [n])] := by
    simp [State.stagedRegs, decodes, name, index]
  have put : s.putField (Reg.bellCadPeriod n) allBits v = s.setReg (Reg.bellCadPeriod n) (word v) := by
    have field : maskOr (maskDiff (s.reg (Reg.bellCadPeriod n)).toNat allBits) (maskAnd v allBits) = v := by
      have value : maskAnd v allBits = v := (Nat.and_two_pow_sub_one_eq_mod v 64).trans (Nat.mod_eq_of_lt hv)
      rw [maskDiff, show Nat.land (s.reg (Reg.bellCadPeriod n)).toNat allBits = _ from maskAnd_allBits _, Nat.sub_self, zero_maskOr, value]
    simp [State.putField, decodes, name, State.derive, basicOf, field]
  have once : [(RegName.bellCadPeriod, [n])].eraseDups = [(RegName.bellCadPeriod, [n])] := rfl
  have step : Reg.bellCadPeriod n ≠ Reg.bellStep := by simp only [Reg.bellCadPeriod, Reg.bellStep]; omega
  have opp : (s.setReg (Reg.bellCadPeriod n) (word v)).applyOpp = s.setReg (Reg.bellCadPeriod n) (word v) := by
    simp [State.applyOpp, s.oppRun_setReg (o := Reg.bellCadPeriod n) (word v) (by simp only [Reg.bellCadPeriod]; omega), still, run]
  simp [State.applyGroup, staged, regs, once, decodes, name, State.preview, put, step, opp]

theorem State.cgAbort_insp (s : State) (i cause failed : Nat) : (s.cgAbort i cause failed).insp = s.insp := by
  obtain ⟨g, r, p, o, h⟩ := s.cgAbort_rest i cause failed
  rw [h]

/-- A command that leaves the Inspector alone answers with what it does: the Inspector has nothing to take. -/
theorem exec_cgMemberAck {s t : State} {i mask : Nat} (quiet : s.InspectorQuiet) (h : cgMemberAckS i mask s = t) (insp : t.insp = s.insp) :
    exec (.cgMemberAck i mask) s = .next t := by
  show Host.Outcome.next (cgMemberAckS i mask s).cmdSettle = _
  rw [h, State.cmdSettle_quiet (quiet.of_insp insp)]

theorem exec_cgDeadline {s t : State} {i : Nat} (quiet : s.InspectorQuiet) (h : cgDeadlineS i s = t) (insp : t.insp = s.insp) :
    exec (.cgDeadline i) s = .next t := by
  show Host.Outcome.next (cgDeadlineS i s).cmdSettle = _
  rw [h, State.cmdSettle_quiet (quiet.of_insp insp)]

theorem exec_cgCancel {s t : State} (ha : s.Accepts) (quiet : s.InspectorQuiet) {i : Nat} (hi : i < 4) (mark : Bool) {v : Word}
    (h : s.wrCgCancel i (word (maskAnd v.toNat 1)) = t) (insp : t.insp = s.insp) : exec (.cgCancel i mark (.full v)) s = .next t := by
  show Host.Outcome.next (s.busWrite (s.gangM * 2 ^ 25 + Reg.cgCancel i) mark (.full v)).cmdSettle = _
  rw [State.write_cgCancel ha hi, h, State.cmdSettle_quiet (quiet.of_insp insp)]

/-- Settles O34, each step by the equation of its command; of the tick, by what a group's values leave alone and by the one register that they are. -/
theorem groupRuns : Obligations.GroupRuns := by
  unfold Obligations.GroupRuns
  refine ⟨fun s i mark v ha hi idle build alone => ?opens, fun s i mark v ha hi opened => ?arms, fun s i mask quiet st early job => ⟨fun some all run => ?acks,
    fun m r bad calm => ?refuses⟩, fun s i quiet st due job calm silent => ?late, fun s i mark v ha quiet hi asked calm => ⟨fun st => ?cancels, fun st => ?bound⟩,
    fun s i st due => ?applies⟩
  case opens =>
    let u := s.setLatch (Reg.cgOpen i) none
    have written : u.wrCgOpen i (word (maskAnd v.toNat 0xFFFFFFFFFFFF)) false = u.updGroup i fun _ => openedGroup v := by
      rw [State.wrCgOpen_opens (s := u) idle (by rw [bits_cgOpen v 0 (by omega)]; exact build) alone, openedGroup_masked]
    have group (j : Nat) : (u.updGroup i fun _ => openedGroup v).group j = if j = i then openedGroup v else s.group j := State.group_updGroup ..
    refine ⟨u.updGroup i fun _ => openedGroup v, exec_wrOut rfl ((State.write_cgOpen ha hi mark v).trans written), rfl, ?_, ?_, ?_, ?_, ?_, fun j hj => ?_⟩
    case refine_6 => rw [group, if_neg hj]
    all_goals rw [group, if_pos rfl]; rfl
  case arms =>
    intro tick
    let u := s.setLatch (Reg.cgArm i) none
    have armed : ((u.armed i tick).group i).tick = tick := by rw [State.armed, State.group_updGroup_self]
    have others (j : Nat) (hj : j ≠ i) : (u.armed i tick).group j = s.group j := by rw [State.armed, State.group_updGroup, if_neg hj]; rfl
    have run : exec (.cgArm i mark (.full v)) s = .next (u.wrCgArm i v) := exec_wrOut rfl (State.write_cgArm ha hi mark v)
    rw [run, show u.wrCgArm i v = if tick < s.bell.now + 8000 then (u.armed i tick).cgAbort i 5 0
      else if (s.group i).members == 0 then (u.armed i tick).allAcked i else u.armed i tick from State.wrCgArm_arms (s := u) opened v]
    by_cases soon : tick < s.bell.now + 8000
    · have group (j : Nat) : ((u.armed i tick).cgAbort i 5 0).group j = if j = i then ((u.armed i tick).group i).aborted 5 0 else (u.armed i tick).group j :=
        State.group_cgAbort ..
      refine ⟨(u.armed i tick).cgAbort i 5 0, by rw [if_pos soon], ?_, fun j hj => by rw [group, if_neg hj, others j hj], fun _ => ?_,
        fun late => absurd soon (Nat.not_lt.mpr late)⟩
      · rw [group, if_pos rfl]
        exact armed
      · rw [group, if_pos rfl]
        exact ⟨rfl, rfl, rfl, rfl⟩
    · rw [if_neg soon]
      by_cases empty : (s.group i).members = 0
      · have one := OneGroup.allAcked (u.armed i tick) i
        exact ⟨(u.armed i tick).allAcked i, by rw [if_pos (beq_iff_eq.mpr empty)], one.tick.trans armed, fun j hj => (one.others j hj).trans (others j hj),
          fun h => absurd h soon, fun _ h => absurd empty h⟩
      · refine ⟨u.armed i tick, by rw [if_neg (by simpa using empty)], armed, others, fun h => absurd h soon, fun _ _ => ?_⟩
        rw [State.armed, State.group_updGroup_self]
        exact ⟨rfl, rfl, rfl⟩
  case acks =>
    let u := s.acks i (s.askedMembers i mask)
    have acked : u.group i = { s.group i with acked := maskOr (s.group i).acked (maskOf (s.askedMembers i mask)) } := State.group_updGroup_self ..
    have acks : (u.group i).acked = maskOr (s.group i).acked (maskOf (s.askedMembers i mask)) := by rw [acked]
    have staged : (u.group i).staged = (s.group i).staged := by rw [acked]
    have others (j : Nat) (hj : j ≠ i) : u.group j = s.group j := (State.group_updGroup ..).trans (if_neg hj)
    have answered := cgMemberAckS_acked st early some all run
    by_cases last : maskDiff (s.group i).members (u.group i).acked = 0
    · rw [if_pos (beq_iff_eq.mpr last), State.allAcked_local (by rw [acked]; exact job)] at answered
      refine ⟨_, exec_cgMemberAck quiet answered rfl, rfl, fun j hj => ?_, ?_⟩
      · rw [State.group_updGroup, if_neg hj, others j hj]
      · rw [State.group_updGroup_self]
        exact ⟨acks, staged, (if_pos last).symm⟩
    · rw [if_neg (by simpa using last)] at answered
      refine ⟨u, exec_cgMemberAck quiet answered rfl, rfl, others, ?_⟩
      rw [if_neg last]
      exact ⟨acks, staged, by rw [acked]; exact st⟩
  case refuses =>
    have group (j : Nat) := s.group_cgAbort i (s.memberCause i m) (maskOf (m :: r)) j
    have refused : cgMemberAckS i mask s = s.cgAbort i (s.memberCause i m) (maskOf (m :: r)) := by
      rw [cgMemberAckS_refused st early bad, State.sendRefused_local]
      rw [group, if_pos rfl]
      exact job
    obtain ⟨rest, flag⟩ := State.cgAbort_leaves calm (s.memberCause i m) (maskOf (m :: r))
    refine ⟨_, exec_cgMemberAck quiet refused (s.cgAbort_insp ..), rest, ?_, ?_, ?_, ?_, flag, SameRegs.cgAbort s i _ _⟩
    all_goals rw [group, if_pos rfl]; rfl
  case late =>
    have group (j : Nat) := s.group_cgAbort i 4 (maskDiff (s.group i).members (s.group i).acked) j
    refine ⟨_, exec_cgDeadline quiet (cgDeadlineS_silent st due job silent) (s.cgAbort_insp ..), (State.cgAbort_leaves calm ..).1, ?_, ?_, ?_, ?_,
      SameRegs.cgAbort s i _ _, fun j hj => by rw [group, if_neg hj]⟩
    all_goals rw [group, if_pos rfl]; rfl
  case cancels =>
    have group (j : Nat) := s.group_cgAbort i 6 0 j
    have bit0 : bit (word (maskAnd v.toNat 1)) 0 = true := by
      rw [bit_eq_getLsbD] at asked ⊢
      rw [getLsbD_word, testBit_maskAnd, show v.toNat.testBit 0 = true from asked]
      rfl
    refine ⟨_, exec_cgCancel ha quiet hi mark (State.wrCgCancel_aborts bit0 st) (s.cgAbort_insp ..), (State.cgAbort_leaves calm 6 0).1, ?_, ?_, ?_, ?_,
      SameRegs.cgAbort s i _ _, fun j hj => by rw [group, if_neg hj]⟩
    all_goals rw [group, if_pos rfl]; rfl
  case bound => exact exec_cgCancel ha quiet hi mark (State.wrCgCancel_late st) rfl
  case applies =>
    let u := (s.applyGroup i).updGroup i fun g => { g with st := .applied, staged := [], raised := false }
    have kept : Keeps s (s.applyGroup i) := (keeps_applyGroup s s i).mpr (.refl s)
    have mgmt (j : Nat) : (u.mgmt 0).group j = u.group j := ((keeps_mgmt u u 0).mpr (.refl u)).group j
    refine ⟨u.mgmt 0, congrArg _ (cgApplyS_due st due), ?_, ?_, fun j hj => ?_, State.flag_mgmt u (by decide), fun n v hn hv staged still run => ?_⟩
    · rw [mgmt, State.group_updGroup_self]
    · rw [mgmt, State.group_updGroup_self]
    · rw [mgmt, State.group_updGroup, if_neg hj, kept.group]
    · have put := State.applyGroup_cadence hn hv staged still run
      have own : Reg.bellCadPeriod n ≠ Reg.ctxMgmt := by simp only [Reg.bellCadPeriod, Reg.ctxMgmt]; omega
      have regs : SameRegs [Reg.ctxMgmt] (s.setReg (Reg.bellCadPeriod n) (word v)) (u.mgmt 0) := by
        rw [← put]
        exact SameRegs.setBitsIn u Reg.ctxMgmt _
      refine ⟨?_, ?_, ((SameRegs.setReg s (Reg.bellCadPeriod n) (word v)).mono (by simp)).trans (regs.mono (by simp))⟩
      · have own : u = (s.setReg (Reg.bellCadPeriod n) (word v)).updGroup i fun g => { g with st := .applied, staged := [], raised := false } := by rw [← put]
        rw [own]
        rfl
      · rw [regs _ (by simpa using own), State.reg_setReg_self]

end Sys2Proof.Machine
end

section
/-! SUPPORT. Messages to the blocks of a job: which outputs they wait at (R39, R271, R274, R275). -/
namespace Sys2Proof.Machine

open Sys2Proof

/-! ## What sending leaves of the routes -/

theorem Sent.fld {s t : State} (h : Sent s t) {o : Nat} (ho : o ≠ Reg.fabDrops ∧ o ≠ Reg.fabEvent) (hi lo : Nat) : t.fld o hi lo = s.fld o hi lo :=
  h.regs.fld (by simp [ho]) hi lo

theorem Sent.flag {s t : State} (h : Sent s t) {o : Nat} (ho : o ≠ Reg.fabDrops ∧ o ≠ Reg.fabEvent) (i : Nat) : t.flag o i = s.flag o i :=
  h.regs.flag (by simp [ho]) i

theorem Sent.straps {s t : State} (h : Sent s t) : t.straps = s.straps := by
  obtain ⟨⟨r, l, p, rfl⟩, -, -⟩ := h
  rfl

/-- The job slots' and the routes' registers are none that sending changes. -/
theorem fabric_ne {o : Nat} (h : 0x20028 < o ∨ o < 0x20010) : o ≠ Reg.fabDrops ∧ o ≠ Reg.fabEvent := by
  simp only [Reg.fabDrops, Reg.fabEvent]
  omega

theorem Sent.jobMap {s t : State} (h : Sent s t) (j b : Nat) : t.jobMap j b = s.jobMap j b := by
  have map : Reg.fabJobMap j ≠ Reg.fabDrops ∧ Reg.fabJobMap j ≠ Reg.fabEvent := fabric_ne (by simp only [Reg.fabJobMap]; omega)
  have entry (e : Nat) : Reg.fabJmap e ≠ Reg.fabDrops ∧ Reg.fabJmap e ≠ Reg.fabEvent := fabric_ne (by simp only [Reg.fabJmap]; omega)
  simp only [State.jobMap, h.fld map, h.fld (entry _)]

theorem Sent.route {s t : State} (h : Sent s t) (p dst : Nat) : t.route p dst = s.route p dst := by
  have entry : Reg.fabRt p (dst / 8) ≠ Reg.fabDrops ∧ Reg.fabRt p (dst / 8) ≠ Reg.fabEvent := fabric_ne (by simp only [Reg.fabRt]; omega)
  simp only [State.route, h.fld entry]

theorem Sent.portUp {s t : State} (h : Sent s t) (p : Nat) : t.portUp p = s.portUp p := by
  have cfg : Reg.fabPortCfg p ≠ Reg.fabDrops ∧ Reg.fabPortCfg p ≠ Reg.fabEvent := fabric_ne (by simp only [Reg.fabPortCfg]; omega)
  simp only [State.portUp, h.straps, h.fld cfg, h.flag (o := Reg.fabCtrl) (by decide)]

theorem Sent.slotOfJob {s t : State} (h : Sent s t) (job : Nat) : t.slotOfJob job = s.slotOfJob job := by
  have cfg (j : Nat) : Reg.fabJobCfg j ≠ Reg.fabDrops ∧ Reg.fabJobCfg j ≠ Reg.fabEvent := fabric_ne (by simp only [Reg.fabJobCfg]; omega)
  simp only [State.slotOfJob, h.straps, h.fld (cfg _), h.flag (cfg _)]

theorem Sent.groupJob {s t : State} (h : Sent s t) {i : Nat} (hi : i < 4) : t.groupJob i = s.groupJob i := by
  have cg : Reg.cgJob i ∉ [Reg.fabDrops, Reg.fabEvent] := by simpa using fabric_ne (o := Reg.cgJob i) (by simp only [Reg.cgJob]; omega)
  rw [State.groupJob, State.groupJob, h.keeps.group, h.regs _ cg]

/-! ## A message of a job waits at its output -/

/-- What waits at an output still waits when more has been sent. -/
theorem SendsTo.more {j b : Nat} {body : MsgBody} {s t u : State} (h : SendsTo j b body s t) (k : Sent t u) : SendsTo j b body s u := by
  intro f p map build other route up len
  obtain ⟨q, mem, rest⟩ := h f p map build other route up len
  obtain ⟨l, waits⟩ := k.waits p
  exact ⟨q, waits ▸ List.mem_append_left l mem, rest⟩

theorem SendsTo.of_ports {j b : Nat} {body : MsgBody} {s t u : State} (h : SendsTo j b body s t) (k : u.ports = t.ports) : SendsTo j b body s u := by
  intro f p map build other route up len
  rw [k]
  exact h f p map build other route up len

/-- A message of a job slot, sent after others, waits at the output that the origin table gives. -/
theorem SendsTo.sendJob {s u : State} (h : Sent s u) (j b g t : Nat) (body : MsgBody) : SendsTo j b body s (u.sendJob j b g t body) := by
  intro f p map build other route up _
  rw [← h.jobMap] at map
  rw [← h.straps] at build
  rw [← h.fld (by decide)] at other
  rw [← h.route] at route
  rw [← h.portUp] at up
  have enabled : u.flag Reg.fabCtrl 0 = true := (Bool.and_eq_true_iff.mp up).2
  have on : ¬ (decide (u.straps.build = .c1) || !u.flag Reg.fabCtrl 0) = true := by simp [build, enabled]
  have away (m : Msg) : ¬ (f == (u.headOf (bits (u.reg (Reg.fabJobCfg j)) 15 0) f m).src) = true := fun h => other (beq_iff_eq.mp h)
  rw [State.sendJob, map]
  simp only [State.originate]
  rw [if_neg on, if_neg (away _), route]
  simp only [State.sendPort_up up, State.ports_enqueue, if_true]
  exact ⟨_, List.mem_append_right _ (List.mem_singleton_self _), _, rfl, rfl, rfl, rfl⟩

/-- A message of a group to each of a list of blocks, sent after others. -/
theorem SendsTo.foldl_sendCg {s u : State} (h : Sent s u) {i j : Nat} (hi : i < 4) (slot : s.slotOfJob (s.groupJob i).job = some j) (body : MsgBody)
    {l : List Nat} {b : Nat} (hb : b ∈ l) : SendsTo j b body s (l.foldl (fun s b => s.sendCg i b body) u) := by
  induction l generalizing u with
  | nil => cases hb
  | cons a l ih =>
    rcases List.mem_cons.mp hb with rfl | hb
    · have sends : u.sendCg i b body = u.sendJob j b 0 0 body := by rw [State.sendCg, h.groupJob hi, h.slotOfJob, slot]
      rw [List.foldl_cons, sends]
      exact (SendsTo.sendJob h j b 0 0 body).more (Sent.foldl_sendCg ..)
    · exact ih (h.trans (Sent.sendCg ..)) hb

theorem SendsTo.sendCgAll (s : State) {i j : Nat} (hi : i < 4) (slot : s.slotOfJob (s.groupJob i).job = some j) (body : MsgBody) {b : Nat}
    (hb : b < (s.groupJob i).count) (other : b ≠ (s.groupJob i).coord) : SendsTo j b body s (s.sendCgAll i body) :=
  SendsTo.foldl_sendCg (.refl s) hi slot body (List.mem_filter.mpr ⟨List.mem_range.mpr hb, by simpa using other⟩)

/-! ## The group that a message names (R39) -/

theorem State.slotOfGroup_some {s : State} {ident job i : Nat} {sts : List GState} (h : s.slotOfGroup ident job sts = some i) :
    i < 4 ∧ (s.group i).st ∈ sts ∧ (s.groupJob i).job = job := by
  obtain ⟨st, mem, found⟩ := List.exists_of_findSome?_eq_some h
  have named := List.find?_some found
  simp only [Bool.and_eq_true, beq_iff_eq] at named
  obtain ⟨⟨⟨state, -⟩, -⟩, job⟩ := named
  exact ⟨List.mem_range.mp (List.mem_of_find?_eq_some found), state ▸ mem, job⟩

/-! ## The coordinator's verdict (R39) -/

/-- A group's own state after the coordinator has sent ABORT for it. -/
theorem State.group_sendsAbort (s : State) (i j : Nat) :
    (s.sendsAbort i).group j =
      if j = i then (s.group i).judged (s.group i).missingBlocks.length ((s.group i).missingBlocks.headD 0) else s.group j := by
  have told := Sent.sendCgAll s i (s.group i).abortMessage
  rw [State.sendsAbort, State.group_updGroup, told.keeps.group, told.keeps.group]

/-- The coordinator aborts a group that is not aborted yet: ABORT waits for every other block, and its own group has the cause JOB_ABORT. -/
theorem State.coordAbort_aborts {s : State} {i : Nat} (st : (s.group i).st ≠ .aborted) :
    s.coordAbort i = (s.sendsAbort i).cgAbort i 8 0 := by
  rw [State.coordAbort_eq, if_neg (by simpa using st)]

theorem State.group_coordAbort {s : State} {i : Nat} (st : (s.group i).st ≠ .aborted) (j : Nat) :
    (s.coordAbort i).group j =
      if j = i then ((s.group i).judged (s.group i).missingBlocks.length ((s.group i).missingBlocks.headD 0)).aborted 8 0 else s.group j := by
  rw [State.coordAbort_aborts st, State.group_cgAbort]
  split
  · rw [State.group_sendsAbort, if_pos rfl]
  · rw [State.group_sendsAbort, if_neg ‹_›]

/-- What the coordinator's ABORT leaves alone. -/
theorem State.coordAbort_rest {s : State} {i : Nat} (st : (s.group i).st ≠ .aborted) :
    (s.coordAbort i).cells = s.cells ∧ (s.coordAbort i).inbox = s.inbox ∧ (s.coordAbort i).ports = (s.sendCgAll i (s.group i).abortMessage).ports := by
  obtain ⟨g, r, p, o, aborted⟩ := (s.sendsAbort i).cgAbort_rest i 8 0
  obtain ⟨⟨r', l, q, told⟩, -, -⟩ := Sent.sendCgAll s i (s.group i).abortMessage
  rw [State.coordAbort_aborts st, aborted]
  refine ⟨?_, ?_, ?_⟩
  · show (s.sendCgAll i (s.group i).abortMessage).cells = _
    rw [told]
  · show (s.sendCgAll i (s.group i).abortMessage).inbox = _
    rw [told]
  · rfl

/-- Does the coordinator hold STAGED from every block of an armed group that its own members have acknowledged? -/
def Group.AllStaged (g : Group) : Prop := g.st = .armed ∧ g.sentStaged = true ∧ ∀ b, b < g.job.count → b ∈ g.held

theorem Group.missingBlocks_isEmpty (g : Group) : g.missingBlocks.isEmpty = true ↔ ∀ b, b < g.job.count → b ∈ g.held := by
  rw [List.isEmpty_iff, Group.missingBlocks, List.filter_eq_nil_iff]
  simp

theorem Group.allStaged_iff (g : Group) : (g.st == .armed && g.sentStaged && g.missingBlocks.isEmpty) = true ↔ g.AllStaged := by
  rw [Bool.and_eq_true, Bool.and_eq_true, beq_iff_eq, Group.missingBlocks_isEmpty, and_assoc, Group.AllStaged]

theorem State.coordCheck_waits {s : State} {i : Nat} (h : ¬ (s.group i).AllStaged) : s.coordCheck i = s := by
  rw [State.coordCheck]
  exact if_neg (mt (Group.allStaged_iff _).mp h)

theorem State.coordCheck_late {s : State} {i : Nat} (h : (s.group i).AllStaged) (late : (s.group i).tick < s.bell.now + 8000) :
    s.coordCheck i = s.coordAbort i := by
  rw [State.coordCheck]
  exact (if_pos ((Group.allStaged_iff _).mpr h)).trans (if_pos late)

/-- COMMIT sent to every other block, and the group bound. -/
def State.commits (s : State) (i : Nat) : State :=
  (s.sendCgAll i (.cgCommit ⟨(s.group i).ident, (s.group i).tick, 0, 0, 0⟩)).updGroup i fun g => { g with st := .bound, verdict := 1 }

theorem State.coordCheck_commits {s : State} {i : Nat} (h : (s.group i).AllStaged) (early : s.bell.now + 8000 ≤ (s.group i).tick) :
    s.coordCheck i = s.commits i := by
  rw [State.coordCheck]
  exact (if_pos ((Group.allStaged_iff _).mpr h)).trans (if_neg (Nat.not_lt.mpr early))

end Sys2Proof.Machine
end

section
/-! PROOFS. A job-scope commit group (O35). -/
namespace Sys2Proof.Machine

open Sys2Proof

/-! ## What each message does (R39) -/

/-- The state without a message of the inbox. -/
def State.without (s : State) (k : Nat) : State := { s with inbox := s.inbox.eraseIdx k }

theorem State.take_without {s : State} {k : Nat} {d : Delivered} (got : s.inbox[k]? = some d) : s.take k = some (d, s.without k) := State.take_eq got

/-- A block's STAGED counted. -/
def Group.holds (b : Nat) (g : Group) : Group := { g with held := if g.held.contains b then g.held else g.held ++ [b] }

section
variable {s : State} {k i : Nat} {d : Delivered} {m : CgInfo} (got : s.inbox[k]? = some d)
include got

theorem exec_cgStaged_some (body : d.msg.body = .cgStaged m) (slot : s.slotOfGroup m.ident d.job [.opened, .armed] = some i) (coord : s.isCoord i = true) :
    exec (.cgStaged k) s = .next (((s.without k).updGroup i (Group.holds d.msg.src)).coordCheck i) := by
  have run : exec (.cgStaged k) s = .next (cgStagedS k s) := rfl
  have slot' : (s.without k).slotOfGroup m.ident d.job [.opened, .armed] = some i := slot
  have coord' : (s.without k).isCoord i = true := coord
  rw [run, cgStagedS, State.take_without got]
  simp only [body, slot', coord', if_true]
  rfl

theorem exec_cgStaged_none (body : d.msg.body = .cgStaged m) (slot : s.slotOfGroup m.ident d.job [.opened, .armed] = none) :
    exec (.cgStaged k) s = .next (s.without k) := by
  have run : exec (.cgStaged k) s = .next (cgStagedS k s) := rfl
  have slot' : (s.without k).slotOfGroup m.ident d.job [.opened, .armed] = none := slot
  rw [run, cgStagedS, State.take_without got]
  simp only [body, slot']

/-- A group whose coordinator has a block's REFUSED. -/
def State.refusedBy (s : State) (i b : Nat) : State := s.updGroup i fun g => { g with job := s.groupJob i, held := g.held.filter (· != b) }

theorem exec_cgRefused_some (body : d.msg.body = .cgRefused m) (slot : s.slotOfGroup m.ident d.job [.opened, .armed] = some i) (coord : s.isCoord i = true) :
    exec (.cgRefused k) s = .next (((s.without k).refusedBy i d.msg.src).coordAbort i) := by
  have run : exec (.cgRefused k) s = .next (cgRefusedS k s) := rfl
  have slot' : (s.without k).slotOfGroup m.ident d.job [.opened, .armed] = some i := slot
  have coord' : (s.without k).isCoord i = true := coord
  rw [run, cgRefusedS, State.take_without got]
  simp only [body, slot', coord', if_true]
  rfl

theorem exec_cgRefused_none (body : d.msg.body = .cgRefused m) (slot : s.slotOfGroup m.ident d.job [.opened, .armed] = none) :
    exec (.cgRefused k) s = .next (s.without k) := by
  have run : exec (.cgRefused k) s = .next (cgRefusedS k s) := rfl
  have slot' : (s.without k).slotOfGroup m.ident d.job [.opened, .armed] = none := slot
  rw [run, cgRefusedS, State.take_without got]
  simp only [body, slot']

theorem exec_cgCommit_some (body : d.msg.body = .cgCommit m) (slot : s.slotOfGroup m.ident d.job [.armed] = some i) :
    exec (.cgCommit k) s = .next (if (s.group i).sentStaged && d.msg.src == (s.group i).job.coord && !s.verdictPast i
      then (s.without k).updGroup i fun g => { g with st := .bound, verdict := 1 } else s.without k) := by
  have run : exec (.cgCommit k) s = .next (cgCommitS k s) := rfl
  have slot' : (s.without k).slotOfGroup m.ident d.job [.armed] = some i := slot
  rw [run, cgCommitS, State.take_without got]
  simp only [body, slot']
  rfl

theorem exec_cgCommit_none (body : d.msg.body = .cgCommit m) (slot : s.slotOfGroup m.ident d.job [.armed] = none) :
    exec (.cgCommit k) s = .next (s.without k) := by
  have run : exec (.cgCommit k) s = .next (cgCommitS k s) := rfl
  have slot' : (s.without k).slotOfGroup m.ident d.job [.armed] = none := slot
  rw [run, cgCommitS, State.take_without got]
  simp only [body, slot']

/-- A block's group with the verdict ABORT and what the message says is missing. -/
def State.hearsAbort (s : State) (i : Nat) (m : CgInfo) : State :=
  s.updGroup i fun g => { g with job := s.groupJob i, verdict := 2, missing := m.missing, firstMissing := m.first }

theorem exec_cgAbort_some (body : d.msg.body = .cgAbort m) (slot : s.slotOfGroup m.ident d.job [.armed, .opened, .aborted] = some i)
    (src : d.msg.src = (s.groupJob i).coord) (first : (s.group i).verdict = 0) (early : ((s.group i).st == .armed && s.verdictPast i) = false) :
    exec (.cgAbort k) s = .next (if (s.group i).st == .aborted then (s.without k).hearsAbort i m else ((s.without k).hearsAbort i m).cgAbort i 8 0) := by
  have run : exec (.cgAbort k) s = .next (cgAbortS k s) := rfl
  have slot' : (s.without k).slotOfGroup m.ident d.job [.armed, .opened, .aborted] = some i := slot
  have counts : (d.msg.src == ((s.without k).groupJob i).coord && ((s.without k).group i).verdict == 0 &&
      !(((s.without k).group i).st == .armed && (s.without k).verdictPast i)) = true := by
    have h : (d.msg.src == (s.groupJob i).coord && (s.group i).verdict == 0 && !((s.group i).st == .armed && s.verdictPast i)) = true := by
      simp [src, first, early]
    exact h
  rw [run, cgAbortS, State.take_without got]
  simp only [body, slot', counts, if_true]
  rfl

theorem exec_cgAbort_none (body : d.msg.body = .cgAbort m) (slot : s.slotOfGroup m.ident d.job [.armed, .opened, .aborted] = none) :
    exec (.cgAbort k) s = .next (s.without k) := by
  have run : exec (.cgAbort k) s = .next (cgAbortS k s) := rfl
  have slot' : (s.without k).slotOfGroup m.ident d.job [.armed, .opened, .aborted] = none := slot
  rw [run, cgAbortS, State.take_without got]
  simp only [body, slot']

end

theorem State.group_hearsAbort (s : State) (k i : Nat) (m : CgInfo) : ((s.without k).hearsAbort i m).group i =
    { s.group i with job := s.groupJob i, verdict := 2, missing := m.missing, firstMissing := m.first } :=
  State.group_updGroup_self ..

/-- A group aborted because its verdict did not come. -/
def State.losesVerdict (s : State) (i : Nat) : State := (s.cgAbort i 9 0).updGroup i fun g => { g with verdict := 3 }

theorem State.group_losesVerdict (s : State) (i n : Nat) :
    (s.losesVerdict i).group n = if n = i then { (s.group i).aborted 9 0 with verdict := 3 } else s.group n := by
  rw [State.losesVerdict, State.group_updGroup]
  by_cases h : n = i
  · rw [if_pos h, if_pos h, State.group_cgAbort, if_pos rfl]
  · rw [if_neg h, if_neg h, State.group_cgAbort, if_neg h]

theorem State.ctx_losesVerdict (s : State) (i c : Nat) : (s.losesVerdict i).ctx c = s.ctx c := by
  obtain ⟨g, r, p, o, rest⟩ := s.cgAbort_rest i 9 0
  rw [State.losesVerdict, rest]
  rfl

/-- Without a verdict by its time the group is aborted with the cause VERDICT_LOST, and its context is reset (R39, R354). -/
theorem exec_verdictLost_due {s : State} {i : Nat} (st : (s.group i).st = .armed) (job : (s.group i).job.scope = true) (sent : (s.group i).sentStaged = true)
    (member : s.isCoord i = false) (due : (s.group i).tick ≤ s.bell.now + 2000) :
    exec (.verdictLost i) s = .next ((s.losesVerdict i).beginReset (s.group i).job.ctx 3 false false) := by
  have run : exec (.verdictLost i) s = .next (verdictLostS i s) := rfl
  simp [run, State.losesVerdict, verdictLostS, st, job, sent, member, due]

/-! ## The coordinator's verdict to every other block (R39) -/

/-- A block's state before the message left the inbox and the group was changed sends as the state after. -/
theorem SendsTo.of_start {j b : Nat} {body : MsgBody} {s t : State} {inbox : List Delivered} {groups : List Group}
    (h : SendsTo j b body { s with inbox := inbox, groups := groups } t) : SendsTo j b body s t := h

theorem State.groupJob_of_armed {s : State} {i : Nat} (h : (s.group i).st = .armed) : s.groupJob i = (s.group i).job := by
  rw [State.groupJob, h]
  rfl

theorem Group.holds_eq (b : Nat) (g : Group) : g.holds b = { g with held := if b ∈ g.held then g.held else g.held ++ [b] } := by
  simp only [Group.holds, List.contains_iff_mem]

/-- The state in which the coordinator has counted a block's STAGED. -/
def State.counts (s : State) (k i b : Nat) : State := (s.without k).updGroup i (Group.holds b)

theorem State.group_counts (s : State) (k i b : Nat) : (s.counts k i b).group i = (s.group i).holds b := State.group_updGroup_self ..

theorem State.group_counts_other {s : State} {n i : Nat} (h : n ≠ i) (k b : Nat) : (s.counts k i b).group n = s.group n :=
  (State.group_updGroup ..).trans (if_neg h)

theorem State.group_refusedBy (s : State) (k i b : Nat) :
    ((s.without k).refusedBy i b).group i = { s.group i with job := s.groupJob i, held := (s.group i).held.filter (· != b) } :=
  State.group_updGroup_self ..

/-- A group whose job a REFUSED has fixed belongs to the job it belonged to. -/
theorem State.groupJob_refusedBy (s : State) (k i b : Nat) : ((s.without k).refusedBy i b).groupJob i = s.groupJob i := by
  rw [State.groupJob, State.group_refusedBy]
  by_cases opened : (s.group i).st = .opened
  · have reads : s.groupJob i = gJobOf (s.reg (Reg.cgJob i)) := by rw [State.groupJob, opened]; rfl
    rw [reads, opened]
    rfl
  · exact if_neg (by simpa using opened)

theorem State.coordAbort_tells {s : State} {i j b : Nat} (st : (s.group i).st ≠ .aborted) (hi : i < 4)
    (slot : s.slotOfJob (s.groupJob i).job = some j) (hb : b < (s.groupJob i).count) (other : b ≠ (s.groupJob i).coord) :
    SendsTo j b (s.group i).abortMessage s (s.coordAbort i) :=
  (SendsTo.sendCgAll s hi slot _ hb other).of_ports (State.coordAbort_rest st).2.2

theorem State.group_commits (s : State) (i n : Nat) :
    (s.commits i).group n = if n = i then { s.group i with st := .bound, verdict := 1 } else s.group n := by
  have told := (Sent.sendCgAll s i (.cgCommit ⟨(s.group i).ident, (s.group i).tick, 0, 0, 0⟩)).keeps
  rw [State.commits, State.group_updGroup, told.group, told.group]

theorem State.commits_tells {s : State} {i j b : Nat} (hi : i < 4) (slot : s.slotOfJob (s.groupJob i).job = some j)
    (hb : b < (s.groupJob i).count) (other : b ≠ (s.groupJob i).coord) :
    SendsTo j b (.cgCommit ⟨(s.group i).ident, (s.group i).tick, 0, 0, 0⟩) s (s.commits i) :=
  (SendsTo.sendCgAll s hi slot _ hb other).of_ports rfl

theorem State.commits_rest (s : State) (i : Nat) : (s.commits i).cells = s.cells ∧ (s.commits i).inbox = s.inbox := by
  obtain ⟨⟨r, l, q, told⟩, -, -⟩ := Sent.sendCgAll s i (.cgCommit ⟨(s.group i).ident, (s.group i).tick, 0, 0, 0⟩)
  rw [State.commits, told]
  exact ⟨rfl, rfl⟩

/-- Settles O35: a job-scope group takes its verdict from the coordinator, which has every block's STAGED or one block's REFUSED; a message that
names no such group only leaves the inbox. -/
theorem groupMessages : Obligations.GroupMessages := by
  unfold Obligations.GroupMessages
  refine ⟨fun s k i j d m got body slot coord carries => ?staged, fun s k i j d m got body slot coord carries => ?refused,
    fun s k i d m got body slot => ⟨fun sent src early => ?commit, fun late => ?past⟩, fun s k i d m got body slot src first early => ?abort,
    fun s i st job sent member due => ?lost, fun s k d m got none => ⟨fun body => exec_cgStaged_none got body (none _),
      fun body => exec_cgRefused_none got body (none _), fun body => exec_cgCommit_none got body (none _), fun body => exec_cgAbort_none got body (none _)⟩⟩
  case staged =>
    intro g held all
    obtain ⟨hi, -, job⟩ := State.slotOfGroup_some slot
    have counted : (s.counts k i d.msg.src).group i = { g with held := held } := (State.group_counts ..).trans (Group.holds_eq ..)
    have iff : ((s.counts k i d.msg.src).group i).AllStaged ↔ all := by rw [counted]; rfl
    have named (armed : g.st = .armed) : (s.counts k i d.msg.src).groupJob i = g.job :=
      (State.groupJob_of_armed (by rw [counted]; exact armed)).trans (by rw [counted])
    have found (armed : g.st = .armed) : (s.counts k i d.msg.src).slotOfJob ((s.counts k i d.msg.src).groupJob i).job = some j := by
      rw [named armed, ← State.groupJob_of_armed armed, job]
      exact carries
    refine ⟨(s.counts k i d.msg.src).coordCheck i, exec_cgStaged_some got body slot coord, ?_⟩
    by_cases complete : all
    · have armed : g.st = .armed := complete.1
      have ready := iff.mpr complete
      have tick : ((s.counts k i d.msg.src).group i).tick = g.tick := by rw [counted]
      by_cases late : g.tick < s.bell.now + 8000
      · have st : ((s.counts k i d.msg.src).group i).st ≠ .aborted := by simp [counted, armed]
        obtain ⟨cells, inbox, -⟩ := State.coordAbort_rest st
        have judged := (State.group_coordAbort st i).trans (if_pos rfl)
        rw [counted] at judged
        rw [State.coordCheck_late ready (by rw [tick]; exact late)]
        refine ⟨inbox, by rw [judged]; rfl, fun n hn => ((State.group_coordAbort st n).trans (if_neg hn)).trans (State.group_counts_other hn ..), cells,
          fun h => absurd complete h, fun _ early => absurd late (Nat.not_lt.mpr early), fun _ _ => ?_⟩
        rw [judged]
        refine ⟨rfl, rfl, rfl, rfl, rfl, fun b hb other => ?_⟩
        have tells := State.coordAbort_tells (b := b) st hi (found armed) (by rw [named armed]; exact hb) (by rw [named armed]; exact other)
        rw [counted] at tells
        exact tells.of_start
      · have early : s.bell.now + 8000 ≤ ((s.counts k i d.msg.src).group i).tick := tick ▸ Nat.not_lt.mp late
        obtain ⟨cells, inbox⟩ := (s.counts k i d.msg.src).commits_rest i
        have bound := ((s.counts k i d.msg.src).group_commits i i).trans (if_pos rfl)
        rw [counted] at bound
        rw [State.coordCheck_commits ready early]
        refine ⟨inbox, by rw [bound], fun n hn => ((State.group_commits _ i n).trans (if_neg hn)).trans (State.group_counts_other hn ..), cells,
          fun h => absurd complete h, fun _ _ => ⟨bound, fun b hb other => ?_⟩, fun _ h => absurd h late⟩
        have tells := State.commits_tells (b := b) hi (found armed) (by rw [named armed]; exact hb) (by rw [named armed]; exact other)
        rw [counted] at tells
        exact tells.of_start
    · rw [State.coordCheck_waits (mt iff.mp complete)]
      exact ⟨rfl, by rw [counted], fun n hn => State.group_counts_other hn .., rfl, fun _ => ⟨rfl, counted⟩,
        fun h => absurd h complete, fun h => absurd h complete⟩
  case refused =>
    intro g
    obtain ⟨hi, mem, job⟩ := State.slotOfGroup_some slot
    have found : ((s.without k).refusedBy i d.msg.src).slotOfJob (((s.without k).refusedBy i d.msg.src).groupJob i).job = some j := by
      rw [State.groupJob_refusedBy, job]
      exact carries
    have refused := State.group_refusedBy s k i d.msg.src
    have st : (((s.without k).refusedBy i d.msg.src).group i).st ≠ .aborted := by
      rw [refused]
      intro h
      simp [show (s.group i).st = .aborted from h] at mem
    obtain ⟨cells, inbox, -⟩ := State.coordAbort_rest st
    have judged := (State.group_coordAbort st i).trans (if_pos rfl)
    rw [refused] at judged
    refine ⟨((s.without k).refusedBy i d.msg.src).coordAbort i, exec_cgRefused_some got body slot coord, inbox, by rw [judged]; rfl, by rw [judged]; rfl,
      by rw [judged]; rfl, by rw [judged]; rfl, by rw [judged]; rfl,
      fun n hn => ((State.group_coordAbort st n).trans (if_neg hn)).trans ((State.group_updGroup ..).trans (if_neg hn)), cells, fun b hb other => ?_⟩
    have tells := State.coordAbort_tells (b := b) st hi found (by rw [State.groupJob_refusedBy]; exact hb) (by rw [State.groupJob_refusedBy]; exact other)
    rw [refused] at tells
    rw [judged]
    exact tells.of_start
  case commit =>
    have goes : ((s.group i).sentStaged && d.msg.src == (s.group i).job.coord && !s.verdictPast i) = true := by
      simp [sent, src, State.verdictPast, early]
    refine ⟨(s.without k).updGroup i fun g => { g with st := .bound, verdict := 1 }, by rw [exec_cgCommit_some got body slot, if_pos goes], rfl,
      State.group_updGroup_self .., fun n hn => (State.group_updGroup ..).trans (if_neg hn)⟩
  case past =>
    have stays : ((s.group i).sentStaged && d.msg.src == (s.group i).job.coord && !s.verdictPast i) = false := by
      rcases late with h | h | h
      · simp [h]
      · simp [h]
      · rw [State.verdictPast, decide_eq_true h, Bool.and_true]
        cases (s.group i).sentStaged <;> simp
    rw [exec_cgCommit_some got body slot, stays]
    rfl
  case abort =>
    have intime : ((s.group i).st == .armed && s.verdictPast i) = false := by
      rw [Bool.eq_false_iff, Ne, Bool.and_eq_true, beq_iff_eq, State.verdictPast, Bool.and_eq_true, decide_eq_true_eq]
      exact fun ⟨armed, sent, late⟩ => absurd late (Nat.not_lt.mpr (early armed sent))
    have heard := State.group_hearsAbort s k i m
    have others {n : Nat} (hn : n ≠ i) : ((s.without k).hearsAbort i m).group n = s.group n := (State.group_updGroup ..).trans (if_neg hn)
    refine ⟨_, exec_cgAbort_some got body slot src first intime, ?_⟩
    by_cases st : (s.group i).st = .aborted
    · rw [if_pos (beq_iff_eq.mpr st), heard]
      exact ⟨rfl, st, rfl, rfl, rfl, fun h => absurd st h, fun _ => ⟨rfl, rfl, rfl⟩, fun n hn => others hn⟩
    · have aborted := (State.group_cgAbort ((s.without k).hearsAbort i m) i 8 0 i).trans (if_pos rfl)
      obtain ⟨g, r, p, o, rest⟩ := ((s.without k).hearsAbort i m).cgAbort_rest i 8 0
      rw [heard] at aborted
      rw [if_neg (mt beq_iff_eq.mp st), aborted]
      refine ⟨by rw [rest]; rfl, rfl, rfl, rfl, rfl, fun _ => ⟨rfl, rfl, rfl, fun calm => ?_⟩, fun h => absurd h st,
        fun n hn => ((State.group_cgAbort ..).trans (if_neg hn)).trans (others hn)⟩
      have calm' : (((s.without k).hearsAbort i m).group i).raised = false := by rw [heard]; exact calm
      exact ⟨(State.cgAbort_leaves calm' 8 0).1, SameRegs.cgAbort ((s.without k).hearsAbort i m) i 8 0⟩
  case lost =>
    have groups (n : Nat) : ((s.losesVerdict i).beginReset (s.group i).job.ctx 3 false false).group n = (s.losesVerdict i).group n := by
      rw [State.group, State.beginReset_groups, State.group]
    have own := (groups i).trans ((s.group_losesVerdict i i).trans (if_pos rfl))
    refine ⟨_, exec_verdictLost_due st job sent member due, by rw [own]; rfl, by rw [own]; rfl, by rw [own], by rw [own]; rfl,
      fun n hn => (groups n).trans ((s.group_losesVerdict i n).trans (if_neg hn)), fun taken standing => ?_⟩
    exact (State.beginReset_begins 3 false false (by rw [State.ctx_losesVerdict]; exact taken) (by rw [State.ctx_losesVerdict]; exact standing)).2

end Sys2Proof.Machine
end

section
/-! PROOFS. Gaps of the filler begin and fall (O29), and clearing and zeroing end (O30). -/
namespace Sys2Proof.Machine

open Sys2Proof

/-! ## Gaps (R68, R69, R70) -/

/-- A gap begins where no real row quad may enter. -/
theorem exec_gapStart {s : State} {t : Nat} (leased : (s.tile t).lease ≠ none) (noGap : (s.tile t).gap = none) (awake : (s.tile t).rest = .awake)
    (idle : ∀ o, s.streamOf t = some o → s.mayEnter t o = false) (past : (s.tile t).lastEntry + (s.tile t).passMode.cyc ≤ s.cyc) :
    exec (.gapStart t) s = .next (s.updTile t fun x => { x with gap := some (s.newGap t) }) := by
  obtain ⟨c, lease⟩ := Option.ne_none_iff_exists'.mp leased
  have early : ¬ s.cyc < (s.tile t).lastEntry + (s.tile t).passMode.cyc := by omega
  show Host.Outcome.next (gapStartS t s) = _
  unfold gapStartS
  cases stream : s.streamOf t with
  | none => simp [lease, noGap, awake, early]
  | some o => simp [lease, noGap, awake, early, idle o stream]

/-- An unknown gap with the filler enabled falls once it has lasted its limit. -/
theorem exec_fillerLimitExpiry {s : State} {t : Nat} {g : Gap} (gap : (s.tile t).gap = some g) (enable : g.enable = true) (unknown : g.known = none)
    (level : g.falling = false) :
    exec (.fillerLimitExpiry t) s =
      .next (if g.up + 4 * g.limit ≤ s.up then s.updTile t fun x => { x with gap := some { g with falling := true } } else s) := by
  show Host.Outcome.next (fillerLimitExpiryS t s) = _
  simp [fillerLimitExpiryS, gap, enable, unknown, level]

/-- Settles O29: each command is one update of the tile where its conditions hold. -/
theorem gapsStartAndFall : Obligations.GapsStartAndFall := by
  refine ⟨fun s t leased noGap awake idle past => ?starts, fun s t g gap enable unknown level => ⟨fun lasted => ?falls, fun early => ?stays⟩⟩
  case starts =>
    exact ⟨_, s.newGap t, exec_gapStart leased noGap awake idle past, by rw [State.tile_updTile_self], rfl, rfl, rfl, rfl, rfl, rfl, rfl, rfl, rfl,
      fun k other => by rw [State.tile_updTile, if_neg other], rfl⟩
  case falls =>
    exact ⟨_, by rw [exec_fillerLimitExpiry gap enable unknown level, if_pos lasted], rfl, by rw [State.tile_updTile_self],
      fun k other => by rw [State.tile_updTile, if_neg other]⟩
  case stays =>
    rw [exec_fillerLimitExpiry gap enable unknown level, if_neg (by omega)]

/-! ## Clearing and zeroing (R58, R88, R115) -/

/-- A tile after the clearing of its array: nothing stands in its banks or is on its way to them. -/
def Tile.cleared (x : Tile) (up : Nat) : Tile :=
  { x with clearArr := none, active := Stat.zero, fronts := [], shadow := none, loads := [], sets := [[], []], chain := none, flights := [],
           idleSince := up, banks := [], poison := [] }

theorem exec_tileClearDone {s : State} {t n : Nat} (clearing : (s.tile t).clearArr = some n) (due : n ≤ s.cyc) :
    exec (.tileClearDone t) s = .next (s.updTile t fun x => x.cleared s.up) := by
  show Host.Outcome.next (tileClearDoneS t s) = _
  simp [tileClearDoneS, clearing, due, Tile.cleared]

/-- A tile after the zeroing of its scratch: no book and no table is valid. -/
def Tile.zeroed (x : Tile) (up : Nat) : Tile :=
  { x with clearScr := none, idleSince := up, books := List.replicate 16 (false, false), tables := List.replicate 8 false, bookDirty := [],
           tableDirty := [] }

@[simp] theorem State.tile_zeroTile (s : State) (t k : Nat) : (s.zeroTile t).tile k = s.tile k := rfl
@[simp] theorem State.zeroTile_regs (s : State) (t : Nat) : (s.zeroTile t).regs = s.regs := rfl
@[simp] theorem State.zeroTile_lanes (s : State) (t : Nat) : (s.zeroTile t).lanes = s.lanes := rfl

theorem State.rd_zeroTile (s : State) (t a : Nat) :
    (s.zeroTile t).rd a = if (tileAddr t ≤ a ∧ a < tileAddr t + 0x400000) ∨ (tableAddr t 0 ≤ a ∧ a < tableAddr t 0 + 0x10000) ∨
      (bookAddr t 0 ≤ a ∧ a < bookAddr t 0 + 0x4000) then 0 else s.rd a := by
  simp only [State.zeroTile, tileSize, State.rd_zeroMem, ← ite_or]
  exact if_congr (by tauto) rfl rfl

/-! The debug reads answered are sent, and no more. -/
section
variable (s : State) (d : RestDom)

@[simp] theorem State.rd_debugAnswer (a : Nat) : (s.debugAnswer d).rd a = s.rd a := rfl
@[simp] theorem State.tile_debugAnswer (k : Nat) : (s.debugAnswer d).tile k = s.tile k := rfl
@[simp] theorem State.debugAnswer_regs : (s.debugAnswer d).regs = s.regs := rfl
@[simp] theorem State.debugAnswer_lanes : (s.debugAnswer d).lanes = s.lanes := rfl

end

theorem exec_leaseZeroDone_tile {s : State} {t n : Nat} (zeroing : (s.tile t).clearScr = some n) (due : n ≤ s.cyc) :
    exec (.leaseZeroDone (.tile t)) s = .next (((s.zeroTile t).updTile t fun x => x.zeroed s.up).debugAnswer (.tile t)) := by
  show Host.Outcome.next (leaseZeroDoneS (.tile t) s) = _
  simp [leaseZeroDoneS, zeroing, due, Tile.zeroed, State.zeroTile]

theorem exec_leaseZeroDone_range {s : State} {k base size n : Nat}
    (zeroing : (s.cluster k).zeroing.find? (fun z => z.1 == base && z.2.1 == size) = some (base, size, n)) (due : n ≤ s.cyc) :
    exec (.leaseZeroDone (.range k base size)) s = .next ((s.zeroMem (clusterAddr k + base * 0x100000) (size * 0x100000)).updCluster k fun x =>
      { x with zeroing := x.zeroing.erase (base, size, n) }) := by
  show Host.Outcome.next (leaseZeroDoneS (.range k base size) s) = _
  simp [leaseZeroDoneS, zeroing, due]

/-- A list of default values reads the default at every number. -/
theorem nth_replicate_default {α : Type} [Inhabited α] (n i : Nat) : nth (List.replicate n (default : α)) i = default := by
  rw [nth, List.getD_eq_getElem?_getD, List.getElem?_replicate]
  split <;> rfl

/-- Settles O30: the tile's array and books are read off what the commands leave, and memory through the ranges that they zero. -/
theorem clearingAndZeroingEnd : Obligations.ClearingAndZeroingEnd := by
  refine ⟨fun s t n clearing due => ?array, fun s t n zeroing due => ?scratch, fun s k base size n zeroing due => ?range⟩
  case array =>
    refine ⟨_, exec_tileClearDone clearing due, ?_⟩
    rw [State.tile_updTile_self]
    exact ⟨rfl, fun _ => rfl, rfl, rfl, rfl, rfl, fun k other => by rw [State.tile_updTile, if_neg other], rfl⟩
  case scratch =>
    refine ⟨_, exec_leaseZeroDone_tile zeroing due, ?_⟩
    have own : (((s.zeroTile t).updTile t fun x => x.zeroed s.up).debugAnswer (.tile t)).tile t = (s.tile t).zeroed s.up := by simp
    rw [own]
    refine ⟨rfl, nth_replicate_default 16, nth_replicate_default 8, fun a => ?_, fun k other => ?_, by simp, by simp⟩
    · simpa using s.rd_zeroTile t a
    · simp [State.tile_updTile, other]
  case range =>
    exact ⟨_, exec_leaseZeroDone_range zeroing due, by rw [State.cluster_updCluster_self]; rfl,
      fun a => (State.rd_updCluster ..).trans (State.rd_zeroMem ..), rfl, rfl, rfl⟩

end Sys2Proof.Machine
end

section
/-! SUPPORT. What a command of the array leaves of the tiles, of memory and of the operations under way (R53 to R56, R60), and the checks that a
read passes while no injection is armed (R344, R352). -/
namespace Sys2Proof.Machine

open Sys2Proof

/-! ## One tile changes -/

/-- Of the tiles only tile `t` changes, to `x`; the operations are then `os`; memory and the clock are as before. -/
structure OnTile (t : Nat) (x : Tile) (os : List Op) (s u : State) : Prop where
  tile : u.tile t = x
  ops : u.ops = os
  others : ∀ k, k ≠ t → u.tile k = s.tile k
  cells : u.cells = s.cells
  cyc : u.cyc = s.cyc

theorem OnTile.refl (t : Nat) (s : State) : OnTile t (s.tile t) s.ops s s := ⟨rfl, rfl, fun _ _ => rfl, rfl, rfl⟩

section
variable {t : Nat} {x : Tile} {os : List Op} {s u : State} (h : OnTile t x os s u)
include h

theorem OnTile.updTile (f : Tile → Tile) : OnTile t (f x) os s (u.updTile t f) :=
  ⟨by rw [State.tile_updTile_self, h.tile], h.ops, fun k other => by rw [State.tile_updTile, if_neg other, h.others k other], h.cells, h.cyc⟩

theorem OnTile.updOp (id : Nat) (f : Op → Op) : OnTile t x (os.map fun o => if o.id == id then f o else o) s (u.updOp id f) :=
  ⟨h.tile, by rw [State.updOp, h.ops], h.others, h.cells, h.cyc⟩

theorem OnTile.takeAll : OnTile t x (u.takeAll t).ops s (u.takeAll t) := ⟨h.tile, rfl, h.others, h.cells, h.cyc⟩

end

/-! ## Accounts -/

/-- What most accounts are: they say nothing of the tiles, the operations, memory and the clock. -/
structure CountsOnly (s u : State) : Prop where
  tiles : u.tiles = s.tiles
  ops : u.ops = s.ops
  cells : u.cells = s.cells
  cycAcc : u.cycAcc = s.cycAcc

theorem OnTile.counts {t : Nat} {x : Tile} {os : List Op} {s u v : State} (h : OnTile t x os s u) (k : CountsOnly u v) : OnTile t x os s v := by
  have tile (n : Nat) : v.tile n = u.tile n := by rw [State.tile, State.tile, k.tiles]
  exact ⟨(tile t).trans h.tile, k.ops.trans h.ops, fun n other => (tile n).trans (h.others n other), k.cells.trans h.cells,
    by rw [State.cyc, k.cycAcc]; exact h.cyc⟩

section
variable (s : State)

theorem CountsOnly.incWrap (o hi lo n : Nat) : CountsOnly s (s.incWrap o hi lo n) := ⟨rfl, rfl, rfl, rfl⟩
theorem CountsOnly.energyEvent (c q k n : Nat) : CountsOnly s (s.energyEvent c q k n) := ⟨rfl, rfl, rfl, rfl⟩
theorem CountsOnly.tallyUp (c q n : Nat) : CountsOnly s (s.tallyUp c q n) := ⟨rfl, rfl, rfl, rfl⟩
theorem CountsOnly.workUp (c q k n : Nat) : CountsOnly s (s.workUp c q k n) := ⟨rfl, rfl, rfl, rfl⟩
theorem CountsOnly.countSat (l : LaneId) (a c : Nat) (nan : Bool) : CountsOnly s (s.countSat l a c nan) := ⟨rfl, rfl, rfl, rfl⟩
theorem CountsOnly.draw : CountsOnly s s.draw.2 := ⟨rfl, rfl, rfl, rfl⟩

theorem CountsOnly.stickyNan (c : Nat) (nan : Bool) : CountsOnly s (s.stickyNan c nan) := by
  unfold State.stickyNan
  split <;> exact ⟨rfl, rfl, rfl, rfl⟩

/-- Filler is counted in a register, in the Ledger, and with the launch or the context that it belongs to. -/
theorem CountsOnly.fillers (t n : Nat) : CountsOnly s (s.fillers t n) := by
  unfold State.fillers
  dsimp only
  split
  · split <;> exact ⟨rfl, rfl, rfl, rfl⟩
  · exact ⟨rfl, rfl, rfl, rfl⟩

end

/-! ## The activity of the array and the end of a gap (R68) -/

section
variable {t : Nat} {x : Tile} {os : List Op} {s u : State} (h : OnTile t x os s u)
include h

theorem OnTile.noteActivity (k n : Nat) : ∃ r, OnTile t { x with recent := r } os s (u.noteActivity t k n) := by
  have noted := h.updTile fun x => { x with recent := (x.recent.filter fun e => decide (u.up < e.1 + usT)) ++ [(u.up, k, n)] }
  exact ⟨_, noted⟩

theorem OnTile.settleGap : ∃ g, OnTile t { x with gap := g } os s (u.settleGap t) := by
  unfold State.settleGap
  split
  next g gap =>
    dsimp only
    split
    · exact ⟨x.gap, h⟩
    · have sent (n : Nat) := (h.counts (.draw u)).updTile fun x => { x with gap := some { g with sent := n } }
      exact ⟨_, (sent _).counts (.fillers ..)⟩
  next => exact ⟨x.gap, h⟩

/-- A gap that ends leaves the tile but for the gap and for its part in the activity of the last 1 us. -/
theorem OnTile.endGap : ∃ r, OnTile t { x with gap := none, recent := r } os s (u.endGap t) := by
  unfold State.endGap
  split
  next gap =>
    rw [h.tile] at gap
    exact ⟨x.recent, by rw [← gap]; exact h⟩
  next g gap =>
    dsimp only
    obtain ⟨g', settled⟩ := h.settleGap
    have closed := settled.updTile fun x => { x with gap := none }
    split_ifs
    · exact ⟨x.recent, closed⟩
    · exact closed.noteActivity _ _

end

/-! ## Operations by number -/

theorem State.opq_of_ops {s u : State} (h : u.ops = s.ops) (id : Nat) : u.op? id = s.op? id := by rw [State.op?, State.op?, h]

/-- An operation found by its number, in a list whose entries have changed but kept their numbers. -/
theorem State.opq_map {s u : State} {f : Op → Op} (h : u.ops = s.ops.map f) (keeps : ∀ o, (f o).id = o.id) (id : Nat) :
    u.op? id = (s.op? id).map f := by
  rw [State.op?, State.op?, h, List.find?_map]
  exact congrArg (Option.map f) (congrArg (List.find? · s.ops) (funext fun o => by rw [Function.comp, keeps]))

theorem State.opq_updOp_self {s : State} {id : Nat} {o : Op} (found : s.op? id = some o) {f : Op → Op} (keeps : ∀ p, (f p).id = p.id) :
    (s.updOp id f).op? id = some (f o) := by
  have num : o.id = id := by simpa using List.find?_some found
  rw [State.opq_map (s := s) (u := s.updOp id f) rfl (fun p => by split <;> simp [keeps]) id, found]
  simp [num]

/-! ## Readers take their slots (R151) -/

/-- An operation that may read the tile's slots, with those it can take. -/
def State.takes (s : State) (t : Nat) (o : Op) : Op :=
  if o.unit == .tile t && o.st == .running && bankSrc o.iw then s.takeSlots t o else o

theorem State.takeAll_ops (s : State) (t : Nat) : (s.takeAll t).ops = s.ops.map (s.takes t) := rfl

/-- Taking slots adds to the slots taken, and changes nothing else of an operation. -/
theorem State.takes_eq (s : State) (t : Nat) (o : Op) : ∃ more, s.takes t o = { o with slotsIn := o.slotsIn ++ more } := by
  unfold State.takes
  split
  · exact ⟨_, rfl⟩
  · exact ⟨[], by rw [List.append_nil]⟩

theorem State.takes_untaken (s : State) (t : Nat) (o : Op) : (s.takes t o).untaken = o.untaken := by
  obtain ⟨more, h⟩ := s.takes_eq t o
  rw [h]
  rfl

theorem State.takeAll_untaken (s : State) (t : Nat) : (s.takeAll t).ops.map Op.untaken = s.ops.map Op.untaken := by
  rw [State.takeAll_ops, List.map_map]
  exact congrArg (List.map · s.ops) (funext (s.takes_untaken t))

@[simp] theorem State.takes_id (s : State) (t : Nat) (o : Op) : (s.takes t o).id = o.id := by
  obtain ⟨more, h⟩ := s.takes_eq t o
  rw [h]

/-- An operation of the array takes no slot: it is vector operations that read them. -/
theorem State.takes_isArm {t k : Nat} {o : Op} (arm : o.isArm t k = true) (s : State) : s.takes t o = o := by
  have cls : iCls o.iw = 8 := by
    simp only [Op.isArm, Bool.and_eq_true, beq_iff_eq] at arm
    exact arm.1.2
  unfold State.takes
  rw [if_neg (by simp [bankSrc, cls])]

/-! ## Checks of what is read, while no injection is armed (R113, R344, R352) -/

section
variable {s : State} (unarmed : s.inject = none)
include unarmed

theorem State.readFor_unarmed (o : Op) (a : Nat) : s.readFor o a = (true, s) := by
  have checked : s.checkScr (some (o.ctx, o.gen)) (some o.seq) a = (true, s) := by
    rw [State.checkScr, unarmed]
    cases s.scrHit a <;> rfl
  rw [State.readFor, checked]
  rfl

theorem State.readAll_unarmed (o : Op) (l : List Nat) : s.readAll o l = (true, s) := by
  induction l with
  | nil => rfl
  | cons a r ih => rw [State.readAll, State.readFor_unarmed unarmed]; exact ih

theorem State.tableError_unarmed (t : Nat) (o : Op) (a : Nat) : s.tableError t o a = (false, s) := by
  rw [State.tableError, injHits_none unarmed]; rfl

theorem State.takeTagFlip_unarmed (t : Nat) : s.takeTagFlip t = (false, s) := by
  rw [State.takeTagFlip, injHits_none unarmed]; rfl

theorem State.bankError_unarmed (t : Nat) (o : Op) (key : Nat) : s.bankError t o key = (false, s) := by
  rw [State.bankError, injHits_none unarmed]; rfl

end

end Sys2Proof.Machine
end

section
/-! SUPPORT. A row quad that enters (R47, R53 to R56, R61): what stands in the way of it before and after readers have taken their slots, and what it
leaves of the tile. -/
namespace Sys2Proof.Machine

open Sys2Proof

/-! ## Once readers have taken their slots (R52, R151) -/

/-- What does not look at the slots that an operation has taken. -/
theorem State.takes_keeps {α : Type} {f : Op → α} (h : ∀ o l, f { o with slotsIn := l } = f o) (s : State) (t : Nat) (o : Op) :
    f (s.takes t o) = f o := by
  obtain ⟨more, e⟩ := s.takes_eq t o
  rw [e, h]

theorem State.streamOf_takeAll (s : State) (t : Nat) : (s.takeAll t).streamOf t = s.streamOf t := by
  have keeps := funext (s.takes_keeps (f := fun o => o.isArm t 2 && o.st == .running && decide (o.done < o.total)) (fun _ _ => rfl) t)
  rw [State.streamOf, State.takeAll_ops, List.find?_map, Function.comp_def, keeps, ← State.streamOf]
  cases stream : s.streamOf t with
  | none => rfl
  | some o =>
    have found := List.find?_some stream
    simp only [Bool.and_eq_true] at found
    rw [Option.map_some, State.takes_isArm found.1.1]

theorem State.loadAhead_takeAll (s : State) (t : Nat) (o : Op) : (s.takeAll t).loadAhead t o = s.loadAhead t o := by
  have keeps := funext (s.takes_keeps (f := fun p => p.isArm t 1 && decide (p.id < o.id) && p.done == 0) (fun _ _ => rfl) t)
  rw [State.loadAhead, State.takeAll_ops, List.any_map, Function.comp_def, keeps, ← State.loadAhead]

theorem State.writerOf_takeAll (s : State) (t id key : Nat) : (s.takeAll t).writerOf t id key = (s.writerOf t id key).map (s.takes t) := by
  have keeps := funext (s.takes_keeps (f := fun p => p.unit == .tile t && iCls p.iw == 8 && iOp p.iw == 2 && p.mode.kind != 2 && decide (p.id < id) &&
    key / 128 == tCtl p.iw 20 18 && decide ((key % 128 + 128 - p.slotNo % 128) % 128 < p.total)) (fun _ _ => rfl) t)
  rw [State.writerOf, State.takeAll_ops, List.filter_map, Function.comp_def, keeps, List.getLast?_map, ← State.writerOf]

/-- A reader that has taken more slots holds no slot that it did not hold before. -/
theorem State.slotHeld_of_takeAll {s : State} {t : Nat} {o : Op} {q key : Nat} (held : (s.takeAll t).slotHeld t o q key = true) :
    s.slotHeld t o q key = true := by
  simp only [State.slotHeld, State.takeAll_ops, List.any_map, List.any_eq_true, Function.comp_apply, Bool.and_eq_true] at held ⊢
  obtain ⟨p, mem, unit, k, waits, blocks⟩ := held
  obtain ⟨more, e⟩ := s.takes_eq t p
  refine ⟨p, mem, by rw [← unit, e], k, ?_, ?_⟩
  · rw [e, List.length_append] at waits
    exact List.drop_subset_drop_left _ (Nat.le_add_right ..) waits
  · rw [State.writerOf_takeAll, State.takes_id, Option.any_map] at blocks
    simpa using blocks

theorem State.mayEnter_takeAll {s : State} {t : Nat} {o : Op} (may : s.mayEnter t o = true) : (s.takeAll t).mayEnter t o = true := by
  simp only [State.mayEnter, Bool.and_eq_true, List.all_eq_true] at may ⊢
  obtain ⟨spaced, free⟩ := may
  refine ⟨by rw [State.loadAhead_takeAll]; exact spaced, fun k mem => ?_⟩
  have free := free k mem
  rw [Bool.not_eq_true', Bool.eq_false_iff] at free ⊢
  exact mt State.slotHeld_of_takeAll free

/-! ## The flights of a row quad (R47, R50, R53, R55) -/

/-- What row quad `o.done` of a stream sends on its way in cycle `cyc`: in WS and IS itself, in the 16-bit class row by row; in OS nothing, but
the sixteen groups of its set with the last row quad of a pass that is not continued. -/
structure Op.Sends (o : Op) (cyc : Nat) (fs : List Flight) : Prop where
  names : ∀ f ∈ fs, f.op = o.id ∧ f.bank = o.slotNo / 128 ∧ f.acc = bit o.iw.w 17
  streamed : o.mode.kind ≠ 2 → fs.length = (if o.mode.cls = 16 then 4 else 1) ∧
    ∀ (r : Nat) (f : Flight), fs[r]? = some f → f.ready = cyc + 40 + r ∧ f.slot = (o.slotNo % 128 + o.done) % 128 ∧
      f.rows = (if o.mode.cls = 16 then [r] else [0, 1, 2, 3])
  outer : o.mode.kind = 2 → fs.length = (if o.done + 1 = o.total ∧ bit o.iw.w 16 = false then 16 else 0) ∧
    ∀ (g : Nat) (f : Flight), fs[g]? = some f → f.ready = cyc + 40 + g ∧ f.slot = (o.slotNo % 128 + g) % 128 ∧ f.rows = [0, 1, 2, 3]

theorem eq_of_getElem?_range {n i k : Nat} (h : (List.range n)[i]? = some k) : k = i := by
  rw [List.getElem?_eq_some_iff] at h
  obtain ⟨lt, rfl⟩ := h
  exact List.getElem_range lt

theorem Op.Sends.quadFlights {o : Op} (kind : o.mode.kind ≠ 2) (cyc : Nat) (int : Bool) (vals : List (List Int)) :
    o.Sends cyc (o.quadFlights cyc o.done int vals) := by
  unfold Op.quadFlights
  by_cases wide : o.mode.cls = 16
  · rw [if_pos (beq_iff_eq.mpr wide)]
    refine ⟨fun f mem => ?_, fun _ => ⟨by simp [wide], fun r f at_ => ?_⟩, fun h => absurd h kind⟩
    · obtain ⟨r, -, rfl⟩ := List.mem_map.mp mem
      exact ⟨rfl, rfl, rfl⟩
    · rw [List.getElem?_map, Option.map_eq_some_iff] at at_
      obtain ⟨n, num, rfl⟩ := at_
      obtain rfl := eq_of_getElem?_range num
      exact ⟨rfl, rfl, by rw [if_pos wide]⟩
  · rw [if_neg (mt beq_iff_eq.mp wide)]
    refine ⟨fun f mem => ?_, fun _ => ⟨by simp [wide], fun r f at_ => ?_⟩, fun h => absurd h kind⟩
    · obtain rfl := List.mem_singleton.mp mem
      exact ⟨rfl, rfl, rfl⟩
    · cases r with
      | zero =>
        obtain rfl := Option.some.inj at_
        exact ⟨rfl, rfl, by rw [if_neg wide]⟩
      | succ r => cases at_

/-- The accumulator set of an OS pass after a row quad: the last one of the pass leaves the chain open, or closes the set. -/
def Tile.afterOuter (x : Tile) (o : Op) (cyc : Nat) (int : Bool) : Tile :=
  if !(o.done + 1 == o.total) then x
  else if bit o.iw.w 16 then { x with chain := some ⟨o.slotNo / 128, o.slotNo % 128, bit o.iw.w 17, dFmt o.da, dFmt o.db, o.id⟩ }
  else x.closeSet o.id (o.slotNo / 128) (o.slotNo % 128) (bit o.iw.w 17) int o.mode.slotInt (cyc + 40)

/-- The tile after a row quad has gone into the array: it has sent `fs`, and its banks and its gap are as before. -/
structure Tile.Sent (x : Tile) (fs : List Flight) (y : Tile) : Prop where
  flights : y.flights = x.flights ++ fs
  banks : y.banks = x.banks
  gap : y.gap = x.gap

theorem Tile.sent_beginPass (x : Tile) (o : Op) (cyc : Nat) (int : Bool) : x.Sent [] (x.beginPass o cyc int) := by
  unfold Tile.beginPass
  dsimp only
  split
  · split <;> exact ⟨(List.append_nil _).symm, rfl, rfl⟩
  · split <;> exact ⟨(List.append_nil _).symm, rfl, rfl⟩

theorem Tile.sent_afterOuter {o : Op} (kind : o.mode.kind = 2) (x : Tile) (cyc : Nat) (int : Bool) :
    ∃ fs, x.Sent fs (x.afterOuter o cyc int) ∧ o.Sends cyc fs := by
  have nothing (h : ¬ (o.done + 1 = o.total ∧ bit o.iw.w 16 = false)) : o.Sends cyc [] :=
    ⟨fun f mem => absurd mem List.not_mem_nil, fun h => absurd kind h, fun _ => ⟨by rw [if_neg h]; rfl, fun g f at_ => by simp at at_⟩⟩
  by_cases last : o.done + 1 = o.total
  case neg =>
    refine ⟨[], ?_, nothing fun h => last h.1⟩
    rw [Tile.afterOuter, if_pos (by simp [last])]
    exact ⟨(List.append_nil _).symm, rfl, rfl⟩
  cases continued : bit o.iw.w 16
  case true =>
    refine ⟨[], ?_, nothing fun h => by simp [continued] at h⟩
    rw [Tile.afterOuter, if_neg (by simp [last]), if_pos continued]
    exact ⟨(List.append_nil _).symm, rfl, rfl⟩
  case false =>
    rw [Tile.afterOuter, if_neg (by simp [last]), if_neg (by simp [continued])]
    refine ⟨_, ⟨rfl, rfl, rfl⟩, fun f mem => ?_, fun h => absurd kind h, fun _ => ⟨by simp [last, continued], fun g f at_ => ?_⟩⟩
    · obtain ⟨g, -, rfl⟩ := List.mem_map.mp mem
      exact ⟨rfl, rfl, rfl⟩
    · rw [List.getElem?_map, Option.map_eq_some_iff] at at_
      obtain ⟨n, num, rfl⟩ := at_
      obtain rfl := eq_of_getElem?_range num
      exact ⟨rfl, rfl, rfl⟩

/-! ## The entry in its three parts -/

/-- The array as a row quad meets it: the tile's gap is over, and the first row quad of a pass has begun it. -/
def State.meetsQuad (s : State) (t : Nat) (o : Op) : State :=
  if o.done == 0 then (s.endGap t).updTile t fun x => x.beginPass o (s.endGap t).cyc ((s.endGap t).passPath t o) else s.endGap t

/-- The path that a row quad takes, which its pass sampled with its first. -/
def State.quadPath (s : State) (t : Nat) (o : Op) : Bool := if o.done == 0 then (s.endGap t).passPath t o else ((s.endGap t).tile t).passInt

/-- A row quad that has gone into the array is counted: by its tile, its operation, the array's counter, the Ledger and its launch. -/
def State.countsQuad (s : State) (t : Nat) (o : Op) (sats infs : Nat) : State :=
  let s := (s.updTile t fun x => { x with lastEntry := s.cyc }).updOp o.id fun p => { p with done := o.done + 1 }
  let s := s.incWrap (Reg.sthArmBusy (t / 4) (t % 4)) 63 0 o.mode.cyc
  let k := if o.mode.cls == 16 then 1 else 0
  let s := ((s.noteActivity t k 1).energyEvent o.ctx o.seq k 1).energyEvent o.ctx o.seq 5 4
  ((s.tallyUp o.ctx o.seq 1).workUp o.ctx o.seq 0 1).countSat o.lane sats infs false

theorem State.enterQuad_streamed {o : Op} (kind : o.mode.kind ≠ 2) (s : State) (t : Nat) : ∃ vals sats infs,
    s.enterQuad t o = ((s.meetsQuad t o).updTile t fun x =>
      { x with flights := x.flights ++ o.quadFlights (s.meetsQuad t o).cyc o.done (s.quadPath t o) vals }).countsQuad t o sats infs := by
  have kind : (o.mode.kind == 2) = false := beq_false_of_ne kind
  unfold State.enterQuad State.meetsQuad State.quadPath
  by_cases first : o.done == 0
  · simp only [first, kind]
    exact ⟨_, _, _, rfl⟩
  · simp only [first, kind]
    exact ⟨_, _, _, rfl⟩

theorem State.enterQuad_outer {o : Op} (kind : o.mode.kind = 2) (s : State) (t : Nat) : ∃ set sats infs,
    s.enterQuad t o = (((s.meetsQuad t o).updTile t fun x => x.setSet set).updTile t fun x =>
      x.afterOuter o (s.meetsQuad t o).cyc (s.quadPath t o)).countsQuad t o sats infs := by
  have kind : (o.mode.kind == 2) = true := beq_iff_eq.mpr kind
  unfold State.enterQuad State.meetsQuad State.quadPath
  by_cases first : o.done == 0
  · simp only [first, kind]
    exact ⟨_, _, _, rfl⟩
  · simp only [first, kind]
    exact ⟨_, _, _, rfl⟩

end Sys2Proof.Machine
end

section
/-! SUPPORT. A launch stopped by an exception of its one operation, where that is the array's (R155), and values put into a tile's banks (R50, R51). -/
namespace Sys2Proof.Machine

open Sys2Proof

/-! ## Stopping (R155) -/

/-- What the lead of a gang tells its members is sent, and changes nothing else. -/
theorem State.tell_eq (s : State) (c : Nat) (m : GangMsg) (l : List Nat) : ∃ out, s.tell c m l = { s with out := out } := by
  induction l generalizing s with
  | nil => exact ⟨s.out, rfl⟩
  | cons k r ih =>
    obtain ⟨out, eq⟩ := ih (s.emit (.gangTell k c m))
    exact ⟨out, eq⟩

/-- A launch that stops: lanes stop issuing, its stage is STOPPING, and each of its operations is stopped. -/
theorem State.stopLaunch_eq (s : State) (c q : Nat) : ∃ out lanes, s.stopLaunch c q =
    (({ s with out := out, lanes := lanes } : State).updLaunch c q fun l => { l with stage := .stopping }).stopOps (s.ops.filter fun o => o.of c q) := by
  unfold State.stopLaunch
  split
  next l found =>
    dsimp only
    split
    · exact ⟨s.out, _, rfl⟩
    · obtain ⟨out, eq⟩ := s.tell_eq c (.stop q) l.gangLeft
      rw [eq]
      exact ⟨out, _, rfl⟩
  next => exact ⟨s.out, _, rfl⟩

/-- An operation of the array that stops leaves the operations, or enters no further row quad; nothing else changes. -/
theorem State.stopOp_array {o : Op} {t : Nat} (unit : o.unit = .tile t) (cls : iCls o.iw = 8) (s : State) : ∃ os, s.stopOp o = { s with ops := os } := by
  unfold State.stopOp
  rw [unit]
  cases st : o.st with
  | finished => exact ⟨s.ops, rfl⟩
  | queued => exact ⟨_, rfl⟩
  | running =>
    dsimp only
    split_ifs with vector
    · simp [cls] at vector
    · exact ⟨_, rfl⟩
    · exact ⟨_, rfl⟩
    · exact ⟨_, rfl⟩
    · exact ⟨_, rfl⟩
    · exact ⟨s.ops, rfl⟩

theorem Ctx.launch?_updLaunch {c : Ctx} {q : Nat} {x : Launch} (found : c.launch? q = some x) {f : Launch → Launch} (keeps : ∀ y, (f y).seq = y.seq) :
    (c.updLaunch q f).launch? q = some (f x) := by
  have num : x.seq = q := by simpa using List.find?_some found
  have same : ((fun l : Launch => l.seq == q) ∘ fun l => if l.seq == q then f l else l) = fun l => l.seq == q := by
    funext l
    dsimp only [Function.comp]
    split <;> simp [keeps]
  rw [Ctx.launch?, Ctx.updLaunch, List.find?_map, same, ← Ctx.launch?, found]
  simp [num]

/-- An exception of an operation of the array, the only one under way, for a launch that is not decided: the launch stops, with the exception as its
latest. -/
theorem State.raiseOp_alone {s : State} {o : Op} {t : Nat} {x : Launch} (alone : s.ops = [o]) (unit : o.unit = .tile t) (cls : iCls o.iw = 8)
    (launch : (s.ctx o.ctx).launch? o.seq = some x) (undecided : x.decision = none) (code arg operand tile : Nat) :
    ∃ y, (s.raiseOp o code arg operand tile).tiles = s.tiles ∧ (s.raiseOp o code arg operand tile).cells = s.cells ∧
      ((s.raiseOp o code arg operand tile).ctx o.ctx).launch? o.seq = some y ∧ y.stage = .stopping ∧
      y.excs.getLast?.map (fun e => e.exc) = some ⟨code, o.pc, arg, operand, tile⟩ := by
  let e : ExcRep := ⟨s.bell.now, 16 * s.gangM + s.clusterOrd o.ctx o.lane.cl, o.id, ⟨code, o.pc, arg, operand, tile⟩⟩
  have raised : s.raiseOp o code arg operand tile =
      (s.updLaunch o.ctx o.seq fun l => { l with excs := l.excs ++ [e] }).stopLaunch o.ctx o.seq := by
    rw [State.raiseOp, State.raiseAt, launch]
    simp [undecided, e]
  have own : (s.updLaunch o.ctx o.seq fun l => { l with excs := l.excs ++ [e] }).ops.filter (fun p => p.of o.ctx o.seq) = [o] := by
    rw [State.updLaunch_ops, alone]
    simp [Op.of]
  obtain ⟨out, lanes, stops⟩ := (s.updLaunch o.ctx o.seq fun l => { l with excs := l.excs ++ [e] }).stopLaunch_eq o.ctx o.seq
  obtain ⟨os, stopped⟩ := State.stopOp_array unit cls (({ s.updLaunch o.ctx o.seq (fun l => { l with excs := l.excs ++ [e] }) with
    out := out, lanes := lanes } : State).updLaunch o.ctx o.seq fun l => { l with stage := .stopping })
  rw [raised, stops, own, State.stopOps, State.stopOps, stopped]
  refine ⟨{ x with excs := x.excs ++ [e], stage := .stopping }, rfl, rfl, ?_, rfl, by simp [e]⟩
  have reported := Ctx.launch?_updLaunch launch (f := fun l => { l with excs := l.excs ++ [e] }) fun _ => rfl
  have stopping := Ctx.launch?_updLaunch reported (f := fun l => { l with stage := .stopping }) fun _ => rfl
  simpa [State.ctx, State.updLaunch, State.updCtx] using stopping

/-! ## Values put into the banks (R50, R51) -/

theorem sparseGet_putBanks {is : List Nat} (distinct : is.Nodup) (b : Sparse (BitVec 32)) (key : Nat) (v : Nat → BitVec 32) (k : Nat) :
    sparseGet 0 (putBanks b (is.map fun i => (key + i, v i))) k = if key ≤ k ∧ k - key ∈ is then v (k - key) else sparseGet 0 b k := by
  induction is generalizing b with
  | nil => simp [putBanks]
  | cons i is ih =>
    obtain ⟨new, distinct⟩ := List.nodup_cons.mp distinct
    have written : sparseGet 0 (sparseSet 0 b (key + i) (v i)) k = if k = key + i then v i else sparseGet 0 b k := by
      have listed : (if v i = 0 then 0 else v i) = v i := by
        split
        · exact Eq.symm ‹_›
        · rfl
      rw [sparseGet_set, listed]
    rw [List.map_cons, putBanks, ih distinct, written]
    by_cases here : k = key + i
    · subst here
      simp [new]
    · have other : ¬ (key ≤ k ∧ k - key = i) := by omega
      by_cases later : key ≤ k ∧ k - key ∈ is
      · simp [later]
      · rw [if_neg later, if_neg here, if_neg]
        rw [List.mem_cons]
        tauto

theorem Flight.mem_cellsIn (f : Flight) (i : Nat) : i ∈ f.cellsIn ↔ i < 256 ∧ i / 64 ∈ f.rows := by simp [Flight.cellsIn]

theorem Flight.nodup_cellsIn (f : Flight) : f.cellsIn.Nodup := List.nodup_range.filter _

/-- Value `i` of a slot once a flight has written it. -/
def State.landed (s : State) (t : Nat) (f : Flight) (i : Nat) : BitVec 32 :=
  BitVec.ofNat 32 (slotWrite f.isInt f.slotInt f.acc (s.bankBits t f.bank f.slot (i / 64) (i % 64)) ((nth f.vals (i / 64)).getD (i % 64) 0)).code

theorem State.landRows_cells (s : State) (t : Nat) (f : Flight) :
    (s.landRows t f).1 = f.cellsIn.map fun i => (f.bank * 32768 + f.slot * 256 + i, s.landed t f i) := by
  simp only [State.landRows, List.map_map]
  rfl

end Sys2Proof.Machine
end

section
/-! PROOFS. Row quads enter and come in force (O27), and shadow loads begin (O28). -/
namespace Sys2Proof.Machine

open Sys2Proof

/-! ## Entry (R51 to R56) -/

theorem exec_rowQuadEntry {s : State} {t : Nat} {o : Op} (stream : s.streamOf t = some o) (may : s.mayEnter t o = true) (unarmed : s.inject = none)
    (tagA : s.quadTag o (s.src o.ctx o.da o.scDa) o.done false = none)
    (tagB : o.mode.kind = 2 → s.quadTag o (s.src o.ctx o.db o.scDb) o.done false = none) :
    exec (.rowQuadEntry t) s = .next ((s.takeAll t).enterQuad t o) := by
  have unarmed' : (s.takeAll t).inject = none := unarmed
  have tagA' : (s.takeAll t).quadTag o ((s.takeAll t).src o.ctx o.da o.scDa) o.done false = none := tagA
  have tagB' : (if o.mode.kind == 2 then (s.takeAll t).quadTag o ((s.takeAll t).src o.ctx o.db o.scDb) o.done (false && !isMx (dFmt o.da))
      else none) = none := by
    split
    · exact tagB (beq_iff_eq.mp ‹_›)
    · rfl
  show Host.Outcome.next (rowQuadEntryS t s) = _
  unfold rowQuadEntryS
  simp only [State.streamOf_takeAll, stream, State.mayEnter_takeAll may, State.readAll_unarmed unarmed', State.tableError_unarmed unarmed',
    State.takeTagFlip_unarmed unarmed', ite_self, tagA', tagB', Bool.not_true, Bool.false_eq_true, if_false]

section
variable {t : Nat} {x : Tile} {os : List Op} {s u : State} (h : OnTile t x os s u)
include h

theorem OnTile.meetsQuad (o : Op) : ∃ y, OnTile t y os s (u.meetsQuad t o) ∧ y.flights = x.flights ∧ y.banks = x.banks ∧ y.gap = none := by
  obtain ⟨r, ended⟩ := h.endGap
  unfold State.meetsQuad
  split
  · have begun := ended.updTile fun x => x.beginPass o (u.endGap t).cyc ((u.endGap t).passPath t o)
    obtain ⟨flights, banks, gap⟩ := Tile.sent_beginPass { x with gap := none, recent := r } o (u.endGap t).cyc ((u.endGap t).passPath t o)
    exact ⟨_, begun, flights.trans (List.append_nil _), banks, gap⟩
  · exact ⟨_, ended, rfl, rfl, rfl⟩

theorem OnTile.countsQuad (o : Op) (sats infs : Nat) : ∃ r, OnTile t { x with lastEntry := u.cyc, recent := r }
    (os.map fun p => if p.id == o.id then { p with done := o.done + 1 } else p) s (u.countsQuad t o sats infs) := by
  have entered := ((h.updTile fun x => { x with lastEntry := u.cyc }).updOp o.id fun p => { p with done := o.done + 1 }).counts
    (.incWrap _ (Reg.sthArmBusy (t / 4) (t % 4)) 63 0 o.mode.cyc)
  obtain ⟨r, noted⟩ := entered.noteActivity (if o.mode.cls == 16 then 1 else 0) 1
  exact ⟨r, ((((noted.counts (.energyEvent ..)).counts (.energyEvent ..)).counts (.tallyUp ..)).counts (.workUp ..)).counts (.countSat ..)⟩

/-- A row quad that enters sends its flights, ends the tile's gap and leaves the banks alone. -/
theorem OnTile.enterQuad (o : Op) : ∃ y fs, OnTile t y (os.map fun p => if p.id == o.id then { p with done := o.done + 1 } else p) s (u.enterQuad t o) ∧
    y.flights = x.flights ++ fs ∧ y.banks = x.banks ∧ y.gap = none ∧ y.lastEntry = s.cyc ∧ o.Sends s.cyc fs := by
  obtain ⟨y, met, flights, banks, gap⟩ := h.meetsQuad o
  by_cases kind : o.mode.kind = 2
  · obtain ⟨set, sats, infs, eq⟩ := State.enterQuad_outer kind u t
    have summed := (met.updTile fun x => x.setSet set).updTile fun x => x.afterOuter o (u.meetsQuad t o).cyc (u.quadPath t o)
    obtain ⟨fs, ⟨f, b, g⟩, sends⟩ := Tile.sent_afterOuter kind (y.setSet set) (u.meetsQuad t o).cyc (u.quadPath t o)
    obtain ⟨r, counted⟩ := summed.countsQuad o sats infs
    rw [met.cyc] at sends
    rw [eq]
    exact ⟨_, fs, counted, f.trans (congrArg (· ++ fs) flights), b.trans banks, g.trans gap, met.cyc, sends⟩
  · obtain ⟨vals, sats, infs, eq⟩ := State.enterQuad_streamed kind u t
    have sent := met.updTile fun x => { x with flights := x.flights ++ o.quadFlights (u.meetsQuad t o).cyc o.done (u.quadPath t o) vals }
    obtain ⟨r, counted⟩ := sent.countsQuad o sats infs
    have sends := Op.Sends.quadFlights kind (u.meetsQuad t o).cyc (u.quadPath t o) vals
    rw [eq]
    exact ⟨_, _, counted, congrArg (· ++ _) flights, banks, gap, met.cyc, by rw [← met.cyc]; exact sends⟩

end

/-! ## Results (R50, R51, R53, R84) -/

theorem exec_rowQuadResult {s : State} {t : Nat} {f : Flight} (due : (s.tile t).flights.find? (fun f => decide (f.ready ≤ s.cyc)) = some f) :
    exec (.rowQuadResult t) s = .next (s.land t f) := by
  show Host.Outcome.next (rowQuadResultS t s) = _
  rw [rowQuadResultS, due]

/-- The array once a flight has left it. -/
def State.unflown (s : State) (t : Nat) (f : Flight) : State := s.updTile t fun x => { x with flights := (s.tile t).flights.erase f }

@[simp] theorem State.tile_unflown (s : State) (t : Nat) (f : Flight) :
    (s.unflown t f).tile t = { s.tile t with flights := (s.tile t).flights.erase f } := State.tile_updTile_self ..

theorem State.landed_unflown (s : State) (t : Nat) (f : Flight) (i : Nat) : (s.unflown t f).landed t f i = s.landed t f i := by
  simp only [State.landed, State.bankBits, State.tile_unflown]

/-- A tile with a flight's values in its slot; an overwrite that brings the slot's last row ends its poisoning. -/
def Tile.lands (x : Tile) (f : Flight) (cells : List (Nat × BitVec 32)) : Tile :=
  { x with banks := putBanks x.banks cells,
           poison := if f.acc || !f.rows.contains 3 then x.poison else x.poison.filter (· != f.bank * 128 + f.slot) }

/-- A pass that overwrites, or that accumulates on a slot that is not poisoned, puts its values in force. -/
theorem State.land_inForce {s : State} {t : Nat} {f : Flight} {o : Op} (found : s.op? f.op = some o)
    (free : f.acc = false ∨ (s.inject = none ∧ f.bank * 128 + f.slot ∉ (s.tile t).poison)) : ∃ n inf nan, s.land t f =
      (((((s.unflown t f).updTile t fun x => x.lands f ((s.unflown t f).landRows t f).1).countSat o.lane n inf nan).stickyNan o.ctx nan).takeAll t) := by
  have found' : (s.unflown t f).op? f.op = some o := found
  have clean : (f.acc && ((s.unflown t f).tile t).poison.contains (f.bank * 128 + f.slot)) = false := by
    rcases free with acc | ⟨-, clean⟩
    · rw [acc, Bool.false_and]
    · rw [State.tile_unflown, List.contains_eq_mem, decide_eq_false clean, Bool.and_false]
  have reads : (if f.acc then (s.unflown t f).bankError t o (f.bank * 128 + f.slot) else (false, s.unflown t f)) = (false, s.unflown t f) := by
    rcases free with acc | ⟨unarmed, -⟩
    · rw [acc, if_neg Bool.false_ne_true]
    · rw [State.bankError_unarmed (s := s.unflown t f) unarmed, ite_self]
  unfold State.unflown at found' clean reads
  unfold State.land State.unflown
  simp only [found', clean, reads, Bool.false_eq_true, if_false]
  exact ⟨_, _, _, rfl⟩

/-- A pass that accumulates on a poisoned slot ends with an exception. -/
theorem State.land_poisoned {s : State} {t : Nat} {f : Flight} {o : Op} (found : s.op? f.op = some o) (acc : f.acc = true)
    (poisoned : f.bank * 128 + f.slot ∈ (s.tile t).poison) : s.land t f = (s.unflown t f).raiseOp o xPOISONEDSLOT 0 0 0 := by
  have found' : (s.unflown t f).op? f.op = some o := found
  have marked : ((s.unflown t f).tile t).poison.contains (f.bank * 128 + f.slot) = true := by
    rw [State.tile_unflown]
    exact List.contains_iff_mem.mpr poisoned
  unfold State.unflown at found' marked
  unfold State.land State.unflown
  simp only [found', acc, marked, Bool.and_self, if_true]

theorem OnTile.land {s : State} {t : Nat} {f : Flight} {o : Op} (found : s.op? f.op = some o)
    (free : f.acc = false ∨ (s.inject = none ∧ f.bank * 128 + f.slot ∉ (s.tile t).poison)) :
    OnTile t (({ s.tile t with flights := (s.tile t).flights.erase f } : Tile).lands f ((s.unflown t f).landRows t f).1) (s.land t f).ops s (s.land t f) ∧
      (s.land t f).ops.map Op.untaken = s.ops.map Op.untaken := by
  obtain ⟨n, inf, nan, eq⟩ := State.land_inForce found free
  have put := ((((OnTile.refl t s).updTile fun x => { x with flights := (s.tile t).flights.erase f }).updTile fun x =>
    x.lands f ((s.unflown t f).landRows t f).1).counts (.countSat _ o.lane n inf nan)).counts (.stickyNan _ o.ctx nan)
  rw [eq]
  exact ⟨put.takeAll, (State.takeAll_untaken ..).trans (congrArg _ put.ops)⟩

/-- Settles O27: an entry is followed through its three parts; a result through the one update of the banks that it is; and on a poisoned slot
through the exception that stops its launch. -/
theorem rowQuads : Obligations.RowQuads := by
  refine ⟨fun s t o stream found may unarmed tagA tagB => ?entry, fun s t f o due found => ⟨fun free => ?lands,
    fun acc poisoned alone unit cls x launch undecided => ?poisoned⟩⟩
  case entry =>
    obtain ⟨y, fs, entered, flights, banks, gap, last, sends⟩ := (OnTile.refl t s).takeAll.enterQuad o
    have arm : o.isArm t 2 = true := by
      have := List.find?_some stream
      simp only [Bool.and_eq_true] at this
      exact this.1.1
    have op : ((s.takeAll t).enterQuad t o).op? o.id = some { o with done := o.done + 1 } := by
      have held : (s.takeAll t).op? o.id = some o := by
        rw [State.opq_map (State.takeAll_ops s t) (s.takes_id t), found, Option.map_some, State.takes_isArm arm]
      exact (State.opq_of_ops (s := (s.takeAll t).updOp o.id fun p => { p with done := o.done + 1 }) entered.ops o.id).trans
        (State.opq_updOp_self held fun _ => rfl)
    refine ⟨_, fs, exec_rowQuadEntry stream may unarmed tagA tagB, by rw [op]; rfl, ?_⟩
    rw [entered.tile]
    exact ⟨flights, last, gap, banks, entered.others, entered.cells, sends.names, sends.streamed, sends.outer⟩
  case lands =>
    obtain ⟨put, ops⟩ := OnTile.land found free
    have written (k : Nat) := sparseGet_putBanks f.nodup_cellsIn (s.tile t).banks (f.bank * 32768 + f.slot * 256) ((s.unflown t f).landed t f) k
    rw [← State.landRows_cells] at written
    refine ⟨_, exec_rowQuadResult due, ?_⟩
    rw [put.tile]
    refine ⟨fun i hi => (written _).trans ?_, fun k outside => (written k).trans (if_neg ?_), fun acc last => ?_, rfl, put.others, put.cells, ops⟩
    · rw [State.landed_unflown, Nat.add_sub_cancel_left]
      exact if_congr (by simp [Flight.mem_cellsIn, hi]) rfl rfl
    · rw [Flight.mem_cellsIn]
      omega
    · simp [Tile.lands, acc, last]
  case poisoned =>
    obtain ⟨y, tiles, cells, listed, stage, latest⟩ := State.raiseOp_alone (s := s.unflown t f) alone unit cls launch undecided xPOISONEDSLOT 0 0 0
    rw [← State.land_poisoned found acc poisoned] at tiles cells listed
    refine ⟨_, y, exec_rowQuadResult due, ?_, cells, listed, stage, ?_⟩
    · rw [State.tile, tiles, ← State.tile, State.tile_unflown]
    · obtain ⟨e, last, exc⟩ := Option.map_eq_some_iff.mp latest
      rw [last, Option.map_some, exc]
      rfl

/-! ## Shadow loads (R60, R64, R166) -/

/-- The cycle in which a load that begins now is complete. -/
def State.loadEnd (s : State) (t : Nat) (o : Op) : Nat := s.cyc + (if o.mode.cls == 16 then 47 else 31) + (s.tile t).delta 15

/-- A tile whose shadows take an operand. -/
def Tile.loading (x : Tile) (a : Stat) (cyc fin : Nat) (wide : Bool) : Tile :=
  { x with shadow := some a, loadStart := cyc, loadDone := fin, loadWide := wide, loads := ((cyc, wide, a) :: x.loads).take 4 }

/-- A load of the operand `a` has begun, and is counted. -/
def State.beginsLoad (s : State) (t : Nat) (o : Op) (a : Stat) (infs : Nat) : State :=
  (((s.updTile t fun x => x.loading a s.cyc (s.loadEnd t o) (o.mode.cls == 16)).updOp o.id fun p =>
    { p with done := 1, tick := s.loadEnd t o }).energyEvent o.ctx o.seq 3 16).countSat o.lane 0 infs false

theorem exec_armShadowLoad {s : State} {t : Nat} {o : Op} (load : s.loadOf t = some o) (may : s.mayLoad t o = true) (unarmed : s.inject = none)
    (tag : s.badTag (s.src o.ctx o.da o.scDa) false = none) : ∃ a infs, exec (.armShadowLoad t) s = .next (s.beginsLoad t o a infs) := by
  show ∃ a infs, Host.Outcome.next (armShadowLoadS t s) = _
  unfold armShadowLoadS
  simp only [load, may, State.readAll_unarmed unarmed, State.tableError_unarmed unarmed, State.takeTagFlip_unarmed unarmed, ite_self, tag,
    Bool.not_true, Bool.false_eq_true, if_false]
  exact ⟨_, _, rfl⟩

theorem OnTile.beginsLoad (s : State) (t : Nat) (o : Op) (a : Stat) (infs : Nat) :
    OnTile t ((s.tile t).loading a s.cyc (s.loadEnd t o) (o.mode.cls == 16)) (s.updOp o.id fun p => { p with done := 1, tick := s.loadEnd t o }).ops s
      (s.beginsLoad t o a infs) :=
  ((((OnTile.refl t s).updTile fun x => x.loading a s.cyc (s.loadEnd t o) (o.mode.cls == 16)).updOp o.id fun p =>
    { p with done := 1, tick := s.loadEnd t o }).counts (.energyEvent _ o.ctx o.seq 3 16)).counts (.countSat _ o.lane 0 infs false)

/-- 16 or 32 cycles and the skew after its first, and one more past a faulty row (R60, R64). -/
theorem State.loadEnd_eq (s : State) (t : Nat) (o : Op) : s.loadEnd t o = s.cyc + (if o.mode.cls = 16 then 47 else 31) +
    (match (s.tile t).faulty with | some r => if r ≤ 15 then 1 else 0 | none => 0) := by
  have class16 : (if o.mode.cls == 16 then 47 else 31) = if o.mode.cls = 16 then 47 else 31 := if_congr beq_iff_eq rfl rfl
  rw [State.loadEnd, class16]
  rfl

/-- Settles O28: the load is one update of its tile and one of its operation; the rest is counted. -/
theorem shadowLoadBegins : Obligations.ShadowLoadBegins := by
  intro s t o load found may unarmed tag
  obtain ⟨a, infs, begins⟩ := exec_armShadowLoad load may unarmed tag
  have begun := OnTile.beginsLoad s t o a infs
  have op := (State.opq_of_ops begun.ops o.id).trans (State.opq_updOp_self found fun _ => rfl)
  refine ⟨_, begins, ?_⟩
  rw [begun.tile, op]
  exact ⟨rfl, rfl, s.loadEnd_eq t o, rfl, rfl, rfl, begun.others, begun.cells⟩

end Sys2Proof.Machine
end

section
/-! PROOFS. Bytes stored read as stored (O3). -/
namespace Sys2Proof.Machine

open Sys2Proof

/-- The bytes stored from an address upwards are the bytes read back from there. -/
theorem State.rdBytes_wrBytes (s : State) (a : Nat) (bs : List Byte) : (s.wrBytes a bs).rdBytes a bs.length = bs := by
  apply List.ext_getElem (by simp [State.rdBytes])
  intro i _ inside
  have stored : (s.wrBytes a bs).rd (a + i) = bs[i] := by
    rw [State.rd_wrBytes, if_pos (by omega), Nat.add_sub_cancel_left, List.getD_eq_getElem _ _ inside]
  simpa [State.rdBytes] using stored

/-- A store changes the memory's bytes and nothing else. -/
theorem State.wrBytes_frame (s : State) (a : Nat) (bs : List Byte) : { s.wrBytes a bs with cells := s.cells } = s := by
  induction bs generalizing s a with
  | nil => rfl
  | cons b r ih => exact congrArg (fun t : State => { t with cells := s.cells }) (ih (s.wr a b) (a + 1))

/-- Settles O3: each part is a law of a run of stores, by induction over its bytes. -/
theorem memoryReadAfterWrite : Obligations.MemoryReadAfterWrite := fun s a bs =>
  ⟨s.rd_wrBytes a bs, congrArg leNat (s.rdBytes_wrBytes a bs), Memory.wf_wrBytes s a bs, s.wrBytes_frame a bs⟩

end Sys2Proof.Machine
end

section
/-! PROOFS. Books and tables are judged when a write completes (O31). -/
namespace Sys2Proof.Machine

open Sys2Proof

/-- A tile whose book `b` has been found valid or not, and sorted or not. -/
def Tile.judgesBook (x : Tile) (b : Nat) (valid sorted : Bool) : Tile :=
  { x with books := put x.books b (valid, valid && sorted), bookDirty := x.bookDirty.erase b }

/-- A tile whose table `n` has been found valid or not. -/
def Tile.judgesTable (x : Tile) (n : Nat) (valid : Bool) : Tile :=
  { x with tables := put x.tables n valid, tableDirty := x.tableDirty.erase n }

theorem exec_bookWriteValidate {s : State} {t b : Nat} (written : b ∈ (s.tile t).bookDirty) :
    exec (.bookWriteValidate t b) s = .next (s.updTile t fun x => x.judgesBook b (s.bookValid t b) (s.bookSorted t b)) :=
  congrArg Host.Outcome.next (if_pos (List.contains_iff_mem.mpr written))

theorem exec_tableWriteValidate {s : State} {t n : Nat} (written : n ∈ (s.tile t).tableDirty) :
    exec (.tableWriteValidate t n) s = .next (s.updTile t fun x => x.judgesTable n (s.tableValid t n)) :=
  congrArg Host.Outcome.next (if_pos (List.contains_iff_mem.mpr written))

/-- Settles O31: a judgement is one update of its tile, which puts one slot of its list. -/
theorem booksAndTablesAreJudged : Obligations.BooksAndTablesAreJudged := by
  refine ⟨fun s t b written => ⟨_, exec_bookWriteValidate written, ?book⟩, fun s t n written => ⟨_, exec_tableWriteValidate written, ?table⟩⟩
  case book =>
    rw [State.tile_updTile_self]
    exact ⟨nth_put_self .., fun n other => by rw [Tile.judgesBook, nth_put, if_neg other], rfl,
      fun k other => by rw [State.tile_updTile, if_neg other], rfl⟩
  case table =>
    rw [State.tile_updTile_self]
    exact ⟨nth_put_self .., fun m other => by rw [Tile.judgesTable, nth_put, if_neg other], rfl,
      fun k other => by rw [State.tile_updTile, if_neg other], rfl⟩

end Sys2Proof.Machine
end

section
/-! PROOFS. A calibration event shows in the context's numeric status and raises attention where the launch asked (O26). -/
namespace Sys2Proof.Machine

open Sys2Proof

/-! ## Fields beside the bits that are set or replaced -/

/-- A field reads as before where another one is replaced. -/
theorem bits_setBits_disjoint (w : Word) {hi lo hi' lo' : Nat} (v : Nat) (hlo : lo ≤ hi) (hhi : hi < 64) (apart : hi' < lo ∨ hi < lo') :
    bits (setBits w hi lo v) hi' lo' = bits w hi' lo' :=
  bits_congr fun i h1 h2 => by rw [getLsbD_setBits _ _ _ _ _ hlo hhi, if_neg (by omega)]

/-- A field keeps its value where bits beside it are set. -/
theorem State.bits_setBitsIn_of_misses (s : State) (o : Nat) {m hi lo : Nat} (misses : maskAnd m (maskNat hi lo) = 0) :
    bits ((s.setBitsIn o m).reg o) hi lo = bits (s.reg o) hi lo := by
  rw [State.reg_setBitsIn, if_pos rfl]
  exact bits_congr fun i h1 h2 => by
    rw [BitVec.getLsbD_or, BitVec.getLsbD_ofNat, testBit_of_misses misses h1 h2, Bool.and_false, Bool.or_false]

/-- A bit that is set reads 1. -/
theorem State.bits_setBitsIn_set (s : State) (o : Nat) {m i : Nat} (inWord : i < 64) (set : m.testBit i = true) :
    bits ((s.setBitsIn o m).reg o) i i = 1 := by
  have flag := s.flag_setBitsIn o m i inWord
  rw [set, Bool.or_true] at flag
  exact eq_of_beq flag

/-! ## The event (R101, R103) -/

/-- Whether the event of this lane is the first that the context's status shows: none is pending, and none was cleared in this cycle. -/
def State.firstCalib (s : State) (c : Nat) : Bool := !s.flag (Reg.ctxNumStatus c) 0 && !((s.ctx c).calibClr == some s.cyc)

theorem State.firstCalib_of_none {s : State} {c : Nat} (clear : bits (s.reg (Reg.ctxNumStatus c)) 0 0 = 0) (kept : (s.ctx c).calibClr ≠ some s.cyc) :
    s.firstCalib c = true := by
  simp [State.firstCalib, State.flag, bit, clear, kept]

theorem State.firstCalib_of_earlier {s : State} {c : Nat}
    (earlier : bits (s.reg (Reg.ctxNumStatus c)) 0 0 = 1 ∨ (s.ctx c).calibClr = some s.cyc) : s.firstCalib c = false := by
  rcases earlier with pending | cleared
  · simp [State.firstCalib, State.flag, bit, pending]
  · simp [State.firstCalib, cleared]

/-- The lane, its launch and its context have noted the event. -/
def State.notesCalib (s : State) (l : LaneId) : State :=
  ((s.updLane l fun x => { x with calib := true }).updLaunch (s.lane l).ctx (s.lane l).seq fun y => { y with calib := true }).updCtx (s.lane l).ctx
    fun y => { y with calibSet := some s.cyc }

/-- The status register at `o` shows an event; of the first, also its cluster, by ordinal (log entry 48), and its launch. -/
def State.showsCalib (s : State) (o : Nat) (first : Bool) (ord seq : Nat) : State :=
  (if first then (s.setFld o 11 8 ord).setFld o 47 32 seq else s).setBitsIn o 1

/-- The context's attention is raised for calibration where it is asked for. -/
def State.attendsCalib (s : State) (c : Nat) (irq : Bool) : State := if irq then s.setBitsIn (Reg.ctxAttn c) 4 else s

theorem exec_calibrationEvent {l : LaneId} {s : State} (runs : (s.lane l).st ≠ .idle) (unmarked : (s.lane l).calib = false)
    (enabled : 0 < (s.lane l).threshold) (reached : (s.lane l).threshold ≤ (s.lane l).accSat + (s.lane l).convSat) :
    exec (.calibrationEvent l) s = .next (((s.notesCalib l).showsCalib (Reg.ctxNumStatus (s.lane l).ctx) (s.firstCalib (s.lane l).ctx)
      (s.clusterOrd (s.lane l).ctx l.cl) (s.lane l).seq).attendsCalib (s.lane l).ctx (s.lane l).irqEn) := by
  have due : ((s.lane l).st == .idle || (s.lane l).calib || (s.lane l).threshold == 0 ||
      decide ((s.lane l).accSat + (s.lane l).convSat < (s.lane l).threshold)) = false := by
    simp [runs, unmarked, enabled.ne', reached]
  have clearedAt : (((s.updLane l fun x => { x with calib := true }).updLaunch (s.lane l).ctx (s.lane l).seq fun y =>
      { y with calib := true }).ctx (s.lane l).ctx).calibClr = (s.ctx (s.lane l).ctx).calibClr := by
    rw [State.ctx_updLaunch, if_pos rfl]
    rfl
  show Host.Outcome.next (calibrationEventS l s) = _
  simp only [calibrationEventS, due, clearedAt, Bool.false_eq_true, if_false]
  rfl

/-! ## What the event leaves -/

theorem RegsAndOut.lane {s t : State} (h : RegsAndOut s t) (l : LaneId) : t.lane l = s.lane l := by
  obtain ⟨r, o, rfl⟩ := h
  rfl

theorem RegsAndOut.cells {s t : State} (h : RegsAndOut s t) : t.cells = s.cells := by
  obtain ⟨r, o, rfl⟩ := h
  rfl

theorem RegsAndOut.ops {s t : State} (h : RegsAndOut s t) : t.ops = s.ops := by
  obtain ⟨r, o, rfl⟩ := h
  rfl

section
variable (s : State) (o : Nat) (first : Bool) (ord seq : Nat)

theorem RegsAndOut.showsCalib : RegsAndOut s (s.showsCalib o first ord seq) := by
  cases first with
  | false => exact .setReg s o _
  | true => exact ((RegsAndOut.setReg s o _).trans (.setReg _ o _)).trans (.setReg _ o _)

theorem SameRegs.showsCalib : SameRegs [o] s (s.showsCalib o first ord seq) := by
  cases first with
  | false => exact .setBitsIn s o 1
  | true => exact ((SameRegs.setFld s o 11 8 ord).trans (.setFld _ o 47 32 seq)).trans (.setBitsIn _ o 1)

theorem State.pending_showsCalib : bits ((s.showsCalib o first ord seq).reg o) 0 0 = 1 := State.bits_setBitsIn_set _ o (by decide) (by decide)

theorem State.cluster_showsCalib_first (isFirst : first = true) : bits ((s.showsCalib o first ord seq).reg o) 11 8 = ord % 2 ^ 4 := by
  rw [isFirst, State.showsCalib, State.bits_setBitsIn_of_misses _ o (by decide), if_pos rfl, State.reg_setFld_self,
    bits_setBits_disjoint _ _ (by decide) (by decide) (.inl (by decide)), State.reg_setFld_self, bits_setBits_same _ _ _ _ (by decide) (by decide)]

theorem State.launch_showsCalib_first (isFirst : first = true) : bits ((s.showsCalib o first ord seq).reg o) 47 32 = seq % 2 ^ 16 := by
  rw [isFirst, State.showsCalib, State.bits_setBitsIn_of_misses _ o (by decide), if_pos rfl, State.reg_setFld_self,
    bits_setBits_same _ _ _ _ (by decide) (by decide)]

theorem State.rest_showsCalib_later (later : first = false) : bits ((s.showsCalib o first ord seq).reg o) 63 1 = bits (s.reg o) 63 1 := by
  rw [later]
  exact State.bits_setBitsIn_of_misses s o (by decide)

end

section
variable (s : State) (c : Nat) (irq : Bool)

theorem RegsAndOut.attendsCalib : RegsAndOut s (s.attendsCalib c irq) := by
  cases irq with
  | false => exact .refl s
  | true => exact .setReg s _ _

theorem SameRegs.attendsCalib : SameRegs [Reg.ctxAttn c] s (s.attendsCalib c irq) := by
  cases irq with
  | false => exact .refl _ s
  | true => exact .setBitsIn s _ 4

theorem State.calibration_attendsCalib : bits ((s.attendsCalib c true).reg (Reg.ctxAttn c)) 2 2 = 1 :=
  State.bits_setBitsIn_set s _ (by decide) (by decide)

end

theorem State.calib_notesCalib (s : State) (l : LaneId) : ((s.notesCalib l).lane l).calib = true :=
  congrArg Lane.calib (s.lane_updLane_self l fun x => { x with calib := true })

theorem ctxNumStatus_ne_ctxAttn (c c' : Nat) : Reg.ctxNumStatus c ≠ Reg.ctxAttn c' := by
  simp only [Reg.ctxNumStatus, Reg.ctxAttn]
  omega

/-- Settles O26: the event is noted, shown in one register and attended to in another; each register is read past the step that leaves it. -/
theorem calibrationIsReported : Obligations.CalibrationIsReported := by
  intro l s runs unmarked enabled reached c
  let status := Reg.ctxNumStatus c
  let shown := (s.notesCalib l).showsCalib status (s.firstCalib c) (s.clusterOrd c l.cl) (s.lane l).seq
  have shows : SameRegs [status] s shown := SameRegs.showsCalib (s.notesCalib l) status _ _ _
  have attends : SameRegs [Reg.ctxAttn c] shown (shown.attendsCalib c (s.lane l).irqEn) := .attendsCalib shown c _
  have atStatus := attends status (by simpa using ctxNumStatus_ne_ctxAttn c c)
  have atAttn := shows (Reg.ctxAttn c) (by simpa using (ctxNumStatus_ne_ctxAttn c c).symm)
  have others : RegsAndOut (s.notesCalib l) (shown.attendsCalib c (s.lane l).irqEn) :=
    (RegsAndOut.showsCalib (s.notesCalib l) status _ _ _).trans (.attendsCalib shown c _)
  refine ⟨_, exec_calibrationEvent runs unmarked enabled reached, ?marked, ?pending, fun clear kept => ?first, fun earlier => ?later,
    fun o notStatus notAttn => ?sameRegs, fun asked => ?asked, fun unasked => ?unasked, ?cells, ?ops⟩
  case marked => exact (congrArg Lane.calib (others.lane l)).trans (s.calib_notesCalib l)
  case pending => exact (congrArg (bits · 0 0) atStatus).trans (State.pending_showsCalib ..)
  case first =>
    have isFirst := State.firstCalib_of_none clear kept
    exact ⟨(congrArg (bits · 11 8) atStatus).trans (State.cluster_showsCalib_first _ _ _ _ _ isFirst),
      (congrArg (bits · 47 32) atStatus).trans (State.launch_showsCalib_first _ _ _ _ _ isFirst)⟩
  case later =>
    exact (congrArg (bits · 63 1) atStatus).trans (State.rest_showsCalib_later _ _ _ _ _ (State.firstCalib_of_earlier earlier))
  case sameRegs => exact (attends o (by simpa using notAttn)).trans (shows o (by simpa using notStatus))
  case asked =>
    rw [asked]
    exact shown.calibration_attendsCalib c
  case unasked =>
    rw [unasked]
    exact atAttn
  case cells => exact others.cells
  case ops => exact others.ops

end Sys2Proof.Machine
end

section

/-! PROOFS. Canonical memory (O59): what it means of a state, and how it passes along a definition. Each later lemma `State.Canonical.f` says
that one function of the model keeps memory canonical, under that function's name, so its proof reads as the definition does: a record update
that leaves `cells` is `update`, an `if` is `either`, a fold is `foldl`, and a chain of calls is the chain of their lemmas. `cells` itself
changes in `wr` and `zeroMem` alone, and is empty after power-on and a block reset. -/

namespace Sys2Proof.Machine

open Sys2Proof

/-- Memory is in its canonical form. -/
structure State.Canonical (s : State) : Prop where
  wf : Memory.wf s.cells = true

variable {s : State}

/-- A record update that leaves `cells`. The other fields are variables: a written-out state is matched field by field, none evaluated. -/
theorem State.Canonical.update (h : s.Canonical) : ∀ {
    straps regs latches nowLatch up cycAcc free bell groups ctxs lanes tiles clusters ops nextOp barrows reqs nextTag
    dumpHeld tlb xreqs nextX pageReqs withdraws nextWd ports loop relayNext relayHeld relays inbox keys barGroups mem
    inject breset power insp pins bootUp turnTimed turnOther debugHeld grantTurn out pending},
    (State.mk
      straps regs latches nowLatch up cycAcc free bell groups ctxs lanes tiles clusters ops nextOp barrows reqs nextTag
      dumpHeld tlb xreqs nextX pageReqs withdraws nextWd ports loop relayNext relayHeld relays inbox keys barGroups mem
      s.cells inject breset power insp pins bootUp turnTimed turnOther debugHeld grantTurn out pending).Canonical := ⟨h.wf⟩

theorem State.Canonical.either {c : Prop} [Decidable c] {t u : State} (ht : t.Canonical) (hu : u.Canonical) :
    (if c then t else u).Canonical := by
  split <;> assumption

theorem State.Canonical.eitherSnd {α : Type} {c : Prop} [Decidable c] {p q : α × State} (hp : p.2.Canonical) (hq : q.2.Canonical) :
    (if c then p else q).2.Canonical := by
  split <;> assumption

theorem State.Canonical.eitherSnd₂ {α β : Type} {c : Prop} [Decidable c] {p q : α × β × State}
    (hp : p.2.2.Canonical) (hq : q.2.2.Canonical) :
    (if c then p else q).2.2.Canonical := by
  split <;> assumption

theorem State.Canonical.snd {α : Type} {p : α × State} {a : α} {t : State} (h : p.2.Canonical) (e : p = (a, t)) : t.Canonical := by
  subst e
  exact h

theorem State.Canonical.snd₂ {α β : Type} {p : α × β × State} {a : α} {b : β} {t : State} (h : p.2.2.Canonical) (e : p = (a, b, t)) :
    t.Canonical := by
  subst e
  exact h

theorem State.Canonical.foldl {α : Type} {f : State → α → State} {l : List α} (h : s.Canonical)
    (each : ∀ {t : State} {x : α}, t.Canonical → (f t x).Canonical) : (l.foldl f s).Canonical :=
  List.foldlRecOn l f h fun _ ht _ _ => each ht

/-- If a step goes on to a state, its memory is in its canonical form. -/
def KeepsCanonical (o : Host.Outcome State Fault Refusal) : Prop := ∀ t, o = .next t → t.Canonical

theorem KeepsCanonical.next (h : s.Canonical) : KeepsCanonical (.next s) := fun t e => by
  cases e
  exact h

theorem KeepsCanonical.refused {r : Refusal} : KeepsCanonical (.refused r) := fun t e => by
  cases e

end Sys2Proof.Machine
end

section

/-! PROOFS. Memory stays canonical (O59): the state's operations, the error log and sending over the link. -/

namespace Sys2Proof.Machine

open Sys2Proof

variable {s : State} {off hi lo n k mask why p job dst a b t c cause j gctx tag id seq : Nat} {v : Word} {bs : List Byte} {own : Bool}
  {hd : Head} {ns : List Nat} {l : LaneId} {body : MsgBody}

/-! ## Registers -/

theorem State.Canonical.setReg (h : s.Canonical) : (s.setReg off v).Canonical :=
  h.update

theorem State.Canonical.setFld {v : Nat} (h : s.Canonical) : (s.setFld off hi lo v).Canonical :=
  h.setReg

theorem State.Canonical.setBitsIn (h : s.Canonical) : (s.setBitsIn off mask).Canonical :=
  h.setReg

theorem State.Canonical.incSat (h : s.Canonical) : (s.incSat off hi lo n).Canonical :=
  h.setFld

theorem State.Canonical.incWrap (h : s.Canonical) : (s.incWrap off hi lo n).Canonical :=
  h.setFld

theorem State.Canonical.clearRegs (h : s.Canonical) : (s.clearRegs lo n).Canonical :=
  h.update

/-! ## Units -/

theorem State.Canonical.updCtx {i : Nat} {f : Ctx → Ctx} (h : s.Canonical) : (s.updCtx i f).Canonical :=
  h.update

theorem State.Canonical.updLane {f : Lane → Lane} (h : s.Canonical) : (s.updLane l f).Canonical :=
  h.update

theorem State.Canonical.updTile {f : Tile → Tile} (h : s.Canonical) : (s.updTile t f).Canonical :=
  h.update

theorem State.Canonical.updCluster {f : Cluster → Cluster} (h : s.Canonical) : (s.updCluster c f).Canonical :=
  h.update

theorem State.Canonical.updBarrow {f : Barrow → Barrow} (h : s.Canonical) : (s.updBarrow b f).Canonical :=
  h.update

theorem State.Canonical.updGroup {i : Nat} {f : Group → Group} (h : s.Canonical) : (s.updGroup i f).Canonical :=
  h.update

theorem State.Canonical.updMem {f : MemCtl → MemCtl} (h : s.Canonical) : (s.updMem f).Canonical :=
  h.update

theorem State.Canonical.updChan {f : Chan → Chan} (h : s.Canonical) : (s.updChan n f).Canonical :=
  h.updMem

theorem State.Canonical.updPower {f : Power → Power} (h : s.Canonical) : (s.updPower f).Canonical :=
  h.update

theorem State.Canonical.updInsp {f : Inspector → Inspector} (h : s.Canonical) : (s.updInsp f).Canonical :=
  h.update

theorem State.Canonical.updBell {f : Bell → Bell} (h : s.Canonical) : (s.updBell f).Canonical :=
  h.update

theorem State.Canonical.updPins {f : Pins → Pins} (h : s.Canonical) : (s.updPins f).Canonical :=
  h.update

theorem State.Canonical.updOp {f : Op → Op} (h : s.Canonical) : (s.updOp id f).Canonical :=
  h.update

theorem State.Canonical.dropOp (h : s.Canonical) : (s.dropOp id).Canonical :=
  h.update

theorem State.Canonical.updLaunch {i : Nat} {f : Launch → Launch} (h : s.Canonical) : (s.updLaunch i seq f).Canonical :=
  h.updCtx

theorem State.Canonical.emit {o : Out} (h : s.Canonical) : (s.emit o).Canonical :=
  h.update

theorem State.Canonical.draw (h : s.Canonical) : s.draw.2.Canonical :=
  h.update

/-! ## Time -/

theorem State.Canonical.tick (h : s.Canonical) : s.tick.Canonical :=
  h.update

/-! ## Memory -/

theorem State.Canonical.wr {b : Byte} (h : s.Canonical) : (s.wr a b).Canonical := ⟨sparseWf_set (fun _ => (0 : Byte)) s.cells a b h.wf⟩

theorem State.Canonical.wrBytes (h : s.Canonical) : (s.wrBytes a bs).Canonical := by
  induction bs generalizing s a with
  | nil => exact h
  | cons b r ih => exact ih h.wr

theorem State.Canonical.wrList {l : List (Nat × Byte)} (h : s.Canonical) : (s.wrList l).Canonical := by
  induction l generalizing s with
  | nil => exact h
  | cons x r ih => exact ih h.wr

theorem State.Canonical.zeroMem (h : s.Canonical) : (s.zeroMem lo n).Canonical := ⟨sparseWf_clear (fun _ => (0 : Byte)) s.cells lo n h.wf⟩

/-! ## Events -/

theorem State.Canonical.bellEvent (h : s.Canonical) : (s.bellEvent mask).Canonical :=
  h.setBitsIn.setBitsIn

theorem State.Canonical.memEvent (h : s.Canonical) : (s.memEvent mask).Canonical :=
  h.setBitsIn.setBitsIn

theorem State.Canonical.criEvent (h : s.Canonical) : (s.criEvent mask).Canonical :=
  h.setBitsIn

theorem State.Canonical.barEvent (h : s.Canonical) : (s.barEvent mask).Canonical :=
  h.setBitsIn

theorem State.Canonical.xltEvent (h : s.Canonical) : (s.xltEvent mask).Canonical :=
  h.setBitsIn

theorem State.Canonical.pwrEvent (h : s.Canonical) : (s.pwrEvent mask).Canonical :=
  h.setBitsIn

theorem State.Canonical.insEvent (h : s.Canonical) : (s.insEvent mask).Canonical :=
  h.setBitsIn

theorem State.Canonical.fabEvent (h : s.Canonical) : (s.fabEvent mask).Canonical :=
  either h <| either h.setBitsIn.setBitsIn h.setBitsIn

theorem State.Canonical.mgmt {i : Nat} (h : s.Canonical) : (s.mgmt i).Canonical :=
  h.setBitsIn

theorem State.Canonical.errAttn {i : Nat} (h : s.Canonical) : (s.errAttn i cause).Canonical :=
  h.setBitsIn.setFld

/-! ## The error log -/

theorem State.Canonical.putLog {i : Nat} {l : List Word} (h : s.Canonical) : (s.putLog i n l).Canonical := by
  induction l generalizing s n with
  | nil => exact h
  | cons x r ih => exact ih h.setReg

theorem State.Canonical.record {r : Report} (h : s.Canonical) : (s.record r).Canonical := by
  unfold State.record
  extract_lets +onlyGivenNames written consumed full ws s1
  have h1 : s1.Canonical := either h.putLog.incWrap <| either h.putLog h.incSat
  exact either h1 h1.mgmt

theorem State.Canonical.errPulse {r : Report} (h : s.Canonical) : (s.errPulse r).Canonical := by
  unfold State.errPulse
  extract_lets +onlyGivenNames n w p
  split
  · exact either h.emit h
  · exact h.emit
  · exact h.emit
  · exact h

theorem State.Canonical.detect {r : Report} (h : s.Canonical) : (s.detect r).Canonical := by
  unfold State.detect
  extract_lets +onlyGivenNames s1 s2
  have h1 : s1.Canonical := h.errPulse
  have h2 : s2.Canonical := either h1.incSat h1.incSat
  exact either h2 h2.record

theorem State.Canonical.regError (h : s.Canonical) : (s.regError off).Canonical :=
  h.detect

theorem State.Canonical.disarm (h : s.Canonical) : s.disarm.Canonical :=
  h.update.setFld

theorem State.Canonical.dropHead (h : s.Canonical) : (s.dropHead why).Canonical :=
  h.incSat.fabEvent

theorem State.Canonical.sendPort {slot : Option Nat} (h : s.Canonical) : (s.sendPort p own slot hd).Canonical :=
  either h.update h.dropHead

theorem State.Canonical.dropHeads {l : List QHead} (h : s.Canonical) : (s.dropHeads l).Canonical := by
  induction l generalizing s with
  | nil => exact h
  | cons x r ih => exact ih h.dropHead

theorem State.Canonical.updKey {f : KeyPhase → KeyPhase} (h : s.Canonical) : (s.updKey k p f).Canonical :=
  h.update

theorem State.Canonical.encrypt (h : s.Canonical) : (s.encrypt j hd).2.Canonical :=
  eitherSnd (either h.updKey.insEvent h.updKey) h

theorem State.Canonical.originate {slot : Option Nat} {m : Msg} (h : s.Canonical) : (s.originate slot job dst m).Canonical := by
  unfold State.originate
  split
  · exact h
  · extract_lets +onlyGivenNames h'
    split
    · exact h.update
    · split
      · exact h.sendPort
      · exact h.dropHead

/-! ## Departure (R267, R268, R270, R272) -/

theorem State.Canonical.onPort (h : s.Canonical) : (s.onPort p hd).Canonical :=
  ((either h.disarm h).incWrap.emit).update

theorem State.Canonical.depart {q : QHead} (h : s.Canonical) : (s.depart p q).Canonical := by
  unfold State.depart
  extract_lets +onlyGivenNames x l msgs hd timed s1
  have h1 : s1.Canonical := either h.updBell h
  split
  rename_i hd t e
  have h2 : t.Canonical := by
    split at e
    · exact h1.encrypt.snd e
    · exact h1.snd e
  exact (either h2.update.updPower h2.update).onPort

theorem State.Canonical.portsTick (h : s.Canonical) : (s.portsTick ns).Canonical := by
  induction ns generalizing s with
  | nil => exact h
  | cons x r ih =>
    rw [State.portsTick]
    refine ih ?_
    split
    · split
      · exact h.depart
      · exact h
    · exact h

theorem State.Canonical.resend {l : List (Nat × Head)} (h : s.Canonical) : (s.resend p l).Canonical := by
  induction l generalizing s with
  | nil => exact h
  | cons x r ih => exact ih h.emit.update

theorem State.Canonical.sendJob (h : s.Canonical) : (s.sendJob j b gctx tag body).Canonical := by
  unfold State.sendJob
  split
  · exact h.originate
  · exact h

end Sys2Proof.Machine
end

section

/-! PROOFS. Memory stays canonical (O59): station time, register groups and the operating point. -/

namespace Sys2Proof.Machine

open Sys2Proof

variable {s : State} {off k mask p t val code basic opp target seconds nanos : Nat} {ns ix : List Nat} {at_ : Option Nat} {part : RForm}
  {err : Int} {valid : Bool}

/-! ## Lock states -/

theorem State.Canonical.setLock {l : Lock} (h : s.Canonical) : (s.setLock l).Canonical :=
  either h.updBell.bellEvent <| either h.updBell.bellEvent h.updBell

theorem State.Canonical.setRate {r : ℤ} (h : s.Canonical) : (s.setRate r).Canonical :=
  h.setFld

theorem State.Canonical.lostReference (h : s.Canonical) : s.lostReference.Canonical := by
  unfold State.lostReference
  split
  · exact h.setLock.updBell
  · exact h.setRate.setLock
  · exact h

theorem State.Canonical.servo (h : s.Canonical) : s.servo.Canonical :=
  h.draw.setRate

theorem State.Canonical.measured (h : s.Canonical) : (s.measured err).Canonical := by
  unfold State.measured
  extract_lets +onlyGivenNames s1
  have h1 : s1.Canonical := h.setReg
  split
  · exact (either h1.setRate h1).setLock.updBell.bellEvent
  · split
    · exact h1
    · extract_lets +onlyGivenNames s2 s3
      have h2 : s2.Canonical := by
        unfold s2
        split
        · exact h1.setLock.updBell
        · exact h1.setLock.updBell
        · exact h1
      have h3 : s3.Canonical := h2.servo
      exact either h3.draw.setFld.updBell.setLock h3.draw.setFld.updBell

/-! ## The time port -/

theorem State.Canonical.ppsEdgeS (h : s.Canonical) : (ppsEdgeS seconds nanos valid s).Canonical :=
  either h <| either h.bellEvent <| either h.updBell.bellEvent h.updBell.setReg.setReg.measured

theorem State.Canonical.ppsMissingS (h : s.Canonical) : (ppsMissingS s).Canonical := by
  unfold Machine.ppsMissingS
  split
  · exact either (either h.bellEvent.updBell.lostReference h.bellEvent.updBell) h
  · exact h

/-! ## Links -/

theorem State.Canonical.sendTime {b : MsgBody} (h : s.Canonical) : (s.sendTime p b).Canonical :=
  h.sendPort

theorem State.Canonical.startExchange (h : s.Canonical) : (s.startExchange ns).Canonical := by
  induction ns generalizing s with
  | nil => exact h
  | cons x r ih => exact ih h.updBell.sendTime

theorem State.Canonical.timeExchangeS (h : s.Canonical) : (timeExchangeS s).Canonical :=
  h.startExchange

theorem State.Canonical.take {d : Delivered} {t : State} (h : s.Canonical) (e : s.take k = some (d, t)) : t.Canonical := by
  unfold State.take at e
  split at e
  · obtain ⟨rfl, rfl⟩ := e
    exact h.update
  · cases e

theorem State.Canonical.upstreamDelay (h : s.Canonical) : (s.upstreamDelay p).2.Canonical :=
  eitherSnd h.draw h

theorem State.Canonical.upstreamTime {at_ : Nat} (h : s.Canonical) : (s.upstreamTime p t at_).Canonical :=
  either h.upstreamDelay.updBell.measured h

theorem State.Canonical.timeReqS (h : s.Canonical) : (timeReqS k s).Canonical := by
  unfold Machine.timeReqS
  split
  · rename_i _ t e
    have h1 := h.take e
    split
    · exact h1.sendTime.upstreamTime
    · exact h
  · exact h

theorem State.Canonical.timeRespS (h : s.Canonical) : (timeRespS k s).Canonical := by
  unfold Machine.timeRespS
  split
  · rename_i _ t e
    have h1 := h.take e
    split
    · exact either h1.updBell.setFld.upstreamTime h1
    · exact h
  · exact h

theorem State.Canonical.linkTimeLostS (h : s.Canonical) : (linkTimeLostS s).Canonical :=
  either h.updBell.bellEvent.lostReference h

theorem State.Canonical.holdoverLimitS (h : s.Canonical) : (holdoverLimitS s).Canonical :=
  either h.bellEvent h

theorem State.Canonical.bellNowReadS (h : s.Canonical) : (bellNowReadS part s).Canonical := by
  unfold Machine.bellNowReadS
  split
  · exact h
  · split
    · exact h.emit
    · split
      · exact h.emit
      · exact h.update.emit
      · exact h.update.emit
      · exact h.regError.emit

theorem State.Canonical.wroteBellCtrl {old : Nat} (h : s.Canonical) : (s.wroteBellCtrl old).Canonical :=
  either h <| either h.updBell.setRate.setLock h.updBell

theorem State.Canonical.setRegs {l : List (Nat × Nat)} (h : s.Canonical) : (s.setRegs l).Canonical := by
  induction l generalizing s with
  | nil => exact h
  | cons x r ih => exact ih h.setReg

theorem State.Canonical.markExpert (h : s.Canonical) : (s.markExpert basic).Canonical :=
  h.setFld.setFld

theorem State.Canonical.applyBasic {r : RegName} (h : s.Canonical) : (s.applyBasic off r ix code).Canonical := by
  unfold State.applyBasic
  split
  · exact h.setRegs.setFld.setFld
  · exact h

theorem State.Canonical.putField (h : s.Canonical) : (s.putField off mask val).Canonical := by
  unfold State.putField
  extract_lets +onlyGivenNames old new
  split
  · split
    · exact either h h.applyBasic
    · extract_lets +onlyGivenNames s1
      have h1 : s1.Canonical := h.setReg
      split
      · exact h1.markExpert
      · exact h1
  · exact h

theorem State.Canonical.debugAnswer {d : RestDom} (h : s.Canonical) : (s.debugAnswer d).Canonical :=
  h.update

theorem State.Canonical.writeVolt (h : s.Canonical) : (s.writeVolt opp ns).Canonical := by
  induction ns generalizing s with
  | nil => exact h
  | cons x r ih => exact ih (either h.emit h)

theorem State.Canonical.setVolt (h : s.Canonical) : (s.setVolt opp).Canonical :=
  h.writeVolt.updPower

theorem State.Canonical.startTransition (h : s.Canonical) : (s.startTransition target at_).Canonical :=
  either (either h h.setVolt).updPower <| either h.setVolt.updPower h.updPower

theorem State.Canonical.redecide (h : s.Canonical) : s.redecide.Canonical :=
  either h h.updPower.startTransition

theorem State.Canonical.switchClock (h : s.Canonical) : s.switchClock.Canonical := by
  unfold State.switchClock
  split
  · exact either h.updPower.setVolt h.updPower
  · exact h

end Sys2Proof.Machine
end

section

/-! PROOFS. Memory stays canonical (O59): the attached memory as the controllers keep it. -/

namespace Sys2Proof.Machine

open Sys2Proof

variable {s : State} {n a c ch bank row ca key line : Nat} {bs : List Byte} {ns : List Nat} {tab : Bool}

/-! ## The data region -/

theorem State.Canonical.markPage (h : s.Canonical) : (s.markPage key).Canonical :=
  h.updMem

theorem State.Canonical.memOut (h : s.Canonical) : (s.memOut c a).Canonical :=
  h.memEvent.updMem

theorem State.Canonical.memDisarm (h : s.Canonical) : s.memDisarm.Canonical :=
  h.setReg

/-! ## Rows, activates and the device's lines (R300, R305, R308) -/

theorem State.Canonical.activate (h : s.Canonical) : (s.activate ch bank row).Canonical :=
  either h.incWrap.draw.updChan h.incWrap.draw

theorem State.Canonical.openLine (h : s.Canonical) : (s.openLine ch ca).Canonical :=
  either h.updChan h.updChan.activate

theorem State.Canonical.devRd (h : s.Canonical) : (s.devRd ch ca).Canonical :=
  h.openLine.emit

theorem State.Canonical.devWr (h : s.Canonical) : (s.devWr ch ca).Canonical :=
  h.openLine.emit

theorem State.Canonical.devRds (h : s.Canonical) : (s.devRds ch ns).Canonical := by
  induction ns generalizing s with
  | nil => exact h
  | cons x r ih => exact ih h.devRd

theorem State.Canonical.devWrs (h : s.Canonical) : (s.devWrs ch ns).Canonical := by
  induction ns generalizing s with
  | nil => exact h
  | cons x r ih => exact ih h.devWr

theorem State.Canonical.setCache {l : List (Nat × Bool)} (h : s.Canonical) : (s.setCache ch tab l).Canonical :=
  h.updChan

theorem State.Canonical.evict (h : s.Canonical) : (s.evict ch tab).Canonical :=
  either h <| either h.draw.setCache.devWr h.draw.setCache

theorem State.Canonical.touch {wr : Bool} (h : s.Canonical) : (s.touch ch tab ca wr).2.Canonical :=
  eitherSnd h.setCache h.evict.devRd.setCache

/-! ## Lines and pages written (R308 to R310, R344) -/

theorem State.Canonical.putLine (h : s.Canonical) : (s.putLine ch ca line).Canonical :=
  ((either h.memDisarm h).updMem.devWr).touch

theorem State.Canonical.touchMacs (h : s.Canonical) : (s.touchMacs ch ns).Canonical := by
  induction ns generalizing s with
  | nil => exact h
  | cons x r ih => exact ih h.touch

theorem State.Canonical.initPage (h : s.Canonical) : (s.initPage ch ca).Canonical :=
  h.markPage.updMem.devWrs.touchMacs.touch

/-! ## Physical addresses without a job (R242, R460) -/

theorem State.Canonical.dumpLines (h : s.Canonical) : (s.dumpLines line bs n).Canonical := by
  induction n generalizing s line bs with
  | zero => exact h
  | succ n ih =>
    exact ih (either h.memOut (either h.updChan.wrBytes (either h.initPage h).wrBytes.putLine))

end Sys2Proof.Machine
end

section

/-! PROOFS. Memory stays canonical (O59): sampling and the beginning of a block soft reset. -/

namespace Sys2Proof.Machine

open Sys2Proof

variable {s : State} {n k c cause pa place : Nat} {bs : List Byte} {ns : List Nat} {rec : List Word} {complete : Bool} {cut : Option Nat}

/-! ## The capture and the sample -/

theorem State.Canonical.drawBytes (h : s.Canonical) : (s.drawBytes n).2.Canonical := by
  induction n generalizing s with
  | zero => exact h
  | succ n ih => exact ih h.draw

theorem State.Canonical.laneImage {x : LaneId} (h : s.Canonical) : (s.laneImage x).2.Canonical := by
  unfold State.laneImage
  exact h.drawBytes

theorem State.Canonical.captureLane (h : s.Canonical) : (s.captureLane c k).2.Canonical := by
  unfold State.captureLane
  split
  · exact h.laneImage
  · exact h

theorem State.Canonical.captureLanes (h : s.Canonical) : (s.captureLanes c ns).2.Canonical := by
  induction ns generalizing s with
  | nil => exact h
  | cons x r ih => exact ih h.captureLane

theorem State.Canonical.descImage {q : QDesc} (h : s.Canonical) : (s.descImage q).2.Canonical := by
  unfold State.descImage
  split
  · exact h
  · exact h

theorem State.Canonical.descImages {l : List QDesc} (h : s.Canonical) : (s.descImages l).2.Canonical := by
  induction l generalizing s with
  | nil => exact h
  | cons x r ih => exact ih h.descImage

theorem State.Canonical.capture (h : s.Canonical) : (s.capture c).2.Canonical :=
  h.captureLanes.descImages

theorem State.Canonical.hostWrites {l : List (Nat × List Byte)} (h : s.Canonical) : (s.hostWrites l).Canonical :=
  either h.update h.update

theorem State.Canonical.physWrite (h : s.Canonical) : (s.physWrite pa bs).Canonical := by
  unfold State.physWrite
  extract_lets +onlyGivenNames own
  split
  · split
    · exact either h.dumpLines h.wrBytes
    · exact h.hostWrites
  · exact either h.dumpLines h.wrBytes

theorem State.Canonical.writeDump {r : CtxReset} (h : s.Canonical) : (s.writeDump c r rec complete cut).Canonical := by
  unfold State.writeDump
  extract_lets +onlyGivenNames full
  split
  · exact either h.physWrite.incWrap h.physWrite.setBitsIn
  · exact h.incWrap

/-! ## The beginning of a block soft reset -/

theorem State.Canonical.blockAwning (h : s.Canonical) : (s.blockAwning c).Canonical := by
  unfold State.blockAwning
  extract_lets +onlyGivenNames x rep rec_ s1 s2
  have h1 : s1.Canonical := h.record
  have h2 : s2.Canonical := by
    unfold s2
    split
    · exact h
    · split
      · split
        rename_i cap t e
        exact (h1.capture.snd e).writeDump
      · exact h1
  exact h2.updCtx

theorem State.Canonical.blockAwnings (h : s.Canonical) : (s.blockAwnings ns).Canonical := by
  induction ns generalizing s with
  | nil => exact h
  | cons x r ih => exact ih h.blockAwning

theorem State.Canonical.keepErrors {l : List (Nat × Word × Word)} (h : s.Canonical) : (s.keepErrors l).Canonical := by
  induction l generalizing s with
  | nil => exact h
  | cons x r ih => exact ih (either h.setReg.setReg h)

theorem State.Canonical.beginBlockReset (h : s.Canonical) : (s.beginBlockReset cause).Canonical := by
  have empty {t : State} (none : t.cells = []) : t.Canonical := ⟨by rw [none]; rfl⟩
  unfold State.beginBlockReset
  split
  · exact h
  · refine redecide (keepErrors (setFld (empty ?_)))
    rfl

theorem State.Canonical.holdHost (h : s.Canonical) : (s.holdHost cause).Canonical :=
  either (either h h.updPins.setFld) <| either h h.updPins

theorem State.Canonical.fatal {r : Report} (h : s.Canonical) : (s.fatal r).Canonical :=
  either h.detect.holdHost.beginBlockReset h.detect.holdHost.setFld

theorem State.Canonical.ctrlWord (h : s.Canonical) : (s.ctrlWord place).Canonical :=
  either h.disarm.fatal h

end Sys2Proof.Machine
end

section

/-! PROOFS. Memory stays canonical (O59): issue on a lane, gaps, scratch and the Armature. -/

namespace Sys2Proof.Machine

open Sys2Proof

variable {s : State} {n k r a b t c code cause op id seq acc conv cl opNo arg key tile cost cls operand lat : Nat} {nan bad slotInt : Bool}
  {ns regs : List Nat} {o : Op} {i : IWord} {l : LaneId} {area : ZeroArea} {os : List Op}

/-! ### Slots and their writers (R151) -/

theorem State.Canonical.noteUses (h : s.Canonical) : (s.noteUses t id ns).Canonical := by
  induction ns generalizing s with
  | nil => exact h
  | cons x r ih =>
    rw [State.noteUses]
    refine ih ?_
    split
    · exact h.updOp
    · exact h

theorem State.Canonical.takeAll (h : s.Canonical) : (s.takeAll t).Canonical :=
  h.update

/-! ### Saturation counts (R100, R101) -/

theorem State.Canonical.countSat (h : s.Canonical) : (s.countSat l acc conv nan).Canonical :=
  h.updLane

theorem State.Canonical.stickyNan (h : s.Canonical) : (s.stickyNan c nan).Canonical :=
  either h.setBitsIn h

theorem State.Canonical.landPrefix (h : s.Canonical) : (s.landPrefix t o).Canonical :=
  h.draw.draw.wrList.countSat.stickyNan

theorem State.Canonical.setBarSt {st : BarSt} (h : s.Canonical) : (s.setBarSt b st).Canonical :=
  h.updBarrow

theorem State.Canonical.restBarrow (h : s.Canonical) : (s.restBarrow b).Canonical :=
  either h h.setBarSt

theorem State.Canonical.stopOp (h : s.Canonical) : (s.stopOp o).Canonical := by
  unfold State.stopOp
  extract_lets unq
  have dequeued {t : State} (ht : t.Canonical) : (unq t).Canonical := by
    unfold unq
    split
    · exact ht.updBarrow
    · exact ht
  split
  · exact h
  · exact dequeued h.dropOp
  · exact either h h.updCtx.update.dropOp
  · exact h.dropOp
  · exact either h.landPrefix.dropOp <| either (either h.dropOp (either h.dropOp h.updOp)) <| either h.dropOp h
  · exact h
  · exact either h.updBarrow.dropOp.restBarrow h.updBarrow

theorem State.Canonical.stopOps {l : List Op} (h : s.Canonical) : (s.stopOps l).Canonical := by
  induction l generalizing s with
  | nil => exact h
  | cons x r ih => exact ih h.stopOp

theorem State.Canonical.tell {m : GangMsg} (h : s.Canonical) : (s.tell c m ns).Canonical := by
  induction ns generalizing s with
  | nil => exact h
  | cons x r ih => exact ih h.emit

theorem State.Canonical.stopLaunch (h : s.Canonical) : (s.stopLaunch c seq).Canonical := by
  unfold State.stopLaunch
  extract_lets +onlyGivenNames s1 s2 s3
  have h1 : s1.Canonical := by
    unfold s1
    split
    · exact either h h.tell
    · exact h
  have h2 : s2.Canonical := h1.update
  have h3 : s3.Canonical := h2.updLaunch
  exact h3.stopOps

theorem State.Canonical.raiseAt {e : Exc} (h : s.Canonical) : (s.raiseAt c seq cl opNo e).Canonical := by
  unfold State.raiseAt
  split
  · exact either h.stopLaunch h.updLaunch.stopLaunch
  · exact h

theorem State.Canonical.raise (h : s.Canonical) : (s.raise l code arg).Canonical :=
  h.raiseAt

theorem State.Canonical.raiseOp (h : s.Canonical) : (s.raiseOp o code arg operand tile).Canonical :=
  h.raiseAt

/-! ## The lane -/

theorem State.Canonical.waitLane (h : s.Canonical) : (s.waitLane l cause arg).Canonical :=
  h.updLane

theorem State.Canonical.pendReg (h : s.Canonical) : (s.pendReg l r lat).Canonical :=
  h.updLane

theorem State.Canonical.energyEvent (h : s.Canonical) : (s.energyEvent c seq k n).Canonical := by
  unfold State.energyEvent
  exact h.updLaunch.updPower

theorem State.Canonical.spend (h : s.Canonical) : (s.spend l cost).Canonical :=
  h.energyEvent.updLane

theorem State.Canonical.advance (h : s.Canonical) : (s.advance l i).Canonical :=
  h.updLane.spend

theorem State.Canonical.badLine (h : s.Canonical) : (s.badLine l).Canonical :=
  h.disarm.detect.updCluster.waitLane

theorem State.Canonical.issue {body : State → State} (h : s.Canonical) (done : (body s).Canonical) :
    (s.issue l i cls op regs body).Canonical :=
  either h <| either h.ctrlWord <| either h.raise <| either h.waitLane <| either h.badLine <| either h.waitLane <| either h <|
    either h.raise <| either h <| either h.raise <| either h.waitLane <| either h.advance <| either h.waitLane done

/-! ## Operations -/

theorem State.Canonical.addOp (h : s.Canonical) : (s.addOp o).Canonical :=
  h.update

theorem State.Canonical.addOps {l : List Op} (h : s.Canonical) : (s.addOps l).Canonical := by
  induction l generalizing s with
  | nil => exact h
  | cons x r ih => exact ih h.addOp

theorem State.Canonical.issueOps (h : s.Canonical) : (s.issueOps l i os).Canonical := by
  unfold State.issueOps
  split
  · exact h.waitLane
  · exact either h.waitLane h.addOps.advance

theorem State.Canonical.noteActivity (h : s.Canonical) : (s.noteActivity t k n).Canonical :=
  h.updTile

theorem State.Canonical.fillers (h : s.Canonical) : (s.fillers t n).Canonical := by
  unfold State.fillers
  extract_lets +onlyGivenNames s1
  have h1 : s1.Canonical := h.incWrap
  split
  · extract_lets +onlyGivenNames here any_
    split
    · exact h1.energyEvent
    · exact h1.updCtx.updPower
  · exact h1

theorem State.Canonical.settleGap (h : s.Canonical) : (s.settleGap t).Canonical := by
  unfold State.settleGap
  split
  · exact either h h.draw.updTile.fillers
  · exact h

theorem State.Canonical.endGap (h : s.Canonical) : (s.endGap t).Canonical := by
  unfold State.endGap
  split
  · exact h
  · exact either h.settleGap.updTile h.settleGap.updTile.noteActivity

theorem State.Canonical.countEcc (h : s.Canonical) : (s.countEcc a bad).Canonical := by
  unfold State.countEcc
  split
  · exact either h.incWrap h.incWrap
  · exact either h.incSat h.incSat
  · exact h

theorem State.Canonical.checkScr {ctx : Option (Nat × Nat)} {seq : Option Nat} (h : s.Canonical) : (s.checkScr ctx seq a).2.Canonical := by
  unfold State.checkScr
  split
  · exact h.disarm.countEcc.detect
  · exact h

theorem State.Canonical.readFor (h : s.Canonical) : (s.readFor o a).2.Canonical :=
  eitherSnd h.checkScr h.checkScr.raiseOp

theorem State.Canonical.readAll (h : s.Canonical) : (s.readAll o ns).2.Canonical := by
  induction ns generalizing s with
  | nil => exact h
  | cons a r ih => exact eitherSnd (ih h.readFor) h.readFor

theorem State.Canonical.startOp (h : s.Canonical) : (s.startOp o).Canonical :=
  h.updOp

theorem State.Canonical.tallyUp (h : s.Canonical) : (s.tallyUp c seq n).Canonical :=
  h.updLaunch

theorem State.Canonical.workUp (h : s.Canonical) : (s.workUp c seq k n).Canonical :=
  h.updLaunch

theorem State.Canonical.finishOp (h : s.Canonical) : (s.finishOp o).Canonical :=
  h.dropOp.tallyUp

/-! ## Row quads -/

theorem State.Canonical.streamMisalign (h : s.Canonical) : (s.streamMisalign t o b).Canonical :=
  h.updTile.dropOp.raiseOp

theorem State.Canonical.takeTagFlip (h : s.Canonical) : (s.takeTagFlip t).2.Canonical :=
  eitherSnd h.disarm h

theorem State.Canonical.tableError (h : s.Canonical) : (s.tableError t o a).2.Canonical :=
  eitherSnd h.disarm.detect.raiseOp h

theorem State.Canonical.bankError (h : s.Canonical) : (s.bankError t o key).2.Canonical :=
  eitherSnd h.disarm.detect.raiseOp h

theorem State.Canonical.enterQuad (h : s.Canonical) : (s.enterQuad t o).Canonical := by
  unfold State.enterQuad
  extract_lets +onlyGivenNames q x y os s1 int s2 ks ks rs infs last acc bank start
  have h1 : s1.Canonical := h.endGap
  have h2 : s2.Canonical := either h1.updTile h1
  exact (eitherSnd h2.updTile.updTile h2.updTile).updTile.updOp.incWrap.noteActivity.energyEvent.energyEvent.tallyUp.workUp.countSat

theorem State.Canonical.rowQuadEntryS (h : s.Canonical) : (rowQuadEntryS t s).Canonical := by
  unfold Machine.rowQuadEntryS
  extract_lets +onlyGivenNames s1
  have h1 : s1.Canonical := h.takeAll
  split
  · exact h1
  · split
    · exact h1
    · extract_lets +onlyGivenNames x y os
      split
      rename_i ok t e
      have h2 := h1.readAll.snd e
      split
      · exact h2.dropOp
      · split
        rename_i bad t e
        have h3 := (eitherSnd h2.tableError h2).snd e
        split
        · exact h3.dropOp
        · extract_lets +onlyGivenNames mx
          split
          rename_i flip t e
          have h4 := (eitherSnd h3.takeTagFlip h3).snd e
          dsimp only
          split
          · exact h4.enterQuad
          · exact h4.streamMisalign
          · exact h4.streamMisalign
          · exact h4.streamMisalign

theorem State.Canonical.land {f : Flight} (h : s.Canonical) : (s.land t f).Canonical := by
  unfold State.land
  extract_lets +onlyGivenNames key rest s1
  have h1 : s1.Canonical := h.updTile
  split
  · exact h1
  · split
    · exact h1.raiseOp
    · split
      rename_i bad t e
      have h2 := (eitherSnd h1.bankError h1).snd e
      exact either h2 h2.updTile.countSat.stickyNan.takeAll

theorem State.Canonical.rowQuadResultS (h : s.Canonical) : (rowQuadResultS t s).Canonical := by
  unfold Machine.rowQuadResultS
  split
  · exact h.land
  · exact h

/-! ## Loads -/

theorem State.Canonical.armShadowLoadS (h : s.Canonical) : (armShadowLoadS t s).Canonical := by
  unfold Machine.armShadowLoadS
  split
  · exact h
  · split
    · exact h
    · extract_lets +onlyGivenNames x
      split
      rename_i _ t e
      have h1 := h.readAll.snd e
      split
      · exact h1.dropOp
      · split
        rename_i _ t e
        have h2 := (eitherSnd h1.tableError h1).snd e
        split
        · exact h2.dropOp
        · split
          rename_i _ t e
          have h3 := (eitherSnd h2.takeTagFlip h2).snd e
          split
          · exact h3.dropOp.raiseOp
          · exact h3.updTile.updOp.energyEvent.countSat

/-! ## Chains -/

theorem State.Canonical.closeChain (h : s.Canonical) : (s.closeChain t op slotInt).Canonical :=
  h.updTile

/-! ## Gaps -/

theorem State.Canonical.gapStartS (h : s.Canonical) : (gapStartS t s).Canonical :=
  either h h.updTile

theorem State.Canonical.fillerLimitExpiryS (h : s.Canonical) : (fillerLimitExpiryS t s).Canonical := by
  unfold Machine.fillerLimitExpiryS
  split
  · exact either h.updTile h
  · exact h

/-! ## Clearing and zeroing -/

theorem State.Canonical.tileClearDoneS (h : s.Canonical) : (tileClearDoneS t s).Canonical := by
  unfold Machine.tileClearDoneS
  split
  · exact either h.updTile h
  · exact h

theorem State.Canonical.leaseZeroDoneS (h : s.Canonical) : (leaseZeroDoneS area s).Canonical := by
  unfold Machine.leaseZeroDoneS
  split
  · split
    · exact either h.zeroMem.zeroMem.zeroMem.updTile.debugAnswer h
    · exact h
  · split
    · exact either h.zeroMem.updCluster h
    · exact h

theorem State.Canonical.bookWriteValidateS (h : s.Canonical) : (bookWriteValidateS t b s).Canonical :=
  either h.updTile h

theorem State.Canonical.tableWriteValidateS (h : s.Canonical) : (tableWriteValidateS t n s).Canonical :=
  either h.updTile h

theorem State.Canonical.calibrationEventS (h : s.Canonical) : (calibrationEventS l s).Canonical := by
  unfold Machine.calibrationEventS
  extract_lets +onlyGivenNames x
  split
  · exact h
  · extract_lets +onlyGivenNames off first s1 same s2 s3 s4
    have h2 : s2.Canonical := h.updLane.updLaunch.updCtx
    have h3 : s3.Canonical := either h2.setFld.setFld h2
    exact either h3.setBitsIn.setBitsIn h3.setBitsIn

end Sys2Proof.Machine
end

section

/-! PROOFS. Memory stays canonical (O59): issue of ARM and VEC, local stores and channel queues. -/

namespace Sys2Proof.Machine

open Sys2Proof

variable {s : State} {n k a t c tag op ctx : Nat} {bs : List Byte} {ns : List Nat} {i : IWord} {l : LaneId}
  {check : Nat → Op → Except Nat Op} {after : Nat → Op → State → State}

/-! ## Targets and places (R158, R159) -/

theorem State.Canonical.issueTiles (h : s.Canonical)
    (noted : ∀ {t : Nat} {o : Op} {u : State}, u.Canonical → (after t o u).Canonical) : (s.issueTiles l i check after).Canonical := by
  unfold State.issueTiles
  split
  · exact h.raise
  · split
    · exact h.waitLane
    · split
      · exact h.waitLane
      · refine advance (addOps (List.foldlRecOn (motive := fun p : State × Nat => p.1.Canonical) _ _ h fun p hp o _ => ?_))
        split
        · exact noted hp
        · exact hp

/-! ## ARM (R162 to R169) -/

theorem State.Canonical.armModeBody (h : s.Canonical) : (armModeBody l i s).Canonical := by
  unfold Machine.armModeBody
  exact h.issueTiles fun h => h.updTile

theorem State.Canonical.noteBook {d : Desc} (h : s.Canonical) : (s.noteBook t d).Canonical :=
  either h.updTile h

/-! ## VEC (R170 to R174) -/

theorem State.Canonical.vecS (h : s.Canonical) : (vecS l i op s).Canonical :=
  h.issue (h.issueTiles fun h => h.noteUses)

/-! ## Local stores -/

theorem State.Canonical.markDirty (h : s.Canonical) : (s.markDirty a).Canonical := by
  unfold State.markDirty
  split
  · exact h.updTile
  · exact h.updTile
  · exact h

theorem State.Canonical.store (h : s.Canonical) : (s.store a bs).Canonical :=
  either h.wrBytes h.wrBytes.markDirty.markDirty

/-! ## Channel queues -/

theorem State.Canonical.queueReads (h : s.Canonical) : (s.queueReads tag ctx ns).Canonical := by
  induction ns generalizing s with
  | nil => exact h
  | cons x r ih => exact ih h.updChan

theorem State.Canonical.queueWrites (h : s.Canonical) : (s.queueWrites tag ctx a bs ns).Canonical := by
  induction ns generalizing s with
  | nil => exact h
  | cons x r ih => exact ih h.updChan

theorem State.Canonical.addReq {r : Req} (h : s.Canonical) : (s.addReq r).Canonical :=
  h.update

theorem State.Canonical.dropReq (h : s.Canonical) : (s.dropReq tag).Canonical :=
  h.update

theorem State.Canonical.updReq {f : Req → Req} (h : s.Canonical) : (s.updReq tag f).Canonical :=
  h.update

theorem State.Canonical.acceptRead {r : Req} (h : s.Canonical) : (s.acceptRead r).Canonical :=
  h.queueReads.addReq

theorem State.Canonical.walkLine (h : s.Canonical) : (s.walkLine c a).2.Canonical := by
  unfold State.walkLine
  split
  · exact h.memOut
  · extract_lets +onlyGivenNames l
    split
    rename_i ch ca e
    split
    · exact h
    · extract_lets +onlyGivenNames s1
      have h1 : s1.Canonical := h.touch
      split
      · exact h1
      · extract_lets +onlyGivenNames s2 rep s3
        have h2 : s2.Canonical := h1.touch.devRd
        have h3 : s3.Canonical := either h2.memDisarm.devRd.incSat.memEvent.detect h2
        split
        · dsimp only
          exact h3.devRd.incSat.memEvent.detect
        · exact h3

theorem State.Canonical.acceptWrite {r : Req} (h : s.Canonical) : (s.acceptWrite r bs).2.Canonical :=
  eitherSnd h.queueWrites.wrBytes.update h.queueWrites.wrBytes.addReq

/-! ## Reduction -/

theorem State.Canonical.reduceAt {f : Nat} (h : s.Canonical) : (s.reduceAt f op n bs k).2.Canonical := by
  induction n generalizing s bs k with
  | zero => exact h
  | succ n ih => exact ih h.store

end Sys2Proof.Machine
end

section

/-! PROOFS. Memory stays canonical (O59): translation. -/

namespace Sys2Proof.Machine

open Sys2Proof

variable {s : State} {n b c cache g va need code cause op arg page engine : Nat} {hit dest lack : Bool} {x : XReq} {out : XOut}

/-! ## The caches (R252, R253) -/

theorem State.Canonical.tlbPut {e : TlbEnt} (h : s.Canonical) : (s.tlbPut e).Canonical :=
  h.update

theorem State.Canonical.countTc (h : s.Canonical) : (s.countTc cache hit).Canonical :=
  either h <| either h.incWrap h.incWrap

theorem State.Canonical.lookup (h : s.Canonical) : (s.lookup cache c g va need).2.Canonical := by
  unfold State.lookup
  split
  · exact h.countTc
  · exact eitherSnd h.update.disarm.detect (eitherSnd h.countTc.tlbPut (eitherSnd h.countTc.update h.countTc))

theorem State.Canonical.xlate (h : s.Canonical) : (s.xlate cache c g va need).2.Canonical := by
  unfold State.xlate
  split
  · exact eitherSnd h.lookup h
  · split
    · exact h
    · exact eitherSnd h.lookup h
  · split
    · exact h
    · exact h
  · exact h

/-! ## Misses (R250) -/

theorem State.Canonical.sendAts (h : s.Canonical) : (s.sendAts x).Canonical :=
  either h h.emit

theorem State.Canonical.takeWalkers (h : s.Canonical) : (s.takeWalkers n).Canonical := by
  induction n generalizing s with
  | zero => exact h
  | succ n ih =>
    rw [State.takeWalkers]
    split
    · exact either (ih h.update) h
    · exact h

theorem State.Canonical.startX (h : s.Canonical) : (s.startX engine cache c g va need).2.Canonical :=
  eitherSnd h (eitherSnd h (either h.update.takeWalkers h.update.sendAts))

/-! ## Engines that wait -/

theorem State.Canonical.updQ {f : QDesc → QDesc} (h : s.Canonical) : (s.updQ b op f).Canonical :=
  h.updBarrow

/-! ## Faults (R254) -/

theorem State.Canonical.noteFault (h : s.Canonical) : (s.noteFault c va engine need cause).Canonical :=
  h.setReg.setReg.xltEvent

theorem State.Canonical.reapSegs (h : s.Canonical) : (s.reapSegs b op).Canonical :=
  h.updQ

theorem State.Canonical.settle (h : s.Canonical) : (s.settle b op).Canonical := by
  unfold State.settle
  extract_lets +onlyGivenNames s1
  have h1 : s1.Canonical := h.reapSegs
  split
  · split
    · split
      · exact h1
      · extract_lets +onlyGivenNames s2
        have h2 : s2.Canonical := h1.updBarrow.dropOp.restBarrow
        split
        · exact h2
        · extract_lets +onlyGivenNames s3
          have h3 : s3.Canonical := by
            unfold s3
            split
            · exact h2.updCtx
            · exact h2
          exact h3.raiseAt
    · exact h1
  · exact h1

theorem State.Canonical.failOp (h : s.Canonical) : (s.failOp b op code arg).Canonical := by
  unfold State.failOp
  split
  · exact h.updQ.settle
  · exact h

theorem State.Canonical.killHeld (h : s.Canonical) : (s.killHeld b op page dest).Canonical :=
  h.updQ

theorem State.Canonical.waitFault {w : Waiter} (h : s.Canonical) : (s.waitFault page cause w).Canonical := by
  unfold State.waitFault
  extract_lets +onlyGivenNames need
  split
  · split
    · exact h.noteFault.killHeld.failOp
    · exact h
  · exact h.noteFault.raiseAt
  · exact h.noteFault.updCtx
  · exact h.noteFault.updCtx

theorem State.Canonical.raisePage {wr : Bool} (h : s.Canonical) : (s.raisePage c g page wr).Canonical :=
  either h <| either h.update h.update.incSat.emit

theorem State.Canonical.sendPages {l : List PageReq} (h : s.Canonical) : (s.sendPages l).Canonical := by
  induction l generalizing s with
  | nil => exact h
  | cons p r ih => exact either (ih h.update.incSat.emit) (ih h)

theorem State.Canonical.waitMissing {w : Waiter} (h : s.Canonical) : (s.waitMissing c g page lack w).Canonical := by
  unfold State.waitMissing
  extract_lets +onlyGivenNames need
  split
  · split
    · exact h.waitFault
    · split
      · extract_lets +onlyGivenNames s1
        have h1 : s1.Canonical := h.raisePage
        split
        · exact h1.updCtx
        · exact h1.updCtx
        · exact h1
      · exact h.waitFault
  · exact h.waitFault

/-! ## Results -/

theorem State.Canonical.serveWaiters {l : List Waiter} (h : s.Canonical) : (s.serveWaiters c g page out l).Canonical := by
  induction l generalizing s with
  | nil => exact h
  | cons w r ih =>
    cases out with
    | entry e => exact ih (either h h.waitMissing)
    | absent => exact ih h.waitMissing
    | fault n => exact ih h.waitFault

theorem State.Canonical.xlResult (h : s.Canonical) : (s.xlResult x out).Canonical := by
  unfold State.xlResult
  extract_lets +onlyGivenNames s1
  have h1 : s1.Canonical := by
    unfold s1
    split
    · exact h.tlbPut
    · exact h
  exact h1.serveWaiters

theorem State.Canonical.askAgain {l : List Waiter} (h : s.Canonical) : (s.askAgain c g page l).Canonical := by
  induction l generalizing s with
  | nil => exact h
  | cons x r ih =>
    rw [State.askAgain]
    split
    rename_i _ t e
    have h1 := h.startX.snd e
    extract_lets +onlyGivenNames s2
    have h2 : s2.Canonical := by
      unfold s2
      split
      · exact h1.waitFault
      · exact h1
    exact ih h2

end Sys2Proof.Machine
end

section

/-! PROOFS. Memory stays canonical (O59): the barrows. -/

namespace Sys2Proof.Machine

open Sys2Proof

variable {s : State} {n k slot a b c code j tag op seq arg page clamps sem : Nat} {dest wait again : Bool} {o : Op} {bs : List Byte}
  {ns : List Nat} {i : IWord} {l : LaneId} {body : MsgBody}

/-! ## Issue (R175 to R179, R219) -/

theorem State.Canonical.barBody (h : s.Canonical) : (barBody l i s).Canonical := by
  unfold Machine.barBody
  split
  · exact h.raise
  · dsimp only
    split
    · exact h.raise
    · exact h.issueOps

/-! ## Frames (R219 to R221) -/

theorem State.Canonical.fillFrame (h : s.Canonical) : (s.fillFrame b op page dest).Canonical := by
  unfold State.fillFrame
  split
  · split
    · exact h.updQ
    · split
      · extract_lets +onlyGivenNames s1 need
        have h1 : s1.Canonical := h.updQ
        split
        rename_i _ t e
        have h2 := h1.lookup.snd e
        split
        · split
          · exact either h2.updQ.failOp h2.updQ
          · exact h2
        · exact h2.waitFault
        · split
          rename_i _ t e
          have h3 := h2.startX.snd e
          split
          · exact h3.waitFault
          · exact h3
      · exact h
  · exact h

theorem State.Canonical.fillFrames {l : List Frame} (h : s.Canonical) : (s.fillFrames b op l).Canonical := by
  induction l generalizing s with
  | nil => exact h
  | cons x r ih => exact ih (either h h.fillFrame)

theorem State.Canonical.refillGo (h : s.Canonical) : (State.refillGo b op n s).Canonical := by
  induction n generalizing s with
  | zero => exact h
  | succ n ih =>
    rw [State.refillGo]
    split
    · exact either h.updQ <| ih h.updQ.fillFrames
    · exact h

theorem State.Canonical.refill (h : s.Canonical) : (s.refill b op).Canonical :=
  h.refillGo

theorem State.Canonical.refillOps {l : List (Nat × Nat)} (h : s.Canonical) : (s.refillOps l).Canonical := by
  induction l generalizing s with
  | nil => exact h
  | cons x r ih => exact ih h.refill

theorem State.Canonical.refillAll (h : s.Canonical) : s.refillAll.Canonical :=
  h.refillOps

theorem State.Canonical.checkSegs (h : s.Canonical) : (s.checkSegs b op k).Canonical := by
  unfold State.checkSegs
  split
  · split
    · exact h.noteFault.failOp
    · exact either h.failOp h
  · exact h

theorem State.Canonical.descriptorQueueS (h : s.Canonical) : (descriptorQueueS op s).Canonical := by
  unfold Machine.descriptorQueueS
  split
  · split
    · exact either h h.updBarrow.checkSegs.refill
    · exact h
  · exact h

/-! ## The budget (R236) -/

theorem State.Canonical.spendTx (h : s.Canonical) : (s.spendTx b).Canonical :=
  either h.update h

theorem State.Canonical.takeTokens (h : s.Canonical) : (s.takeTokens c b n).2.Canonical :=
  eitherSnd h (eitherSnd h.updCtx h.updCtx)

theorem State.Canonical.sendPeer (h : s.Canonical) : (s.sendPeer slot c j tag body).Canonical := by
  unfold State.sendPeer
  split
  · split
    · exact h.originate
    · exact h
  · exact h.sendJob

/-! ## Pieces (R222, R227) -/

theorem State.Canonical.updSeg {f : Seg → Seg} (h : s.Canonical) : (s.updSeg b op k f).Canonical :=
  h.updQ

theorem State.Canonical.failSeg (h : s.Canonical) : (s.failSeg b op k code arg).Canonical :=
  h.updSeg.failOp

theorem State.Canonical.scrEnergy (h : s.Canonical) : (s.scrEnergy c seq a n).Canonical := by
  unfold State.scrEnergy
  extract_lets +onlyGivenNames w
  split
  · exact h.energyEvent
  · exact h.energyEvent
  · exact h

theorem State.Canonical.gotPiece {i : Nat} (h : s.Canonical) : (s.gotPiece b op k i bs).Canonical :=
  h.updSeg

theorem State.Canonical.timeoutInj {r : Req} (h : s.Canonical) : (s.timeoutInj b r).2.Canonical :=
  eitherSnd h.disarm h

theorem State.Canonical.sendSrc {i : Nat} (h : s.Canonical) : (s.sendSrc b op k i).Canonical := by
  unfold State.sendSrc
  split
  · split
    · split
      · split
        · exact either (either h.failSeg (either h.checkScr.gotPiece.scrEnergy h.checkScr.failSeg))
            (either h.memOut.failSeg (either h.spendTx.acceptRead.workUp.energyEvent.updSeg h))
        · exact either h h.spendTx.addReq.emit.updSeg
        · split
          · exact h
          · split
            · rename_i t e
              exact h.takeTokens.snd e
            · rename_i t e
              exact (h.takeTokens.snd e).spendTx.timeoutInj.addReq.sendPeer.workUp.energyEvent.updSeg
        · exact h.failSeg
      · exact h
    · exact h
  · exact h

theorem State.Canonical.sentDst {i : Nat} (h : s.Canonical) : (s.sentDst b op k i wait clamps).Canonical :=
  h.updSeg

theorem State.Canonical.sendDst {i : Nat} (h : s.Canonical) : (s.sendDst b op k i).Canonical := by
  unfold State.sendDst
  split
  · split
    · split
      · extract_lets +onlyGivenNames red f rop count
        have counted {t : State} (ht : t.Canonical) : (count t).Canonical := ht.incWrap.workUp
        split
        · refine either (either h.failSeg (either (either h.checkScr.failSeg ?_) (counted h.store.scrEnergy).sentDst)) ?_
          · exact (counted h.checkScr.reduceAt.scrEnergy).sentDst
          · exact either h.memOut.failSeg
              (either (counted (either h h.spendTx).acceptWrite.workUp.energyEvent).sentDst h)
        · exact either h (counted h.emit).sentDst
        · split
          · exact h
          · split
            · rename_i t e
              exact h.takeTokens.snd e
            · rename_i t e
              have h1 := h.takeTokens.snd e
              exact (counted h1.spendTx.timeoutInj.addReq.sendPeer.workUp.energyEvent).sentDst
        · exact h.failSeg
      · exact h
    · exact h
  · exact h

theorem State.Canonical.formSeg (h : s.Canonical) : (s.formSeg b op k).Canonical := by
  unfold State.formSeg
  split
  · exact either h h.updSeg
  · exact h

theorem State.Canonical.sendSrcs (h : s.Canonical) : (s.sendSrcs b op k ns).Canonical := by
  induction ns generalizing s with
  | nil => exact h
  | cons x r ih => exact ih h.sendSrc

theorem State.Canonical.sendDsts (h : s.Canonical) : (s.sendDsts b op k ns).Canonical := by
  induction ns generalizing s with
  | nil => exact h
  | cons x r ih => exact ih h.sendDst

theorem State.Canonical.pumpSeg (h : s.Canonical) : (s.pumpSeg b op k).Canonical := by
  unfold State.pumpSeg
  split
  · exact either h h.sendSrcs.formSeg.sendDsts
  · exact h

theorem State.Canonical.pumpSegs (h : s.Canonical) : (s.pumpSegs b op ns).Canonical := by
  induction ns generalizing s with
  | nil => exact h
  | cons x r ih => exact ih h.pumpSeg

theorem State.Canonical.budgetState (h : s.Canonical) : (s.budgetState b).Canonical :=
  either h.setBarSt.barEvent <| either h.setBarSt h

theorem State.Canonical.rebind (h : s.Canonical) : (s.rebind b op).Canonical := by
  unfold State.rebind
  split
  · split
    · exact h.failSeg
    · exact h.noteFault.failSeg
    · exact h.updQ
  · exact h

theorem State.Canonical.pumpOps (h : s.Canonical) : (s.pumpOps b ns).Canonical := by
  induction ns generalizing s with
  | nil => exact h
  | cons x r ih =>
    rw [State.pumpOps]
    refine ih ?_
    split
    · exact h.rebind.pumpSegs
    · exact h.rebind

theorem State.Canonical.pump (h : s.Canonical) : (s.pump b).Canonical :=
  h.pumpOps.budgetState

theorem State.Canonical.pumpAll (h : s.Canonical) : (s.pumpAll ns).Canonical := by
  induction ns generalizing s with
  | nil => exact h
  | cons x r ih => exact ih h.pump

theorem State.Canonical.pumpBarrows (h : s.Canonical) : s.pumpBarrows.Canonical :=
  h.pumpAll

/-! ## Frames in use -/

theorem State.Canonical.frameTranslatedS (h : s.Canonical) : (frameTranslatedS b op page s).Canonical := by
  unfold Machine.frameTranslatedS
  split
  · exact h.fillFrame.fillFrame.refill.pump
  · exact h

/-! ## Starting (R218) -/

theorem State.Canonical.startDigest (h : s.Canonical) : (s.startDigest b o).Canonical :=
  either h.updQ.failOp <| either h.updQ.updCtx h.updQ

theorem State.Canonical.barrowOpStartS (h : s.Canonical) : (barrowOpStartS b s).Canonical := by
  unfold Machine.barrowOpStartS
  extract_lets +onlyGivenNames x
  split
  · exact h
  · split
    · exact h
    · extract_lets +onlyGivenNames run turn
      refine either h.ctrlWord <| either h ?_
      extract_lets +onlyGivenNames s1 s2
      have h1 : s1.Canonical := h.startOp.updQ
      have h2 : s2.Canonical := either h1.setBarSt h1
      exact either h2.startDigest h2

/-! ## Issue of segments (R222, R224) -/

theorem State.Canonical.stallSeg {q : QDesc} (h : s.Canonical) : (s.stallSeg b q page dest again).Canonical :=
  either h.updQ.setBarSt.incSat.barEvent (either h.setBarSt h).refill

theorem State.Canonical.segmentIssueS (h : s.Canonical) : (segmentIssueS b s).Canonical := by
  unfold Machine.segmentIssueS
  extract_lets +onlyGivenNames x
  split
  · exact h
  · extract_lets +onlyGivenNames s1
    have h1 : s1.Canonical := either h.updQ.checkSegs h
    split
    · split
      · split
        · exact h1.failOp
        · exact h1.noteFault.failOp
        · exact h1.stallSeg
        · exact either (either h1 h1.setBarSt.barEvent) (either h1.updQ h1.updQ.setBarSt).pumpSeg.refill.budgetState
      · exact h1
    · exact h1

theorem State.Canonical.budgetGrantS (h : s.Canonical) : (budgetGrantS s).Canonical := by
  unfold Machine.budgetGrantS
  extract_lets +onlyGivenNames n
  split
  · exact h.pump
  · split
    · exact h.pump
    · exact h

/-! ## Completion (R223) -/

theorem State.Canonical.semAdd {v : Nat} (h : s.Canonical) : (s.semAdd c sem v).2.Canonical :=
  eitherSnd h.updCtx h

theorem State.Canonical.absorb (h : s.Canonical) : (s.absorb b o k bs).Canonical := by
  unfold State.absorb
  split
  · exact h.updQ.updCtx
  · exact h

theorem State.Canonical.endBarOp (h : s.Canonical) : (s.endBarOp b o).Canonical := by
  unfold State.endBarOp
  extract_lets +onlyGivenNames s1 s2
  have h1 : s1.Canonical := either h.updCtx h
  have h2 : s2.Canonical := h1.updBarrow.finishOp.restBarrow
  exact either (either h2.semAdd h2.semAdd.raiseOp) h2

theorem State.Canonical.segmentCompleteS (h : s.Canonical) : (segmentCompleteS b op k s).Canonical := by
  unfold Machine.segmentCompleteS
  split
  · split
    · exact h
    · extract_lets +onlyGivenNames s1 s2 s3 bs s4
      have h1 : s1.Canonical := h.updQ
      have h2 : s2.Canonical := h1.tallyUp.energyEvent
      have h3 : s3.Canonical := h2.countSat
      have h4 : s4.Canonical := either h3.absorb.energyEvent h3
      split
      · exact either h4.settle <| either h4.endBarOp h4
      · exact h4
  · exact h

theorem State.Canonical.barrowReplayS (h : s.Canonical) : (barrowReplayS b s).Canonical := by
  unfold Machine.barrowReplayS
  split
  · exact h
  · extract_lets +onlyGivenNames page s1
    have h1 : s1.Canonical := h.fillFrame.fillFrame
    split
    · exact h1.restBarrow
    · exact either h1 <| either h1 h1.updQ.setBarSt.incSat.barEvent.refill

end Sys2Proof.Machine
end

section

/-! PROOFS. Memory stays canonical (O59): results of translation, page requests and withdrawals. -/

namespace Sys2Proof.Machine

open Sys2Proof

variable {s : State} {n k m status c va cause tag first len id page engine itag pages pa index wd : Nat} {ns cs : List Nat}
  {drain hostW : Bool} {v : Word} {x : XReq} {host : List Word} {pasid : Option Nat}

/-! ## ATS (R251) -/

theorem State.Canonical.atsTcplS {r : AtsResult} (h : s.Canonical) : (atsTcplS id status r s).Canonical := by
  unfold Machine.atsTcplS
  split
  · exact h
  · exact either h.update <| either h.update.askAgain (either h.update.xltEvent h.update).xlResult

theorem State.Canonical.relayBack {r : Relay} {t : HostTx} (h : s.Canonical) : (s.relayBack r t).Canonical :=
  h.update.emit

/-! ## Walks (R245 to R250) -/

theorem State.Canonical.readEntry {k : Walk} (h : s.Canonical) : (s.readEntry c pa k).2.2.Canonical := by
  unfold State.readEntry
  split
  · dsimp only
    split
    · exact h
    · exact h
  · exact eitherSnd₂ h.walkLine h
  · exact h

theorem State.Canonical.walkGo {f : PtFmt} {b : Bool} {x : Walk} (h : s.Canonical) : (State.walkGo c f hostW va n k b x s).2.2.Canonical := by
  induction n generalizing k b x s with
  | zero => exact h
  | succ n ih =>
    rw [State.walkGo]
    extract_lets +onlyGivenNames ix
    split
    rename_i o w t e
    have h1 := h.readEntry.snd₂ e
    split
    · exact h1
    · exact eitherSnd₂ h1 (eitherSnd₂ h1 (eitherSnd₂ (eitherSnd₂ h1 (eitherSnd₂ h1 h1)) (ih h1)))

theorem State.Canonical.walk (h : s.Canonical) : (s.walk x host).2.2.Canonical := by
  unfold State.walk
  exact eitherSnd₂ h h.walkGo

theorem State.Canonical.walkReads (h : s.Canonical) : (s.walkReads ns).Canonical := by
  induction ns generalizing s with
  | nil => exact h
  | cons x r ih => exact ih h.emit.update

theorem State.Canonical.hwWalkS (h : s.Canonical) : (hwWalkS id host s).Canonical := by
  unfold Machine.hwWalkS
  split
  · exact h
  · split
    · exact h
    · split
      · exact h.update.takeWalkers
      · split
        rename_i _ _ t e
        have h1 := h.walk.snd₂ e
        split
        · exact h
        · extract_lets +onlyGivenNames s2 tag s3
          have h2 : s2.Canonical := h1.update.walkReads
          have h3 : s3.Canonical := by
            unfold s3
            split
            · exact h2.xlResult
            · exact h2.xltEvent.xlResult
            · exact h2.xlResult
            · exact h2.xlResult
          exact h3.takeWalkers

/-! ## Page requests (R255) -/

theorem State.Canonical.markServed {wr : Bool} {x : Waiter} (h : s.Canonical) : (s.markServed page wr x).Canonical := by
  unfold State.markServed
  split
  · exact h.updQ
  · exact h.updLane
  · exact h.updCtx
  · exact h.updCtx

theorem State.Canonical.markAll {wr : Bool} {l : List Waiter} (h : s.Canonical) : (s.markAll page wr l).Canonical := by
  induction l generalizing s with
  | nil => exact h
  | cons x r ih => exact ih h.markServed

theorem State.Canonical.faultAll {l : List Waiter} (h : s.Canonical) : (s.faultAll page cause l).Canonical := by
  induction l generalizing s with
  | nil => exact h
  | cons x r ih => exact ih h.waitFault

theorem State.Canonical.prqFailed (h : s.Canonical) : (s.prqFailed c).Canonical :=
  h.incSat

theorem State.Canonical.prgRspS {code : PrgCode} (h : s.Canonical) : (prgRspS index code s).Canonical := by
  unfold Machine.prgRspS
  split
  · exact h
  · extract_lets +onlyGivenNames s1 live ws s2 s3
    have h1 : s1.Canonical := h.update
    have h2 : s2.Canonical := either h1.prqFailed h1
    have h3 : s3.Canonical := by
      unfold s3
      split
      · exact h2.markAll.askAgain
      · exact h2.markAll.faultAll
      · exact either h2.setFld.xltEvent.markAll.faultAll h2
    exact h3.sendPages

theorem State.Canonical.priTimeoutS (h : s.Canonical) : (priTimeoutS index s).Canonical := by
  unfold Machine.priTimeoutS
  split
  · exact h
  · exact either h <| either h.update h.update.prqFailed.xltEvent.markAll.faultAll

/-! ## Withdrawals (R258 to R264) -/

theorem State.Canonical.dropRange (h : s.Canonical) : (s.dropRange cs first len).Canonical :=
  h.update

theorem State.Canonical.withdraw {itag : Option Nat} (h : s.Canonical) : (s.withdraw itag drain cs first pages).Canonical :=
  h.dropRange.update.refillAll

theorem State.Canonical.atsInvS (h : s.Canonical) : (atsInvS itag pasid page pages s).Canonical :=
  either h (either (h.foldl fun h => h.emit) h).withdraw

theorem State.Canonical.endWithdraw {w : Withdraw} (h : s.Canonical) : (s.endWithdraw w).Canonical := by
  unfold State.endWithdraw
  extract_lets +onlyGivenNames s1 ns s2
  have h1 : s1.Canonical := h.update
  have h2 : s2.Canonical := either h1.setFld h1
  split
  · exact h2.emit
  · exact either h2 h2.setReg.xltEvent.mgmt

theorem State.Canonical.engineInvalAckS (h : s.Canonical) : (engineInvalAckS wd engine s).Canonical := by
  unfold Machine.engineInvalAckS
  split
  · exact h
  · exact either h.update.endWithdraw h.update

theorem State.Canonical.memberInvCpl (h : s.Canonical) : (s.memberInvCpl m itag).Canonical := by
  unfold State.memberInvCpl
  split
  · exact h
  · exact either h.update.endWithdraw h.update

theorem State.Canonical.reqFault {r : Req} (h : s.Canonical) : (s.reqFault r cause).Canonical := by
  unfold State.reqFault
  extract_lets +onlyGivenNames s1
  have h1 : s1.Canonical := either h.xltEvent h
  split
  · split
    · exact h1.noteFault.failSeg
    · exact h1
  · exact h1.noteFault.raiseAt
  · exact h1.noteFault.updCtx
  · exact h1

theorem State.Canonical.invalAbandonS (h : s.Canonical) : (invalAbandonS wd tag s).Canonical := by
  unfold Machine.invalAbandonS
  split
  · exact either h <| either h.updReq.xltEvent h.updReq.xltEvent.reqFault
  · exact h

theorem State.Canonical.drainGo (h : s.Canonical) : (s.drainGo v).Canonical :=
  either h <| either h.regError <| either h.setReg h.setReg.withdraw

theorem State.Canonical.segWithdraw (h : s.Canonical) : (s.segWithdraw c n).Canonical :=
  either h h.dropRange.update

theorem State.Canonical.recheckSegs (h : s.Canonical) : (s.recheckSegs c).Canonical :=
  h.update

theorem State.Canonical.withdrawAll (h : s.Canonical) : (s.withdrawAll c).Canonical :=
  h.withdraw.recheckSegs

end Sys2Proof.Machine
end

section

/-! PROOFS. Memory stays canonical (O59): the barrier engine. -/

namespace Sys2Proof.Machine

open Sys2Proof

variable {s : State} {n k t c g op seq blk : Nat} {o : Op} {ns : List Nat} {l : LaneId} {body : MsgBody} {known : Option Nat}

/-! ## Groups as bound (R283) -/

theorem State.Canonical.barSend (h : s.Canonical) : (s.barSend g blk body).Canonical :=
  either h.sendPeer h.sendJob

theorem State.Canonical.barSends (h : s.Canonical) : (s.barSends g body ns).Canonical := by
  induction ns generalizing s with
  | nil => exact h
  | cons x r ih => exact ih h.barSend

/-! ## The epoch (R284, R285) -/

theorem State.Canonical.openBar (h : s.Canonical) : (s.openBar g).Canonical :=
  either h h.update

theorem State.Canonical.updBar {f : BarGroup → BarGroup} (h : s.Canonical) : (s.updBar g f).Canonical :=
  h.update

theorem State.Canonical.regapTiles (h : s.Canonical) : (s.regapTiles known ns).Canonical := by
  induction ns generalizing s with
  | nil => exact h
  | cons x r ih => exact ih (either h.endGap.updTile h)

theorem State.Canonical.regap (h : s.Canonical) : (s.regap l known).Canonical :=
  h.regapTiles

theorem State.Canonical.laterRelease (h : s.Canonical) : (s.laterRelease t ns).Canonical := by
  induction ns generalizing s with
  | nil => exact h
  | cons x r ih =>
    rw [State.laterRelease]
    refine ih ?_
    split
    · exact either h.updOp.regap h
    · exact h

theorem State.Canonical.takeConfirm {c : ConfirmInfo} (h : s.Canonical) : (s.takeConfirm c).Canonical := by
  unfold State.takeConfirm
  extract_lets +onlyGivenNames g s1 s2 s3 s4 ids s5
  have h1 : s1.Canonical := h.setFld.setFld
  have h2 : s2.Canonical := h1.updBar
  have h3 : s3.Canonical := either h2.setReg.fabEvent h2
  have h4 : s4.Canonical := either h3.fabEvent h3
  have h5 : s5.Canonical := h4.laterRelease
  exact either h5.updPower.redecide h5

theorem State.Canonical.confirmDown {c : ConfirmInfo} (h : s.Canonical) : (s.confirmDown c).Canonical :=
  h.takeConfirm.barSends

theorem State.Canonical.checkEpoch (h : s.Canonical) : (s.checkEpoch g).Canonical := by
  unfold State.checkEpoch
  split
  · exact h
  · split
    · exact h
    · exact either h <| either (either h.updBar.fabEvent h.updBar).confirmDown h.updBar.barSend

/-! ## Arrival (R184) -/

theorem State.Canonical.checkLocal (h : s.Canonical) : (s.checkLocal c seq).Canonical := by
  unfold State.checkLocal
  split
  · exact h
  · exact either h.update h

theorem State.Canonical.checkGroup (h : s.Canonical) : (s.checkGroup c seq g).Canonical := by
  unfold State.checkGroup
  split
  · exact h
  · exact either h (either h.openBar.updBar.fabEvent h.openBar.updBar).checkEpoch

theorem State.Canonical.startBarrier (h : s.Canonical) : (s.startBarrier o).Canonical :=
  either h.startOp.checkLocal h.startOp.openBar.updBar.checkGroup

theorem State.Canonical.finishIds (h : s.Canonical) : (s.finishIds ns).Canonical := by
  induction ns generalizing s with
  | nil => exact h
  | cons x r ih =>
    rw [State.finishIds]
    refine ih ?_
    split
    · exact h.finishOp
    · exact h

theorem State.Canonical.barrierReleaseS (h : s.Canonical) : (barrierReleaseS g s).Canonical := by
  unfold Machine.barrierReleaseS
  split
  · split
    · exact either h h.finishIds.update.setFld.setFld.setFld
    · exact h
  · exact h

/-! ## Messages -/

theorem State.Canonical.arriveS (h : s.Canonical) : (arriveS k s).Canonical := by
  unfold Machine.arriveS
  split
  · rename_i _ t e
    have h1 := h.take e
    split
    · exact either h1.openBar.updBar.checkEpoch h1
    · exact h
  · exact h

theorem State.Canonical.confirmS (h : s.Canonical) : (confirmS k s).Canonical := by
  unfold Machine.confirmS
  split
  · rename_i _ t e
    have h1 := h.take e
    split
    · exact either h1.confirmDown h1
    · exact h
  · exact h

theorem State.Canonical.missingS (h : s.Canonical) : (missingS k s).Canonical := by
  unfold Machine.missingS
  split
  · rename_i _ t e
    have h1 := h.take e
    split
    · exact either h1.openBar.updBar h1
    · exact h
  · exact h

theorem State.Canonical.noteMissing (h : s.Canonical) : (s.noteMissing g n).Canonical :=
  h.setFld.setFld

theorem State.Canonical.stragglerS (h : s.Canonical) : (stragglerS k s).Canonical := by
  unfold Machine.stragglerS
  split
  · rename_i _ t e
    have h1 := h.take e
    split
    · exact either h1.noteMissing.updBar.barSends h1
    · exact h
  · exact h

theorem State.Canonical.missingTimerS (h : s.Canonical) : (missingTimerS g s).Canonical := by
  unfold Machine.missingTimerS
  split
  · split
    · exact h
    · extract_lets +onlyGivenNames s1
      have h1 : s1.Canonical := h.updBar
      split
      · exact either h1.noteMissing.updBar.barSends h1.barSend
      · exact h1
  · exact h

theorem State.Canonical.stragglerSilenceS (h : s.Canonical) : (stragglerSilenceS g s).Canonical := by
  unfold Machine.stragglerSilenceS
  split
  · exact either h h.noteMissing.updBar
  · exact h

theorem State.Canonical.alignedGuardTickS (h : s.Canonical) : (alignedGuardTickS op s).Canonical := by
  unfold Machine.alignedGuardTickS
  split
  · exact either h.updOp.regap h
  · exact h

end Sys2Proof.Machine
end

section

/-! PROOFS. Memory stays canonical (O59): scalar, branch, load and wait instructions. -/

namespace Sys2Proof.Machine

open Sys2Proof

variable {s : State} {n r t c op lat sem : Nat} {o : Op} {v : Word} {i : IWord} {l : LaneId} {link : Option Nat} {data : Option (List Byte)}
  {sx : Bool}

theorem State.Canonical.writeS (h : s.Canonical) : (s.writeS l r v lat).Canonical :=
  either h h.updLane.pendReg

theorem State.Canonical.writeP {v : Bool} (h : s.Canonical) : (s.writeP l r v).Canonical :=
  either h h.updLane.pendReg

theorem State.Canonical.aluBody {f : Word → Word → Word} (h : s.Canonical) : (aluBody l i f lat s).Canonical :=
  h.writeS.advance

theorem State.Canonical.aluS {f : Word → Word → Word} (h : s.Canonical) : (aluS l i op f lat s).Canonical :=
  h.issue h.aluBody

theorem State.Canonical.divBody {f : Word → Word → Word} (h : s.Canonical) : (divBody l i f s).Canonical :=
  either h.waitLane h.updLane.aluBody

theorem State.Canonical.divS {f : Word → Word → Word} (h : s.Canonical) : (divS l i op f s).Canonical :=
  h.issue h.divBody

theorem State.Canonical.cmpBody {f : Word → Word → Bool} (h : s.Canonical) : (cmpBody l i f s).Canonical :=
  h.writeP.advance

theorem State.Canonical.cmpS {f : Word → Word → Bool} (h : s.Canonical) : (cmpS l i op f s).Canonical :=
  h.issue h.cmpBody

theorem State.Canonical.predBody {f : Bool → Bool → Bool} (h : s.Canonical) : (predBody l i f s).Canonical :=
  h.writeP.advance

theorem State.Canonical.predS {f : Bool → Bool → Bool} (h : s.Canonical) : (predS l i op f s).Canonical :=
  h.issue h.predBody

theorem State.Canonical.selBody (h : s.Canonical) : (selBody l i s).Canonical :=
  h.writeS.advance

theorem State.Canonical.jump (h : s.Canonical) : (s.jump l t).Canonical :=
  h.updLane.spend

theorem State.Canonical.branchBody {t : Word} (h : s.Canonical) : (branchBody l t link s).Canonical := by
  unfold Machine.branchBody
  extract_lets +onlyGivenNames ln
  split
  · exact h.raise
  · split
    · exact h.raise
    · extract_lets +onlyGivenNames s1
      have h1 : s1.Canonical := by
        unfold s1
        split
        · exact h.writeS
        · exact h
      exact h1.jump

theorem State.Canonical.loopBody (h : s.Canonical) : (loopBody l i s).Canonical :=
  either h.raise <| either h.raise <| either h.updLane.spend h.updLane.spend

theorem State.Canonical.endBody (h : s.Canonical) : (endBody l i s).Canonical :=
  h.advance.updLane

/-! ## LD and ST -/

theorem State.Canonical.portBody {dst : Option Nat} (h : s.Canonical) : (portBody l i n dst data s).Canonical := by
  unfold Machine.portBody
  split
  · exact h.raise
  · exact h.issueOps

theorem State.Canonical.loadS (h : s.Canonical) : (loadS l i op n s).Canonical :=
  h.issue h.portBody

theorem State.Canonical.storeS (h : s.Canonical) : (storeS l i op n s).Canonical :=
  h.issue h.portBody

theorem State.Canonical.completePort (h : s.Canonical) : (s.completePort o).Canonical := by
  unfold State.completePort
  split
  · exact h
  · extract_lets +onlyGivenNames s1
    have h1 : s1.Canonical := h.energyEvent
    split
    · split
      rename_i _ t e
      have h2 := h1.readFor.snd e
      split
      · exact h2.dropOp
      · extract_lets +onlyGivenNames bs s3
        have h3 : s3.Canonical := by
          unfold s3
          split
          · exact either h2.updLane h2.updLane
          · exact h2
        exact h3.finishOp
    · exact h1.wrList.finishOp

/-! ## Constants -/

theorem State.Canonical.ldcBody (h : s.Canonical) : (ldcBody l i n sx s).Canonical := by
  unfold Machine.ldcBody
  split
  · exact h.raise
  · exact h.writeS.advance

/-! ## Descriptors -/

theorem State.Canonical.writeD {v : Desc} (h : s.Canonical) : (s.writeD l r v lat).Canonical :=
  h.updLane.pendReg

theorem State.Canonical.semBody (h : s.Canonical) : (semBody l i s).Canonical :=
  h.issueOps

theorem State.Canonical.barrierBody (h : s.Canonical) : (barrierBody l i s).Canonical :=
  either h.raise h.issueOps

/-! ## Releases -/

theorem State.Canonical.opResult {v : Nat} (h : s.Canonical) : (s.opResult o v).Canonical := by
  unfold State.opResult
  split
  · exact h.updLane
  · exact h

theorem State.Canonical.waitReleaseS (h : s.Canonical) : (waitReleaseS c sem s).Canonical := by
  unfold Machine.waitReleaseS
  split
  · extract_lets +onlyGivenNames v
    split
    · exact either h.updCtx.finishOp h
    · exact h.updCtx
  · exact h

theorem State.Canonical.timeWaitReleaseS (h : s.Canonical) : (timeWaitReleaseS op s).Canonical := by
  unfold Machine.timeWaitReleaseS
  split
  · exact either h.opResult.finishOp h
  · exact h

end Sys2Proof.Machine
end

section

/-! PROOFS. Memory stays canonical (O59): operations in their units. -/

namespace Sys2Proof.Machine

open Sys2Proof

variable {s : State} {a t c g code id arg pa : Nat} {o : Op} {bs : List Byte} {ns : List Nat} {l : LaneId} {ut : Bool}

/-! ## Starts (R150) -/

theorem State.Canonical.startDrain (h : s.Canonical) : (s.startDrain t o).Canonical :=
  either h <| either h.startOp.closeChain h.startOp

theorem State.Canonical.semReached (h : s.Canonical) : (s.semReached o).Canonical :=
  h.updCtx

theorem State.Canonical.startSync (h : s.Canonical) : (s.startSync o).Canonical := by
  unfold State.startSync
  extract_lets +onlyGivenNames clear
  split
  · exact either h h.startOp
  · exact either h.startOp <| either h h.startOp.semReached.updCtx
  · exact either h.startOp h
  · exact either h.startBarrier h

theorem State.Canonical.startTime (h : s.Canonical) : (s.startTime o).Canonical := by
  unfold State.startTime
  extract_lets +onlyGivenNames s1
  have h1 : s1.Canonical := h.startOp
  split
  · exact h1.updOp
  · exact h1.updLane.redecide
  · exact h1

theorem State.Canonical.operationStartS (h : s.Canonical) : (operationStartS id s).Canonical := by
  unfold Machine.operationStartS
  split
  · exact h
  · split
    · exact h
    · split
      · exact h
      · split
        · split
          · exact h.startOp.updTile
          · exact h.startDrain
          · exact h.startOp
        · exact h.startOp.takeAll
      · exact h.startOp
      · exact h.startSync
      · exact h.startTime

/-! ## Completions (R160) -/

theorem State.Canonical.opEnergy (h : s.Canonical) : (s.opEnergy o).Canonical :=
  h.energyEvent.energyEvent

theorem State.Canonical.completeVec (h : s.Canonical) : (s.completeVec t o).Canonical := by
  unfold State.completeVec
  extract_lets +onlyGivenNames o
  split
  · exact h.takeAll
  · extract_lets +onlyGivenNames srcs
    split
    rename_i ok t e
    have h1 := h.readAll.snd e
    split
    · exact h1.dropOp
    · extract_lets +onlyGivenNames book
      split
      rename_i bad t e
      have h2 := (eitherSnd h1.tableError h1).snd e
      split
      · exact h2.dropOp
      · split
        rename_i bad t e
        have h3 : t.Canonical := by
          split at e
          · exact h2.bankError.snd e
          · exact h2.snd e
        split
        · exact h3.dropOp
        · split
          rename_i flip t e
          have h4 := (eitherSnd h3.takeTagFlip h3).snd e
          extract_lets +onlyGivenNames out
          split
          · exact (either h4 h4.wrList.countSat.stickyNan).dropOp.raiseOp
          · exact h4.wrList.countSat.stickyNan.opEnergy.energyEvent.workUp.finishOp

theorem State.Canonical.completeSig (h : s.Canonical) : (s.completeSig o).Canonical :=
  either h <| either h.semReached.semAdd.finishOp h.semReached.semAdd.dropOp.raiseOp

theorem State.Canonical.completeArm (h : s.Canonical) : (s.completeArm t o).Canonical := by
  unfold State.completeArm
  extract_lets +onlyGivenNames flying
  split
  · exact h.finishOp
  · exact either h.opEnergy.finishOp h
  · exact either h.opEnergy.finishOp h
  · exact either h <| either h.dropOp h.finishOp

theorem State.Canonical.operationCompleteS (h : s.Canonical) : (operationCompleteS id s).Canonical := by
  unfold Machine.operationCompleteS
  split
  · exact h
  · split
    · exact h
    · split
      · exact h
      · exact either h.completeArm h.completeVec
      · exact h.completePort
      · split
        · exact h.completeSig
        · exact either h.finishOp h
        · exact h.finishOp
        · exact either h.finishOp h
      · exact either (either h.opResult h).finishOp h

/-! ## The start of a launch (R128) -/

theorem State.Canonical.laneLaunchStartS (h : s.Canonical) : (laneLaunchStartS l s).Canonical := by
  unfold Machine.laneLaunchStartS
  extract_lets +onlyGivenNames x
  split
  · exact h
  · split
    · exact h.updLane
    · exact either h.updLane <| either h (either h h.updCluster).updLane.updLaunch.update

/-! ## The end of a cluster's share (R147, R168) -/

theorem State.Canonical.freeLane (h : s.Canonical) : (s.freeLane l).Canonical :=
  h.calibrationEventS.updLaunch.update.updLane.redecide

theorem State.Canonical.closeChains (h : s.Canonical) : (s.closeChains l ns).Canonical := by
  induction ns generalizing s with
  | nil => exact h
  | cons x r ih => exact ih h.addOp.closeChain.updTile

theorem State.Canonical.endRetireS (h : s.Canonical) : (endRetireS l s).Canonical :=
  either h <| either h.closeChains <| h.tallyUp.freeLane.checkLocal.foldl fun h => h.checkGroup

/-! ## Instruction fetch (R129) -/

theorem State.Canonical.gotLine (h : s.Canonical) : (s.gotLine l c g a bs).Canonical :=
  h.updCluster.updLane

theorem State.Canonical.fetchRaise (h : s.Canonical) : (s.fetchRaise l code arg).Canonical :=
  h.raiseAt

theorem State.Canonical.fetchFrom (h : s.Canonical) : (s.fetchFrom l a pa ut).Canonical := by
  unfold State.fetchFrom
  extract_lets +onlyGivenNames x
  split
  · exact either (either h.fetchRaise (either h.checkScr.gotLine h.checkScr.fetchRaise)) <| either h.memOut.fetchRaise <| either h.acceptRead h
  · exact either h h.addReq.emit
  · exact either h h.addReq.sendPeer
  · exact h.fetchRaise

theorem State.Canonical.instructionFetchS {host : List Byte} (h : s.Canonical) : (instructionFetchS l host s).Canonical := by
  unfold Machine.instructionFetchS
  extract_lets +onlyGivenNames x
  split
  · exact h
  · split
    · exact h
    · split
      · exact either h.dropReq.gotLine h
      · split
        · exact h.fetchRaise
        · split
          rename_i _ t e
          have h1 := h.xlate.snd e
          split
          · exact h1.fetchFrom
          · exact h1.fetchRaise
          · exact h1.waitFault
          · split
            rename_i _ t e
            have h2 := h1.startX.snd e
            split
            · exact h2.waitFault
            · exact h2.waitLane

end Sys2Proof.Machine
end

section

/-! PROOFS. Memory stays canonical (O59): submission, dispatch and completion. -/

namespace Sys2Proof.Machine

open Sys2Proof

variable {s : State} {off n mask job m status r a c va code cause gctx tag seq arg src jgen clamps pa total before : Nat}
  {on kernel ut lead inj : Bool} {v new : Word} {bs : List Byte} {ns : List Nat} {d : Decision} {body : MsgBody}
  {member : Option (Nat × GangFig)} {ws : List Word}

/-! ## Doorbells and rings (R189 to R191, R213) -/

theorem State.Canonical.updRing {f : Ring → Ring} (h : s.Canonical) : (s.updRing c r f).Canonical :=
  h.updCtx

theorem State.Canonical.doorbell (h : s.Canonical) : (s.doorbell c v).Canonical :=
  either h.updRing h.incSat.criEvent

theorem State.Canonical.wrRingCfg (h : s.Canonical) : (s.wrRingCfg c r new).Canonical := by
  unfold State.wrRingCfg
  extract_lets +onlyGivenNames off old on s1 new
  have h1 : s1.Canonical := either h.regError h
  exact either (either h1.setReg.regError h1.setReg.updRing) h1.setReg

theorem State.Canonical.wrCqCfg (h : s.Canonical) : (s.wrCqCfg c new).Canonical := by
  unfold State.wrCqCfg
  extract_lets +onlyGivenNames off old on s1 new
  have h1 : s1.Canonical := either h.regError h
  exact either (either h1.setReg.regError h1.setReg.setReg.updCtx) h1.setReg

theorem State.Canonical.wrBase (h : s.Canonical) : (s.wrBase off on new).Canonical :=
  either h.regError h.setReg

theorem State.Canonical.wrCqHead {v : Nat} (h : s.Canonical) : (s.wrCqHead c v).Canonical :=
  either h.setFld h

theorem State.Canonical.ackUndel (h : s.Canonical) : (s.ackUndel c mask).Canonical :=
  h.setFld.updCtx

/-! ### The record (R193 to R195) -/

theorem State.Canonical.countDecided (h : s.Canonical) : (s.countDecided c r).Canonical :=
  h.updRing

theorem State.Canonical.gotRecord (h : s.Canonical) : (s.gotRecord c r n bs).Canonical :=
  (either h.countDecided h).updRing

theorem State.Canonical.recFailed (h : s.Canonical) : (s.recFailed c r n va).Canonical :=
  (either h h.countDecided).updRing

theorem State.Canonical.recFrom (h : s.Canonical) : (s.recFrom c r n va pa ut).Canonical := by
  unfold State.recFrom
  extract_lets +onlyGivenNames x
  split
  · exact either (either (either h.checkScr.gotRecord h.checkScr.recFailed) h.waitFault) (either h.memOut.recFailed (either h.acceptRead h))
  · exact either h h.addReq.emit
  · exact either h h.addReq.sendPeer
  · exact h.recFailed

theorem State.Canonical.recFetch (h : s.Canonical) : (s.recFetch c r n).Canonical := by
  unfold State.recFetch
  extract_lets +onlyGivenNames va
  split
  · exact h
  · split
    rename_i _ t e
    have h1 := h.xlate.snd e
    split
    · exact h1.recFrom
    · exact h1.waitFault
    · split
      rename_i _ t e
      have h2 := h1.startX.snd e
      split
      · exact h2.waitFault
      · exact either h2.updRing h2

theorem State.Canonical.ringScanS (h : s.Canonical) : (ringScanS c r s).Canonical := by
  unfold Machine.ringScanS
  extract_lets +onlyGivenNames g
  refine either h <| either (either h.updRing h.updRing) <| either h.ctrlWord <| either h ?_
  extract_lets +onlyGivenNames n seq bad s1 fresh s2 s3
  have h2 : s2.Canonical := h.updCtx.updRing
  have h3 : s3.Canonical := either h2.update h2.update
  exact h3.recFetch

theorem State.Canonical.recordFetchS (h : s.Canonical) : (recordFetchS c r bs s).Canonical := by
  unfold Machine.recordFetchS
  split
  · exact h
  · split
    · exact either h.dropReq.gotRecord h
    · exact either h h.recFetch

/-! ## Dispatch (R196, R198) -/

theorem State.Canonical.takeTurn (h : s.Canonical) : (s.takeTurn c r).Canonical :=
  h.updCtx

theorem State.Canonical.notBeforeReleaseS (h : s.Canonical) : (notBeforeReleaseS c r s).Canonical := by
  unfold Machine.notBeforeReleaseS
  split
  · split
    · exact either h h.updRing
    · exact h
  · exact h

theorem State.Canonical.wakeFor (h : s.Canonical) : (s.wakeFor c).Canonical :=
  h.update

theorem State.Canonical.sendLanes (h : s.Canonical) : (s.sendLanes c seq ns).Canonical := by
  induction ns generalizing s with
  | nil => exact h
  | cons x r ih => exact ih h.updLane

theorem State.Canonical.gangCounts (h : s.Canonical) : (s.gangCounts ns).2.Canonical := by
  induction ns generalizing s with
  | nil => exact h
  | cons x r ih => exact ih h.draw

theorem State.Canonical.dispatchOthers {g : GangLaunch} {own : Nat} {l : List (Nat × Nat)} (h : s.Canonical) :
    (s.dispatchOthers c g own total before l).Canonical := by
  induction l generalizing s before with
  | nil => exact h
  | cons x r ih => exact ih (either h h.emit)

theorem State.Canonical.dispatchS (h : s.Canonical) : (dispatchS c s).Canonical := by
  unfold Machine.dispatchS
  split
  · exact h
  · split
    · exact h
    · split
      · exact h
      · split
        · exact h.ctrlWord
        · split
          rename_i ms t e
          have h1 := (eitherSnd h.gangCounts h).snd e
          have h2 {c r : Nat} {f : Ctx → Ctx} {g : Ring → Ring} : (((t.takeTurn c r).updCtx c f).updRing c r g).Canonical :=
            h1.takeTurn.updCtx.updRing
          dsimp only
          split
          · exact h2
          · exact either h2.sendLanes.wakeFor.dispatchOthers.incWrap.criEvent h2.sendLanes.wakeFor.dispatchOthers

theorem State.Canonical.memberLaunch {g : GangLaunch} (h : s.Canonical) : (s.memberLaunch c g).Canonical :=
  either h h.updCtx.sendLanes.wakeFor

/-! ## What a launch leaves (R102, R335, R336, R389) -/

theorem State.Canonical.addWork (h : s.Canonical) : (s.addWork c n ns).Canonical := by
  induction ns generalizing s n with
  | nil => exact h
  | cons x r ih => exact ih h.incWrap

theorem State.Canonical.takeEnergy {l : Launch} (h : s.Canonical) : (s.takeEnergy c l).2.Canonical :=
  h.updPower.updLaunch

theorem State.Canonical.accountLaunch {l : Launch} (h : s.Canonical) : (s.accountLaunch c l).Canonical :=
  either h h.takeEnergy.addWork.incWrap.updCtx.setReg.setReg.incSat.incSat.setBitsIn

theorem State.Canonical.settleGaps (h : s.Canonical) : (s.settleGaps ns).Canonical := by
  induction ns generalizing s with
  | nil => exact h
  | cons x r ih => exact ih h.settleGap

theorem State.Canonical.account (h : s.Canonical) : (s.account c seq).Canonical := by
  unfold State.account
  extract_lets +onlyGivenNames s1
  have h1 : s1.Canonical := h.settleGaps
  split
  · exact h1.accountLaunch
  · exact h1

/-! ## Deciding (R203, R204) -/

theorem State.Canonical.decide_ (h : s.Canonical) : (s.decide_ c seq d).Canonical :=
  h.updLaunch.countDecided

theorem State.Canonical.freeLanes {l : List LaneId} (h : s.Canonical) : (s.freeLanes c seq l).Canonical := by
  induction l generalizing s with
  | nil => exact h
  | cons x r ih => exact ih (either h.freeLane h).updLane

theorem State.Canonical.memberEnd {l : Launch} (h : s.Canonical) : (s.memberEnd c l).Canonical :=
  either h h.freeLanes.settleGaps.takeEnergy.updCtx.emit

theorem State.Canonical.endReportS (h : s.Canonical) : (endReportS c seq member s).Canonical := by
  unfold Machine.endReportS
  split
  · exact h
  · exact either h.updLaunch h
  · exact either h.memberEnd <| either h h.decide_

theorem State.Canonical.memberExc {e : GangExc} (h : s.Canonical) : (s.memberExc c seq m e).Canonical := by
  unfold State.memberExc
  split
  · exact either h h.updLaunch.stopLaunch
  · exact h

theorem State.Canonical.exceptionReportS (h : s.Canonical) : (exceptionReportS c seq s).Canonical := by
  unfold Machine.exceptionReportS
  split
  · split
    · exact either h.updLaunch.emit h.decide_
    · exact h
  · exact h

theorem State.Canonical.wrAbort (h : s.Canonical) : (s.wrAbort c kernel v).Canonical :=
  either h.setFld h.setReg.updCtx

theorem State.Canonical.abortResult {stage : Nat} (h : s.Canonical) : (s.abortResult c kernel code stage).Canonical :=
  h.setFld.setFld.updCtx

theorem State.Canonical.abort (h : s.Canonical) : (s.abort c seq kernel).Canonical := by
  unfold State.abort
  extract_lets +onlyGivenNames r n g src ahead
  split
  · exact h.abortResult
  · split
    · exact either h.abortResult h.decide_.stopLaunch.abortResult
    · split
      · exact either h.abortResult h.updRing.countDecided.abortResult
      · exact either h.abortResult <| either h.abortResult <| either h.abortResult h.updCtx.countDecided.abortResult

theorem State.Canonical.abortRequestArriveS (h : s.Canonical) : (abortRequestArriveS c kernel s).Canonical := by
  unfold Machine.abortRequestArriveS
  split
  · exact h.abort
  · exact h

/-! ## The completion record (R199 to R202, R206) -/

theorem State.Canonical.attnHeld (h : s.Canonical) : (s.attnHeld c).Canonical :=
  either (either h.incSat.updCtx h.incSat).setBitsIn <| either h.incSat.updCtx h.incSat

theorem State.Canonical.afterLaunch (h : s.Canonical) : (s.afterLaunch c d).Canonical :=
  either (either h.errAttn h).updCtx.errAttn <| either h.errAttn h

theorem State.Canonical.retire {l : Launch} (h : s.Canonical) : (s.retire c l d).Canonical :=
  h.updCtx.afterLaunch

theorem State.Canonical.wroteCq {l : Launch} (h : s.Canonical) : (s.wroteCq c l d).Canonical :=
  either h.updCtx.retire.attnHeld h.updCtx.retire

theorem State.Canonical.putUndel {x : Option Nat} (h : s.Canonical) : (s.putUndel c ws x).Canonical := by
  unfold State.putUndel
  split
  · exact (h.foldl fun h => h.setReg).setBitsIn
  · exact h

theorem State.Canonical.cqLost (h : s.Canonical) : (s.cqLost c).Canonical :=
  h.updCtx

theorem State.Canonical.cqStore {l : Launch} (h : s.Canonical) : (s.cqStore c pa ut va l d ws).Canonical := by
  unfold State.cqStore
  extract_lets +onlyGivenNames bs
  split
  · exact either h h.emit.wroteCq
  · exact either (either h.store.wroteCq h.cqLost) <| either h.memOut.cqLost <| either (either h.acceptWrite.updCtx h.acceptWrite.wroteCq) h
  · exact h.cqLost

theorem State.Canonical.cqTry {l : Launch} (h : s.Canonical) : (s.cqTry c l d ws).Canonical := by
  unfold State.cqTry
  extract_lets +onlyGivenNames va
  split
  rename_i _ t e
  have h1 := h.xlate.snd e
  split
  · exact h1.cqStore
  · exact h1.waitFault
  · split
    rename_i _ t e
    have h2 := h1.startX.snd e
    split
    · exact h2.waitFault
    · exact h2.updCtx

theorem State.Canonical.cqAcked (h : s.Canonical) : (s.cqAcked c).Canonical := by
  unfold State.cqAcked
  split
  · split
    · exact either h.wroteCq h
    · exact h
  · exact h

theorem State.Canonical.completionRecordWriteS (h : s.Canonical) : (completionRecordWriteS c s).Canonical := by
  unfold Machine.completionRecordWriteS
  split
  · exact h
  · split
    · exact h
    · split
      · exact h
      · extract_lets +onlyGivenNames s1 s2 l ws
        have h1 : s1.Canonical := h.freeLanes
        have h2 : s2.Canonical := h1.account
        split
        · split
          · exact h2.putUndel.retire
          · exact h2
        · split
          · exact either h2.disarm.detect.cqLost h2.cqTry
          · exact h2.cqTry

theorem State.Canonical.dropRecs (h : s.Canonical) : (s.dropRecs c r lead).Canonical :=
  h.update.updRing.updCtx

theorem State.Canonical.dropAllRecs (h : s.Canonical) : (s.dropAllRecs c lead).Canonical :=
  h.foldl fun h => h.dropRecs

theorem State.Canonical.fault_ (h : s.Canonical) : (s.fault_ c cause).Canonical :=
  h.updCtx.errAttn

theorem State.Canonical.completionWriteFaultS (h : s.Canonical) : (completionWriteFaultS c s).Canonical := by
  unfold Machine.completionWriteFaultS
  split
  · split
    · exact h.putUndel.updCtx.retire.dropAllRecs.fault_.criEvent
    · exact h
  · exact h

theorem State.Canonical.recordFetchFaultS (h : s.Canonical) : (recordFetchFaultS c r s).Canonical := by
  unfold Machine.recordFetchFaultS
  extract_lets +onlyGivenNames g
  split
  · extract_lets +onlyGivenNames before
    split
    · exact either h (either h h.countDecided).updCtx.updRing.dropRecs.updRing.dropAllRecs.fault_
    · exact h
  · exact h

/-! ## The watch (R209 to R211, R353) -/

theorem State.Canonical.hang {l : Launch} (h : s.Canonical) : (s.hang c l inj).Canonical :=
  h.detect.mgmt.criEvent.updLaunch

theorem State.Canonical.watchOne (h : s.Canonical) : (s.watchOne c seq inj).Canonical := by
  unfold State.watchOne
  split
  · exact h
  · exact either h <| either h.disarm.hang <| either h.updLaunch <| either h.updLaunch <| either h.hang h

theorem State.Canonical.watchCtx (h : s.Canonical) : (s.watchCtx c ns).Canonical := by
  induction ns generalizing s with
  | nil => exact h
  | cons x r ih => exact ih h.watchOne

theorem State.Canonical.watchAll (h : s.Canonical) : (s.watchAll ns).Canonical := by
  induction ns generalizing s with
  | nil => exact h
  | cons x r ih => exact ih h.watchCtx

theorem State.Canonical.watchSampleS (h : s.Canonical) : (watchSampleS s).Canonical :=
  h.watchAll

theorem State.Canonical.reply (h : s.Canonical) : (s.reply job src jgen gctx tag body).Canonical :=
  h.originate

theorem State.Canonical.respond {r : Req} (h : s.Canonical) : (s.respond r bs clamps).Canonical := by
  unfold State.respond
  split
  · exact h
  · split
    · exact h.reply
    · exact h.emit
    · exact either h.gotPiece.pump.settle h
    · exact either h.updSeg.pump.settle h
    · exact either h.gotLine h
    · exact either h.gotRecord h
    · exact either h.cqAcked h

theorem State.Canonical.failReq {r : Req} (h : s.Canonical) : (s.failReq r code arg).Canonical := by
  unfold State.failReq
  split
  · exact h
  · split
    · exact h.reply
    · exact h.emit
    · exact either h.failSeg h
    · exact either h.failSeg h
    · exact either h.raiseAt h
    · exact either h.recFailed h
    · exact either h.cqLost h

theorem State.Canonical.cplS (h : s.Canonical) : (cplS tag status bs s).Canonical := by
  unfold Machine.cplS
  split
  · exact h
  · split
    · exact h
    · extract_lets +onlyGivenNames s1 inj s2 st
      have h1 : s1.Canonical := h.dropReq
      have h2 : s2.Canonical := either h1.disarm h1
      split
      · exact h2.respond.pumpBarrows
      · extract_lets +onlyGivenNames s3 live s4
        have h3 : s3.Canonical := h2.detect
        have h4 : s4.Canonical := by
          unfold s4
          split
          · exact h3
          · split
            · exact h3.reqFault
            · split
              · exact either h3.updRing.recFetch h3.failReq
              · exact h3.failReq
        exact h4.pumpBarrows

/-! ## The debug channel (R417, R454) -/

theorem State.Canonical.debugAttached (h : s.Canonical) : (s.debugAttached off a).Canonical :=
  either h.memOut.emit <| either h.acceptRead h.update

end Sys2Proof.Machine
end

section

/-! PROOFS. Memory stays canonical (O59): the memory controllers. -/

namespace Sys2Proof.Machine

open Sys2Proof

variable {s : State} {lo n tag st page ch bank sl line : Nat} {v : Word} {ns : List Nat} {reads : List MReq} {checks : LineChecks}

/-! ## The command slot (R301, R302, R305) -/

theorem State.Canonical.closeIdle (h : s.Canonical) : (s.closeIdle ch).Canonical :=
  h.updChan

theorem State.Canonical.actRows (h : s.Canonical) : (s.actRows ch bank ns).Canonical := by
  induction ns generalizing s with
  | nil => exact h
  | cons x r ih => exact ih h.emit.activate

theorem State.Canonical.doRefresh {r : Refresh} (h : s.Canonical) : (s.doRefresh ch r).Canonical :=
  either (either h.updChan.incWrap.emit h.updChan.incWrap.actRows) h.updChan.emit

theorem State.Canonical.lineDone (h : s.Canonical) : (s.lineDone ns).Canonical := by
  induction ns generalizing s with
  | nil => exact h
  | cons x r ih =>
    rw [State.lineDone]
    split
    · exact ih (either h.dropReq.respond h.updReq)
    · exact ih h

theorem State.Canonical.lineFail (h : s.Canonical) : (s.lineFail line ns).Canonical := by
  induction ns generalizing s with
  | nil => exact h
  | cons x r ih =>
    rw [State.lineFail]
    split
    · exact ih h.dropReq.failReq
    · exact ih h

theorem State.Canonical.fly {q : MReq} (h : s.Canonical) : (s.fly ch q sl).Canonical :=
  h.touch.devRd.updChan

theorem State.Canonical.chooseRead {q : MReq} (h : s.Canonical) : (s.chooseRead ch q).Canonical := by
  unfold State.chooseRead
  extract_lets +onlyGivenNames s1
  have h1 : s1.Canonical := h.updChan
  split
  · exact h1.lineDone
  · extract_lets +onlyGivenNames s2
    have h2 : s2.Canonical := h1.touch
    split
    · exact h2.lineDone
    · exact h2.fly

theorem State.Canonical.chooseWrite {q : MReq} (h : s.Canonical) : (s.chooseWrite ch q).Canonical := by
  unfold State.chooseWrite
  extract_lets +onlyGivenNames s1 s2 s3
  have h1 : s1.Canonical := h.touch
  have h2 : s2.Canonical := either h1.initPage h1
  have h3 : s3.Canonical := h2.updChan
  exact either h3.fly h3.putLine.lineDone

theorem State.Canonical.turn (h : s.Canonical) : (s.turn ch reads).Canonical :=
  h.updChan

theorem State.Canonical.debugAgain (h : s.Canonical) : s.debugAgain.Canonical := by
  unfold State.debugAgain
  split
  · exact either h.update.debugAttached h
  · exact h

theorem State.Canonical.startLine (h : s.Canonical) : (s.startLine ch).Canonical :=
  h.updPower

theorem State.Canonical.chooseReq (h : s.Canonical) : (s.chooseReq ch).Canonical := by
  unfold State.chooseReq
  extract_lets +onlyGivenNames ok rs ws age go
  split
  · exact either h.startLine.chooseWrite h.startLine.chooseRead
  · extract_lets +onlyGivenNames s1 qs
    have h1 : s1.Canonical := h.turn
    split
    · exact either h1.startLine.chooseWrite h1.startLine.chooseRead
    · exact either h1.startLine.chooseWrite h1.startLine.chooseRead
    · split
      · exact h1.doRefresh
      · exact h1

theorem State.Canonical.memCommandSlotS (h : s.Canonical) : (memCommandSlotS ch s).Canonical := by
  unfold Machine.memCommandSlotS
  split
  · exact h
  · extract_lets +onlyGivenNames s1
    have h1 : s1.Canonical := h.closeIdle
    split
    · exact h1.doRefresh
    · exact either h1 h1.chooseReq.pumpBarrows.debugAgain

/-! ## A line returns (R308, R310 to R312) -/

theorem State.Canonical.undoWrite {q : MReq} (h : s.Canonical) : (s.undoWrite ch q).Canonical :=
  h.update.updChan.wrBytes

theorem State.Canonical.macFail (h : s.Canonical) : (s.macFail ch line).Canonical :=
  h.updMem.updChan

theorem State.Canonical.memReadReturnS (h : s.Canonical) : (memReadReturnS ch tag checks s).Canonical := by
  unfold Machine.memReadReturnS
  split
  · exact h
  · extract_lets +onlyGivenNames inj s1 link macLink who sq rep fixed s2 s3 badLink badMac
    have corrected {t : State} (ht : t.Canonical) : (fixed t).Canonical := ht.incSat.memEvent.detect
    have h1 : s1.Canonical := either h.memDisarm h
    have h2 : s2.Canonical := either (corrected h1) h1
    have h3 : s3.Canonical := either (corrected h2) h2
    split
    · refine either h3.devRds.updChan ?_
      extract_lets +onlyGivenNames s4 s5 s6 s7 s8
      have h4 : s4.Canonical := h3.updChan
      have h5 : s5.Canonical := either h4.incSat h4.incSat
      have h6 : s6.Canonical := h5.memEvent.detect
      have h7 : s7.Canonical := either h6.macFail h6
      have h8 : s8.Canonical := either h7.undoWrite h7
      exact h8.lineFail.pumpBarrows
    · extract_lets +onlyGivenNames s4 s5 s6
      have h4 : s4.Canonical := by
        unfold s4
        split
        · exact h3.incSat.memEvent.detect
        · exact h3
      have h5 : s5.Canonical := h4.updChan
      have h6 : s6.Canonical := either h5.putLine h5
      exact h6.lineDone.pumpBarrows

/-! ## Refresh and training (R304, R306) -/

theorem State.Canonical.refreshDueS (h : s.Canonical) : (refreshDueS ch bank s).Canonical :=
  either h h.updChan

theorem State.Canonical.showPhy (h : s.Canonical) : (s.showPhy ns).Canonical := by
  induction ns generalizing s with
  | nil => exact h
  | cons x r ih => exact ih h.setFld

theorem State.Canonical.firstKey (h : s.Canonical) : s.firstKey.Canonical := by
  unfold State.firstKey
  exact h.draw.updMem

theorem State.Canonical.memUp (h : s.Canonical) : s.memUp.Canonical :=
  either h h.setFld.firstKey

theorem State.Canonical.trained (h : s.Canonical) : (s.trained ch st).Canonical :=
  h.updChan.showPhy

theorem State.Canonical.channelTrainedS (h : s.Canonical) : (channelTrainedS ch s).Canonical := by
  unfold Machine.channelTrainedS
  split
  · exact either h.trained.memUp h
  · exact h

theorem State.Canonical.trainTimeoutS (h : s.Canonical) : (trainTimeoutS ch s).Canonical := by
  unfold Machine.trainTimeoutS
  split
  · exact either (either h.trained.memEvent.setFld h.trained.memEvent) h
  · exact h

/-! ## Clearing a range (R313) -/

theorem State.Canonical.clearReqs {l : List MReq} (h : s.Canonical) : (s.clearReqs ch l).Canonical := by
  induction l generalizing s with
  | nil => exact h
  | cons x r ih => exact ih (either h.chooseWrite h.chooseRead)

theorem State.Canonical.clearQueues (h : s.Canonical) : (s.clearQueues lo n ns).Canonical := by
  induction ns generalizing s with
  | nil => exact h
  | cons x r ih => exact ih h.clearReqs.clearReqs.updChan

theorem State.Canonical.clearGo (h : s.Canonical) : (s.clearGo v).Canonical :=
  either h <| either h.regError <| either h.setReg h.clearQueues.zeroMem.updMem.setReg

theorem State.Canonical.memClearDoneS (h : s.Canonical) : (memClearDoneS s).Canonical := by
  unfold Machine.memClearDoneS
  split
  · exact h
  · exact either h h.updMem.setReg.memEvent

/-! ## The sweep (R413 to R415) -/

theorem State.Canonical.sweepPageS (h : s.Canonical) : (sweepPageS ch page s).Canonical := by
  unfold Machine.sweepPageS
  extract_lets +onlyGivenNames key ca
  split
  · exact either h.devRds.markPage.devWrs.touchMacs.touch h
  · exact h

theorem State.Canonical.keySlotZeroS (h : s.Canonical) : (keySlotZeroS s).Canonical := by
  unfold Machine.keySlotZeroS
  split
  · exact either h.updMem.insEvent h
  · exact h

end Sys2Proof.Machine
end

section

/-! PROOFS. Memory stays canonical (O59): the link complex. -/

namespace Sys2Proof.Machine

open Sys2Proof

variable {s : State} {n k p a tag st : Nat} {hd : Head} {body : MsgBody} {new : Word} {inj : Bool}

/-! ## Ports (R267, R268, R272) -/

theorem State.Canonical.setPort (h : s.Canonical) : (s.setPort p st).Canonical :=
  either h h.dropHeads.setFld.fabEvent.update

theorem State.Canonical.wrPort (h : s.Canonical) : (s.wrPort p new).Canonical :=
  either h.setFld.setPort <| either h.setFld.setPort h.setFld

theorem State.Canonical.linkReplayS (h : s.Canonical) : (linkReplayS p s).Canonical :=
  either h <| either h.update.incSat.resend.detect h.update.incSat.setPort.detect

/-! ## The check at ingress (R278) -/

theorem State.Canonical.countRefused (h : s.Canonical) : (s.countRefused hd a).Canonical :=
  (either h.incSat h.incSat).setReg.fabEvent

theorem State.Canonical.ingress {m : Msg} (h : s.Canonical) : (s.ingress p hd m).Canonical := by
  unfold State.ingress
  extract_lets +onlyGivenNames put
  split
  · exact h.update
  · exact h.update
  · exact h.update
  · split
    · exact h.update
    · exact either h.countRefused.reply <| either h h.countRefused

theorem State.Canonical.ingressAll {l : List Msg} (h : s.Canonical) : (s.ingressAll p hd l).Canonical := by
  induction l generalizing s with
  | nil => exact h
  | cons x r ih => exact ih h.ingress

theorem State.Canonical.ingressHead {l : List Msg} (h : s.Canonical) : (s.ingressHead p hd l).Canonical :=
  either h.dropHead h.ingressAll

theorem State.Canonical.deliver (h : s.Canonical) : (s.deliver p hd).Canonical := by
  unfold State.deliver
  extract_lets +onlyGivenNames s1
  have h1 : s1.Canonical := h.ctrlWord
  split
  · exact h1.ingressHead
  · split
    · exact h1.ingressHead
    · exact either (either h1.disarm h1).dropHead.detect (either h1.disarm h1).ingressHead

theorem State.Canonical.loopTick (h : s.Canonical) : s.loopTick.Canonical := by
  unfold State.loopTick
  split
  · exact h
  · exact h.update.ingressHead

/-! ## Arrival (R273, R274) -/

theorem State.Canonical.headArriveS (h : s.Canonical) : (headArriveS p hd s).Canonical := by
  unfold Machine.headArriveS
  split
  · exact h
  · extract_lets +onlyGivenNames s1 s2
    have h1 : s1.Canonical := h.incWrap
    have h2 : s2.Canonical := h1.update
    split
    · exact h2.dropHead
    · split
      · exact h2.deliver
      · split
        · exact h2.dropHead
        · split
          · exact h2.sendPort
          · exact h2.dropHead

/-! ## Requests of a peer (R280, R281) -/

theorem State.Canonical.answer {d : Delivered} (h : s.Canonical) : (s.answer d body).Canonical :=
  h.reply

theorem State.Canonical.fabWriteS (h : s.Canonical) : (fabWriteS k s).Canonical := by
  unfold Machine.fabWriteS
  split
  · rename_i _ t e
    have h1 := h.take e
    split
    · exact either h1.store.answer <| either h1.memOut.answer <| either (either h1.acceptWrite h1.acceptWrite.answer) h
    · exact h
  · exact h

theorem State.Canonical.fabReduceS (h : s.Canonical) : (fabReduceS k s).Canonical := by
  unfold Machine.fabReduceS
  split
  · rename_i _ t e
    have h1 := h.take e
    split
    · exact either h1.answer <| either h1.checkScr.answer h1.checkScr.reduceAt.answer
    · exact h
  · exact h

theorem State.Canonical.fabReadS (h : s.Canonical) : (fabReadS k s).Canonical := by
  unfold Machine.fabReadS
  split
  · rename_i _ t e
    have h1 := h.take e
    split
    · exact either h1.checkScr.answer <| either h1.memOut.answer <| either h1.acceptRead h
    · exact h
  · exact h

/-! ## Responses of a peer (R228, R281) -/

theorem State.Canonical.peerError {d : Delivered} {r : Req} (h : s.Canonical) : (s.peerError d r inj).Canonical :=
  h.detect.failReq

theorem State.Canonical.flitsIn {r : Req} (h : s.Canonical) : (s.flitsIn r n).Canonical :=
  h.energyEvent

theorem State.Canonical.fabAckS (h : s.Canonical) : (fabAckS k s).Canonical := by
  unfold Machine.fabAckS
  split
  · rename_i _ t e
    have h1 := h.take e
    split
    · exact either h1.dropReq.flitsIn.respond.pumpBarrows h1
    · exact h1
    · exact h
  · exact h

theorem State.Canonical.fabDataS (h : s.Canonical) : (fabDataS k s).Canonical := by
  unfold Machine.fabDataS
  split
  · rename_i d t e
    have h1 := h.take e
    split
    · refine either h1 ?_
      extract_lets +onlyGivenNames inj s2
      have h2 : s2.Canonical := (either h1.disarm h1).dropReq.flitsIn
      exact either h2.peerError.pumpBarrows h2.respond.pumpBarrows
    · exact h1
    · exact h
  · exact h

theorem State.Canonical.fabRefuseS (h : s.Canonical) : (fabRefuseS k s).Canonical := by
  unfold Machine.fabRefuseS
  split
  · rename_i _ t e
    have h1 := h.take e
    split
    · exact h1.dropReq.flitsIn.failReq.pumpBarrows
    · exact h1
    · exact h
  · exact h

theorem State.Canonical.fabErrorS (h : s.Canonical) : (fabErrorS k s).Canonical := by
  unfold Machine.fabErrorS
  split
  · rename_i _ t e
    have h1 := h.take e
    split
    · exact h1.dropReq.flitsIn.peerError.pumpBarrows
    · exact h1
    · exact h
  · exact h

theorem State.Canonical.linkRequestTimeoutS (h : s.Canonical) : (linkRequestTimeoutS tag s).Canonical := by
  unfold Machine.linkRequestTimeoutS
  split
  · exact h
  · split
    · exact either h <| either h.dropReq.pumpBarrows h.dropReq.detect.failReq.pumpBarrows
    · exact h

/-! ## Job key phases (R416) -/

theorem State.Canonical.flipPhase (h : s.Canonical) : (s.flipPhase k p).Canonical :=
  either h h.setFld.updKey.updKey

theorem State.Canonical.keyPhaseExpireS (h : s.Canonical) : (keyPhaseExpireS k s).Canonical := by
  unfold Machine.keyPhaseExpireS
  extract_lets +onlyGivenNames p
  split
  · exact either h.updKey h
  · exact h

/-! ## Management messages (R418) -/

theorem State.Canonical.mgmtWhole {m : Partial} (h : s.Canonical) : (s.mgmtWhole m).Canonical := by
  unfold State.mgmtWhole
  split
  · exact h.updInsp
  · split
    · split
      · exact h.emit
      · exact h
    · exact either h.update h

theorem State.Canonical.mgmtS (h : s.Canonical) : (mgmtS k s).Canonical := by
  unfold Machine.mgmtS
  split
  · rename_i _ t e
    have h1 := h.take e
    split
    · exact either h1 <| either h1.updInsp.mgmtWhole h1.updInsp
    · exact h
  · exact h

end Sys2Proof.Machine
end

section

/-! PROOFS. Memory stays canonical (O59): the life of a context. -/

namespace Sys2Proof.Machine

open Sys2Proof

variable {s : State} {off b t c e cause op : Nat} {destroy command : Bool} {v : Word}

/-! ## Interrupts (R330 to R332) -/

theorem State.Canonical.clearAttn {m : Word} (h : s.Canonical) : (s.clearAttn c m).Canonical :=
  either h.setReg.setFld.updCtx h.setReg

theorem State.Canonical.modTimerS (h : s.Canonical) : (modTimerS c s).Canonical := by
  unfold Machine.modTimerS
  extract_lets +onlyGivenNames us
  split
  · exact either h.setBitsIn.updCtx h
  · exact h

theorem State.Canonical.linkRateTokenS (h : s.Canonical) : (linkRateTokenS c s).Canonical :=
  either h h.updCtx.pumpBarrows

/-! ## Generations (R358, R359) -/

theorem State.Canonical.genCleanS (h : s.Canonical) : (genCleanS c s).Canonical :=
  either h.updCtx h

/-! ## The Awning (R355, R357) -/

theorem State.Canonical.purge (h : s.Canonical) : (s.purge c).Canonical := by
  have landed : ∀ {t : State} {o : Op}, t.Canonical → (match o.st, o.unit with
      | .running, .tile k => if iCls o.iw == 9 then t.landPrefix k o else t
      | _, _ => t).Canonical := fun {t o} ht => by
    split
    · exact either ht.landPrefix ht
    · exact ht
  unfold State.purge
  exact (h.foldl landed).update.updCtx.takeWalkers

theorem State.Canonical.awningTile (h : s.Canonical) : (s.awningTile t).Canonical :=
  h.settleGap.updTile

theorem State.Canonical.retireSlot (h : s.Canonical) : (s.retireSlot c).Canonical := by
  unfold State.retireSlot
  split
  · exact h.setFld.fabEvent.redecide
  · exact h

theorem State.Canonical.dropAbort (h : s.Canonical) : (s.dropAbort off).Canonical :=
  either h.setFld h

theorem State.Canonical.beginReset (h : s.Canonical) : (s.beginReset c cause destroy command).Canonical := by
  unfold State.beginReset
  extract_lets +onlyGivenNames x
  split
  · exact h
  · extract_lets +onlyGivenNames rep ws s1
    have h1 : s1.Canonical := h.record
    split
    rename_i cap t e
    have h2 : t.Canonical := (eitherSnd h1.capture h1).snd e
    exact ((either h2.updCtx.tell h2.updCtx).retireSlot.purge.foldl awningTile).dropAbort.dropAbort.setReg.pumpBarrows

theorem State.Canonical.memberLostS (h : s.Canonical) : (memberLostS c s).Canonical :=
  either h h.beginReset

theorem State.Canonical.beginZero {r : CtxReset} (h : s.Canonical) : (s.beginZero c r).Canonical := by
  unfold State.beginZero
  extract_lets +onlyGivenNames s1 s2 s3
  have h1 : s1.Canonical := h.foldl fun h => h.updTile
  have h2 : s2.Canonical := h1.foldl fun h => h.updCluster
  have h3 : s3.Canonical := h2.updCtx
  exact either (h3.foldl fun h => h.updTile).setReg.setReg.clearRegs.setReg h3

theorem State.Canonical.purged (h : s.Canonical) : (s.purged b).Canonical :=
  h.updBarrow

theorem State.Canonical.awningAckS (h : s.Canonical) : (awningAckS c e s).Canonical := by
  unfold Machine.awningAckS
  split
  · extract_lets +onlyGivenNames all
    exact either h <| either (either h.purged h).updCtx <| either (either h.purged h).updCtx (either h.purged h).updCtx.beginZero
  · exact h

theorem State.Canonical.sampleDoneS (h : s.Canonical) : (sampleDoneS c s).Canonical := by
  unfold Machine.sampleDoneS
  split
  · exact either h.writeDump.beginZero h
  · exact h

theorem State.Canonical.sampleTimeoutS (h : s.Canonical) : (sampleTimeoutS c s).Canonical := by
  unfold Machine.sampleTimeoutS
  split
  · exact either h.draw.writeDump.beginZero h
  · exact h

theorem State.Canonical.cmdResult {result : Nat} (h : s.Canonical) : (s.cmdResult c op result cause).Canonical :=
  either h.setReg h.setReg.mgmt

theorem State.Canonical.contextResetCompleteS (h : s.Canonical) : (contextResetCompleteS c s).Canonical := by
  unfold Machine.contextResetCompleteS
  split
  · exact either h <| either (either h.updCtx.setReg h.updCtx.errAttn).cmdResult <| either h.updCtx.setReg h.updCtx.errAttn
  · exact h

/-! ## Commands (R317 to R321) -/

theorem State.Canonical.create (h : s.Canonical) : (s.create c).Canonical :=
  either h.cmdResult <| either h.cmdResult <| either h.cmdResult (h.clearRegs.clearRegs.update.foldl fun h => h.updTile).updCtx.cmdResult

theorem State.Canonical.resume (h : s.Canonical) : (s.resume c).Canonical :=
  either h.cmdResult <| either h.cmdResult <| either h.cmdResult <| either h.cmdResult h.updCtx.cmdResult

theorem State.Canonical.stop (h : s.Canonical) : (s.stop c).Canonical :=
  either h.cmdResult h.updCtx.cmdResult

theorem State.Canonical.resetCmd (h : s.Canonical) : (s.resetCmd c destroy).Canonical :=
  either h.cmdResult h.cmdResult.beginReset

theorem State.Canonical.wrCmd (h : s.Canonical) : (s.wrCmd v).Canonical := by
  unfold State.wrCmd
  dsimp only
  split
  · exact h.regError
  · split
    · exact h.create
    · exact h.resume
    · exact h.stop
    · exact h.resetCmd
    · exact h.resetCmd

end Sys2Proof.Machine
end

section

/-! PROOFS. Memory stays canonical (O59): power, droop and thermal control. -/

namespace Sys2Proof.Machine

open Sys2Proof

variable {s : State} {n c target tile mv rail : Nat} {v new : Word} {ns words : List Nat} {dom : RestDom} {readings : List Int}
  {scale : Rat} {es : List (Nat × Nat × Rat)}

/-! ## The clock switch (R375, R376, R394) -/

theorem State.Canonical.switchTo (h : s.Canonical) : (s.switchTo target).Canonical :=
  either h.updPower h.updPower.switchClock

theorem State.Canonical.voltageSettledS (h : s.Canonical) : (voltageSettledS s).Canonical := by
  unfold Machine.voltageSettledS
  split
  · exact either h.updPower h
  · exact h

theorem State.Canonical.pllLockedS (h : s.Canonical) : (pllLockedS s).Canonical := by
  unfold Machine.pllLockedS
  split
  · exact either h <| either h.updPower h.switchTo
  · exact h

/-! ## Droop (R379, R380) -/

theorem State.Canonical.droop (h : s.Canonical) : (s.droop tile mv).Canonical := by
  unfold State.droop
  split
  · exact h.updPower
  · exact h.updPower

theorem State.Canonical.droopWarningS (h : s.Canonical) : (droopWarningS tile mv s).Canonical :=
  either h.droop h

theorem State.Canonical.droopReleaseS (h : s.Canonical) : (droopReleaseS s).Canonical := by
  unfold Machine.droopReleaseS
  split
  · split
    · exact h
    · extract_lets +onlyGivenNames i s1 s2 s3
      have h1 : s1.Canonical := h.incWrap.pwrEvent.setReg
      have h2 : s2.Canonical := h1.setReg
      have h3 : s3.Canonical := h2.updPower
      split
      · exact either h3.switchClock h3
      · exact h3
  · exact h

/-! ## Regulators (R377, R378) -/

theorem State.Canonical.pmbusPollS {r : RailRead} (h : s.Canonical) : (pmbusPollS rail r s).Canonical :=
  either h <| either (either h.setReg h.pwrEvent).updPower <| either h.setReg h.pwrEvent

/-! ## The cap (R381, R382) -/

theorem State.Canonical.countThrottle (h : s.Canonical) : s.countThrottle.Canonical := by
  unfold State.countThrottle
  extract_lets +onlyGivenNames p q one
  have counted {t : State} {hi lo c : Nat} (ht : t.Canonical) : (one t hi lo c).Canonical := either ht.incSat ht
  exact counted (counted (counted (counted h)))

theorem State.Canonical.capControlS (h : s.Canonical) : (capControlS s).Canonical :=
  either h h.settleGaps.updPower.countThrottle.updPower.redecide

theorem State.Canonical.wrCap (h : s.Canonical) : (s.wrCap new).Canonical :=
  either h.regError h.setReg

/-! ## Temperature (R383, R384) -/

theorem State.Canonical.senseAll {l : List ℤ} (h : s.Canonical) : (s.senseAll n l).Canonical := by
  induction l generalizing s n with
  | nil => exact h
  | cons x r ih => exact either (ih h) (ih (either h.updTile.pwrEvent h.updTile))

theorem State.Canonical.setTherm (h : s.Canonical) : (s.setTherm c).Canonical :=
  (either h.pwrEvent h).updPower.redecide

theorem State.Canonical.shutdownCheck (h : s.Canonical) : s.shutdownCheck.Canonical :=
  either (either h h.pwrEvent).updPower.setTherm <| either h.updPower h

theorem State.Canonical.tempSampleS (h : s.Canonical) : (tempSampleS readings s).Canonical := by
  unfold Machine.tempSampleS
  split
  · exact h
  · extract_lets +onlyGivenNames s1
    have h1 : s1.Canonical := h.senseAll
    split
    · exact (either h1 h1.updPower).setReg.shutdownCheck
    · exact h1

theorem State.Canonical.thermalCeilingStepS (h : s.Canonical) : (thermalCeilingStepS s).Canonical :=
  either h <| either h.updPower.setTherm <| either (either h.updPower.setTherm h.updPower) h.updPower

theorem State.Canonical.wrTherm (h : s.Canonical) : (s.wrTherm new).Canonical :=
  either h.regError h.setReg

/-! ## Alerts (R385) -/

theorem State.Canonical.alertHit (h : s.Canonical) : s.alertHit.Canonical :=
  h.updPower.redecide

theorem State.Canonical.alertAssertS (h : s.Canonical) : (alertAssertS s).Canonical :=
  either h h.updPins.alertHit

theorem State.Canonical.readStatus (h : s.Canonical) : (s.readStatus words ns).Canonical := by
  induction ns generalizing s with
  | nil => exact h
  | cons x r ih =>
    have noted : ∀ {c : Prop} [Decidable c] {a b d e m : Nat}, (if c then (s.setFld a b d e).pwrEvent m else s.setFld a b d e).Canonical :=
      either h.setFld.pwrEvent h.setFld
    exact either (ih h) <| ih (either noted.emit noted)

theorem State.Canonical.alertStatusReadS (h : s.Canonical) : (alertStatusReadS words s).Canonical :=
  either h h.readStatus.pwrEvent.updPower

theorem State.Canonical.alertCeilingStepS (h : s.Canonical) : (alertCeilingStepS s).Canonical :=
  either h <| either h.updPower.redecide <| either h <| either h.updPower.redecide h.updPower

theorem State.Canonical.alertReleaseS (h : s.Canonical) : (alertReleaseS s).Canonical :=
  either h h.updPins.updPower

theorem State.Canonical.wrPwrTest (h : s.Canonical) : (s.wrPwrTest v).Canonical :=
  either h.alertHit <| either h h.draw.droop

/-! ## The Ledger's window (R389, R390) -/

theorem State.Canonical.reconcile {out : Bool} (h : s.Canonical) : (s.reconcile scale out es).Canonical :=
  h.foldl fun h => h.updLaunch

theorem State.Canonical.takeFill (h : s.Canonical) : (s.takeFill scale ns).Canonical := by
  induction ns generalizing s with
  | nil => exact h
  | cons x r ih => exact ih (either h h.updCtx)

theorem State.Canonical.ledgerWindowS (h : s.Canonical) : (ledgerWindowS s).Canonical := by
  unfold Machine.ledgerWindowS
  split
  · exact h
  · extract_lets +onlyGivenNames s1 es idle est meas m ratio scale out diff s2 s3 s4 k s5 s6 s7
    have h2 : s2.Canonical := h.settleGaps.reconcile.takeFill
    have h3 : s3.Canonical := either h2.pwrEvent h2
    have h4 : s4.Canonical := either h3.pwrEvent h3
    have h7 : s7.Canonical := h4.setReg.updPower.update
    exact h7.setReg.setReg.setReg

/-! ## Rest (R391 to R393) -/

theorem State.Canonical.setRest {d : RestDom} {r : Rest} (h : s.Canonical) : (s.setRest d r).Canonical := by
  unfold State.setRest
  split
  · exact h.updTile
  · exact h.updCluster

theorem State.Canonical.restEntryS (h : s.Canonical) : (restEntryS dom s).Canonical :=
  either h.setRest h

theorem State.Canonical.restEntryCompleteS (h : s.Canonical) : (restEntryCompleteS dom s).Canonical := by
  unfold Machine.restEntryCompleteS
  split
  · exact either h.setRest h
  · exact h

theorem State.Canonical.wakeDom (h : s.Canonical) : (s.wakeDom dom).Canonical :=
  h.setRest

theorem State.Canonical.restWakeS (h : s.Canonical) : (restWakeS dom s).Canonical :=
  either h.wakeDom h

theorem State.Canonical.wakeReadyS (h : s.Canonical) : (wakeReadyS dom s).Canonical := by
  unfold Machine.wakeReadyS
  split
  · split
    · exact h
    · extract_lets +onlyGivenNames s1
      have h1 : s1.Canonical := h.setRest
      split
      · exact either h1.updTile h1.updTile.debugAnswer
      · exact h1.debugAnswer
  · exact h

theorem State.Canonical.wakeUnasked (h : s.Canonical) : s.wakeUnasked.Canonical :=
  (h.foldl fun h => either h.wakeDom h).foldl fun h => either h h.wakeDom

theorem State.Canonical.wrRest (h : s.Canonical) : (s.wrRest new).Canonical :=
  h.setReg.wakeUnasked

end Sys2Proof.Machine
end

section

/-! PROOFS. Memory stays canonical (O59): error registers, ports, start-up and test. -/

namespace Sys2Proof.Machine

open Sys2Proof

variable {s : State} {n p dst m c e va code seq page fabric port base fail kib : Nat} {on routes : Bool} {v : Word} {ns : List Nat}

/-! ## Injection (R352, R461) -/

theorem State.Canonical.wrInject (h : s.Canonical) : (s.wrInject v).Canonical :=
  either h.regError h.update.setReg

/-! ## The log and the block soft reset (R367, R368, R370, R415) -/

theorem State.Canonical.wrLogConsumed {v : Nat} (h : s.Canonical) : (s.wrLogConsumed v).Canonical :=
  either h.setFld h

theorem State.Canonical.wrBreset (h : s.Canonical) : (s.wrBreset v).Canonical :=
  either h.beginBlockReset h

/-! ## The gang (R277, R290) -/

theorem State.Canonical.putJmap (h : s.Canonical) : (s.putJmap e fabric).Canonical :=
  h.setFld

theorem State.Canonical.putRoute (h : s.Canonical) : (s.putRoute dst port p).Canonical :=
  h.setFld

theorem State.Canonical.gangEntries (h : s.Canonical) : (s.gangEntries n m base routes ns).Canonical := by
  induction ns generalizing s with
  | nil => exact h
  | cons x r ih => exact ih (either (h.draw.draw.putJmap.foldl fun h => h.putRoute) h.draw.draw.putJmap)

theorem State.Canonical.installGang (h : s.Canonical) : (s.installGang routes).Canonical :=
  either h h.draw.gangEntries.setReg.setReg.setFld

theorem State.Canonical.blockResetReadyS (h : s.Canonical) : (blockResetReadyS s).Canonical :=
  either h (h.foldl fun h => h.setReg.setReg).update.firstKey.setFld.installGang

/-! ## Held host-bound requests (R428 to R431) -/

theorem State.Canonical.releaseHeld (h : s.Canonical) : s.releaseHeld.Canonical :=
  either h (h.update.hostWrites.update.foldl fun h => h.sendAts).sendPages.pumpBarrows

theorem State.Canonical.cplRecord (h : s.Canonical) : (s.cplRecord c seq va).Canonical :=
  h.detect

theorem State.Canonical.flushWaiter {w : Waiter} (h : s.Canonical) : (s.flushWaiter page w).Canonical := by
  unfold State.flushWaiter
  split
  · split
    · exact h.cplRecord.failOp
    · exact h
  · exact h.cplRecord.fetchRaise
  · exact h.recFailed
  · exact h.updCtx

theorem State.Canonical.flushHeld (h : s.Canonical) : s.flushHeld.Canonical := by
  have failed : ∀ {t : State} {p : Nat × Nat × Nat × Nat}, t.Canonical → (match t.seg? p.1 p.2.1 p.2.2.1, t.op? p.2.1 with
      | some _, some o => (t.cplRecord o.ctx o.seq p.2.2.2).failSeg p.1 p.2.1 p.2.2.1 xDATAERROR p.2.2.2
      | _, _ => t).Canonical := fun {t p} ht => by
    split
    · exact ht.cplRecord.failSeg
    · exact ht
  unfold State.flushHeld
  exact ((h.update.foldl failed).foldl fun ht => ht.cplRecord.fetchRaise).foldl (fun ht => ht.foldl flushWaiter) |>.foldl
    fun ht => ht.foldl flushWaiter

theorem State.Canonical.endFreeze (h : s.Canonical) : s.endFreeze.Canonical :=
  h.updPins.setFld

theorem State.Canonical.wrHostport (h : s.Canonical) : (s.wrHostport v).Canonical :=
  either h (either h.flushHeld h).endFreeze.releaseHeld

theorem State.Canonical.bmeChangeS (h : s.Canonical) : (bmeChangeS on s).Canonical :=
  either h h.updPins.releaseHeld

theorem State.Canonical.linkDownS (h : s.Canonical) : (linkDownS s).Canonical :=
  either h h.updPins.holdHost

theorem State.Canonical.linkDownClearS (h : s.Canonical) : (linkDownClearS s).Canonical :=
  either h h.updPins.releaseHeld

theorem State.Canonical.endpointFatalS (h : s.Canonical) : (endpointFatalS s).Canonical :=
  either h h.holdHost

theorem State.Canonical.flrS (h : s.Canonical) : (flrS s).Canonical := by
  unfold Machine.flrS
  split
  · exact h
  · extract_lets +onlyGivenNames s1 s2 s3
    have h1 : s1.Canonical := either h.update h
    have h2 : s2.Canonical := h1.endFreeze.updPins
    have h3 : s3.Canonical := either (h2.foldl emit) h2
    exact h3.beginBlockReset

/-! ## Power-on reset and start-up (R434 to R439) -/

theorem State.Canonical.repower {t : Straps} : (s.repower t).Canonical := ⟨rfl⟩

theorem State.Canonical.powerOnResetS : (powerOnResetS s).Canonical := repower

theorem State.Canonical.boot {stage : Nat} (h : s.Canonical) : (s.boot stage fail).Canonical :=
  h.setReg

theorem State.Canonical.bootFail (h : s.Canonical) : (s.bootFail fail).Canonical :=
  h.boot

theorem State.Canonical.loadRepair {record : Option (List Nat)} {x : SelfTest} (h : s.Canonical) : (s.loadRepair record x ns).Canonical := by
  induction ns generalizing s with
  | nil => exact h
  | cons x r ih => exact ih h.setReg.updTile.incSat

theorem State.Canonical.trainAll {trained : Nat} (h : s.Canonical) : (s.trainAll trained ns).Canonical := by
  induction ns generalizing s with
  | nil => exact h
  | cons x r ih => exact ih h.updChan.showPhy

theorem State.Canonical.gangUp (h : s.Canonical) : s.gangUp.Canonical := by
  unfold State.gangUp
  split
  split
  · exact h
  · extract_lets +onlyGivenNames s1 s2 s3
    have h1 : s1.Canonical := h.setFld.setFld.setFld
    have h2 : s2.Canonical := either h1 h1.setFld.setFld
    have h3 : s3.Canonical := either h2.setFld h2
    exact h3.installGang

theorem State.Canonical.bootEnd {t : StartInputs} (h : s.Canonical) : (s.bootEnd t).Canonical := by
  unfold State.bootEnd
  extract_lets +onlyGivenNames s1 s2 s3 s4
  have h1 : s1.Canonical := h.setFld
  have h2 : s2.Canonical := h1.setFld.trainAll.memUp
  have h3 : s3.Canonical := h2.gangUp
  have h4 : s4.Canonical := h3.setFld.updInsp
  exact either h4.boot h4.boot

theorem State.Canonical.readFlash (h : s.Canonical) : (s.readFlash base kib).Canonical :=
  h.update

theorem State.Canonical.startUpS {t : StartInputs} (h : s.Canonical) : (startUpS t s).Canonical := by
  unfold Machine.startUpS
  split
  · exact h
  · extract_lets +onlyGivenNames s1
    have h1 : s1.Canonical := repower
    split
    rename_i _ t e
    have h2 := h1.draw.snd e
    extract_lets +onlyGivenNames d s3 s4 halt
    have h3 : s3.Canonical := h2.updPins.updBell
    have h4 : s4.Canonical := h3.update
    split
    · exact h4.bootFail
    · split
      · exact h4.setFld.updInsp.bootFail
      · extract_lets +onlyGivenNames s5
        have h5 : s5.Canonical := h4.readFlash
        split
        · exact h5.setFld.updInsp.bootFail
        · extract_lets +onlyGivenNames slotB svn ident s6 s7 s8 s9 record s10 s11
          have h6 : s6.Canonical := h5.readFlash
          have h7 : s7.Canonical := either h6.readFlash h6
          have h8 : s8.Canonical := h7.setFld.setFld.updInsp
          have h9 : s9.Canonical := either h8.setFld.setReg.setReg h8.setFld.insEvent
          have h10 : s10.Canonical := h9.loadRepair
          have h11 : s11.Canonical := h10.setFld
          exact either h11.bootFail <| either h11.bootFail h11.bootEnd

theorem State.Canonical.gangReadyTimeoutS (h : s.Canonical) : (gangReadyTimeoutS s).Canonical :=
  either h h.draw.bootFail.setFld

/-! ## The test port (R440, R441) -/

theorem State.Canonical.setWir (h : s.Canonical) : (s.setWir code).Canonical :=
  h.updPins

theorem State.Canonical.testEntry : s.testEntry.Canonical := repower.updPins

theorem State.Canonical.tzSelftestS {r : SelfTest} (h : s.Canonical) : (tzSelftestS r s).Canonical :=
  h.setWir.emit

end Sys2Proof.Machine
end

section

/-! PROOFS. Memory stays canonical (O59): commit groups. -/

namespace Sys2Proof.Machine

open Sys2Proof

variable {s : State} {off hi lo k mask slot b t c g val cause failed j : Nat} {v old : Word} {byInspector : Bool} {body : MsgBody}

/-! ## Units and staging -/

theorem State.Canonical.stage {i : Nat} (h : s.Canonical) : (s.stage i off mask val).Canonical :=
  h.updGroup

theorem State.Canonical.preview {l : List Staged} (h : s.Canonical) : (s.preview l).Canonical :=
  h.foldl fun h => h.putField

/-! ## Abort (R35, R44, R376) -/

theorem State.Canonical.undoRaise (h : s.Canonical) : s.undoRaise.Canonical :=
  either h.startTransition.setVolt h.startTransition

theorem State.Canonical.cgAbort {i : Nat} (h : s.Canonical) : (s.cgAbort i cause failed).Canonical :=
  (either h.updGroup.undoRaise h.updGroup).mgmt

/-! ## Job-scope groups (R39) -/

theorem State.Canonical.sendCg {i : Nat} (h : s.Canonical) : (s.sendCg i b body).Canonical := by
  unfold State.sendCg
  split
  · exact h.sendJob
  · exact h

theorem State.Canonical.sendCgAll {i : Nat} (h : s.Canonical) : (s.sendCgAll i body).Canonical :=
  h.foldl fun h => h.sendCg

theorem State.Canonical.coordAbort {i : Nat} (h : s.Canonical) : (s.coordAbort i).Canonical :=
  either h.sendCgAll.updGroup h.sendCgAll.updGroup.cgAbort

theorem State.Canonical.coordCheck {i : Nat} (h : s.Canonical) : (s.coordCheck i).Canonical :=
  either (either h.coordAbort h.sendCgAll.updGroup) h

theorem State.Canonical.sendRefused {i : Nat} (h : s.Canonical) : (s.sendRefused i cause).Canonical :=
  either h <| either h.coordAbort h.sendCg

theorem State.Canonical.allAcked {i : Nat} (h : s.Canonical) : (s.allAcked i).Canonical :=
  either h.updGroup <| either h.cgAbort.sendRefused <| either h.updGroup.coordCheck h.sendCg.updGroup

/-! ## The CG_ registers that act -/

theorem State.Canonical.wrCgOpen {i : Nat} (h : s.Canonical) : (s.wrCgOpen i v byInspector).Canonical :=
  either h.regError <| either h.updGroup h.updGroup.cgAbort

theorem State.Canonical.wrCgArm {i : Nat} (h : s.Canonical) : (s.wrCgArm i v).Canonical :=
  either h.regError <| either h.updGroup.cgAbort <| either h.updGroup.allAcked h.updGroup

theorem State.Canonical.wrCgCancel {i : Nat} (h : s.Canonical) : (s.wrCgCancel i v).Canonical :=
  either h.cgAbort h

/-! ## Acknowledgement, deadline and tick -/

theorem State.Canonical.groupRaise {i : Nat} (h : s.Canonical) : (s.groupRaise i).Canonical :=
  either h <| either h.startTransition.updGroup h.startTransition

theorem State.Canonical.cgMemberAckS (h : s.Canonical) : (cgMemberAckS slot mask s).Canonical := by
  unfold Machine.cgMemberAckS
  dsimp only
  split
  · exact h
  · split
    · exact h.cgAbort.sendRefused
    · exact either h <| either (either h.groupRaise h).updGroup.allAcked (either h.groupRaise h).updGroup

theorem State.Canonical.cgDeadlineS (h : s.Canonical) : (cgDeadlineS slot s).Canonical := by
  unfold Machine.cgDeadlineS
  extract_lets +onlyGivenNames g
  exact either h <| either (either (either h.cgAbort.coordAbort h.cgAbort) (either h.coordAbort h)) (either h.coordAbort h)

theorem State.Canonical.zeroRun (h : s.Canonical) : (s.zeroRun k lo hi).Canonical :=
  either h.updCluster h

theorem State.Canonical.unlease (h : s.Canonical) : (s.unlease t).Canonical :=
  h.awningTile.updTile

theorem State.Canonical.zeroTile (h : s.Canonical) : (s.zeroTile t).Canonical :=
  h.zeroMem.zeroMem.zeroMem

theorem State.Canonical.newLease (h : s.Canonical) : (s.newLease c t).Canonical :=
  h.zeroTile.updTile

theorem State.Canonical.applyLease (h : s.Canonical) : (s.applyLease c old).Canonical :=
  ((h.foldl fun h => h.unlease).foldl fun h => h.newLease).foldl fun h => either h.zeroRun h.zeroRun.zeroRun

theorem State.Canonical.applyJob (h : s.Canonical) : (s.applyJob j).Canonical :=
  h.setReg

theorem State.Canonical.applyBar (h : s.Canonical) : (s.applyBar g).Canonical :=
  h.update.setReg

theorem State.Canonical.applyOpp (h : s.Canonical) : s.applyOpp.Canonical :=
  either h.updPower.switchTo <| either h.undoRaise h

theorem State.Canonical.stepBell {v : Nat} (h : s.Canonical) : (s.stepBell v).Canonical :=
  h.updBell

theorem State.Canonical.applyGroup {i : Nat} (h : s.Canonical) : (s.applyGroup i).Canonical := by
  have flipped : ∀ {t : State} {w : Staged}, t.Canonical → (match decodeReg t.straps w.off with
      | some x => if maskHas w.mask 4 then t.flipPhase (nth x.ix 0) (if maskHas w.val 4 then 1 else 0) else t
      | none => t).Canonical := fun {t w} ht => by
    split
    · exact either ht.flipPhase ht
    · exact ht
  unfold State.applyGroup
  extract_lets +onlyGivenNames g rs ixOf segs leases late s1 key s2 s3 s4 s5 s6 s7 s8 s9
  have h3 : s3.Canonical := (h.foldl segWithdraw).preview.foldl flipped
  have h5 : s5.Canonical := either (h3.foldl recheckSegs) (h3.foldl recheckSegs).refillAll
  have h9 : s9.Canonical := (((h5.foldl withdrawAll).foldl applyLease).foldl applyJob).foldl applyBar
  refine applyOpp ?_
  split
  · exact h9.stepBell
  · exact h9

theorem State.Canonical.cgApplyS (h : s.Canonical) : (cgApplyS slot s).Canonical :=
  either h h.applyGroup.updGroup.mgmt

/-! ## The messages (R39, R271) -/

theorem State.Canonical.cgStagedS (h : s.Canonical) : (cgStagedS k s).Canonical := by
  unfold Machine.cgStagedS
  split
  · rename_i _ t e
    have h1 := h.take e
    split
    · split
      · exact either h1.updGroup.coordCheck h1
      · exact h1
    · exact h
  · exact h

theorem State.Canonical.cgRefusedS (h : s.Canonical) : (cgRefusedS k s).Canonical := by
  unfold Machine.cgRefusedS
  split
  · rename_i _ t e
    have h1 := h.take e
    split
    · split
      · exact either h1.updGroup.coordAbort h1
      · exact h1
    · exact h
  · exact h

theorem State.Canonical.cgCommitS (h : s.Canonical) : (cgCommitS k s).Canonical := by
  unfold Machine.cgCommitS
  split
  · rename_i _ t e
    have h1 := h.take e
    split
    · split
      · exact either h1.updGroup h1
      · exact h1
    · exact h
  · exact h

theorem State.Canonical.cgAbortS (h : s.Canonical) : (cgAbortS k s).Canonical := by
  unfold Machine.cgAbortS
  split
  · rename_i _ t e
    have h1 := h.take e
    split
    · split
      · exact either (either h1.updGroup h1.updGroup.cgAbort) h1
      · exact h1
    · exact h
  · exact h

theorem State.Canonical.verdictLostS (h : s.Canonical) : (verdictLostS slot s).Canonical :=
  either h h.cgAbort.updGroup.beginReset

end Sys2Proof.Machine
end

section

/-! PROOFS. Memory stays canonical (O59): registers. -/

namespace Sys2Proof.Machine

open Sys2Proof

variable {s : State} {off m a c addr : Nat} {v old new : Word} {bs : List Byte} {f : WForm} {w : Who} {mark : Bool}

/-! ## The debug windows (R452 to R454) -/

theorem State.Canonical.countDebug {c : Option Nat} (h : s.Canonical) : (s.countDebug c).Canonical := by
  unfold State.countDebug
  split
  · exact h.updCtx.incWrap
  · exact h

theorem State.Canonical.settleRead (h : s.Canonical) : (s.settleRead off).Canonical := by
  unfold State.settleRead
  split
  · exact h
  · extract_lets +onlyGivenNames t'
    split
    · exact h.settleGap
    · exact either h h.draw.draw.incWrap.incWrap
    · exact either h h.draw.incWrap
    · exact h

theorem State.Canonical.viewWindow (h : s.Canonical) : (s.viewWindow off).2.Canonical := by
  -- The offset stays a variable: the kernel would evaluate its difference from 0x1800000 by counting down.
  generalize view : s.viewWindow off = p
  unfold State.viewWindow at view
  split at view
  · extract_lets +onlyGivenNames o e q d at view
    clear_value o d
    split at view
    · subst view
      exact h.descImage
    · subst view
      exact h
  · split at view
    · subst view
      dsimp only
      exact h.laneImage
    · subst view
      exact h

theorem State.Canonical.debugScratch (h : s.Canonical) : (s.debugScratch off a).Canonical := by
  unfold State.debugScratch
  extract_lets +onlyGivenNames s1
  have h1 : s1.Canonical := h.countDebug
  split
  · exact either h1.wakeDom.update h1.checkScr.emit
  · exact h1.emit

theorem State.Canonical.debugRead (h : s.Canonical) : (s.debugRead off).Canonical := by
  unfold State.debugRead
  split
  · split
    split
    · extract_lets +onlyGivenNames x
      split
      · exact h.debugAttached
      · exact h.emit
      · exact h.debugScratch
    · exact either h.countDebug.emit h.emit
  · exact h.viewWindow.emit

theorem State.Canonical.debugStore (h : s.Canonical) : (s.debugStore off bs).Canonical := by
  unfold State.debugStore
  split
  · split
    extract_lets +onlyGivenNames x
    split
    · split
      · exact (either h.wakeDom h).wrBytes
      · exact h
    · exact h.regError
  · exact h.regError

/-! ## What each register does (R10 to R13 and the owning chapters) -/

theorem State.Canonical.wrDoor (h : s.Canonical) : (s.wrDoor v).Canonical :=
  either h.regError h.updInsp

theorem State.Canonical.wrMemCtrl (h : s.Canonical) : (s.wrMemCtrl new).Canonical :=
  either (either h h.regError) <| either h.regError h.setReg

theorem State.Canonical.wrHpa (h : s.Canonical) : (s.wrHpa new).Canonical :=
  either h.regError h.setReg

theorem State.Canonical.wrSubmit (h : s.Canonical) : (s.wrSubmit c new).Canonical :=
  either h.regError h.setReg

theorem State.Canonical.wrNumStatus (h : s.Canonical) : (s.wrNumStatus a old new).Canonical :=
  either h.setReg <| either h.setReg.updCtx h.setReg

theorem State.Canonical.act {i : RegInst} (h : s.Canonical) : (s.act w off i old new v).Canonical := by
  unfold State.act
  extract_lets +onlyGivenNames a b
  split
  · exact h.setReg.wroteBellCtrl
  · exact either h <| either h.applyBasic h.regError
  · exact h.setReg.markExpert
  · exact h.wrCgOpen
  · exact h.wrCgArm
  · exact h.wrCgCancel
  · exact h.drainGo
  · exact h.setReg.sendPages
  · exact h.setReg.sendPages
  · exact either h h.setReg.showPhy
  · exact h.wrMemCtrl
  · exact h.clearGo
  · exact h.wrHpa
  · exact h.wrCap
  · exact h.wrTherm
  · exact h.wrRest
  · exact h.wrPwrTest
  · exact h.wrCmd
  · exact h.clearAttn
  · exact h.wrBase
  · exact h.wrRingCfg
  · exact h.wrBase
  · exact h.wrCqCfg
  · exact h.wrSubmit
  · exact h.wrAbort
  · exact h.wrAbort
  · exact h.doorbell
  · exact h.wrCqHead
  · exact h.ackUndel
  · exact h.wrNumStatus
  · exact h.wrLogConsumed
  · exact h.wrInject
  · exact h.wrBreset
  · exact h.wrHostport
  · exact h.setReg
  · exact either h h.setReg
  · exact h.wrDoor
  · exact either h.regError h.setReg
  · exact h.wrPort
  · exact h.setReg

theorem State.Canonical.perform {i : RegInst} {v : Nat} (h : s.Canonical) : (s.perform w off i m v).Canonical := by
  unfold State.perform
  extract_lets +onlyGivenNames m of
  split
  rename_i sh rw w1c w1s wo e
  extract_lets +onlyGivenNames s1 rest
  have h1 : s1.Canonical := by
    unfold s1
    split
    · exact h
    · split
      · exact h.stage
      · exact h.regError
  exact either h1 h1.act

theorem State.Canonical.setLatch {v : Option Nat} (h : s.Canonical) : (s.setLatch off v).Canonical :=
  h.update

theorem State.Canonical.writeReg {i : RegInst} (h : s.Canonical) : (s.writeReg w off i f).Canonical := by
  unfold State.writeReg
  split
  · exact either h.regError h
  · split
    extract_lets +onlyGivenNames s1
    have h1 : s1.Canonical := either h.regError h
    split
    · exact h1
    · split
      · split
        · exact h1.setLatch
        · exact h1.setLatch.perform
        · exact h1.setLatch.perform
        · exact h1
      · exact h1.perform

theorem State.Canonical.injError (h : s.Canonical) : (s.injError off).Canonical :=
  h.disarm.detect

theorem State.Canonical.localWrite (h : s.Canonical) : (s.localWrite w off f).Canonical := by
  unfold State.localWrite
  split
  · exact h
  · split
    · exact h
    · split
      · exact h.injError
      · split
        · exact h.regError
        · split
          · exact either h.debugStore h.regError
          · split
            · exact h
            · split
              · exact h.writeReg
              · exact h.regError

theorem State.Canonical.busWrite (h : s.Canonical) : (s.busWrite addr mark f).Canonical :=
  either h <| either h.regError <| either h.emit h.localWrite

theorem State.Canonical.busDebugRead (h : s.Canonical) : (s.busDebugRead addr).Canonical := by
  unfold State.busDebugRead
  extract_lets +onlyGivenNames m off
  exact either h <| either h.emit <| either h.emit <| either h.emit <| either h.injError.emit <| either h.regError.emit <|
    either h.settleRead.emit h.debugRead

/-! ## The commands that write one register -/

theorem State.Canonical.wrOut (h : s.Canonical) : KeepsCanonical (wrOut s off mark f) :=
  .next h.busWrite

end Sys2Proof.Machine
end

section

/-! PROOFS. Memory stays canonical (O59): the Inspector and attestation. -/

namespace Sys2Proof.Machine

open Sys2Proof

variable {s : State} {off n k p slot dst kind ident count status e code op members : Nat} {bs result wrapped : List Byte}
  {tagged ok ready : Bool} {ns : List Nat} {q : QCmd} {pairs : List (Nat × BitVec 64)}

/-! ## Responses (R408, R418) -/

theorem State.Canonical.sendFrags (h : s.Canonical) : (s.sendFrags dst kind ident count bs ns).Canonical := by
  induction ns generalizing s with
  | nil => exact h
  | cons x r ih => exact ih h.originate

theorem State.Canonical.sendMgmt (h : s.Canonical) : (s.sendMgmt dst kind ident bs).Canonical :=
  h.sendFrags

theorem State.Canonical.putRsp (h : s.Canonical) : (s.putRsp n k bs).Canonical := by
  induction n generalizing s k bs with
  | zero => exact h
  | succ n ih => exact ih h.setReg

theorem State.Canonical.cmdRespond {stage : Nat} (h : s.Canonical) : (s.cmdRespond q status stage result tagged).Canonical := by
  unfold State.cmdRespond
  extract_lets +onlyGivenNames h' bs s1 s2 waiting s3
  have h1 : s1.Canonical := h.setFld.emit
  have h2 : s2.Canonical := either h1.putRsp h1
  have h3 : s3.Canonical := either h2.setFld h2
  split
  · exact h3.sendMgmt
  · exact h3

theorem State.Canonical.takeMsg (h : s.Canonical) : (s.takeMsg kind).2.Canonical := by
  unfold State.takeMsg
  split
  · dsimp only
    exact h.updInsp
  · exact h

/-! ## The register accesses of a command (R411, R412) -/

theorem State.Canonical.localRead (h : s.Canonical) : (s.localRead off).2.Canonical := by
  unfold State.localRead
  split
  · exact h.injError
  · split
    · exact h.regError
    · split
      · exact h.settleRead
      · split
        · split
          rename_i space tile base e
          extract_lets +onlyGivenNames x
          split
          · split
            · exact h.walkLine
            · exact h
            · exact h.countDebug
          · exact eitherSnd h.countDebug h
        · exact h.viewWindow

theorem State.Canonical.cmdWrites {l : List (Nat × BitVec 64)} (h : s.Canonical) : (s.cmdWrites k l).1.Canonical := by
  induction l generalizing s k with
  | nil => exact h
  | cons x r ih =>
    rw [State.cmdWrites]
    split
    · exact h.localWrite
    · exact ih h.localWrite

theorem State.Canonical.cmdReads (h : s.Canonical) : (s.cmdReads ns).2.Canonical := by
  induction ns generalizing s with
  | nil => exact h
  | cons x r ih => exact ih h.localRead

theorem State.Canonical.cgStages {l : List (Nat × BitVec 64)} (h : s.Canonical) : (s.cgStages l).Canonical := by
  induction l generalizing s with
  | nil => exact h
  | cons x r ih =>
    rw [State.cgStages]
    refine ih ?_
    split
    · exact either h.localWrite h.regError
    · exact h.regError

theorem State.Canonical.cgStart {job : BitVec 64} {tick : BitVec 64} (h : s.Canonical) : (s.cgStart slot ident members job pairs tick).Canonical :=
  either h.localWrite h.localWrite.localWrite.cgStages.localWrite

/-! ## Keys (R413 to R416) -/

theorem State.Canonical.keyLoad (h : s.Canonical) : (s.keyLoad k p wrapped).1.Canonical := by
  unfold State.keyLoad
  split
  · exact h
  · split
    · exact h
    · split
      · exact h
      · dsimp only
        exact h.updKey.updInsp

theorem State.Canonical.keyErase (h : s.Canonical) : (s.keyErase k).1.Canonical := by
  unfold State.keyErase
  split
  · exact h
  · dsimp only
    exact h.updKey.updKey

theorem State.Canonical.keyRotate (h : s.Canonical) : s.keyRotate.1.Canonical := by
  unfold State.keyRotate
  split
  · exact h
  · extract_lets +onlyGivenNames c
    split
    rename_i v t e
    have h1 := h.draw.snd e
    dsimp only
    exact h1.updMem

/-! ## Commands (R408 to R411) -/

theorem State.Canonical.cmdDone (h : s.Canonical) : (s.cmdDone status result).Canonical := by
  unfold State.cmdDone
  split
  · exact h.updInsp.cmdRespond
  · exact h

theorem State.Canonical.carryOut {b : CmdBody} (h : s.Canonical) : (s.carryOut b).Canonical := by
  unfold State.carryOut
  split
  · exact h.cmdDone
  · exact h.cmdWrites.cmdDone
  · exact h.cmdReads.cmdDone
  · exact either h.cgStart h.cgStart.cmdDone
  · exact h.keyLoad.cmdDone
  · exact h.keyErase.cmdDone
  · exact h.keyRotate.cmdDone
  · exact h.beginBlockReset.cmdDone
  · exact h.cmdDone
  · exact h

theorem State.Canonical.replay (h : s.Canonical) : (s.replay q).Canonical := by
  unfold State.replay
  split
  · exact either (either h.cmdRespond h.cmdRespond) h.incSat.insEvent.cmdRespond
  · exact h.incSat.insEvent.cmdRespond

theorem State.Canonical.takeCmd (h : s.Canonical) : (s.takeCmd q).Canonical := by
  unfold State.takeCmd
  extract_lets +onlyGivenNames c
  exact either h.cmdRespond <| either h.cmdRespond <| either h.incSat.insEvent.cmdRespond <| either h.cmdRespond <|
    either h.replay h.setReg.updInsp.cmdRespond.carryOut

theorem State.Canonical.drainCmds (h : s.Canonical) : (State.drainCmds n s).Canonical := by
  induction n generalizing s with
  | zero => exact h
  | succ n ih =>
    rw [State.drainCmds]
    split
    · split
      · exact ih h.updInsp.takeCmd
      · exact h
    · exact h

theorem State.Canonical.cgSettle (h : s.Canonical) : s.cgSettle.Canonical := by
  unfold State.cgSettle
  split
  · split
    · split
      · exact either h h.cmdDone.drainCmds
      · exact h
    · exact h
  · exact h

theorem State.Canonical.cmdEnter (h : s.Canonical) : (s.cmdEnter q).Canonical :=
  either (either h.regError h.cmdRespond) <| either (either h.setFld h).takeCmd (either h.setFld h).updInsp

theorem State.Canonical.msgSettle (h : s.Canonical) : (State.msgSettle n s).Canonical := by
  induction n generalizing s with
  | zero => exact h
  | succ n ih =>
    rw [State.msgSettle]
    split
    · exact ih h.updInsp.cmdEnter
    · exact h

theorem State.Canonical.cmdSettle (h : s.Canonical) : s.cmdSettle.Canonical := by
  unfold State.cmdSettle
  extract_lets +onlyGivenNames s1
  have h1 : s1.Canonical := h.cgSettle
  split
  · exact h1
  · extract_lets +onlyGivenNames s2
    have h2 : s2.Canonical := by
      unfold s2
      split
      · exact h1.updInsp.cmdEnter
      · exact h1
    exact h2.msgSettle

theorem State.Canonical.cmdArrive {c : CmdFrame} (h : s.Canonical) : (s.cmdArrive op c).Canonical :=
  either h.cmdSettle.cmdEnter h.cmdSettle

/-! ## The watchdog and the self-check (R398, R399) -/

theorem State.Canonical.cancelOwn (h : s.Canonical) : (s.cancelOwn ns).Canonical := by
  induction ns generalizing s with
  | nil => exact h
  | cons x r ih => exact ih (either h.cgAbort h)

theorem State.Canonical.stopSamples (h : s.Canonical) : (s.stopSamples ns).Canonical := by
  induction ns generalizing s with
  | nil => exact h
  | cons x r ih =>
    rw [State.stopSamples]
    refine ih ?_
    split
    · exact either h.draw.writeDump.beginZero h
    · exact h

theorem State.Canonical.insWatchdogExpiryS (h : s.Canonical) : (insWatchdogExpiryS s).Canonical := by
  unfold Machine.insWatchdogExpiryS
  extract_lets +onlyGivenNames inj
  split
  · exact h
  · extract_lets +onlyGivenNames s1 s2 s3 s4 s5
    have h1 : s1.Canonical := either h.disarm h
    have h4 : s4.Canonical := h1.detect.incSat.insEvent.setFld.cancelOwn.stopSamples
    have h5 : s5.Canonical := either h4.setFld h4
    exact h5.updInsp

theorem State.Canonical.inspectorRestartDoneS (h : s.Canonical) : (inspectorRestartDoneS s).Canonical :=
  either h h.setFld.updInsp.drainCmds

theorem State.Canonical.romSelfCheckS (h : s.Canonical) : (romSelfCheckS ok s).Canonical :=
  either h <| either (either h (either h.updInsp h.setFld.updInsp)) <| either h.setFld.updInsp h

theorem State.Canonical.spdmSend {data : List Nat} (h : s.Canonical) : (s.spdmSend code data).Canonical := by
  unfold State.spdmSend
  split
  rename_i _ t e
  have h1 := h.takeMsg.snd e
  extract_lets +onlyGivenNames s2
  have h2 : s2.Canonical := h1.emit
  split
  · exact h2.sendMgmt
  · exact h2

theorem State.Canonical.spdmError (h : s.Canonical) : (s.spdmError e).Canonical :=
  h.spdmSend

theorem State.Canonical.viaDoe {r : SpdmReq} {own : State} (h : s.Canonical) (answered : own.Canonical) : (s.viaDoe code r own).Canonical := by
  unfold State.viaDoe
  split
  · exact answered
  · split
    · split
      · exact h.draw.sendMgmt
      · exact h
    · exact h

theorem State.Canonical.spdmAfter {r : SpdmReq} (h : s.Canonical) : (s.spdmAfter ready code r).Canonical :=
  either h <| either h.spdmSend h.spdmError

theorem State.Canonical.getVersionS {r : SpdmReq} (h : s.Canonical) : (getVersionS r s).Canonical :=
  either h h.updInsp.spdmSend

theorem State.Canonical.getCapabilitiesS {r : SpdmReq} (h : s.Canonical) : (getCapabilitiesS r s).Canonical :=
  either h <| either h.updInsp.spdmSend h.spdmError

theorem State.Canonical.negotiateAlgorithmsS {r : SpdmReq} (h : s.Canonical) : (negotiateAlgorithmsS r s).Canonical :=
  either h <| either h.updInsp.spdmSend h.spdmError

theorem State.Canonical.spdmSlot {r : SpdmReq} (h : s.Canonical) : (s.spdmSlot code r).Canonical :=
  either h.spdmError h.spdmAfter

/-! ## Measurements (R405, R406) -/

theorem State.Canonical.getMeasurementsS {r : SpdmReq} (h : s.Canonical) : (getMeasurementsS r s).Canonical := by
  unfold Machine.getMeasurementsS
  split
  · exact h
  · split
    · exact h.spdmError
    · extract_lets +onlyGivenNames sig nums
      split
      · exact h.spdmSend
      · split
        · exact h.spdmSend
        · split
          · exact h.spdmSend
          · exact h.spdmError

/-! ## The operator session (R403, R407) -/

theorem State.Canonical.keyExchangeS {r : SpdmReq} (h : s.Canonical) : (keyExchangeS r s).Canonical :=
  either h <| either h.spdmError h.draw.updInsp.spdmSend

theorem State.Canonical.finishS {r : SpdmReq} (h : s.Canonical) : (finishS r s).Canonical := by
  unfold Machine.finishS
  split
  · exact h
  · split
    · exact h.spdmError
    · exact either h.updInsp.spdmError h.draw.updInsp.setReg.setReg.insEvent.spdmSend

theorem State.Canonical.keyUpdateS {r : SpdmReq} (h : s.Canonical) : (keyUpdateS r s).Canonical :=
  either h <| either h.updInsp.spdmSend h.spdmError

theorem State.Canonical.heartbeatS {r : SpdmReq} (h : s.Canonical) : (heartbeatS r s).Canonical :=
  either h <| either h.spdmSend h.spdmError

theorem State.Canonical.endSessionS {r : SpdmReq} (h : s.Canonical) : (endSessionS r s).Canonical :=
  either h <| either h.updInsp.setReg.spdmSend h.spdmError

end Sys2Proof.Machine
end

section

/-! PROOFS. Memory stays canonical (O59): a clock tick. -/

namespace Sys2Proof.Machine

open Sys2Proof

variable {s : State} {m kind : Nat} {bs : List Byte}

/-! ## The gang's relay (R291) -/

theorem State.Canonical.toMember (h : s.Canonical) : (s.toMember m kind bs).Canonical := by
  unfold State.toMember
  split
  · exact h.sendMgmt
  · exact h

theorem State.Canonical.relayOut {o : Out} (h : s.Canonical) : (s.relayOut o).Canonical := by
  unfold State.relayOut
  split
  · split
    · exact h.toMember
    · exact h
  · split
    · exact h.toMember
    · exact h.toMember
    · exact h.toMember
    · exact h

theorem State.Canonical.issueFor {t : HostTx} {u : State} (h : s.Canonical) (e : s.issueFor m t = some u) : u.Canonical := by
  have guarded {c : Prop} [Decidable c] {v : State} (hv : v.Canonical) (e : (if c then none else some v) = some u) : u.Canonical := by
    split at e
    · cases e
    · cases e
      exact hv
  unfold State.issueFor at e
  dsimp only at e
  split at e
  · exact guarded h.update.emit e
  · exact guarded h.emit e
  · exact guarded h.update.emit e
  · split at e
    · exact guarded h.update.emit e
    · cases e
  · cases e
    exact h.memberInvCpl
  · cases e
    exact h.emit
  · cases e
    exact h.emit
  · cases e
    exact h

theorem State.Canonical.takeFor {t : HostTx} (h : s.Canonical) : (s.takeFor t).Canonical := by
  unfold State.takeFor
  split
  · split
    · exact h.cplS
    · exact h
  · split
    · exact h.atsTcplS
    · exact h
  · exact h.busDebugRead
  · exact h.localWrite
  · exact h.atsInvS
  · exact h.prgRspS
  · exact h

theorem State.Canonical.relayIn (h : s.Canonical) : s.relayIn.Canonical := by
  unfold State.relayIn
  split
  · exact h
  · extract_lets +onlyGivenNames t s1
    have h1 : s1.Canonical := h.update
    split
    · exact h1
    · refine either ?_ h1.takeFor
      cases e : s1.issueFor _ t with
      | none => exact h
      | some u => exact h1.issueFor e

theorem State.Canonical.relayTick (h : s.Canonical) : s.relayTick.Canonical := by
  unfold State.relayTick
  split
  · exact h
  · extract_lets +onlyGivenNames s1
    have h1 : s1.Canonical := by
      unfold s1
      split
      · exact h.update.relayOut
      · exact h
    exact h1.relayIn

/-! ## A tick -/

theorem State.Canonical.idle (h : s.Canonical) : s.idle.Canonical :=
  h.tick.portsTick.loopTick.relayTick.cmdSettle

end Sys2Proof.Machine
end

section

/-! PROOFS. Memory stays canonical (O59): each command, a step, and the statement. -/

namespace Sys2Proof.Machine

open Sys2Proof

variable {s : State} {status tag ctx index : Nat} {i : IWord} {l : LaneId}

theorem State.Canonical.execDldc (h : s.Canonical) : KeepsCanonical (execDldc l i s) := by
  unfold Machine.execDldc
  refine .next (h.issue ?_)
  split
  · exact h.raise
  · exact h.writeD.advance

theorem State.Canonical.execDset (h : s.Canonical) : KeepsCanonical (execDset l i s) := by
  unfold Machine.execDset
  refine .next (h.issue ?_)
  split
  · exact h.raise
  · exact h.writeD.advance

theorem State.Canonical.execDadv (h : s.Canonical) : KeepsCanonical (execDadv l i s) := by
  unfold Machine.execDadv
  refine .next (h.issue ?_)
  extract_lets +onlyGivenNames d
  split
  · exact h.raise
  · exact h.writeD.advance

theorem State.Canonical.execTwaitC (h : s.Canonical) : KeepsCanonical (execTwaitC l i s) := by
  unfold Machine.execTwaitC
  refine .next (h.issue ?_)
  split
  · exact h.raise
  · exact h.issueOps

theorem State.Canonical.execTslot (h : s.Canonical) : KeepsCanonical (execTslot l i s) := by
  unfold Machine.execTslot
  refine .next (h.issue ?_)
  split
  · exact h.raise
  · exact h.issueOps

theorem State.Canonical.execDispatch {d : DispatchOf} (h : s.Canonical) : KeepsCanonical (execDispatch d s) := by
  unfold Machine.execDispatch
  split
  · exact .next h.dispatchS
  · exact .next h.memberLaunch
  · exact .next (either h h.stopLaunch)
  · exact .next (either h h.beginReset)

theorem State.Canonical.execExceptionReport {r : ExcOf} (h : s.Canonical) : KeepsCanonical (execExceptionReport ctx r s) := by
  unfold Machine.execExceptionReport
  split
  · exact .next h.exceptionReportS
  · exact .next h.memberExc
  · exact .next h.memberLostS

theorem State.Canonical.execAtsTcpl {req : Nat} {r : AtsResult} (h : s.Canonical) : KeepsCanonical (execAtsTcpl req status r s) := by
  unfold Machine.execAtsTcpl
  split
  · exact .next h.relayBack
  · exact .next h.atsTcplS

theorem State.Canonical.execPrgRsp {code : PrgCode} (h : s.Canonical) : KeepsCanonical (execPrgRsp index code s) := by
  unfold Machine.execPrgRsp
  split
  · exact .next h.relayBack
  · exact .next h.prgRspS

theorem State.Canonical.execCpl {bytes : List (BitVec 8)} (h : s.Canonical) : KeepsCanonical (execCpl tag status bytes s) := by
  unfold Machine.execCpl
  split
  · exact .next h.relayBack
  · exact .next h.cplS

theorem State.Canonical.exec (i : Instr) (h : s.Canonical) : KeepsCanonical (exec i s) := by
  cases i with
  | regWr | cgCancel => exact .next h.busWrite.cmdSettle
  | bellNowRead => exact .next h.bellNowReadS
  | ppsEdge => exact .next h.ppsEdgeS
  | ppsMissing => exact .next h.ppsMissingS
  | timeExchange => exact .next h.timeExchangeS
  | timeReq => exact .next h.timeReqS
  | timeResp => exact .next h.timeRespS
  | linkTimeLost => exact .next h.linkTimeLostS
  | holdoverLimit => exact .next h.holdoverLimitS
  | cgOpen | cgArm | ctxDoorbell | ctxAbort | ctxKabort | ctxCqHeadWrite | ringEnable | cqEnable | undelAck | drainInvalidate | portEnable | memClear
  | memEnable | memHpaWrite | memInject | ctxCreate | ctxResume | ctxStop | ctxReset | ctxDestroy | ctxAttnClear | ctxIrqLineWrite | errInject
  | errLogConsumedWrite | errBresetGo | pwrCapWrite | forceAlert | forceDroop | insCtrlLock | debugWrite | hostportRelease => exact h.wrOut
  | cgMemberAck => exact .next h.cgMemberAckS.cmdSettle
  | cgDeadline => exact .next h.cgDeadlineS.cmdSettle
  | cgApply => exact .next h.cgApplyS
  | cgStaged => exact .next h.cgStagedS
  | cgRefused => exact .next h.cgRefusedS
  | cgCommit => exact .next h.cgCommitS
  | cgAbort => exact .next h.cgAbortS
  | verdictLost => exact .next h.verdictLostS
  | armMode => exact .next <| h.issue h.armModeBody
  | armLoad => exact .next <| h.issue <| h.issueTiles fun h => h.noteBook
  | armStream => exact .next <| h.issue <| h.issueTiles fun h => h.updTile.noteBook.noteBook
  | armDrain => exact .next <| h.issue <| h.issueTiles fun h => h.updTile
  | rowQuadEntry => exact .next h.rowQuadEntryS
  | rowQuadResult => exact .next h.rowQuadResultS
  | armShadowLoad => exact .next h.armShadowLoadS
  | gapStart => exact .next h.gapStartS
  | fillerLimitExpiry => exact .next h.fillerLimitExpiryS
  | tileClearDone => exact .next h.tileClearDoneS
  | bookWriteValidate => exact .next h.bookWriteValidateS
  | tableWriteValidate => exact .next h.tableWriteValidateS
  | calibrationEvent => exact .next h.calibrationEventS
  | leaseZeroDone => exact .next h.leaseZeroDoneS
  | laneLaunchStart => exact .next h.laneLaunchStartS
  | instructionFetch => exact .next h.instructionFetchS
  | addI | subI | mulI | mulh | mulhu | andI | orI | xorI | shl | shr | sra | minI | maxI | minu | maxu => exact .next h.aluS
  | divu | remu => exact .next h.divS
  | cmpEq | cmpNe | cmpLt | cmpLe | cmpGt | cmpGe | cmpLtu | cmpLeu | cmpGtu | cmpGeu => exact .next h.cmpS
  | selI => exact .next <| h.issue h.selBody
  | pand | por | pxor | pandn => exact .next h.predS
  | br | call | jr | jalr => exact .next <| h.issue h.branchBody
  | loopI => exact .next <| h.issue h.loopBody
  | krd | dget => exact .next <| h.issue h.writeS.advance
  | ldB | ldBs | ldH | ldHs | ldW | ldWs | ldD => exact .next h.loadS
  | stB | stH | stW | stD => exact .next h.storeS
  | ldcW | ldcWs | ldcD => exact .next <| h.issue h.ldcBody
  | dld | dst => exact .next <| h.issue h.portBody
  | dldc => exact h.execDldc
  | dset => exact h.execDset
  | dmov => exact .next <| h.issue h.writeD.advance
  | dadv => exact h.execDadv
  | dclip => exact .next <| h.issue <| either h.raise h.writeD.advance
  | nop => exact .next <| h.issue h.advance
  | endI => exact .next <| h.issue h.endBody
  | endRetire => exact .next h.endRetireS
  | trap => exact .next <| h.issue h.raise
  | operationStart => exact .next h.operationStartS
  | operationComplete => exact .next h.operationCompleteS
  | vecAdd | vecSub | vecMul | vecFma | vecMin | vecMax | vecCmp | vecSel | vecCvt | vecSum | vecRqi | vecRqf | vecQmx | vecSctag | vecCbenc | vecTab
  | vecPoolmax | vecPoolsum | vecArgmax | vecArgmin | vecTopk | vecBoxdec | vecDot | vecSqdist | vecIou => exact .next h.vecS
  | barMove | barCrop | barReduce | barDigest => exact .next <| h.issue h.barBody
  | sig | waitI => exact .next <| h.issue h.semBody
  | waitRelease => exact .next h.waitReleaseS
  | fence | twait | pace => exact .next <| h.issue h.issueOps
  | barrier => exact .next <| h.issue h.barrierBody
  | barrierRelease => exact .next h.barrierReleaseS
  | twaitC => exact h.execTwaitC
  | tslot => exact h.execTslot
  | timeWaitRelease => exact .next h.timeWaitReleaseS
  | ringScan => exact .next h.ringScanS
  | recordFetch => exact .next h.recordFetchS
  | recordFetchFault => exact .next h.recordFetchFaultS
  | notBeforeRelease => exact .next h.notBeforeReleaseS
  | dispatch => exact h.execDispatch
  | endReport => exact .next h.endReportS
  | exceptionReport => exact h.execExceptionReport
  | abortRequestArrive => exact .next h.abortRequestArriveS
  | completionRecordWrite => exact .next h.completionRecordWriteS
  | completionWriteFault => exact .next h.completionWriteFaultS
  | watchSample => exact .next h.watchSampleS
  | descriptorQueue => exact .next h.descriptorQueueS
  | frameTranslated => exact .next h.frameTranslatedS
  | barrowOpStart => exact .next h.barrowOpStartS
  | segmentIssue => exact .next h.segmentIssueS
  | budgetGrant => exact .next h.budgetGrantS
  | segmentComplete => exact .next h.segmentCompleteS
  | barrowReplay => exact .next h.barrowReplayS
  | atsTcpl => exact h.execAtsTcpl
  | hwWalk => exact .next h.hwWalkS
  | prgRsp => exact h.execPrgRsp
  | priTimeout => exact .next h.priTimeoutS
  | atsInv => exact .next h.atsInvS
  | engineInvalAck => exact .next h.engineInvalAckS
  | invalAbandon => exact .next h.invalAbandonS
  | portUp => exact .next <| either h.setPort h
  | linkReplay => exact .next h.linkReplayS
  | headArrive => exact .next h.headArriveS
  | fabWrite => exact .next h.fabWriteS
  | fabReduce => exact .next h.fabReduceS
  | fabRead => exact .next h.fabReadS
  | fabAck => exact .next h.fabAckS
  | fabData => exact .next h.fabDataS
  | fabRefuse => exact .next h.fabRefuseS
  | fabError => exact .next h.fabErrorS
  | linkRequestTimeout => exact .next h.linkRequestTimeoutS
  | creditStall => exact .next <| either h.fabEvent h
  | arrive => exact .next h.arriveS
  | confirm => exact .next h.confirmS
  | missing => exact .next h.missingS
  | straggler => exact .next h.stragglerS
  | missingTimer => exact .next h.missingTimerS
  | stragglerSilence => exact .next h.stragglerSilenceS
  | keyPhaseExpire => exact .next h.keyPhaseExpireS
  | mgmt => exact .next h.mgmtS
  | mgmtReassemblyTimeout => exact .next h.updInsp
  | memCommandSlot => exact .next h.memCommandSlotS
  | memReadReturn => exact .next h.memReadReturnS
  | refreshDue => exact .next h.refreshDueS
  | mr4Poll => exact .next <| either (either h.setFld.memEvent h.setFld) h
  | channelTrained => exact .next h.channelTrainedS
  | trainTimeout => exact .next h.trainTimeoutS
  | phyUpdate => exact .next <| either h.updChan.emit h
  | qosSlotBoundary => exact .next <| either h.updMem h
  | memClearDone => exact .next h.memClearDoneS
  | sweepPage => exact .next h.sweepPageS
  | keySlotZero => exact .next h.keySlotZeroS
  | awningAck => exact .next h.awningAckS
  | sampleDone => exact .next h.sampleDoneS
  | sampleTimeout => exact .next h.sampleTimeoutS
  | genClean => exact .next h.genCleanS
  | contextResetComplete => exact .next h.contextResetCompleteS
  | modTimer => exact .next h.modTimerS
  | blockResetReady => exact .next h.blockResetReadyS
  | pmbusPoll => exact .next h.pmbusPollS
  | voltageSettled => exact .next h.voltageSettledS
  | pllLocked => exact .next h.pllLockedS
  | droopWarning => exact .next h.droopWarningS
  | droopRelease => exact .next h.droopReleaseS
  | capControl => exact .next h.capControlS
  | tempSample => exact .next h.tempSampleS
  | thermalCeilingStep => exact .next h.thermalCeilingStepS
  | alertAssert => exact .next h.alertAssertS
  | alertStatusRead => exact .next h.alertStatusReadS
  | alertCeilingStep => exact .next h.alertCeilingStepS
  | ledgerWindow => exact .next h.ledgerWindowS
  | restEntry => exact .next h.restEntryS
  | restWake => exact .next h.restWakeS
  | wakeReady => exact .next h.wakeReadyS
  | insWatchdogExpiry => exact .next h.insWatchdogExpiryS
  | romSelfCheck => exact .next h.romSelfCheckS
  | echo | regWrite | regRead | cgRun | jobKeyLoad | jobKeyErase | memKeyRotate | blockReset => exact .next h.cmdArrive
  | getVersion => exact .next <| h.viaDoe h.getVersionS
  | getCapabilities => exact .next <| h.viaDoe h.getCapabilitiesS
  | negotiateAlgorithms => exact .next <| h.viaDoe h.negotiateAlgorithmsS
  | getDigests => exact .next <| h.viaDoe h.spdmAfter
  | getCertificate | challenge => exact .next <| h.viaDoe h.spdmSlot
  | getMeasurements => exact .next <| h.viaDoe h.getMeasurementsS
  | keyExchange => exact .next <| h.viaDoe h.keyExchangeS
  | finish => exact .next <| h.viaDoe h.finishS
  | keyUpdate => exact .next <| h.viaDoe h.keyUpdateS
  | heartbeat => exact .next <| h.viaDoe h.heartbeatS
  | endSession => exact .next <| h.viaDoe h.endSessionS
  | debugRead => exact .next h.busDebugRead
  | cpl => exact h.execCpl
  | bmeChange => exact .next h.bmeChangeS
  | flr => exact .next h.flrS
  | linkDown => exact .next h.linkDownS
  | powerOnReset => exact .next powerOnResetS
  | startUp => exact .next h.startUpS
  | gangReadyTimeout => exact .next h.gangReadyTimeoutS
  | wsBypass | wsExtest | wsSafe => exact .next h.setWir
  | wsIntest | wpScan => exact .next testEntry.setWir
  | tzSelftest => exact .next h.tzSelftestS
  | testModeEntry => exact .next testEntry.setWir.updPins
  | restEntryComplete => exact .next h.restEntryCompleteS
  | alertRelease => exact .next h.alertReleaseS
  | inspectorRestartDone => exact .next h.inspectorRestartDoneS
  | endpointFatal => exact .next h.endpointFatalS
  | linkDownClear => exact .next h.linkDownClearS
  | linkRateToken => exact .next h.linkRateTokenS
  | alignedGuardTick => exact .next h.alignedGuardTickS

theorem State.Canonical.step (h : s.Canonical) : KeepsCanonical (step s) := by
  unfold Machine.step
  split
  · exact h.update.exec _
  · exact .next (either h.idle h)

/-- Settles O59: the command at the queue's head, or a clock tick where there is none, changes memory through functions that keep it canonical. -/
theorem stepKeepsMemoryCanonical : Obligations.StepKeepsMemoryCanonical := by
  unfold Obligations.StepKeepsMemoryCanonical
  exact fun s t canonical next => (State.Canonical.step ⟨canonical⟩ t next).wf

end Sys2Proof.Machine
end

section
/-! SUPPORT. Operations that enter unit queues (R149, R150, R152): they stand last in issue order, and nothing else of the block changes but the
lane that has passed their instruction. -/
namespace Sys2Proof.Machine

open Sys2Proof

variable {s : State} {l : LaneId} {i : IWord} {os : List Op}

/-! ## Room, and the operations numbered -/

theorem State.addOps_eq (s : State) (os : List Op) :
    s.addOps os = { s with ops := s.ops ++ numbered s.nextOp os, nextOp := s.nextOp + os.length } := by
  induction os generalizing s with
  | nil => simp [State.addOps, numbered]
  | cons o r ih =>
    rw [State.addOps, ih]
    simp [State.addOp, numbered, Nat.add_comm, Nat.add_left_comm]

@[simp] theorem State.addOps_lanes (s : State) (os : List Op) : (s.addOps os).lanes = s.lanes := by rw [State.addOps_eq]
@[simp] theorem State.addOps_cycAcc (s : State) (os : List Op) : (s.addOps os).cycAcc = s.cycAcc := by rw [State.addOps_eq]

theorem Room.noneFull (room : Room s l os) : os.find? (fun o => decide (8 ≤ s.queueLen o.unit l)) = none := by
  rw [List.find?_eq_none]
  intro o mem
  simpa using room.1 o mem

/-- With room for them, operations are added and their instruction is passed. -/
theorem State.issueOps_eq (room : Room s l os) : s.issueOps l i os = (s.addOps os).advance l i := by
  unfold State.issueOps
  rw [room.noneFull]
  exact if_neg (Nat.not_lt.2 room.2)

/-! ## What issue leaves -/

/-- Past an instruction, in a state whose operations alone may differ. -/
theorem OnlyIssue.advance (s : State) (l : LaneId) (i : IWord) (ops : List Op) (n : Nat) :
    OnlyIssue l s (({ s with ops := ops, nextOp := n } : State).advance l i) :=
  have passed := OnlyLane.advance l i { s with ops := ops, nextOp := n }
  ⟨passed.rest, passed.others, passed.ctxs, passed.launches, passed.power⟩

theorem sameRegs_advance {u : State} (lanes : u.lanes = s.lanes) (l : LaneId) (i : IWord) :
    SameS l s (u.advance l i) ∧ SameP l s (u.advance l i) ∧ SameD l s (u.advance l i) := by
  have lane : u.lane l = s.lane l := by rw [State.lane, State.lane, lanes]
  refine ⟨fun r => ?_, fun r => ?_, fun r => ?_⟩
  · rw [Lane.sv, Lane.sv, State.lane_advance_s, lane]
  · rw [Lane.pv, Lane.pv, State.lane_advance_p, lane]
  · rw [Lane.dv, Lane.dv, State.lane_advance_d, lane]

theorem Passed.of_lanes {u : State} (lanes : u.lanes = s.lanes) (cycAcc : u.cycAcc = s.cycAcc) (l : LaneId) (i : IWord) :
    Passed l i s (u.advance l i) := by
  have lane : u.lane l = s.lane l := by rw [State.lane, State.lane, lanes]
  exact Passed.after i (by rw [State.cyc, State.cyc, cycAcc]) (lane ▸ RegsOnly.refl _)

theorem Entered.advance (s : State) (l : LaneId) (i : IWord) (os : List Op) : Entered l i s ((s.addOps os).advance l i) os := by
  obtain ⟨scalars, predicates, descriptors⟩ := sameRegs_advance (s.addOps_lanes os) l i
  have eq := s.addOps_eq os
  refine ⟨.of_lanes (by simp) (by simp) l i, ?_, ?_, ?_, scalars, predicates, descriptors⟩
  · rw [eq]; exact .advance s l i _ _
  · rw [eq]; rfl
  · rw [eq]; rfl

/-- An instruction that issues, and whose effect is to put operations into queues that have room. -/
theorem entered_of_issue {c : Instr} {cls op : Nat} {regs : List Nat} {body : State → State} (arm : exec c s = .next (s.issue l i cls op regs body))
    (issues : s.Issues l i cls op regs) (known : assigned cls op = true) (ops : body s = s.issueOps l i os) (room : Room s l os) :
    ∃ t, exec c s = .next t ∧ Entered l i s t os := by
  rw [arm, State.issue_eq issues known, ops, State.issueOps_eq room]
  exact ⟨_, rfl, .advance s l i os⟩

end Sys2Proof.Machine
end

section
/-! PROOFS. SIG, WAIT, FENCE, BARRIER, TWAIT and PACE enter their unit's queue (O15), as do TWAIT.C and TSLOT (O16). -/
namespace Sys2Proof.Machine

open Sys2Proof

section
variable {s : State} {l : LaneId} {i : IWord}

/-! ## Barriers (R184, R288) -/

theorem barrierBody_local (loc : bit i.w 38 = true) :
    barrierBody l i s = s.issueOps l i [{ s.newOp l i .sync with sc := [(s.lane l).sv (bits i.w 37 33)] }] := by
  simp only [barrierBody, State.alignedTick, sLocal, loc]
  rfl

theorem State.alignedTick_group (group : bit i.w 38 = false) (e : Word) :
    s.alignedTick i e =
      if s.barMode (bits i.w 46 39) = 2 ∧ bits i.w 37 33 ≠ 0 then e.toNat + s.fld (Reg.fabBarCfg (bits i.w 46 39)) 63 40 else 0 := by
  simp only [State.alignedTick, sLocal, group, sGroup, sBarRa]
  by_cases mode : s.barMode (bits i.w 46 39) = 2 <;> by_cases reg : bits i.w 37 33 = 0 <;> simp [mode, reg]

theorem barrierBody_group (group : bit i.w 38 = false) (bound : s.barCtx (bits i.w 46 39) = some (s.lane l).ctx) :
    barrierBody l i s = s.issueOps l i [{ s.newOp l i .sync with
      sc := [(s.lane l).sv (bits i.w 37 33)], tick := s.alignedTick i ((s.lane l).sv (bits i.w 37 33)) }] := by
  simp [barrierBody, sLocal, group, sGroup, bound, sBarRa]

end

/-! ## The queues of the sync and time units -/

/-- Settles O15: each instruction that issues puts its one operation into its queue. -/
theorem syncAndTimeIssue : Obligations.SyncAndTimeIssue := by
  unfold Obligations.SyncAndTimeIssue
  refine ⟨fun p mem l i s issues => ?semaphores, fun l i s issues room => ?fence, fun l i s issues loc => ?barrier,
    fun l i s issues group bound => ?group, fun l i s issues => ?twait, fun l i s issues room => ?pace⟩
  case semaphores =>
    simp only [List.mem_cons, List.not_mem_nil, or_false] at mem
    rcases mem with rfl | rfl
    · exact entered_of_issue rfl issues rfl rfl
    · exact entered_of_issue rfl issues rfl rfl
  case fence => exact entered_of_issue rfl issues rfl rfl room
  case barrier => exact entered_of_issue rfl issues rfl (barrierBody_local loc)
  case group =>
    dsimp only
    rw [← State.alignedTick_group group]
    exact entered_of_issue rfl issues rfl (barrierBody_group group bound)
  case twait => exact entered_of_issue rfl issues rfl rfl
  case pace => exact entered_of_issue rfl issues rfl rfl room

/-! ## Cadences (R30, R31) -/

/-- A cadence in use for a context has a period: 4,000 st at the least (R30). -/
theorem State.cadFor_pos {s : State} {c cad origin period : Nat} (h : s.cadFor c cad = some (origin, period)) : 0 < period := by
  unfold State.cadFor at h
  split at h
  · obtain ⟨p, hp, rfl, rfl⟩ : ∃ p, s.cadPeriod cad = some p ∧ _ = origin ∧ p = period := by simpa using h
    unfold State.cadPeriod at hp
    dsimp only at hp
    split at hp
    next range =>
      obtain rfl := Option.some.inj hp
      omega
    next => cases hp
  · cases h

/-- The slot that TWAIT.C waits for starts, with f, at or after the instant; no earlier one does (R31). -/
theorem cadRelease_spec {o p : Nat} (pos : 0 < p) (f : Int) (now : Nat) :
    ((cadRelease o p f now).2 : Int) = o + (cadRelease o p f now).1 * p / 2 ^ 32 + f ∧ now ≤ (cadRelease o p f now).2 ∧
      ∀ n : Nat, n < (cadRelease o p f now).1 → (o : Int) + n * p / 2 ^ 32 + f < now := by
  set d := ((now : Int) - f - o).toNat with hd
  set n := (d * 2 ^ 32 + p - 1) / p with hn
  have eq : cadRelease o p f now = (n, ((slotStart o p n : Int) + f).toNat) := rfl
  have slots (m : Nat) : (m : Int) * p / 2 ^ 32 = (m * p / 2 ^ 32 : Nat) := by push_cast; rfl
  have late : d ≤ n * p / 2 ^ 32 := by
    rw [Nat.le_div_iff_mul_le (by positivity)]
    have := Nat.lt_div_mul_add (a := d * 2 ^ 32 + p - 1) pos
    rw [← hn] at this
    omega
  have first (m : Nat) (before : m < n) : m * p / 2 ^ 32 < d := by
    rw [Nat.div_lt_iff_lt_mul (by positivity)]
    have := (Nat.le_div_iff_mul_le pos).1 (Nat.succ_le_of_lt before)
    rw [Nat.succ_mul] at this
    omega
  rw [eq]
  dsimp only
  rw [slots, slotStart]
  refine ⟨by omega, by omega, fun m before => ?_⟩
  have := first m before
  rw [slots]
  omega

/-- Settles O16: with the cadence in use, each instruction puts its one operation into the time unit's queue. -/
theorem cadenceInstructionsIssue : Obligations.CadenceInstructionsIssue := by
  unfold Obligations.CadenceInstructionsIssue
  refine ⟨fun l i s origin period issues cad => ?twaitC, fun l i s c issues cad => ?tslot⟩
  case twaitC =>
    intro f room
    obtain ⟨tick, due, first⟩ := cadRelease_spec (State.cadFor_pos cad) (o := origin) f s.bell.now
    let o : Op := { s.newOp l i .time with
      tick := (cadRelease origin period f s.bell.now).2, slotNo := (cadRelease origin period f s.bell.now).1, dst := sDst (iFa i) }
    obtain ⟨t, next, entered⟩ := entered_of_issue (c := .twaitC l i) rfl issues rfl
      (show _ = s.issueOps l i [o] by rw [show s.cadFor (s.lane l).ctx (sCad i) = _ from cad]) (room o rfl)
    exact ⟨t, o, next, entered, rfl, rfl, tick, due, first⟩
  case tslot =>
    exact entered_of_issue rfl issues rfl (by rw [show s.cadFor (s.lane l).ctx (sCad i) = _ from cad]; rfl)

end Sys2Proof.Machine
end

section
/-! SUPPORT. Tensor instructions (R155, R157, R158): what their checks keep of an operation, and the operations they put into the queues of their
targets. -/
namespace Sys2Proof.Machine

open Sys2Proof

/-! ## Checks -/

/-- What holds of the answer of a check, where it answers. -/
def Yields {ε α : Type} (P : α → Prop) (x : Except ε α) : Prop := ∀ a, x = .ok a → P a

section
variable {ε α β : Type} {P : β → Prop}

theorem Yields.pure {b : β} (h : P b) : Yields P (pure b : Except ε β) := by
  intro c eq
  cases eq
  exact h

theorem Yields.bind {x : Except ε α} {f : α → Except ε β} (h : ∀ a, Yields P (f a)) : Yields P (x >>= f) := by
  intro b eq
  cases x with
  | error e => cases eq
  | ok a => exact h a b eq

theorem Yields.ite {c : Bool} {x y : Except ε β} (yes : Yields P x) (no : Yields P y) : Yields P (if c then x else y) := by
  cases c
  · exact no
  · exact yes

/-- A list is mapped where each of its elements is. -/
theorem mapM_eq_ok_iff {f : α → Except ε β} {as : List α} {bs : List β} :
    as.mapM f = .ok bs ↔ List.Forall₂ (fun a b => f a = .ok b) as bs := by
  induction as generalizing bs with
  | nil => simp [Pure.pure, Except.pure, eq_comm]
  | cons a r ih =>
    rw [List.mapM_cons, List.forall₂_cons_left_iff]
    simp only [← ih]
    cases f a with
    | error e => simp [Bind.bind, Except.bind]
    | ok b => cases r.mapM f <;> simp [Bind.bind, Except.bind, Pure.pure, Except.pure, eq_comm]

end

/-- A check keeps the place of an operation, its instruction, its lane and where it stands. -/
structure Op.SameTask (o p : Op) : Prop where
  unit : p.unit = o.unit
  iw : p.iw = o.iw
  lane : p.lane = o.lane
  st : p.st = o.st

theorem State.checkVec_task (s : State) (t : Nat) (o : Op) : Yields o.SameTask (s.checkVec t o) := by
  unfold State.checkVec
  dsimp only
  repeat refine .bind fun _ => ?_
  refine .ite (.bind fun _ => ?scale) (.bind fun _ => ?noScale)
  case scale => exact .ite (.bind fun _ => .pure ⟨rfl, rfl, rfl, rfl⟩) (.bind fun _ => .pure ⟨rfl, rfl, rfl, rfl⟩)
  case noScale => exact .ite (.bind fun _ => .pure ⟨rfl, rfl, rfl, rfl⟩) (.bind fun _ => .pure ⟨rfl, rfl, rfl, rfl⟩)

theorem State.checkLoad_task (s : State) (t : Nat) (o : Op) : Yields o.SameTask (s.checkLoad t o) := by
  unfold State.checkLoad
  repeat refine .bind fun _ => ?_
  exact .pure ⟨rfl, rfl, rfl, rfl⟩

theorem State.checkStream_task (s : State) (t : Nat) (o : Op) : Yields o.SameTask (s.checkStream t o) := by
  unfold State.checkStream
  dsimp only
  refine .ite ?os ?stationary
  case os =>
    split
    next =>
      repeat refine .bind fun _ => ?_
      exact .pure ⟨rfl, rfl, rfl, rfl⟩
    next =>
      repeat refine .bind fun _ => ?_
      exact .pure ⟨rfl, rfl, rfl, rfl⟩
  case stationary =>
    repeat refine .bind fun _ => ?_
    exact .pure ⟨rfl, rfl, rfl, rfl⟩

/-! ## Targets (R157, R158) -/

section
variable {s : State} {l : LaneId} {i : IWord} {ts : List Nat} {os : List Op} {check : Nat → Op → Except Nat Op}
  {after : Nat → Op → State → State}

/-- The operations are those of the targets, each as its check gives it. -/
theorem State.tileOps_eq_ok_iff :
    s.tileOps l i check = .ok os ↔
      ∃ ts, s.targets l (tTiles i) = .ok ts ∧ List.Forall₂ (fun t o => check t (s.tileOp l i t) = .ok o) ts os := by
  unfold State.tileOps
  simp only [← mapM_eq_ok_iff]
  cases s.targets l (tTiles i) with
  | error e => simp [Bind.bind, Except.bind]
  | ok ts => simp [Bind.bind, Except.bind]

/-- Checked operations stand on their targets, one on each, and are the lane's queued operations of the instruction. -/
theorem tasks_of_checked (keeps : ∀ t o, Yields o.SameTask (check t o))
    (checked : List.Forall₂ (fun t o => check t (s.tileOp l i t) = .ok o) ts os) :
    os.map (fun o => o.unit) = ts.map UnitId.tile ∧ ∀ o ∈ os, o.iw = i ∧ o.st = .queued ∧ o.lane = l := by
  induction checked with
  | nil => exact ⟨rfl, fun o mem => by cases mem⟩
  | @cons t o ts os first _ ih =>
    have task := keeps t _ o first
    obtain ⟨units, rest⟩ := ih
    exact ⟨by rw [List.map_cons, List.map_cons, units, task.unit]; rfl,
      List.forall_mem_cons.2 ⟨⟨task.iw, task.st, task.lane⟩, rest⟩⟩

/-- With room in the queues of the targets there is room for their operations. -/
theorem Room.of_targets (units : os.map (fun o => o.unit) = ts.map UnitId.tile) (queues : ∀ t ∈ ts, s.queueLen (.tile t) l < 8)
    (lane : (s.laneOps l).length + ts.length ≤ 64) : Room s l os := by
  refine ⟨fun o mem => ?_, ?_⟩
  · have unit : o.unit ∈ ts.map UnitId.tile := units ▸ List.mem_map_of_mem mem
    obtain ⟨t, target, eq⟩ := List.mem_map.1 unit
    rw [← eq]
    exact queues t target
  · have := congrArg List.length units
    rw [List.length_map, List.length_map] at this
    omega

/-! ## What issue notes of each target -/

/-- What an instruction notes of its targets, one after another. -/
def State.noteTargets (s : State) (after : Nat → Op → State → State) (ps : List (Nat × Op)) : State := ps.foldl (fun u p => after p.1 p.2 u) s

theorem State.noteTargets_cons (s : State) (after : Nat → Op → State → State) (p : Nat × Op) (r : List (Nat × Op)) :
    s.noteTargets after (p :: r) = (after p.1 p.2 s).noteTargets after r := rfl

/-- What each target's note keeps, the notes of all keep. -/
theorem State.noteTargets_keeps {after : Nat → Op → State → State} {P : State → Prop} {s : State} (start : P s)
    (keeps : ∀ t o u, P u → P (after t o u)) (ps : List (Nat × Op)) : P (s.noteTargets after ps) :=
  List.foldlRecOn ps _ start fun u hu p _ => keeps p.1 p.2 u hu

/-- A fold that numbers operations as it goes notes the targets with the operations numbered. -/
theorem foldl_eq_noteTargets {f : State × Nat → Op → State × Nat}
    (each : ∀ u n o t, o.unit = .tile t → f (u, n) o = (after t { o with id := n } u, n + 1)) (n : Nat)
    (units : os.map (fun o => o.unit) = ts.map UnitId.tile) : (os.foldl f (s, n)).1 = s.noteTargets after (ts.zip (numbered n os)) := by
  induction os generalizing s n ts with
  | nil =>
    cases ts with
    | nil => rfl
    | cons t ts => cases units
  | cons o os ih =>
    cases ts with
    | nil => cases units
    | cons t ts =>
      obtain ⟨unit, rest⟩ := List.cons.inj units
      rw [List.foldl_cons, each s n o t unit, ih _ rest]
      rfl

/-- A tensor instruction whose operations pass their checks and have room: its targets are noted, the operations are added, and it is passed. -/
theorem State.issueTiles_eq (checked : s.tileOps l i check = .ok os) (units : os.map (fun o => o.unit) = ts.map UnitId.tile) (room : Room s l os) :
    s.issueTiles l i check after = ((s.noteTargets after (ts.zip (numbered s.nextOp os))).addOps os).advance l i := by
  unfold State.issueTiles
  rw [checked]
  dsimp only
  rw [room.noneFull]
  dsimp only
  rw [if_neg (Nat.not_lt.2 room.2), foldl_eq_noteTargets (after := after) (fun u n o t unit => by dsimp only; rw [unit]) _ units]

end

end Sys2Proof.Machine
end

section
/-! PROOFS. VEC instructions issue on their targets (O17). -/
namespace Sys2Proof.Machine

open Sys2Proof

/-! ## Readers noted with the streams (R151) -/

/-- Of `s`, only the streams' notes of their readers may differ. -/
def OnlyNotes (s u : State) : Prop := ∃ ops, u = { s with ops := ops } ∧ ops.map Op.unnoted = s.ops.map Op.unnoted

theorem OnlyNotes.noteUses {s u : State} (h : OnlyNotes s u) (t id : Nat) (ks : List Nat) : OnlyNotes s (u.noteUses t id ks) := by
  induction ks generalizing u with
  | nil => exact h
  | cons k r ih =>
    rw [State.noteUses]
    refine ih ?_
    split
    next p writer =>
      obtain ⟨ops, rfl, same⟩ := h
      refine ⟨_, rfl, Eq.trans ?_ same⟩
      rw [List.map_map]
      exact List.map_congr_left fun o _ => by dsimp only [Function.comp]; split <;> rfl
    next => exact h

/-! ## The statement -/

/-- Each VEC command is the issue of its operation. -/
theorem vecTable_issues : ∀ p ∈ vecTable, assigned 9 p.1 = true ∧ ∀ l i s, exec (p.2 l i) s = .next (vecS l i p.1 s) := by
  intro p mem
  fin_cases mem <;> exact ⟨rfl, fun _ _ _ => rfl⟩

/-- Settles O17: the checked operations are those of the targets, and what is noted of them is the streams' alone. -/
theorem vectorInstructionsIssue : Obligations.VectorInstructionsIssue := by
  unfold Obligations.VectorInstructionsIssue
  intro p mem l i s os issues ok room
  obtain ⟨known, arm⟩ := vecTable_issues p mem
  obtain ⟨ts, targets, checked⟩ := State.tileOps_eq_ok_iff.1 ok
  obtain ⟨units, tasks⟩ := tasks_of_checked s.checkVec_task checked
  obtain ⟨ops, noted, same⟩ : OnlyNotes s (s.noteTargets (fun t o u => u.noteUses t o.id o.readSlots) (ts.zip (numbered s.nextOp os))) :=
    State.noteTargets_keeps ⟨s.ops, rfl, rfl⟩ (fun t o u h => h.noteUses t o.id o.readSlots) _
  have next : exec (p.2 l i) s = .next ((({ s with ops := ops } : State).addOps os).advance l i) := by
    rw [arm, vecS, State.issue_eq issues known, State.issueTiles_eq ok units room, noted]
  have added := ({ s with ops := ops } : State).addOps_eq os
  obtain ⟨scalars, predicates, descriptors⟩ := sameRegs_advance (s := s) (State.addOps_lanes { s with ops := ops } os) l i
  refine ⟨_, ts, next, .of_lanes (by simp) (by simp) l i, ?frame, scalars, predicates, descriptors, ?memory, ?ops, ?count,
    targets, units, tasks⟩
  case frame => rw [added]; exact .advance s l i _ _
  case memory => rw [added]; exact fun _ => rfl
  case ops =>
    rw [added, List.map_append, ← same, ← List.map_append]
    rfl
  case count => rw [added]; rfl

end Sys2Proof.Machine
end

section
/-! PROOFS. ARM instructions issue on their targets (O18). -/
namespace Sys2Proof.Machine

open Sys2Proof

/-! ## What an ARM instruction leaves -/

/-- Past an ARM instruction: its operations stand last in issue order, and no byte of memory and no register of the block has changed. -/
structure ArmIssued (l : LaneId) (i : IWord) (s u : State) (os : List Op) : Prop where
  ops : u.ops = s.ops ++ numbered s.nextOp os
  next : u.nextOp = s.nextOp + os.length
  passed : Passed l i s u
  memory : SameMem s u
  regs : u.regs = s.regs

section
variable {s : State} {l : LaneId} {i : IWord} {ts : List Nat} {os : List Op} {check : Nat → Op → Except Nat Op}
  {after : Nat → Op → State → State}

/-- An ARM instruction whose operations pass their checks and have room, and whose notes are of the tiles alone. -/
theorem armIssued_of_checked {c : Instr} (arm : exec c s = .next (s.issueTiles l i check after)) (ok : s.tileOps l i check = .ok os)
    (units : os.map (fun o => o.unit) = ts.map UnitId.tile) (room : Room s l os)
    (frame : ∀ t o u, ∃ tiles, after t o u = { u with tiles := tiles }) :
    ∃ u, exec c s = .next u ∧ ArmIssued l i s u os ∧ ∀ k, u.tile k = (s.noteTargets after (ts.zip (numbered s.nextOp os))).tile k := by
  obtain ⟨xs, noted⟩ : ∃ xs, s.noteTargets after (ts.zip (numbered s.nextOp os)) = { s with tiles := xs } :=
    State.noteTargets_keeps (P := fun u => ∃ xs, u = { s with tiles := xs }) ⟨s.tiles, rfl⟩ (fun t o u h => by
      obtain ⟨xs, rfl⟩ := h
      exact frame t o _) _
  have added := ({ s with tiles := xs } : State).addOps_eq os
  rw [arm, State.issueTiles_eq ok units room, noted]
  refine ⟨_, rfl, ⟨?_, ?_, .of_lanes (by simp) (by simp) l i, ?_, ?_⟩, fun k => ?_⟩
  · rw [added]; rfl
  · rw [added]; rfl
  · rw [added]; exact fun _ => rfl
  · rw [added]; rfl
  · rw [added]; rfl

end

/-! ## What is noted of the tiles -/

/-- A part of a tile that no note changes. -/
theorem State.noteTargets_part {α : Type} (part : Tile → α) {after : Nat → Op → State → State}
    (keeps : ∀ t o u k, part ((after t o u).tile k) = part (u.tile k)) (s : State) (ps : List (Nat × Op)) (k : Nat) :
    part ((s.noteTargets after ps).tile k) = part (s.tile k) :=
  State.noteTargets_keeps (P := fun u => part (u.tile k) = part (s.tile k)) rfl (fun t o u h => (keeps t o u k).trans h) ps

/-- The notes that change each target alike. -/
theorem State.noteTargets_updTile {f : Tile → Tile} (idem : ∀ x, f (f x) = f x) (s : State) (ps : List (Nat × Op)) (k : Nat) :
    (s.noteTargets (fun t _ u => u.updTile t f) ps).tile k = if k ∈ ps.map Prod.fst then f (s.tile k) else s.tile k := by
  induction ps generalizing s with
  | nil => rfl
  | cons p r ih =>
    rw [State.noteTargets_cons, ih, State.tile_updTile, List.map_cons]
    by_cases first : k = p.1
    · subst first; simp [idem]
    · simp only [first, if_false, List.mem_cons, false_or]

theorem numbered_length (n : Nat) (os : List Op) : (numbered n os).length = os.length := by
  induction os generalizing n with
  | nil => rfl
  | cons o r ih => rw [numbered, List.length_cons, ih, List.length_cons]

theorem fst_zip_numbered {ts : List Nat} {os : List Op} (units : os.map (fun o => o.unit) = ts.map UnitId.tile) (n : Nat) :
    (ts.zip (numbered n os)).map Prod.fst = ts := by
  refine List.map_fst_zip ?_
  have := congrArg List.length units
  rw [List.length_map, List.length_map] at this
  rw [numbered_length, this]

/-- A part of a tile that an update keeps. -/
theorem State.updTile_part {α : Type} {part : Tile → α} {f : Tile → Tile} (keeps : ∀ x, part (f x) = part x) (s : State) (t k : Nat) :
    part ((s.updTile t f).tile k) = part (s.tile k) := by
  rw [State.tile_updTile]
  split
  next eq => rw [eq, keeps]
  next => rfl

/-- The book that is noted is the CB format of the tile, and no other part of a tile. -/
theorem State.noteBook_part {α : Type} (part : Tile → α) (keeps : ∀ x f, part { x with cbFmt := f } = part x) (s : State) (t : Nat) (d : Desc)
    (k : Nat) :
    part ((s.noteBook t d).tile k) = part (s.tile k) := by
  unfold State.noteBook
  split
  · exact State.updTile_part (fun x => keeps x _) s t k
  · rfl

theorem State.noteBook_tiles (s : State) (t : Nat) (d : Desc) : ∃ tiles, s.noteBook t d = { s with tiles := tiles } := by
  unfold State.noteBook
  split
  · exact ⟨_, rfl⟩
  · exact ⟨s.tiles, rfl⟩

/-! ## The four instructions -/

/-- The mode that ARM.MODE names (R163). -/
def modeOf (i : IWord) : Mode := ⟨bits i.w 20 19, bits i.w 18 14, bits i.w 13 9, bit i.w 8⟩

/-- The checks of ARM.MODE on a target (R163, R168). -/
def State.checkMode (s : State) (m : Mode) (t : Nat) (o : Op) : Except Nat Op := do
  need (actFmt m.fmtA && weightFmt m.fmtB && pairOk m.fmtA m.fmtB m.cbw) xFORMATINVALID
  s.chainOk t
  pure { o with mode := m }

theorem State.checkMode_ok {s : State} {m : Mode} {t : Nat} (act : actFmt m.fmtA = true) (weight : weightFmt m.fmtB = true)
    (pair : pairOk m.fmtA m.fmtB m.cbw = true) (closed : (s.tile t).chainIssued = none) (o : Op) : s.checkMode m t o = .ok { o with mode := m } := by
  rw [State.checkMode, State.chainOk, act, weight, pair, closed]
  rfl

/-- The operation of ARM.DRAIN on a target: it closes a chain that is open there (R168, R169). -/
def State.drainOp (s : State) (t : Nat) (o : Op) : Op :=
  match (s.tile t).chainIssued with
  | some c => { o with total := 1, slotNo := c.bank * 128 + c.start }
  | none => o

theorem State.drainOp_unit (s : State) (t : Nat) (o : Op) : (s.drainOp t o).unit = o.unit := by
  unfold State.drainOp
  split <;> rfl

/-- The chain that ARM.STREAM leaves open on a target in OS mode (R168). -/
def chainLeft (i : IWord) (o : Op) : Option Chain :=
  if o.mode.kind == 2 && bit i.w 16 then some ⟨o.slotNo / 128, o.slotNo % 128, bit i.w 17, dFmt o.da, dFmt o.db, o.id⟩ else none

/-- A target judged by a mode, or by a chain, from this instruction on. -/
def Tile.noteMode (m : Mode) (x : Tile) : Tile := { x with issuedMode := m }
def Tile.noteChain (c : Option Chain) (x : Tile) : Tile := { x with chainIssued := c }

/-- The modes of a tile, which ARM.LOAD leaves alone; its mode and its banks, which ARM.STREAM does until it runs. -/
def Tile.modes (x : Tile) : Mode × Mode := (x.mode, x.issuedMode)
def Tile.held (x : Tile) := (x.mode, x.banks)

/-- What ARM.STREAM notes of a target: the chain that it leaves open and the books that it names. -/
def noteStream (i : IWord) (t : Nat) (o : Op) (s : State) : State :=
  ((s.updTile t (Tile.noteChain (chainLeft i o))).noteBook t o.da).noteBook t o.db

theorem noteStream_tiles (i : IWord) (t : Nat) (o : Op) (s : State) : ∃ tiles, noteStream i t o s = { s with tiles := tiles } := by
  obtain ⟨xs, eq⟩ := State.noteBook_tiles (s.updTile t (Tile.noteChain (chainLeft i o))) t o.da
  rw [noteStream, eq]
  exact State.noteBook_tiles _ t o.db

theorem noteStream_part {α : Type} (part : Tile → α) (book : ∀ x f, part { x with cbFmt := f } = part x)
    (chain : ∀ x c, part (Tile.noteChain c x) = part x) (i : IWord) (t : Nat) (o : Op) (s : State) (k : Nat) :
    part ((noteStream i t o s).tile k) = part (s.tile k) := by
  rw [noteStream, State.noteBook_part part book, State.noteBook_part part book, State.updTile_part fun x => chain x _]

section
variable {s : State} {l : LaneId} {i : IWord}

theorem exec_armMode (issues : s.Issues l i 8 0 []) :
    exec (.armMode l i) s =
      .next (s.issueTiles l i (s.checkMode (modeOf i)) fun t _ u => u.updTile t (Tile.noteMode (modeOf i))) :=
  congrArg Host.Outcome.next (State.issue_eq issues rfl _)

theorem exec_armLoad (issues : s.Issues l i 8 1 (s.tensorRegs l i [tDa i] [])) :
    exec (.armLoad l i) s = .next (s.issueTiles l i s.checkLoad fun t o u => u.noteBook t o.da) :=
  congrArg Host.Outcome.next (State.issue_eq issues rfl _)

theorem exec_armStream (issues : s.Issues l i 8 2 (s.tensorRegs l i (if s.streamsDb l i then [tDa i, tDb i] else [tDa i]) [tRs i])) :
    exec (.armStream l i) s = .next (s.issueTiles l i s.checkStream (noteStream i)) :=
  congrArg Host.Outcome.next (State.issue_eq issues rfl _)

theorem exec_armDrain (issues : s.Issues l i 8 3 []) :
    exec (.armDrain l i) s =
      .next (s.issueTiles l i (fun t o => .ok (s.drainOp t o)) fun t _ u => u.updTile t (Tile.noteChain none)) := by
  have closes : (fun t (o : Op) => match (s.tile t).chainIssued with
      | some c => .ok { o with total := 1, slotNo := c.bank * 128 + c.start }
      | none => .ok o) = fun t o => (.ok (s.drainOp t o) : Except Nat Op) := by
    funext t o
    unfold State.drainOp
    cases (s.tile t).chainIssued <;> rfl
  rw [← closes]
  exact congrArg Host.Outcome.next (State.issue_eq issues rfl _)

end

/-! ## The statement -/

/-- Settles O18: the checked operations are those of the targets, and the tiles are read off what each instruction notes of them. -/
theorem armatureInstructionsIssue : Obligations.ArmatureInstructionsIssue := by
  unfold Obligations.ArmatureInstructionsIssue
  refine ⟨⟨fun l i s ts issues targets closed => ?mode, fun l i s os issues ok room => ?load⟩,
    ⟨fun l i s os issues ok room => ?stream, fun l i s ts issues targets queues lane => ?drain⟩⟩
  case mode =>
    intro m actOk weightOk pair queues lane
    let os := ts.map fun t => { s.tileOp l i t with mode := m }
    have units : os.map (fun o => o.unit) = ts.map UnitId.tile := by rw [List.map_map]; rfl
    have ok : s.tileOps l i (s.checkMode (modeOf i)) = .ok os :=
      State.tileOps_eq_ok_iff.2 ⟨ts, targets, List.forall₂_map_right_iff.2 (List.forall₂_same.2 fun t target =>
        State.checkMode_ok actOk weightOk pair (closed t target) _)⟩
    obtain ⟨u, next, issued, tile⟩ := armIssued_of_checked (exec_armMode issues) ok units (.of_targets units queues lane)
      fun t o u => ⟨_, rfl⟩
    refine ⟨u, os, next, issued.ops, units, List.forall_mem_map.2 fun _ _ => rfl, issued.passed, issued.memory, issued.regs,
      fun k => ?_, fun k => ?_⟩
    · rw [tile, State.noteTargets_updTile (f := Tile.noteMode (modeOf i)) fun _ => rfl, fst_zip_numbered units]
      split <;> rfl
    · rw [tile]
      exact State.noteTargets_part (fun x => x.mode) (fun t _ u k => State.updTile_part (f := Tile.noteMode (modeOf i)) (fun _ => rfl) u t k) s _ k
  case load =>
    obtain ⟨ts, targets, checked⟩ := State.tileOps_eq_ok_iff.1 ok
    obtain ⟨units, -⟩ := tasks_of_checked s.checkLoad_task checked
    obtain ⟨u, next, issued, tile⟩ := armIssued_of_checked (exec_armLoad issues) ok units room fun t o u => u.noteBook_tiles t o.da
    refine ⟨u, next, issued.ops, issued.next, issued.passed, issued.memory, issued.regs, fun k => ?_⟩
    rw [tile]
    exact Prod.mk.inj (State.noteTargets_part Tile.modes (fun t o u => u.noteBook_part Tile.modes (fun _ _ => rfl) t o.da) s _ k)
  case stream =>
    obtain ⟨ts, targets, checked⟩ := State.tileOps_eq_ok_iff.1 ok
    obtain ⟨units, -⟩ := tasks_of_checked s.checkStream_task checked
    obtain ⟨u, next, issued, tile⟩ := armIssued_of_checked (exec_armStream issues) ok units room (noteStream_tiles i)
    refine ⟨u, next, issued.ops, issued.next, issued.passed, issued.memory, issued.regs, fun k => ?_⟩
    rw [tile]
    exact Prod.mk.inj (State.noteTargets_part Tile.held (noteStream_part Tile.held (fun _ _ => rfl) (fun _ _ => rfl) i) s _ k)
  case drain =>
    let os := ts.map fun t => s.drainOp t (s.tileOp l i t)
    have units : os.map (fun o => o.unit) = ts.map UnitId.tile := by
      rw [List.map_map]
      exact List.map_congr_left fun t _ => s.drainOp_unit t _
    have ok : s.tileOps l i (fun t o => .ok (s.drainOp t o)) = .ok os :=
      State.tileOps_eq_ok_iff.2 ⟨ts, targets, List.forall₂_map_right_iff.2 (List.forall₂_same.2 fun t _ => rfl)⟩
    obtain ⟨u, next, issued, tile⟩ := armIssued_of_checked (exec_armDrain issues) ok units (.of_targets units queues lane)
      fun t o u => ⟨_, rfl⟩
    have drained (k : Nat) : u.tile k = if k ∈ ts then (s.tile k).noteChain none else s.tile k := by
      rw [tile, State.noteTargets_updTile (f := Tile.noteChain none) fun _ => rfl, fst_zip_numbered units]
    refine ⟨u, os, next, issued.ops, units, issued.passed, issued.memory, issued.regs, fun k target => ?_, fun k other => ?_⟩
    · rw [drained, if_pos target]; rfl
    · rw [drained, if_neg other]

end Sys2Proof.Machine
end

section
/-! PROOFS. BAR instructions issue to the barrow they name (O19). -/
namespace Sys2Proof.Machine

open Sys2Proof

theorem State.checkBar_task (s : State) (o : Op) : Yields o.SameTask (s.checkBar o) := by
  unfold State.checkBar
  dsimp only
  refine .ite ?crop ?others
  case crop =>
    repeat refine .bind fun _ => ?_
    exact .pure ⟨rfl, rfl, rfl, rfl⟩
  case others =>
    repeat refine .bind fun _ => ?_
    exact .pure ⟨rfl, rfl, rfl, rfl⟩

/-- What a BAR instruction reads at issue for the barrow that it names (R175 to R177). -/
def State.barOp (s : State) (l : LaneId) (i : IWord) (b : Nat) : Op :=
  let x := s.lane l
  { s.newOp l i (.barrow b) with
    dd := x.dv (bDd i), da := x.dv (bDa i),
    planes := if iOp i = 1 then (List.range (cropPlanes (bits i.w 21 19) - 1)).map fun k => x.dv (bDa i + 1 + k) else [],
    sc := if iOp i = 1 then [x.sv (bRs i), if bRs i ≤ 30 then x.sv (bRs i + 1) else 0] else [] }

theorem barBody_ok {s : State} {l : LaneId} {i : IWord} {b : Nat} {o : Op} (pick : s.pickBarrow l i = .ok b) (ok : s.checkBar (s.barOp l i b) = .ok o) :
    barBody l i s = s.issueOps l i [o] := by
  simp only [State.barOp] at ok
  simp only [barBody, pick, beq_iff_eq, ok]

/-- The four BAR commands issue alike. -/
theorem exec_bar : ∀ p ∈ ([(0, .barMove), (1, .barCrop), (2, .barReduce), (3, .barDigest)] : List (Nat × (LaneId → IWord → Instr))),
    assigned 0xA p.1 = true ∧ ∀ l i s, exec (p.2 l i) s = .next (s.issue l i 0xA p.1 (barRegs i) (barBody l i)) := by
  intro p mem
  fin_cases mem <;> exact ⟨rfl, fun _ _ _ => rfl⟩

/-- Settles O19: the operation that passes its checks is the only one that enters, and it stands on the barrow picked. -/
theorem barrowInstructionsIssue : Obligations.BarrowInstructionsIssue := by
  unfold Obligations.BarrowInstructionsIssue
  intro p mem l i s b o issues pick ok room
  obtain ⟨known, arm⟩ := exec_bar p mem
  rw [← issues.isOp] at ok
  obtain ⟨t, next, entered⟩ := entered_of_issue (arm l i s) issues known (barBody_ok pick ok) room
  exact ⟨t, next, entered, fun a => by rw [State.rd, State.rd, entered.frame.rest], (s.checkBar_task _ o ok).unit⟩

end Sys2Proof.Machine
end

section
/-! SUPPORT. An operation that completes (R160, R209): it is gone, and its launch's Tally has advanced. -/
namespace Sys2Proof.Machine

open Sys2Proof

/-- The launch with its Tally advanced. -/
def Launch.tallied (x : Launch) : Launch := { x with tally := (x.tally + 1) % 2 ^ 64 }

section
variable (s : State) (o : Op)

@[simp] theorem State.finishOp_ops : (s.finishOp o).ops = s.ops.filter fun y => y.id != o.id := rfl

/-- Of its context only the launch's Tally advances. -/
theorem State.ctx_finishOp (c : Nat) :
    (s.finishOp o).ctx c = if c = o.ctx then (s.ctx o.ctx).updLaunch o.seq Launch.tallied else s.ctx c :=
  State.ctx_updLaunch ..

/-- A part of a context that is not its launches stays as it is. -/
theorem State.finishOp_part {α : Type} {part : Ctx → α} (keeps : ∀ x ls, part { x with launches := ls } = part x) (c : Nat) :
    part ((s.finishOp o).ctx c) = part (s.ctx c) := by
  rw [State.ctx_finishOp]
  split
  next eq => rw [eq]; exact keeps _ _
  next => rfl

end

end Sys2Proof.Machine
end

section
/-! PROOFS. Semaphores (O21): SIG adds to its semaphore, and the first WAIT on one takes from it. -/
namespace Sys2Proof.Machine

open Sys2Proof

/-! ## SIG and WAIT -/

/-- A SIG that reaches its semaphore, with the value added. -/
def State.signalled (s : State) (o : Op) : State :=
  (s.semReached o).updCtx o.ctx fun x => { x with sems := put x.sems o.slotNo (nth (s.ctx o.ctx).sems o.slotNo + o.total) }

theorem State.semAdd_semReached {s : State} {o : Op} (fits : nth (s.ctx o.ctx).sems o.slotNo + o.total < 2 ^ 32) :
    (s.semReached o).semAdd o.ctx o.slotNo o.total = (true, s.signalled o) := by
  have sems : ((s.semReached o).ctx o.ctx).sems = (s.ctx o.ctx).sems := by rw [State.semReached, State.ctx_updCtx_self]
  rw [State.semAdd, sems]
  exact if_pos fits

theorem State.ctx_signalled (s : State) (o : Op) (c : Nat) :
    (s.signalled o).ctx c =
      if c = o.ctx then { s.ctx o.ctx with
        semReach := (s.ctx o.ctx).semReach.filter (fun r => r.2.1 == s.cyc) ++ [(o.slotNo, s.cyc, o.lane.cl, o.id)],
        sems := put (s.ctx o.ctx).sems o.slotNo (nth (s.ctx o.ctx).sems o.slotNo + o.total) } else s.ctx c := by
  rw [State.signalled, State.ctx_updCtx, State.semReached, State.ctx_updCtx_self]
  split
  · rfl
  next other => rw [State.ctx_updCtx, if_neg other]

/-- The first WAIT on a semaphore leaves the store, with its value unless keep is 1 (R182). -/
def State.waitTaken (s : State) (c sem : Nat) (w : SemWait) : State :=
  s.updCtx c fun x => { x with
    semWaits := x.semWaits.erase w, sems := if w.keep then x.sems else put x.sems sem (nth (s.ctx c).sems sem - w.value) }

section
variable {s : State} {id : Nat} {o : Op} (found : s.op? id = some o) (runs : o.st = .running) (unit : o.unit = .sync) (sig : iOp o.iw = 0)
include found runs unit sig

theorem exec_operationComplete_sig : exec (.operationComplete id) s = .next (s.completeSig o) := by
  show Host.Outcome.next (operationCompleteS id s) = _
  simp only [operationCompleteS, found, runs, unit, sig]
  rfl

theorem exec_sig_due (turn : s.semTurn o = true) (fits : nth (s.ctx o.ctx).sems o.slotNo + o.total < 2 ^ 32) :
    exec (.operationComplete id) s = .next ((s.signalled o).finishOp o) := by
  rw [exec_operationComplete_sig found runs unit sig, State.completeSig, turn, State.semAdd_semReached fits]
  rfl

theorem exec_sig_behind (turn : s.semTurn o = false) : exec (.operationComplete id) s = .next s := by
  rw [exec_operationComplete_sig found runs unit sig, State.completeSig, turn]
  rfl

end

section
variable {s : State} {c sem : Nat} {w : SemWait} {o : Op} (first : (s.ctx c).semWaits.find? (fun w => w.sem == sem) = some w)
  (found : s.op? w.op = some o)
include first found

theorem exec_waitRelease_met (met : w.value ≤ nth (s.ctx c).sems sem) :
    exec (.waitRelease c sem) s = .next ((s.waitTaken c sem w).finishOp o) := by
  show Host.Outcome.next (waitReleaseS c sem s) = _
  simp only [waitReleaseS, first, found, if_pos met]
  rfl

theorem exec_waitRelease_unmet (unmet : nth (s.ctx c).sems sem < w.value) : exec (.waitRelease c sem) s = .next s := by
  show Host.Outcome.next (waitReleaseS c sem s) = _
  simp only [waitReleaseS, first, found, if_neg (Nat.not_le.2 unmet)]

end

/-! ## The statement -/

/-- Settles O21: each command is one equation, and the contexts are read through what a completion leaves of them. -/
theorem semaphoresRun : Obligations.SemaphoresRun := by
  unfold Obligations.SemaphoresRun
  refine ⟨fun s id o x found runs unit sig turn fits launch => ?signal, fun s id o found runs unit sig => exec_sig_behind found runs unit sig,
    fun s c sem w o first found => ⟨fun met => ?wait, exec_waitRelease_unmet first found⟩⟩
  case signal =>
    refine ⟨_, exec_sig_due found runs unit sig turn fits, fun n => ?_, fun c other => ?_, ?_, rfl, rfl, rfl, rfl⟩
    · rw [State.finishOp_part (part := fun x => nth x.sems n) _ _ fun _ _ => rfl, State.ctx_signalled, if_pos rfl, nth_put]
      split
      next eq => rw [eq]
      next => rfl
    · rw [State.ctx_finishOp, if_neg other, State.ctx_signalled, if_neg other]
    · rw [State.ctx_finishOp, if_pos rfl, State.ctx_signalled, if_pos rfl]
      show (((s.ctx o.ctx).updLaunch o.seq Launch.tallied).launch? o.seq).map _ = _
      rw [Ctx.launch?_updLaunch launch (f := Launch.tallied) fun _ => rfl]
      rfl
  case wait =>
    have taken : (s.waitTaken c sem w).ctx c = _ := State.ctx_updCtx_self ..
    refine ⟨_, exec_waitRelease_met first found met, ?_, fun n other => ?_, ?_, rfl, rfl, rfl, rfl⟩
    · rw [State.finishOp_part (part := fun x => nth x.sems sem) _ _ fun _ _ => rfl, taken]
      dsimp only
      split
      · rfl
      · exact nth_put_self ..
    · rw [State.finishOp_part (part := fun x => nth x.sems n) _ _ fun _ _ => rfl, taken]
      dsimp only
      split
      · rfl
      · rw [nth_put, if_neg other]
    · rw [State.finishOp_part (part := fun x => x.semWaits) _ _ fun _ _ => rfl, taken]

end Sys2Proof.Machine
end

section
/-! PROOFS. A group barrier completes at its release tick (O22). -/
namespace Sys2Proof.Machine

open Sys2Proof

/-! ## Operations that end together -/

/-- Of `s` the operations of `ids` are gone; the registers, the barrier groups, memory and the lanes are as they were. -/
structure Ended (ids : List Nat) (s u : State) : Prop where
  ops : ∀ o, o ∈ u.ops ↔ o ∈ s.ops ∧ o.id ∉ ids
  regs : ∀ o, u.reg o = s.reg o
  barGroups : u.barGroups = s.barGroups
  cells : u.cells = s.cells
  lanes : u.lanes = s.lanes

theorem Ended.finishIds (s : State) (ids : List Nat) : Ended ids s (s.finishIds ids) := by
  induction ids generalizing s with
  | nil => exact ⟨fun o => by simp [State.finishIds], fun _ => rfl, rfl, rfl, rfl⟩
  | cons i r ih =>
    rw [State.finishIds]
    cases found : s.op? i with
    | none =>
      have absent : ∀ o ∈ s.ops, o.id ≠ i := by simpa [State.op?, List.find?_eq_none] using found
      obtain ⟨ops, regs, barGroups, cells, lanes⟩ := ih s
      refine ⟨fun o => (ops o).trans (and_congr_right fun mem => ?_), regs, barGroups, cells, lanes⟩
      rw [List.mem_cons, not_or]
      exact (and_iff_right (absent o mem)).symm
    | some o =>
      have num : o.id = i := by simpa using List.find?_some found
      obtain ⟨ops, regs, barGroups, cells, lanes⟩ := ih (s.finishOp o)
      refine ⟨fun p => (ops p).trans ?_, regs, barGroups, cells, lanes⟩
      rw [State.finishOp_ops, num, List.mem_filter, List.mem_cons, not_or]
      simp [and_assoc]

/-! ## The status of the group (R184, R284) -/

/-- The group once its epoch is closed: the status has the next epoch and no missing mark. -/
def State.epochDone (s : State) (g : Nat) : State :=
  let s : State := { s with barGroups := s.barGroups.filter fun y => y.group != g }
  ((s.setFld (Reg.fabBarStatus g) 63 49 (s.barEpoch g + 1)).setFld (Reg.fabBarStatus g) 48 48 0).setFld (Reg.fabBarStatus g) 47 36 0

/-- A field keeps its value where another one of its register is replaced. -/
theorem State.fld_setFld_disjoint (s : State) (o : Nat) {hi lo hi' lo' : Nat} (v : Nat) (hlo : lo ≤ hi) (hhi : hi < 64) (apart : hi' < lo ∨ hi < lo') :
    (s.setFld o hi lo v).fld o hi' lo' = s.fld o hi' lo' := by
  rw [State.fld, State.reg_setFld_self, bits_setBits_disjoint _ _ hlo hhi apart, State.fld]

section
variable (s : State) (g : Nat)

theorem State.epochDone_epoch : (s.epochDone g).fld (Reg.fabBarStatus g) 63 49 = (s.fld (Reg.fabBarStatus g) 63 49 + 1) % 2 ^ 15 := by
  rw [State.epochDone, State.fld_setFld_disjoint _ _ _ (by decide) (by decide) (by decide),
    State.fld_setFld_disjoint _ _ _ (by decide) (by decide) (by decide), State.fld_setFld_self _ _ (by decide) (by decide)]
  rfl

theorem State.epochDone_mark : (s.epochDone g).fld (Reg.fabBarStatus g) 48 48 = 0 := by
  rw [State.epochDone, State.fld_setFld_disjoint _ _ _ (by decide) (by decide) (by decide),
    State.fld_setFld_self _ _ (by decide) (by decide), Nat.zero_mod]

theorem State.epochDone_missing : (s.epochDone g).fld (Reg.fabBarStatus g) 47 36 = 0 := by
  rw [State.epochDone, State.fld_setFld_self _ _ (by decide) (by decide), Nat.zero_mod]

theorem State.epochDone_results : (s.epochDone g).fld (Reg.fabBarStatus g) 34 0 = s.fld (Reg.fabBarStatus g) 34 0 := by
  rw [State.epochDone, State.fld_setFld_disjoint _ _ _ (by decide) (by decide) (by decide),
    State.fld_setFld_disjoint _ _ _ (by decide) (by decide) (by decide), State.fld_setFld_disjoint _ _ _ (by decide) (by decide) (by decide)]
  rfl

theorem SameRegs.epochDone : SameRegs [Reg.fabBarStatus g] s (s.epochDone g) :=
  ((SameRegs.setFld { s with barGroups := s.barGroups.filter fun y => y.group != g } _ _ _ _).trans (SameRegs.setFld _ _ _ _ _)).trans
    (SameRegs.setFld _ _ _ _ _)

theorem State.epochDone_barGroups : (s.epochDone g).barGroups = s.barGroups.filter fun y => y.group != g := by
  rw [State.epochDone, State.setFld_barGroups, State.setFld_barGroups, State.setFld_barGroups]
theorem State.epochDone_ops : (s.epochDone g).ops = s.ops := by
  rw [State.epochDone, State.setFld_ops, State.setFld_ops, State.setFld_ops]
theorem State.epochDone_cells : (s.epochDone g).cells = s.cells := by
  rw [State.epochDone, State.setFld_cells, State.setFld_cells, State.setFld_cells]
theorem State.epochDone_lanes : (s.epochDone g).lanes = s.lanes := by
  rw [State.epochDone, State.setFld_lanes, State.setFld_lanes, State.setFld_lanes]

end

/-! ## The statement -/

theorem exec_barrierRelease {s : State} {g : Nat} {x : BarGroup} {rel : Nat} (group : s.barGroup? g = some x) (release : x.release = some rel)
    (due : rel ≤ s.bell.now) : exec (.barrierRelease g) s = .next ((s.finishIds x.ops).epochDone g) := by
  show Host.Outcome.next (barrierReleaseS g s) = _
  simp only [barrierReleaseS, group, release, if_neg (Nat.not_lt.2 due)]
  rfl

/-- Settles O22: the operations end together, which leaves the registers, and the group's status is one register. -/
theorem barrierReleases : Obligations.BarrierReleases := by
  unfold Obligations.BarrierReleases
  intro s g x rel group release due
  obtain ⟨ops, regs, barGroups, cells, lanes⟩ := Ended.finishIds s x.ops
  have flds (hi lo : Nat) : (s.finishIds x.ops).fld (Reg.fabBarStatus g) hi lo = s.fld (Reg.fabBarStatus g) hi lo := by
    rw [State.fld, State.fld, regs]
  refine ⟨_, exec_barrierRelease group release due, ?_, State.epochDone_mark .., State.epochDone_missing .., ?_, fun o other => ?_, ?_,
    fun o mem => ?_, fun o mem out => ?_, ?_, ?_⟩
  · rw [State.epochDone_epoch, flds]
  · rw [State.epochDone_results, flds]
  · rw [SameRegs.epochDone _ g o other, regs]
  · rw [State.epochDone_barGroups, barGroups]
  · rw [State.epochDone_ops] at mem
    exact ((ops o).1 mem).symm
  · rw [State.epochDone_ops]
    exact (ops o).2 ⟨mem, out⟩
  · rw [State.epochDone_cells, cells]
  · rw [State.epochDone_lanes, lanes]

end Sys2Proof.Machine
end

section
/-! PROOFS. Time waits end (O23): TWAIT and TWAIT.C at their tick, and an ALIGNED barrier whose guard tick passes without a CONFIRM. -/
namespace Sys2Proof.Machine

open Sys2Proof

/-! ## Releases (R29, R31) -/

theorem exec_timeWaitRelease_early {s : State} {id : Nat} {o : Op} (found : s.op? id = some o) (early : s.bell.now < o.tick) :
    exec (.timeWaitRelease id) s = .next s := by
  show Host.Outcome.next (timeWaitReleaseS id s) = _
  simp only [timeWaitReleaseS, found, decide_eq_false (Nat.not_le.2 early), Bool.and_false]
  rfl

theorem exec_timeWaitRelease_due {s : State} {id : Nat} {o : Op} (found : s.op? id = some o) (cls : iCls o.iw = 0xC) (op : iOp o.iw ≤ 1)
    (runs : o.st = .running) (due : o.tick ≤ s.bell.now) : exec (.timeWaitRelease id) s = .next ((s.opResult o o.slotNo).finishOp o) := by
  show Host.Outcome.next (timeWaitReleaseS id s) = _
  simp only [timeWaitReleaseS, found, cls, decide_eq_true op, runs, decide_eq_true due]
  rfl

/-- The result of an operation is one register of its lane; the operations, memory and the registers of the block stay. -/
theorem State.opResult_eq (s : State) (o : Op) (v : Nat) : ∃ lanes, s.opResult o v = { s with lanes := lanes } := by
  unfold State.opResult
  split
  · exact ⟨_, rfl⟩
  · exact ⟨s.lanes, rfl⟩

theorem Lane.setS_pd (x : Lane) (r : Nat) (v : Word) : (x.setS r v).p = x.p ∧ (x.setS r v).d = x.d := by
  unfold Lane.setS
  split <;> exact ⟨rfl, rfl⟩

theorem State.lane_opResult (s : State) (o : Op) (v : Nat) :
    ((s.opResult o v).lane o.lane).p = (s.lane o.lane).p ∧ ((s.opResult o v).lane o.lane).d = (s.lane o.lane).d ∧
      ∀ r, ((s.opResult o v).lane o.lane).sv r = if o.dst = some r ∧ r ≠ 0 then BitVec.ofNat 64 v else (s.lane o.lane).sv r := by
  unfold State.opResult
  cases dst : o.dst with
  | none => exact ⟨rfl, rfl, fun r => by simp⟩
  | some q =>
    simp only [State.lane_updLane_self]
    obtain ⟨p, d⟩ := (s.lane o.lane).setS_pd q (word v)
    refine ⟨p, d, fun r => ?_⟩
    rw [Lane.sv_setS]
    refine if_congr ⟨?_, ?_⟩ rfl rfl
    · rintro ⟨rfl, pos⟩
      exact ⟨rfl, pos⟩
    · rintro ⟨eq, pos⟩
      cases eq
      exact ⟨rfl, pos⟩

/-! ## Gaps that begin anew (R68, R288) -/

/-- Of `s` the tiles may differ, and what the filler of a gap counts in: registers, contexts, the Ledger and the free values. -/
def GapsOnly (s u : State) : Prop :=
  ∃ tiles regs ctxs power free, u = { s with tiles := tiles, regs := regs, ctxs := ctxs, power := power, free := free }

section
variable {s u : State}

theorem GapsOnly.refl (s : State) : GapsOnly s s := ⟨s.tiles, s.regs, s.ctxs, s.power, s.free, rfl⟩

theorem GapsOnly.trans {v : State} (h : GapsOnly s u) (k : GapsOnly u v) : GapsOnly s v := by
  obtain ⟨_, _, _, _, _, rfl⟩ := h
  obtain ⟨_, _, _, _, _, rfl⟩ := k
  exact ⟨_, _, _, _, _, rfl⟩

theorem GapsOnly.updTile (s : State) (t : Nat) (f : Tile → Tile) : GapsOnly s (s.updTile t f) := ⟨_, _, _, _, _, rfl⟩

theorem GapsOnly.fillers (s : State) (t n : Nat) : GapsOnly s (s.fillers t n) := by
  unfold State.fillers
  dsimp only
  split
  · split <;> exact ⟨_, _, _, _, _, rfl⟩
  · exact ⟨_, _, _, _, _, rfl⟩

theorem GapsOnly.settleGap (s : State) (t : Nat) : GapsOnly s (s.settleGap t) := by
  unfold State.settleGap
  split
  next =>
    dsimp only
    split
    · exact .refl s
    · exact GapsOnly.trans ⟨_, _, _, _, _, rfl⟩ (.fillers ..)
  next => exact .refl s

theorem GapsOnly.endGap (s : State) (t : Nat) : GapsOnly s (s.endGap t) := by
  unfold State.endGap
  split
  next => exact .refl s
  next g gap =>
    dsimp only
    have closed := (GapsOnly.settleGap s t).trans (.updTile _ t fun x => { x with gap := none })
    split_ifs
    · exact closed
    · exact closed.trans (.updTile ..)

theorem GapsOnly.cyc (h : GapsOnly s u) : u.cyc = s.cyc := by
  obtain ⟨_, _, _, _, _, rfl⟩ := h
  rfl

theorem GapsOnly.up (h : GapsOnly s u) : u.up = s.up := by
  obtain ⟨_, _, _, _, _, rfl⟩ := h
  rfl

end

/-- The gap of a tile where one has begun anew: from this cycle on, with nothing sent. -/
def Anew (s : State) (known : Option Nat) (gap : Option Gap) : Prop :=
  ∃ g, gap = some g ∧ g.start = s.cyc ∧ g.up = s.up ∧ g.known = known ∧ g.sent = 0

/-- One tile's gap begins anew, where it has one. -/
def State.regapTile (s : State) (known : Option Nat) (t : Nat) : State :=
  if (s.tile t).gap.isSome then (s.endGap t).updTile t fun x => { x with gap := some { (s.endGap t).newGap t with known := known } } else s

theorem GapsOnly.regapTile (s : State) (known : Option Nat) (t : Nat) : GapsOnly s (s.regapTile known t) := by
  unfold State.regapTile
  split
  · exact (GapsOnly.endGap s t).trans (.updTile ..)
  · exact .refl s

theorem State.regapTile_self {s : State} {t : Nat} (gap : (s.tile t).gap.isSome = true) (known : Option Nat) :
    Anew s known ((s.regapTile known t).tile t).gap := by
  have ended := GapsOnly.endGap s t
  rw [State.regapTile, if_pos gap, State.tile_updTile_self]
  exact ⟨_, rfl, ended.cyc, ended.up, rfl, rfl⟩

theorem State.regapTile_same {s : State} {t k : Nat} (other : ¬(k = t ∧ (s.tile k).gap.isSome = true)) (known : Option Nat) :
    ((s.regapTile known t).tile k).gap = (s.tile k).gap := by
  unfold State.regapTile
  split
  next gap =>
    have ne : k ≠ t := fun eq => other ⟨eq, eq ▸ gap⟩
    obtain ⟨r, ended⟩ := (OnTile.refl t s).endGap
    rw [State.tile_updTile, if_neg ne, ended.others k ne]
  next => rfl

theorem State.regapTile_isSome (s : State) (known : Option Nat) (t k : Nat) :
    ((s.regapTile known t).tile k).gap.isSome = (s.tile k).gap.isSome := by
  by_cases own : k = t ∧ (s.tile k).gap.isSome = true
  · obtain ⟨rfl, gap⟩ := own
    obtain ⟨g, eq, -⟩ := State.regapTile_self gap known
    rw [eq, gap]
    rfl
  · rw [State.regapTile_same own]

/-- The gaps of the tiles listed begin anew; the others are as they were. -/
theorem State.regapTiles_gap (s : State) (known : Option Nat) (ts : List Nat) (k : Nat) :
    (k ∈ ts ∧ (s.tile k).gap.isSome = true → Anew s known ((s.regapTiles known ts).tile k).gap) ∧
      (¬(k ∈ ts ∧ (s.tile k).gap.isSome = true) → ((s.regapTiles known ts).tile k).gap = (s.tile k).gap) := by
  induction ts generalizing s with
  | nil => exact ⟨fun h => absurd h.1 List.not_mem_nil, fun _ => rfl⟩
  | cons t r ih =>
    obtain ⟨later, same⟩ := ih (s.regapTile known t)
    rw [State.regapTile_isSome] at later same
    have first := GapsOnly.regapTile s known t
    refine ⟨fun ⟨mem, gap⟩ => ?_, fun untouched => ?_⟩
    · by_cases again : k ∈ r
      · have anew := later ⟨again, gap⟩
        rw [Anew, first.cyc, first.up] at anew
        exact anew
      · obtain rfl := (List.mem_cons.1 mem).resolve_right again
        have anew := State.regapTile_self gap known
        rw [← same fun h => again h.1] at anew
        exact anew
    · refine (same fun h => untouched ⟨List.mem_cons_of_mem _ h.1, h.2⟩).trans (State.regapTile_same (fun h => untouched ⟨?_, h.2⟩) known)
      rw [h.1]
      exact List.mem_cons_self

theorem GapsOnly.regapTiles (s : State) (known : Option Nat) (ts : List Nat) : GapsOnly s (s.regapTiles known ts) := by
  induction ts generalizing s with
  | nil => exact .refl s
  | cons t r ih => exact (GapsOnly.regapTile s known t).trans (ih _)

/-! ## The statement -/

theorem exec_alignedGuardTick {s : State} {id : Nat} {o : Op} (found : s.op? id = some o) (cls : iCls o.iw = 0xB) (op : iOp o.iw = 3)
    (group : bit o.iw.w 38 = false) (runs : o.st = .running) (waits : 0 < o.tick) (due : o.tick ≤ s.bell.now)
    (unconfirmed : ∀ x, s.barGroup? (bits o.iw.w 46 39) = some x → x.release = none) :
    exec (.alignedGuardTick id) s = .next ((s.updOp id fun o => { o with tick := 0 }).regap o.lane none) := by
  have unreleased : ((s.barGroup? (sGroup o.iw)).bind fun x => x.release).isNone = true := by
    rw [Option.isNone_iff_eq_none, Option.bind_eq_none_iff]
    exact unconfirmed
  show Host.Outcome.next (alignedGuardTickS id s) = _
  simp only [alignedGuardTickS, found, cls, op, sLocal, group, runs, decide_eq_true waits, decide_eq_true due, unreleased]
  rfl

/-- Another operation is found as before. -/
theorem State.opq_updOp_ne {s : State} {id k : Nat} (other : k ≠ id) {f : Op → Op} (keeps : ∀ p, (f p).id = p.id) :
    (s.updOp id f).op? k = s.op? k := by
  rw [State.opq_map (s := s) (u := s.updOp id f) rfl (fun p => by split <;> simp [keeps]) k]
  cases found : s.op? k with
  | none => rfl
  | some o =>
    have num : o.id = k := by simpa using List.find?_some found
    simp [num, other]

/-- Settles O23: a release is the result and the end of its operation; past the guard tick the operation waits no more, and gaps are read off tile by
tile. -/
theorem timedWaitsEnd : Obligations.TimedWaitsEnd := by
  unfold Obligations.TimedWaitsEnd
  refine ⟨fun s id o found cls op runs => ⟨exec_timeWaitRelease_early found, fun due => ?release⟩,
    fun s id o found cls op group runs waits due unconfirmed => ?guard⟩
  case release =>
    obtain ⟨lanes, result⟩ := s.opResult_eq o o.slotNo
    obtain ⟨p, d, sv⟩ := s.lane_opResult o o.slotNo
    refine ⟨_, exec_timeWaitRelease_due found cls op runs due, ?_, sv, fun r => ?_, fun r => ?_, ?_, ?_⟩
    · rw [State.finishOp_ops, result]
    · exact congrArg (fun ps => if r = 0 then true else nth ps r) p
    · exact congrArg (fun ds => nth ds r) d
    · show (s.opResult o o.slotNo).cells = _
      rw [result]
    · show (s.opResult o o.slotNo).regs = _
      rw [result]
  case guard =>
    let u := s.updOp id fun o => { o with tick := 0 }
    let ts := (u.leaseTiles (u.lane o.lane).ctx).filter fun t => t / 4 == o.lane.cl
    obtain ⟨_, _, _, _, _, eq⟩ := GapsOnly.regapTiles u none ts
    have ops : (u.regapTiles none ts).ops = u.ops := by rw [eq]
    refine ⟨_, exec_alignedGuardTick found cls op group runs waits due unconfirmed, ?_, fun k other => ?_, ?_, ?_, fun k => ?_⟩
    · exact (State.opq_of_ops ops id).trans (State.opq_updOp_self found fun _ => rfl)
    · exact (State.opq_of_ops ops k).trans (State.opq_updOp_ne other fun _ => rfl)
    · show (u.regapTiles none ts).lanes = _
      rw [eq]; rfl
    · show (u.regapTiles none ts).cells = _
      rw [eq]; rfl
    · obtain ⟨anew, same⟩ := u.regapTiles_gap none ts k
      have listed : k ∈ ts ↔ k / 4 = o.lane.cl ∧ k ∈ s.leaseTiles (s.lane o.lane).ctx := by
        simp only [ts, List.mem_filter, beq_iff_eq]
        exact and_comm
      split
      next h => exact anew ⟨listed.2 ⟨h.1, h.2.1⟩, h.2.2⟩
      next h => exact same fun own => h ⟨(listed.1 own.1).1, (listed.1 own.1).2, own.2⟩

end Sys2Proof.Machine
end

section
/-! SUPPORT. Registers of a context's kernel and user pages by their offsets (R443, R450), and writes of those whose fields are all write-only. -/
namespace Sys2Proof.Machine

open Sys2Proof

/-! ## Rows of a page -/

/-- The register that a row names at distance `k` into page `c` of the pages that begin at `P`. -/
def pageRow (t : Straps) (P k c : Nat) (r : RegRow) : Option RegInst :=
  (matchDims t (P + k - r.base) r.dims.tail).map fun ix => ⟨r, c :: ix⟩

theorem findRow_append (t : Straps) (off : Nat) (a b : List RegRow) : findRow t off (a ++ b) = (findRow t off a).or (findRow t off b) := by
  induction a with
  | nil => rfl
  | cons r a ih =>
    rw [List.cons_append, findRow, findRow]
    split
    · rfl
    · exact ih

/-- One set of registers for each context: a row that begins at or before the place `k` in its page is judged within the page. -/
theorem findRow_pages {t : Straps} {c P k : Nat} (hc : c < t.contexts) (hk : k < 0x1000) {rows : List RegRow}
    (pages : ∀ r ∈ rows, ∃ ds, r.dims = (0x1000, fun t => t.contexts) :: ds) (near : ∀ r ∈ rows, P ≤ r.base ∧ r.base ≤ P + k) :
    findRow t (P + k + 0x1000 * c) rows = rows.findSome? (pageRow t P k c) := by
  induction rows with
  | nil => rfl
  | cons r rows ih =>
    obtain ⟨ds, dims⟩ := pages r List.mem_cons_self
    obtain ⟨low, high⟩ := near r List.mem_cons_self
    have page : (P + k + 0x1000 * c - r.base) / 0x1000 = c := by omega
    have place : (P + k + 0x1000 * c - r.base) % 0x1000 = P + k - r.base := by omega
    have row : matchDims t (P + k + 0x1000 * c - r.base) r.dims = (matchDims t (P + k - r.base) r.dims.tail).map (c :: ·) := by
      rw [dims, matchDims, page, place, if_pos hc, List.tail_cons]
    rw [findRow, if_pos (by omega), row, List.findSome?_cons, pageRow]
    cases matchDims t (P + k - r.base) r.dims.tail with
    | some ix => rfl
    | none => exact ih (fun r hr => pages r (List.mem_cons_of_mem _ hr)) fun r hr => near r (List.mem_cons_of_mem _ hr)

theorem kernelRows_pages : ∀ r ∈ kernelRows, ∃ ds, r.dims = (0x1000, fun t => t.contexts) :: ds := by simp [kernelRows]

theorem userRows_pages : ∀ r ∈ userRows, ∃ ds, r.dims = (0x1000, fun t => t.contexts) :: ds := by simp [userRows]

/-- A register of a page is named by the first `n` of its rows where one of them names it. -/
theorem findRow_pages_of_prefix {t : Straps} {c P k : Nat} (hc : c < t.contexts) (hk : k < 0x1000) {rows : List RegRow} (n : Nat) {i : RegInst}
    (pages : ∀ r ∈ rows, ∃ ds, r.dims = (0x1000, fun t => t.contexts) :: ds) (near : ∀ r ∈ rows.take n, P ≤ r.base ∧ r.base ≤ P + k)
    (found : (rows.take n).findSome? (pageRow t P k c) = some i) : findRow t (P + k + 0x1000 * c) rows = some i := by
  have split := findRow_append t (P + k + 0x1000 * c) (rows.take n) (rows.drop n)
  rw [List.take_append_drop, findRow_pages hc hk (fun r hr => pages r (List.mem_of_mem_take hr)) near, found] at split
  exact split

theorem decodeReg_userPage (t : Straps) {c k : Nat} (hc : c < t.contexts) (hk : k < 0x1000) :
    decodeReg t (0x200000 + k + 0x1000 * c) = findRow t (0x200000 + k + 0x1000 * c) userRows := by
  have h64 := contexts_le t
  have present : absentQuiet t (0x200000 + k + 0x1000 * c) = false := by
    have a : ¬ 0x200000 + k + 0x1000 * c < 0x40000 := by omega
    have b : ¬ 0x200000 + k + 0x1000 * c < 0x100000 + 0x1000 * t.contexts := by omega
    have f0 : 0x200000 + k + 0x1000 * c ≠ Reg.xltFmt := by simp only [Reg.xltFmt]; omega
    have f1 : 0x200000 + k + 0x1000 * c ≠ Reg.xltFmtX0 := by simp only [Reg.xltFmtX0]; omega
    have f2 : 0x200000 + k + 0x1000 * c ≠ Reg.xltFmtX1 := by simp only [Reg.xltFmtX1]; omega
    simp [absentQuiet, a, b, f0, f1, f2]
  have rows : rowsAt (0x200000 + k + 0x1000 * c) = userRows := by
    simp only [rowsAt]
    repeat rw [if_neg (by omega)]
    rw [if_pos (by omega)]
  rw [decodeReg, present, rows]; rfl

/-! ## The registers of submission (R189, R190, R199, R204, R207) -/

def ctxDoorbellFields : List Field := [⟨33, 32, .wo, .host⟩, ⟨31, 0, .wo, .host⟩]
def ctxAbortFields : List Field := [⟨33, 0, .wo, .host⟩]
def ctxCqHeadFields : List Field := [⟨31, 0, .rw, .host⟩]
def ctxRingCfgFields : List Field := [⟨47, 40, .rw, .host⟩, ⟨33, 32, .rw, .host⟩, ⟨12, 8, .rw, .host⟩, ⟨0, 0, .rw, .host⟩]
def ctxCqCfgFields : List Field := [⟨12, 8, .rw, .host⟩, ⟨0, 0, .rw, .host⟩]
def ctxUndelStatusFields : List Field := [⟨3, 0, .w1c, .host⟩]

section
variable (t : Straps) {c : Nat} (hc : c < t.contexts)
include hc

theorem names_ctxDoorbell : ∃ i, Names t (Reg.ctxDoorbell c) .ctxDoorbell [c] ctxDoorbellFields i :=
  ⟨_, (decodeReg_userPage t hc (k := 0) (by decide)).trans (findRow_pages_of_prefix hc (by decide) 1 userRows_pages (by decide) rfl), rfl, rfl, rfl⟩

theorem names_ctxAbort : ∃ i, Names t (Reg.ctxAbort c) .ctxAbort [c] ctxAbortFields i :=
  ⟨_, (decodeReg_userPage t hc (k := 8) (by decide)).trans (findRow_pages_of_prefix hc (by decide) 2 userRows_pages (by decide) rfl), rfl, rfl, rfl⟩

theorem names_ctxCqHead : ∃ i, Names t (Reg.ctxCqHead c) .ctxCqHead [c] ctxCqHeadFields i :=
  ⟨_, (decodeReg_userPage t hc (k := 0x40) (by decide)).trans (findRow_pages_of_prefix hc (by decide) 6 userRows_pages (by decide) rfl), rfl, rfl,
    rfl⟩

theorem names_ctxRingCfg {r : Nat} (hr : r < 4) : ∃ i, Names t (Reg.ctxRingCfg c r) .ctxRingCfg [c, r] ctxRingCfgFields i := by
  have place : Reg.ctxRingCfg c r = 0x100000 + (0x108 + 0x10 * r) + 0x1000 * c := by simp only [Reg.ctxRingCfg]; omega
  rw [place]
  interval_cases r <;>
    exact ⟨_, (decodeReg_kernelPage t hc (by decide) (by decide) (by decide)).trans
      (findRow_pages_of_prefix hc (by decide) 8 kernelRows_pages (by decide) rfl), rfl, rfl, rfl⟩

theorem names_ctxCqCfg : ∃ i, Names t (Reg.ctxCqCfg c) .ctxCqCfg [c] ctxCqCfgFields i :=
  ⟨_, (decodeReg_kernelPage t hc (k := 0x148) (by decide) (by decide) (by decide)).trans
    (findRow_pages_of_prefix hc (by decide) 10 kernelRows_pages (by decide) rfl), rfl, rfl, rfl⟩

theorem names_ctxKabort : ∃ i, Names t (Reg.ctxKabort c) .ctxKabort [c] ctxAbortFields i :=
  ⟨_, (decodeReg_kernelPage t hc (k := 0x158) (by decide) (by decide) (by decide)).trans
    (findRow_pages_of_prefix hc (by decide) 12 kernelRows_pages (by decide) rfl), rfl, rfl, rfl⟩

theorem names_ctxUndelStatus : ∃ i, Names t (Reg.ctxUndelStatus c) .ctxUndelStatus [c] ctxUndelStatusFields i :=
  ⟨_, (decodeReg_kernelPage t hc (k := 0x280) (by decide) (by decide) (by decide)).trans
    (findRow_pages_of_prefix hc (by decide) 17 kernelRows_pages (by decide) rfl), rfl, rfl, rfl⟩

end

theorem writeOnly_ctxDoorbell : WriteOnly ctxDoorbellFields 0x3FFFFFFFF := ⟨by decide, rfl, rfl, by decide⟩
theorem writeOnly_ctxAbort : WriteOnly ctxAbortFields 0x3FFFFFFFF := ⟨by decide, rfl, rfl, by decide⟩
theorem takes_ctxCqHead : Takes ctxCqHeadFields allBits 0xFFFFFFFF 0 0 := ⟨rfl, rfl, rfl, rfl, rfl, rfl, by decide⟩
theorem takes_ctxRingCfg : Takes ctxRingCfgFields allBits 0xFF0300001F01 0 0 := ⟨rfl, rfl, rfl, rfl, rfl, rfl, by decide⟩
theorem takes_ctxCqCfg : Takes ctxCqCfgFields allBits 0x1F01 0 0 := ⟨rfl, rfl, rfl, rfl, rfl, rfl, by decide⟩
theorem takes_ctxUndelStatus : Takes ctxUndelStatusFields allBits 0 0xF 0 := ⟨rfl, rfl, rfl, rfl, rfl, rfl, by decide⟩

/-! ## Writes through a page whose slot takes them (R451) -/

/-- A register of the kernel or user page of a context. -/
structure OnPage (c off : Nat) : Prop where
  page : ∃ kernel, pageCtx off = some (c, kernel)
  inSpace : off < 0x1000000
  aligned : off % 8 = 0

theorem OnPage.kernel {t : Straps} {c k : Nat} (hc : c < t.contexts) (hk : k < 0x1000) (h8 : k % 8 = 0) : OnPage c (0x100000 + k + 0x1000 * c) := by
  have h64 := contexts_le t
  refine ⟨⟨true, ?_⟩, by omega, by omega⟩
  rw [pageCtx, if_pos (by omega), show (0x100000 + k + 0x1000 * c - 0x100000) / 0x1000 = c by omega]

theorem OnPage.user {t : Straps} {c k : Nat} (hc : c < t.contexts) (hk : k < 0x1000) (h8 : k % 8 = 0) : OnPage c (0x200000 + k + 0x1000 * c) := by
  have h64 := contexts_le t
  refine ⟨⟨false, ?_⟩, by omega, by omega⟩
  rw [pageCtx, if_neg (by omega), if_pos (by omega), show (0x200000 + k + 0x1000 * c - 0x200000) / 0x1000 = c by omega]

theorem State.slotStops_onPage {s : State} {c off : Nat} (hp : s.PageOpen c) (on : OnPage c off) (i : RegInst) (m : Nat) : s.slotStops off i m = none := by
  obtain ⟨kernel, page⟩ := on.page
  simp [State.slotStops, page, State.slotGone, hp.taken, hp.standing, hp.noReset]

section
variable {s : State} (ha : s.Accepts) {c off : Nat} (hp : s.PageOpen c) (on : OnPage c off) {n : RegName} {ix : List Nat} {fs : List Field} {i : RegInst}
  (hi : Names s.straps off n ix fs i)
include ha hp on hi

/-- A whole write of a page's register with fields of the host comes to the register's action. -/
theorem State.pageWrite_acts (hn : n ∉ [.ctxXltCfg, .insCmdBuf, .bellStep, .errLogConsumed, .fabJobCfg, .fabJobMap]) (hw : ∀ x ∈ fs, x.wr = .host)
    {rw w1c w1s : Nat} (ht : Takes fs allBits rw w1c w1s) (mark : Bool) (v : Word) :
    s.busWrite (s.gangM * 2 ^ 25 + off) mark (.full v) =
      s.act ⟨mark, false⟩ off i (s.reg off) (word (taken (s.reg off).toNat rw w1c w1s v.toNat)) (word (maskAnd v.toNat (maskOr w1c w1s))) :=
  State.busWrite_acts ha mark hi (by simp_all) on.inSpace on.aligned (WForm.full_ne_bad v) (State.slotStops_onPage hp on i _)
    (fun x hx _ => s.mayWrite_host _ (by rw [hi.name]; simp_all) (hw x hx)) ht

/-- A whole write of a page's register whose fields are all write-only, and whose halves join, comes to the register's action. -/
theorem State.pageWrite_writeOnly (hn : n ∉ [.ctxXltCfg, .insCmdBuf, .errLogConsumed, .fabJobCfg, .fabJobMap]) {m : Nat} (wo : WriteOnly fs m)
    (joins : splitJoins i.row = true) (mark : Bool) (v : Word) :
    s.busWrite (s.gangM * 2 ^ 25 + off) mark (.full v) =
      (s.setLatch off none).act ⟨mark, false⟩ off i (s.reg off) (s.reg off) (word (maskAnd v.toNat m)) := by
  have wo' : WriteOnly i.row.fields m := hi.fields ▸ wo
  have host : ∀ f ∈ i.row.fields, f.acc ≠ .ro → s.mayWrite ⟨mark, false⟩ i f = true := fun f hf _ =>
    s.mayWrite_host _ (by rw [hi.name]; simp_all) (wo'.all f hf).2
  have reached : (maskAnd m (wMask (.full v)) == 0) = false := by
    rw [show wMask (.full v) = allBits from rfl, wo.reaches.1]
    exact beq_eq_false_iff_ne.mpr wo.reaches.2
  rw [State.busWrite_register ha hi.decodes on.inSpace on.aligned mark (WForm.full_ne_bad v), State.writeReg, State.slotStops_onPage hp on]
  simp only [s.rights_all _ off i _ _ host, wo'.mask, reached, joins, Bool.false_eq_true, if_false, if_true]
  exact State.perform_writeOnly _ _ wo' (by rw [hi.name]; simp_all) _

end

end Sys2Proof.Machine
end

section
/-! PROOFS. The registers of submission (O37): each write comes to its register's action, which is read field by field. -/
namespace Sys2Proof.Machine

open Sys2Proof

/-! ## Values that a write carries -/

/-- A field within the bits that a write reaches has the value written. -/
theorem bits_maskAnd_of_covers {m hi lo : Nat} (h : maskAnd m (maskNat hi lo) = maskNat hi lo) (v : Word) :
    bits (word (maskAnd v.toNat m)) hi lo = bits v hi lo :=
  bits_congr fun i h1 h2 => by
    rw [getLsbD_word, testBit_maskAnd, testBit_of_covers h h1 h2, BitVec.testBit_toNat, Bool.and_true]
    cases inside : v.getLsbD i with
    | false => rw [Bool.and_false]
    | true => rw [decide_eq_true (BitVec.lt_of_getLsbD inside)]; rfl

/-- The context's rings: one changes. -/
theorem State.ring_updRing (s : State) (c r d q : Nat) (f : Ring → Ring) :
    (s.updRing c r f).ring d q = if d = c ∧ q = r then f (s.ring c r) else s.ring d q := by
  rw [State.ring, State.updRing, State.ctx_updCtx]
  by_cases own : d = c
  · subst own
    rw [if_pos rfl, Ctx.updRing, nth_upd]
    simp only [true_and]
    rfl
  · rw [if_neg own, if_neg fun h => own h.1]
    rfl

@[simp] theorem State.ring_updRing_self (s : State) (c r : Nat) (f : Ring → Ring) : (s.updRing c r f).ring c r = f (s.ring c r) := by
  rw [State.ring_updRing, if_pos ⟨rfl, rfl⟩]

theorem State.ctx_updRing_ne (s : State) {c d : Nat} (other : d ≠ c) (r : Nat) (f : Ring → Ring) : (s.updRing c r f).ctx d = s.ctx d := by
  rw [State.updRing, State.ctx_updCtx, if_neg other]

/-! ## Each register's write -/

section
variable {s : State} (ha : s.Accepts) {c : Nat} (hp : s.PageOpen c) (mark : Bool) (v : Word)
include ha hp

theorem State.write_ctxDoorbell : s.busWrite (s.gangM * 2 ^ 25 + Reg.ctxDoorbell c) mark (.full v) =
    (s.setLatch (Reg.ctxDoorbell c) none).doorbell c (word (maskAnd v.toNat 0x3FFFFFFFF)) := by
  obtain ⟨i, hi⟩ := names_ctxDoorbell s.straps hp.inBuild
  have on : OnPage c (Reg.ctxDoorbell c) := OnPage.user hp.inBuild (k := 0) (by decide) (by decide)
  rw [State.pageWrite_writeOnly ha hp on hi (by decide) writeOnly_ctxDoorbell
    (by rw [splitJoins, hi.name, hi.fields]; rfl)]
  simp only [State.act, hi.name, hi.index, nth_cons_zero]

theorem State.write_ctxAbort : s.busWrite (s.gangM * 2 ^ 25 + Reg.ctxAbort c) mark (.full v) =
    (s.setLatch (Reg.ctxAbort c) none).wrAbort c false (word (maskAnd v.toNat 0x3FFFFFFFF)) := by
  obtain ⟨i, hi⟩ := names_ctxAbort s.straps hp.inBuild
  have on : OnPage c (Reg.ctxAbort c) := OnPage.user hp.inBuild (k := 8) (by decide) (by decide)
  rw [State.pageWrite_writeOnly ha hp on hi (by decide) writeOnly_ctxAbort
    (by rw [splitJoins, hi.name, hi.fields]; rfl)]
  simp only [State.act, hi.name, hi.index, nth_cons_zero]

theorem State.write_ctxKabort : s.busWrite (s.gangM * 2 ^ 25 + Reg.ctxKabort c) mark (.full v) =
    (s.setLatch (Reg.ctxKabort c) none).wrAbort c true (word (maskAnd v.toNat 0x3FFFFFFFF)) := by
  obtain ⟨i, hi⟩ := names_ctxKabort s.straps hp.inBuild
  have on : OnPage c (Reg.ctxKabort c) := OnPage.kernel hp.inBuild (k := 0x158) (by decide) (by decide)
  rw [State.pageWrite_writeOnly ha hp on hi (by decide) writeOnly_ctxAbort
    (by rw [splitJoins, hi.name, hi.fields]; rfl)]
  simp only [State.act, hi.name, hi.index, nth_cons_zero]

theorem State.write_ctxCqHead : s.busWrite (s.gangM * 2 ^ 25 + Reg.ctxCqHead c) mark (.full v) = s.wrCqHead c (bits v 31 0) := by
  obtain ⟨i, hi⟩ := names_ctxCqHead s.straps hp.inBuild
  have on : OnPage c (Reg.ctxCqHead c) := OnPage.user hp.inBuild (k := 0x40) (by decide) (by decide)
  rw [State.pageWrite_acts ha hp on hi (by decide) (by decide) takes_ctxCqHead]
  simp only [State.act, hi.name, hi.index, nth_cons_zero]
  rw [bits_taken_word rfl]

theorem State.write_ctxRingCfg {r : Nat} (hr : r < 4) : s.busWrite (s.gangM * 2 ^ 25 + Reg.ctxRingCfg c r) mark (.full v) =
    s.wrRingCfg c r (word (taken (s.reg (Reg.ctxRingCfg c r)).toNat 0xFF0300001F01 0 0 v.toNat)) := by
  obtain ⟨i, hi⟩ := names_ctxRingCfg s.straps hp.inBuild hr
  have place : Reg.ctxRingCfg c r = 0x100000 + (0x108 + 0x10 * r) + 0x1000 * c := by simp only [Reg.ctxRingCfg]; omega
  rw [State.pageWrite_acts ha hp (place ▸ OnPage.kernel hp.inBuild (by omega) (by omega)) hi (by decide) (by decide) takes_ctxRingCfg]
  simp only [State.act, hi.name, hi.index, nth_cons_zero, nth_cons_succ]

theorem State.write_ctxCqCfg : s.busWrite (s.gangM * 2 ^ 25 + Reg.ctxCqCfg c) mark (.full v) =
    s.wrCqCfg c (word (taken (s.reg (Reg.ctxCqCfg c)).toNat 0x1F01 0 0 v.toNat)) := by
  obtain ⟨i, hi⟩ := names_ctxCqCfg s.straps hp.inBuild
  have on : OnPage c (Reg.ctxCqCfg c) := OnPage.kernel hp.inBuild (k := 0x148) (by decide) (by decide)
  rw [State.pageWrite_acts ha hp on hi (by decide) (by decide) takes_ctxCqCfg]
  simp only [State.act, hi.name, hi.index, nth_cons_zero]

theorem State.write_ctxUndelStatus : s.busWrite (s.gangM * 2 ^ 25 + Reg.ctxUndelStatus c) mark (.full v) = s.ackUndel c (maskAnd v.toNat 0xF) := by
  obtain ⟨i, hi⟩ := names_ctxUndelStatus s.straps hp.inBuild
  have whole : (word (maskAnd v.toNat 0xF)).toNat = maskAnd v.toNat 0xF := by
    rw [word, BitVec.toNat_ofNat]
    exact Nat.mod_eq_of_lt (lt_of_le_of_lt Nat.and_le_right (by decide))
  have on : OnPage c (Reg.ctxUndelStatus c) := OnPage.kernel hp.inBuild (k := 0x280) (by decide) (by decide)
  rw [State.pageWrite_acts ha hp on hi (by decide) (by decide) takes_ctxUndelStatus]
  simp only [State.act, hi.name, hi.index, nth_cons_zero, maskOr_zero, whole]

end

/-! ## Doorbells (R190) -/

theorem State.doorbell_taken {s : State} {c : Nat} {v : Word} (on : s.ringOn c (bits v 33 32) = true)
    (fits : since32 (bits v 31 0) (s.ring c (bits v 33 32)).head ≤ s.ringSize c (bits v 33 32)) :
    s.doorbell c v = s.updRing c (bits v 33 32) fun g => { g with tail := bits v 31 0, pending := true, scanning := true } := by
  simp [State.doorbell, on, fits]

theorem State.doorbell_refused {s : State} {c : Nat} {v : Word} (refused : s.ringOn c (bits v 33 32) = false ∨
      s.ringSize c (bits v 33 32) < since32 (bits v 31 0) (s.ring c (bits v 33 32)).head) :
    s.doorbell c v = (s.incSat (Reg.ctxUstatus c) 63 48 1).criEvent 4 := by
  refine if_neg fun taken => ?_
  rw [Bool.and_eq_true, decide_eq_true_eq] at taken
  rcases refused with off | far
  · simp [off] at taken
  · exact absurd taken.2 (Nat.not_le.2 far)

/-! ## Abort requests (R204) -/

/-- The status register of an abort request as a request leaves it: PENDING, with the launch it names. -/
theorem abortWord_fields {q : Nat} (h : q < 2 ^ (33 + 1 - 0)) : bits (word (fields [(30, q), (0, 1)])) 2 0 = 1 ∧ bits (word (fields [(30, q), (0, 1)])) 63 30 = q := by
  have sum : fields [(30, q), (0, 1)] = q * 2 ^ 30 + 1 := by simp [fields]
  have whole : (word (fields [(30, q), (0, 1)])).toNat = q * 2 ^ 30 + 1 := by
    rw [word, BitVec.toNat_ofNat, sum]
    exact Nat.mod_eq_of_lt (by omega)
  rw [bits, bits, whole]
  omega

theorem State.wrAbort_new {s : State} {c : Nat} {kernel : Bool} {v : Word} (idle : s.fld (abortStatus c kernel) 2 0 ≠ 1) :
    s.wrAbort c kernel v = (s.setReg (abortStatus c kernel) (word (fields [(30, bits v 33 0), (0, 1)]))).updCtx c fun x =>
      if kernel then { x with abortK := some (bits v 33 0) } else { x with abortT := some (bits v 33 0) } := by
  simp [State.wrAbort, idle]

theorem State.wrAbort_again {s : State} {c : Nat} {kernel : Bool} {v : Word} (pending : s.fld (abortStatus c kernel) 2 0 = 1) :
    s.wrAbort c kernel v = s.setFld (abortStatus c kernel) 8 8 1 := by
  simp [State.wrAbort, pending]

theorem SameRegs.updCtx (l : List Nat) (s : State) (c : Nat) (f : Ctx → Ctx) : SameRegs l s (s.updCtx c f) := fun _ _ => State.reg_updCtx ..

/-- The parts of the machine that a latch dropped, a register written and a context changed can differ in. -/
theorem State.latch_setReg_updCtx_eq (s : State) (p o c : Nat) (w : Word) (f : Ctx → Ctx) :
    (((s.setLatch p none).setReg o w).updCtx c f) = { s with
      ctxs := (((s.setLatch p none).setReg o w).updCtx c f).ctxs, regs := (((s.setLatch p none).setReg o w).updCtx c f).regs,
      latches := (((s.setLatch p none).setReg o w).updCtx c f).latches } := rfl

theorem State.latch_setReg_setReg_eq (s : State) (p o o' : Nat) (w w' : Word) :
    (((s.setLatch p none).setReg o w).setReg o' w') = { s with
      regs := (((s.setLatch p none).setReg o w).setReg o' w').regs, latches := (((s.setLatch p none).setReg o w).setReg o' w').latches } := rfl

/-- What a first request leaves of the status register. -/
theorem State.wrAbort_new_status {s : State} {c : Nat} {kernel : Bool} {v : Word} (idle : s.fld (abortStatus c kernel) 2 0 ≠ 1) :
    (s.wrAbort c kernel v).fld (abortStatus c kernel) 2 0 = 1 ∧ (s.wrAbort c kernel v).fld (abortStatus c kernel) 63 30 = bits v 33 0 ∧
      SameRegs [abortStatus c kernel] s (s.wrAbort c kernel v) := by
  obtain ⟨pending, names⟩ := abortWord_fields (bits_lt v 33 0)
  rw [State.wrAbort_new idle, State.fld_updCtx, State.fld_updCtx, State.fld_setReg_self, State.fld_setReg_self]
  exact ⟨pending, names, (SameRegs.setReg s _ _).trans (.updCtx _ _ _ _)⟩

/-- What a further request leaves of the status register: a mark. -/
theorem State.wrAbort_again_status {s : State} {c : Nat} {kernel : Bool} {v : Word} (pending : s.fld (abortStatus c kernel) 2 0 = 1) :
    (s.wrAbort c kernel v).flag (abortStatus c kernel) 8 = true ∧
      (s.wrAbort c kernel v).fld (abortStatus c kernel) 63 30 = s.fld (abortStatus c kernel) 63 30 ∧
      SameRegs [abortStatus c kernel] s (s.wrAbort c kernel v) := by
  rw [State.wrAbort_again pending, State.fld_setFld_disjoint _ _ _ (by decide) (by decide) (by decide)]
  refine ⟨?_, rfl, SameRegs.setFld s _ _ _ _⟩
  rw [State.flag, State.reg_setFld_self, bit, bits_setBits_same _ _ _ _ (by decide) (by decide)]
  rfl

/-! ## Rings and the completion ring enabled (R213) -/

theorem cfg_size {m : Nat} (covers : maskAnd m (maskNat 12 8) = maskNat 12 8) (old : Nat) (v : Word) :
    bits (word (taken old m 0 0 v.toNat)) 12 8 = bits v 12 8 := bits_taken_word covers old v

theorem cfg_enable {m : Nat} (covers : maskAnd m (maskNat 0 0) = maskNat 0 0) (old : Nat) (v : Word) :
    bit (word (taken old m 0 0 v.toNat)) 0 = bit v 0 := bit_of_bits (bits_taken_word covers old v)

section
variable {s : State} {c r : Nat} {new : Word} (off : s.ringOn c r = false) (enable : bit new 0 = true)
include off enable

theorem State.wrRingCfg_enable (low : 4 ≤ bits new 12 8) (high : bits new 12 8 ≤ 16) :
    s.wrRingCfg c r new = (s.setReg (Reg.ctxRingCfg c r) new).updRing c r fun _ => Ring.reset := by
  have old : bit (s.reg (Reg.ctxRingCfg c r)) 0 = false := off
  simp [State.wrRingCfg, old, enable, Nat.not_lt.2 low, Nat.not_lt.2 high]

theorem State.wrRingCfg_refused (outside : bits new 12 8 < 4 ∨ 16 < bits new 12 8) :
    s.wrRingCfg c r new = (s.setReg (Reg.ctxRingCfg c r) (setBits new 0 0 0)).regError (Reg.ctxRingCfg c r) := by
  have old : bit (s.reg (Reg.ctxRingCfg c r)) 0 = false := off
  simp [State.wrRingCfg, old, enable, outside]

end

/-- The completion ring enabled, with its counts at zero. -/
def State.cqEnabled (s : State) (c : Nat) (new : Word) : State :=
  ((s.setReg (Reg.ctxCqCfg c) new).setReg (Reg.ctxCqHead c) 0).updCtx c fun x => { x with written := 0, phase := true }

theorem State.wrCqCfg_enable {s : State} {c : Nat} {new : Word} (off : s.flag (Reg.ctxCqCfg c) 0 = false) (enable : bit new 0 = true)
    (low : 4 ≤ bits new 12 8) (high : bits new 12 8 ≤ 16) : s.wrCqCfg c new = s.cqEnabled c new := by
  have old : bit (s.reg (Reg.ctxCqCfg c)) 0 = false := off
  simp [State.wrCqCfg, State.cqEnabled, old, enable, Nat.not_lt.2 low, Nat.not_lt.2 high]

theorem ctxCqCfg_ne_ctxCqHead {s : State} {c : Nat} (hp : s.PageOpen c) : Reg.ctxCqCfg c ≠ Reg.ctxCqHead c := by
  have h64 := contexts_le s.straps
  have hc := hp.inBuild
  simp only [Reg.ctxCqCfg, Reg.ctxCqHead]
  omega

/-! ## Undelivered slots acknowledged (R207) -/

/-- The status register keeps the slots that the mask leaves out. -/
theorem State.flag_ackUndel (s : State) (c m : Nat) {j : Nat} (hj : j < 4) :
    (s.ackUndel c m).flag (Reg.ctxUndelStatus c) j = (s.flag (Reg.ctxUndelStatus c) j && !m.testBit j) := by
  have held : (s.fld (Reg.ctxUndelStatus c) 3 0).testBit j = (s.reg (Reg.ctxUndelStatus c)).getLsbD j := by
    rw [State.fld, bits, Nat.testBit_mod_two_pow]
    simp [hj, BitVec.testBit_toNat]
  rw [State.ackUndel, State.flag_updCtx, State.flag, State.reg_setFld_self, bit_eq_getLsbD, getLsbD_setBits _ _ _ _ _ (by decide) (by decide),
    if_pos (by omega), Nat.sub_zero, testBit_maskDiff, held, State.flag, bit_eq_getLsbD]

/-- The slots acknowledged: those held that the mask names. -/
theorem maskBits_held (s : State) (c : Nat) (v : Word) :
    maskBits 4 (maskAnd (s.fld (Reg.ctxUndelStatus c) 3 0) (maskAnd v.toNat 0xF)) =
      (List.range 4).filter fun j => s.flag (Reg.ctxUndelStatus c) j && bit v j := by
  refine List.filter_congr fun j hj => ?_
  have small : j < 4 := List.mem_range.1 hj
  have mask : (0xF : Nat).testBit j = true := by interval_cases j <;> rfl
  have held : (s.fld (Reg.ctxUndelStatus c) 3 0).testBit j = s.flag (Reg.ctxUndelStatus c) j := by
    rw [State.fld, bits, Nat.testBit_mod_two_pow, State.flag, bit_eq_getLsbD]
    simp [small, BitVec.testBit_toNat]
  have has : maskHas (maskAnd (s.fld (Reg.ctxUndelStatus c) 3 0) (maskAnd v.toNat 0xF)) j =
      (maskAnd (s.fld (Reg.ctxUndelStatus c) 3 0) (maskAnd v.toNat 0xF)).testBit j := by
    rw [Nat.testBit_eq_decide_div_mod_eq]; rfl
  rw [has, testBit_maskAnd, testBit_maskAnd, held, mask, BitVec.testBit_toNat, Bool.and_true, bit_eq_getLsbD]

/-! ## The statement -/

/-- Settles O37: each command is the write of its register, which an open page takes; what the register's action leaves is read off it. -/
theorem submissionRegisters : Obligations.SubmissionRegisters := by
  unfold Obligations.SubmissionRegisters
  refine ⟨fun s c mark v ha hp => ⟨fun on fits => ?taken, fun refused => ?refused⟩,
    fun s c mark v ha hp => ⟨fun idle => ?abort, fun pending => ?abortAgain, fun idle => ?kabort, fun pending => ?kabortAgain⟩,
    fun s c mark v ha hp => ⟨fun reached => ?head, fun beyond => ?headBeyond⟩,
    fun s c r mark v ha hp hr off enable => ⟨fun low high => ?ring, fun outside => ?ringOutside⟩,
    fun s c mark v ha hp off enable low high => ?cq, fun s c mark v ha hp => ?ack⟩
  case taken =>
    have ring : bits (word (maskAnd v.toNat 0x3FFFFFFFF)) 33 32 = bits v 33 32 := bits_maskAnd_of_covers rfl v
    have tail : bits (word (maskAnd v.toNat 0x3FFFFFFFF)) 31 0 = bits v 31 0 := bits_maskAnd_of_covers rfl v
    have write := (State.write_ctxDoorbell ha hp mark v).trans (State.doorbell_taken (by rw [ring]; exact on) (by rw [ring, tail]; exact fits))
    rw [ring, tail] at write
    refine ⟨_, exec_wrOut rfl write, rfl, State.ring_updRing_self .., fun q other => ?_, fun d other => ?_⟩
    · rw [State.ring_updRing, if_neg fun h => other h.2]
      rfl
    · rw [State.ctx_updRing_ne _ other]
      rfl
  case refused =>
    have ring : bits (word (maskAnd v.toNat 0x3FFFFFFFF)) 33 32 = bits v 33 32 := bits_maskAnd_of_covers rfl v
    have tail : bits (word (maskAnd v.toNat 0x3FFFFFFFF)) 31 0 = bits v 31 0 := bits_maskAnd_of_covers rfl v
    have write := (State.write_ctxDoorbell ha hp mark v).trans (State.doorbell_refused (by rw [ring, tail]; exact refused))
    have apart : Reg.ctxUstatus c ≠ Reg.criEvent := by simp only [Reg.ctxUstatus, Reg.criEvent]; omega
    refine ⟨_, exec_wrOut rfl write, State.latch_setReg_setReg_eq .., ?_, ?_, fun o other => ?_⟩
    · rw [State.fld, State.criEvent, State.reg_setBitsIn, if_neg apart, State.reg_incSat, if_pos rfl, bits_setBits_same _ _ _ _ (by decide) (by decide)]
      exact Nat.mod_eq_of_lt (by simp only [sat]; omega)
    · rw [State.criEvent, State.flag_setBitsIn _ _ _ _ (by decide), Bool.or_eq_true]
      exact .inr rfl
    · simp only [List.mem_cons, List.not_mem_nil, or_false, not_or] at other
      rw [State.criEvent, State.reg_setBitsIn, if_neg other.2, State.reg_incSat, if_neg other.1]
      rfl
  case abort =>
    have named : bits (word (maskAnd v.toNat 0x3FFFFFFFF)) 33 0 = bits v 33 0 := bits_maskAnd_of_covers rfl v
    have write := State.write_ctxAbort ha hp mark v
    obtain ⟨status, names, regs⟩ := State.wrAbort_new_status (s := s.setLatch (Reg.ctxAbort c) none) (kernel := false)
      (v := word (maskAnd v.toNat 0x3FFFFFFFF)) idle
    refine ⟨_, exec_wrOut rfl write, ?_, ?_, status, names.trans named, regs, ?_⟩
    · rw [State.wrAbort_new (s := s.setLatch (Reg.ctxAbort c) none) (kernel := false) idle]
      exact State.latch_setReg_updCtx_eq ..
    · rw [State.wrAbort_new (s := s.setLatch (Reg.ctxAbort c) none) (kernel := false) idle, State.ctx_updCtx_self, named]; rfl
    · rw [State.wrAbort_new (s := s.setLatch (Reg.ctxAbort c) none) (kernel := false) idle, State.ctx_updCtx_self, State.ctx_setReg]; rfl
  case kabort =>
    have named : bits (word (maskAnd v.toNat 0x3FFFFFFFF)) 33 0 = bits v 33 0 := bits_maskAnd_of_covers rfl v
    have write := State.write_ctxKabort ha hp mark v
    obtain ⟨status, names, regs⟩ := State.wrAbort_new_status (s := s.setLatch (Reg.ctxKabort c) none) (kernel := true)
      (v := word (maskAnd v.toNat 0x3FFFFFFFF)) idle
    refine ⟨_, exec_wrOut rfl write, ?_, ?_, status, names.trans named, regs, ?_⟩
    · rw [State.wrAbort_new (s := s.setLatch (Reg.ctxKabort c) none) (kernel := true) idle]
      exact State.latch_setReg_updCtx_eq ..
    · rw [State.wrAbort_new (s := s.setLatch (Reg.ctxKabort c) none) (kernel := true) idle, State.ctx_updCtx_self, named]; rfl
    · rw [State.wrAbort_new (s := s.setLatch (Reg.ctxKabort c) none) (kernel := true) idle, State.ctx_updCtx_self, State.ctx_setReg]; rfl
  case abortAgain =>
    obtain ⟨mark8, names, regs⟩ := State.wrAbort_again_status (s := s.setLatch (Reg.ctxAbort c) none) (kernel := false)
      (v := word (maskAnd v.toNat 0x3FFFFFFFF)) pending
    refine ⟨_, exec_wrOut rfl (State.write_ctxAbort ha hp mark v), ?_, mark8, names, regs⟩
    rw [State.wrAbort_again (s := s.setLatch (Reg.ctxAbort c) none) (kernel := false) pending]; rfl
  case kabortAgain =>
    obtain ⟨mark8, names, regs⟩ := State.wrAbort_again_status (s := s.setLatch (Reg.ctxKabort c) none) (kernel := true)
      (v := word (maskAnd v.toNat 0x3FFFFFFFF)) pending
    refine ⟨_, exec_wrOut rfl (State.write_ctxKabort ha hp mark v), ?_, mark8, names, regs⟩
    rw [State.wrAbort_again (s := s.setLatch (Reg.ctxKabort c) none) (kernel := true) pending]; rfl
  case head =>
    refine ⟨_, exec_wrOut rfl ((State.write_ctxCqHead ha hp mark v).trans (if_pos reached)), rfl, ?_, SameRegs.setFld s _ _ _ _⟩
    rw [State.fld_setFld_self _ _ (by decide) (by decide)]
    exact Nat.mod_eq_of_lt (bits_lt v 31 0)
  case headBeyond => exact exec_wrOut rfl ((State.write_ctxCqHead ha hp mark v).trans (if_neg (Nat.not_le.2 beyond)))
  case ring =>
    have size := cfg_size (m := 0xFF0300001F01) rfl (s.reg (Reg.ctxRingCfg c r)).toNat v
    have on := (cfg_enable (m := 0xFF0300001F01) rfl (s.reg (Reg.ctxRingCfg c r)).toNat v).trans enable
    have write := (State.write_ctxRingCfg ha hp mark v hr).trans (State.wrRingCfg_enable off on (size ▸ low) (size ▸ high))
    refine ⟨_, exec_wrOut rfl write, rfl, ?_, ?_, State.ring_updRing_self .., fun q other => ?_, SameRegs.setReg s _ _⟩
    · exact (State.flag_setReg_self s _ _ 0).trans on
    · exact (State.fld_setReg_self s _ _ 12 8).trans size
    · rw [State.ring_updRing, if_neg fun h => other h.2]
      rfl
  case ringOutside =>
    have size := cfg_size (m := 0xFF0300001F01) rfl (s.reg (Reg.ctxRingCfg c r)).toNat v
    have on := (cfg_enable (m := 0xFF0300001F01) rfl (s.reg (Reg.ctxRingCfg c r)).toNat v).trans enable
    have write := (State.write_ctxRingCfg ha hp mark v hr).trans (State.wrRingCfg_refused off on (size ▸ outside))
    have error := (RegsAndOut.setReg s (Reg.ctxRingCfg c r) (setBits (word (taken (s.reg (Reg.ctxRingCfg c r)).toNat 0xFF0300001F01 0 0 v.toNat)) 0 0 0)).trans
      (.regError _ (Reg.ctxRingCfg c r))
    refine ⟨_, exec_wrOut rfl write, error.eq, ?_⟩
    rw [State.ringOn, State.flag, State.reg_regError_outside _ _ _ (.inr (by simp only [Reg.ctxRingCfg]; omega)), State.reg_setReg_self, bit,
      bits_setBits_same _ _ _ _ (by decide) (by decide)]
    rfl
  case cq =>
    have size := cfg_size (m := 0x1F01) rfl (s.reg (Reg.ctxCqCfg c)).toNat v
    have on := (cfg_enable (m := 0x1F01) rfl (s.reg (Reg.ctxCqCfg c)).toNat v).trans enable
    have write := (State.write_ctxCqCfg ha hp mark v).trans (State.wrCqCfg_enable off on (size ▸ low) (size ▸ high))
    have own : (s.cqEnabled c (word (taken (s.reg (Reg.ctxCqCfg c)).toNat 0x1F01 0 0 v.toNat))).ctx c = _ := State.ctx_updCtx_self ..
    have cfg : (s.cqEnabled c (word (taken (s.reg (Reg.ctxCqCfg c)).toNat 0x1F01 0 0 v.toNat))).reg (Reg.ctxCqCfg c) = _ :=
      (State.reg_updCtx ..).trans ((State.reg_setReg ..).trans ((if_neg (ctxCqCfg_ne_ctxCqHead hp)).trans (State.reg_setReg_self ..)))
    have head : (s.cqEnabled c (word (taken (s.reg (Reg.ctxCqCfg c)).toNat 0x1F01 0 0 v.toNat))).reg (Reg.ctxCqHead c) = 0 :=
      (State.reg_updCtx ..).trans (State.reg_setReg_self ..)
    refine ⟨_, exec_wrOut rfl write, rfl, ?_, ?_, ?_, ?_, ?_, fun o other => ?_⟩
    · rw [State.flag, cfg, on]
    · rw [State.fld, cfg, size]
    · rw [State.fld, head]; rfl
    · rw [own]
    · rw [own]
    · simp only [List.mem_cons, List.not_mem_nil, or_false, not_or] at other
      rw [State.cqEnabled, State.reg_updCtx, State.reg_setReg, if_neg other.2, State.reg_setReg, if_neg other.1]
  case ack =>
    refine ⟨_, exec_wrOut rfl (State.write_ctxUndelStatus ha hp mark v), rfl, fun j hj => ?_, ?_, SameRegs.setFld s _ _ _ _, fun d other => ?_⟩
    · have mask : (0xF : Nat).testBit j = true := by interval_cases j <;> rfl
      rw [State.flag_ackUndel _ _ _ hj, testBit_maskAnd, mask, Bool.and_true, BitVec.testBit_toNat, bit_eq_getLsbD]
    · rw [State.ackUndel, State.ctx_updCtx_self, maskBits_held]
      rfl
    · rw [State.ackUndel, State.ctx_updCtx, if_neg other]
      rfl

end Sys2Proof.Machine
end

section
/-! PROOFS. Launches decided, reported and aborted (O44). -/
namespace Sys2Proof.Machine

open Sys2Proof

/-! ## A launch decided -/

section
variable (s : State) (c seq : Nat) (d : Decision)

theorem Ctx.launch?_updRing (x : Ctx) (r : Nat) (f : Ring → Ring) (q : Nat) : (x.updRing r f).launch? q = x.launch? q := rfl

theorem State.ctx_decide_self : (s.decide_ c seq d).ctx c =
    ((s.ctx c).updLaunch seq fun l => { l with decision := some d }).updRing (seq / 2 ^ 32) fun g => { g with decided := (g.decided + 1) % 2 ^ 32 } := by
  rw [State.decide_, State.countDecided, State.updRing, State.ctx_updCtx_self, State.ctx_updLaunch, if_pos rfl]

theorem State.ctx_decide_ne {e : Nat} (other : e ≠ c) : (s.decide_ c seq d).ctx e = s.ctx e := by
  rw [State.decide_, State.countDecided, State.ctx_updRing_ne _ other, State.ctx_updLaunch, if_neg other]

theorem State.decided_decide_ : ((s.decide_ c seq d).ring c (seq / 2 ^ 32)).decided = ((s.ring c (seq / 2 ^ 32)).decided + 1) % 2 ^ 32 := by
  rw [State.ring, State.ctx_decide_self, Ctx.updRing, nth_upd_self]
  rfl

variable {s c seq} in
theorem State.launch?_decide_ {l : Launch} (found : (s.ctx c).launch? seq = some l) :
    ((s.decide_ c seq d).ctx c).launch? seq = some { l with decision := some d } := by
  rw [State.ctx_decide_self, Ctx.launch?_updRing]
  exact Ctx.launch?_updLaunch found fun _ => rfl

end

/-! ## A launch told to stop, with no operation of it under way (R155) -/

/-- A lane that runs the launch is told to stop. -/
def Lane.told (c seq : Nat) (x : Lane) : Lane := if x.st != .idle && x.ctx == c && x.seq == seq then { x with stopped := true } else x

theorem Lane.told_stopped {c seq : Nat} {x : Lane} (runs : (x.told c seq).st ≠ .idle) (ctx : (x.told c seq).ctx = c) (num : (x.told c seq).seq = seq) :
    (x.told c seq).stopped = true := by
  unfold Lane.told at runs ctx num ⊢
  split
  · rfl
  next not =>
    rw [if_neg not] at runs ctx num
    simp [runs, ctx, num] at not

theorem State.stopLaunch_noOps {s : State} (none : s.ops = []) (c seq : Nat) : ∃ out, s.stopLaunch c seq =
    ({ s with out := out, lanes := s.lanes.map (Lane.told c seq) } : State).updLaunch c seq fun l => { l with stage := .stopping } := by
  have stops : ∀ u : State, u.ops = [] → u.stopOps (u.ops.filter fun o => o.of c seq) = u := fun u h => by rw [h]; rfl
  unfold State.stopLaunch
  split
  next l found =>
    dsimp only
    split
    · exact ⟨s.out, stops _ none⟩
    · obtain ⟨out, tells⟩ := s.tell_eq c (.stop seq) l.gangLeft
      rw [tells]
      exact ⟨out, stops _ none⟩
  next => exact ⟨s.out, stops _ none⟩

section
variable {s : State} (none : s.ops = []) (c seq : Nat)
include none

/-- The lanes that run the launch have been told. -/
theorem State.stopLaunch_told : ∀ x ∈ (s.stopLaunch c seq).lanes, x.st ≠ .idle → x.ctx = c → x.seq = seq → x.stopped = true := by
  obtain ⟨out, eq⟩ := State.stopLaunch_noOps none c seq
  rw [eq]
  intro x mem
  obtain ⟨y, _, rfl⟩ := List.mem_map.1 mem
  exact Lane.told_stopped

theorem State.stopLaunch_launch? {l : Launch} (found : (s.ctx c).launch? seq = some l) :
    ((s.stopLaunch c seq).ctx c).launch? seq = some { l with stage := .stopping } := by
  obtain ⟨out, eq⟩ := State.stopLaunch_noOps none c seq
  rw [eq, State.ctx_updLaunch, if_pos rfl]
  exact Ctx.launch?_updLaunch (c := s.ctx c) found fun _ => rfl

theorem State.stopLaunch_cells : (s.stopLaunch c seq).cells = s.cells := by
  obtain ⟨out, eq⟩ := State.stopLaunch_noOps none c seq
  rw [eq]
  rfl

theorem State.stopLaunch_straps : (s.stopLaunch c seq).straps = s.straps := by
  obtain ⟨out, eq⟩ := State.stopLaunch_noOps none c seq
  rw [eq]
  rfl

theorem State.stopLaunch_regs : (s.stopLaunch c seq).regs = s.regs := by
  obtain ⟨out, eq⟩ := State.stopLaunch_noOps none c seq
  rw [eq]
  rfl

end

/-! ## Reports of the clusters and of the members of a gang (R203, R291) -/

section
variable {s : State} {c seq : Nat} {l : Launch} (found : (s.ctx c).launch? seq = some l)
include found

theorem endReportS_decides (open_ : l.decision = none) (lead : l.fromLead = false) (sent : l.dispatched = true) (live : l.live = [])
    (left : l.gangLeft = []) (excs : l.excs = []) : endReportS c seq none s = s.decide_ c seq (s.early 0 0) := by
  simp [endReportS, found, open_, lead, sent, live, left, excs]

theorem endReportS_waits (lead : l.fromLead = false) (waits : l.live ≠ [] ∨ l.gangLeft ≠ []) : endReportS c seq none s = s := by
  have more : (l.decision.isSome || !l.dispatched || !l.live.isEmpty || !l.gangLeft.isEmpty || !l.excs.isEmpty) = true := by
    rcases waits with h | h <;> simp [h]
  simp only [endReportS, found, lead, more, if_true, Bool.false_eq_true, if_false]

theorem endReportS_member (m : Nat) (f : GangFig) :
    endReportS c seq (some (m, f)) s = if l.gangLeft.contains m then s.updLaunch c seq fun l => l.takeFig m f else s := by
  simp only [endReportS, found]

/-- The decision that an exception of a cluster makes. -/
def ExcRep.decision (e : ExcRep) : Decision := ⟨e.exc.code, e.exc.pc, e.exc.arg, e.exc.operand, e.exc.tile, e.cluster⟩

theorem exceptionReportS_decides (open_ : l.decision = none) {e : ExcRep} (first : firstExc l.excs = some e) (lead : l.fromLead = false) :
    exceptionReportS c seq s = s.decide_ c seq e.decision := by
  simp only [exceptionReportS, found, open_, first, lead]
  rfl

theorem exceptionReportS_reports (open_ : l.decision = none) {e : ExcRep} (first : firstExc l.excs = some e) (lead : l.fromLead = true) :
    exceptionReportS c seq s = (s.updLaunch c seq fun l => { l with decision := some e.decision }).emit
      (.gangReport c seq ⟨e.time, e.cluster % 16, e.opNo, e.exc.code, e.exc.pc, e.exc.arg, e.exc.operand, e.exc.tile⟩) := by
  simp only [exceptionReportS, found, open_, first, lead]
  rfl

/-- An exception of a member's cluster as the lead keeps it. -/
def memberReport (m : Nat) (e : GangExc) : ExcRep := ⟨e.time, 16 * m + e.cluster % 16, e.opNo, ⟨e.code, e.pc, e.arg, e.operand, e.tile⟩⟩

theorem State.memberExc_stops {m : Nat} (open_ : l.decision = none) (left : m ∈ l.gangLeft) (e : GangExc) :
    s.memberExc c seq m e = (s.updLaunch c seq fun l => { l with excs := l.excs ++ [memberReport m e] }).stopLaunch c seq := by
  simp [State.memberExc, found, open_, left, memberReport]

theorem State.launch?_updLaunch {f : Launch → Launch} (keeps : ∀ y, (f y).seq = y.seq) : ((s.updLaunch c seq f).ctx c).launch? seq = some (f l) := by
  rw [State.ctx_updLaunch, if_pos rfl]
  exact Ctx.launch?_updLaunch found keeps

end

theorem State.ctx_updLaunch_ne (s : State) {c e : Nat} (other : e ≠ c) (seq : Nat) (f : Launch → Launch) : (s.updLaunch c seq f).ctx e = s.ctx e := by
  rw [State.ctx_updLaunch, if_neg other]

/-- A launch is decided by its last share or by its first exception. -/
theorem launch_decided {s : State} {c seq : Nat} {l : Launch} (found : (s.ctx c).launch? seq = some l) (open_ : l.decision = none)
    (lead : l.fromLead = false) :
    (l.dispatched = true → l.live = [] → l.gangLeft = [] → l.excs = [] →
      ∃ t, exec (.endReport c ⟨seq, none⟩) s = .next t ∧ t = { s with ctxs := t.ctxs } ∧
        (t.ctx c).launch? seq = some { l with decision := some ⟨0, s.bell.now / 4000, 0, 0, 0, 0⟩ } ∧
        (t.ring c (seq / 2 ^ 32)).decided = ((s.ring c (seq / 2 ^ 32)).decided + 1) % 2 ^ 32 ∧ ∀ d, d ≠ c → t.ctx d = s.ctx d) ∧
    (l.live ≠ [] ∨ l.gangLeft ≠ [] → exec (.endReport c ⟨seq, none⟩) s = .next s) ∧
    (∀ e, firstExc l.excs = some e →
      ∃ t, exec (.exceptionReport c ⟨seq, none⟩) s = .next t ∧ t = { s with ctxs := t.ctxs } ∧
        (t.ctx c).launch? seq = some { l with decision := some ⟨e.exc.code, e.exc.pc, e.exc.arg, e.exc.operand, e.exc.tile, e.cluster⟩ } ∧
        (t.ring c (seq / 2 ^ 32)).decided = ((s.ring c (seq / 2 ^ 32)).decided + 1) % 2 ^ 32 ∧ ∀ d, d ≠ c → t.ctx d = s.ctx d) := by
  refine ⟨fun sent live left excs => ?share, fun waits => ?waits, fun e first => ?exception⟩
  case share =>
    exact ⟨_, congrArg Host.Outcome.next (endReportS_decides found open_ lead sent live left excs), rfl, State.launch?_decide_ _ found,
      State.decided_decide_ .., fun d other => State.ctx_decide_ne _ _ _ _ other⟩
  case waits => exact congrArg Host.Outcome.next (endReportS_waits found lead waits)
  case exception =>
    exact ⟨_, congrArg Host.Outcome.next (exceptionReportS_decides found open_ first lead), rfl, State.launch?_decide_ _ found,
      State.decided_decide_ .., fun d other => State.ctx_decide_ne _ _ _ _ other⟩

/-- The lead takes the figures and the exceptions of a member that has still to end. -/
theorem member_heard {s : State} {c seq m : Nat} {l : Launch} (found : (s.ctx c).launch? seq = some l) :
    (∀ f, m ∈ l.gangLeft → ∃ t, exec (.endReport c ⟨seq, some (m, f)⟩) s = .next t ∧ t = { s with ctxs := t.ctxs } ∧
      (t.ctx c).launch? seq = some (l.takeFig m f) ∧ ∀ d, d ≠ c → t.ctx d = s.ctx d) ∧
    (∀ f, m ∉ l.gangLeft → exec (.endReport c ⟨seq, some (m, f)⟩) s = .next s) ∧
    (∀ e : GangExc, m ∈ l.gangLeft → l.decision = none → s.ops = [] →
      ∃ t x, exec (.exceptionReport c ⟨seq, some (m, some e)⟩) s = .next t ∧ (t.ctx c).launch? seq = some x ∧ x.stage = .stopping ∧ x.decision = none ∧
        x.excs = l.excs ++ [⟨e.time, 16 * m + e.cluster % 16, e.opNo, ⟨e.code, e.pc, e.arg, e.operand, e.tile⟩⟩] ∧
        (∀ y ∈ t.lanes, y.st ≠ .idle → y.ctx = c → y.seq = seq → y.stopped = true) ∧ t.cells = s.cells ∧ t.regs = s.regs) := by
  refine ⟨fun f left => ?figures, fun f gone => ?gone, fun e left open_ idle => ?exception⟩
  case figures =>
    refine ⟨_, congrArg Host.Outcome.next ((endReportS_member found m f).trans (if_pos (by simpa using left))), rfl, ?_, fun d other => ?_⟩
    · exact State.launch?_updLaunch found fun _ => rfl
    · exact State.ctx_updLaunch_ne s other seq _
  case gone => exact congrArg Host.Outcome.next ((endReportS_member found m f).trans (if_neg (by simpa using gone)))
  case exception =>
    have noOps : (s.updLaunch c seq fun l => { l with excs := l.excs ++ [memberReport m e] }).ops = [] := idle
    exact ⟨_, _, congrArg Host.Outcome.next (State.memberExc_stops found open_ left e),
      State.stopLaunch_launch? noOps c seq (State.launch?_updLaunch found fun _ => rfl), rfl, open_, rfl, State.stopLaunch_told noOps c seq,
      State.stopLaunch_cells noOps c seq, State.stopLaunch_regs noOps c seq⟩

end Sys2Proof.Machine
end

section
/-! PROOFS. Abort requests taken by the sequencer (O44). -/
namespace Sys2Proof.Machine

open Sys2Proof

/-! ## What a reported abort request leaves -/

/-- A context whose abort request has been answered. -/
def Ctx.abortTaken (kernel : Bool) (x : Ctx) : Ctx := if kernel then { x with abortK := none } else { x with abortT := none }

section
variable (kernel : Bool) (x : Ctx)

@[simp] theorem Ctx.rings_abortTaken : (x.abortTaken kernel).rings = x.rings := by unfold Ctx.abortTaken; split <;> rfl
@[simp] theorem Ctx.launches_abortTaken : (x.abortTaken kernel).launches = x.launches := by unfold Ctx.abortTaken; split <;> rfl
@[simp] theorem Ctx.marks_abortTaken : (x.abortTaken kernel).marks = x.marks := by unfold Ctx.abortTaken; split <;> rfl

@[simp] theorem Ctx.launch?_abortTaken (seq : Nat) : (x.abortTaken kernel).launch? seq = x.launch? seq := by
  rw [Ctx.launch?, Ctx.launches_abortTaken, ← Ctx.launch?]

theorem Ctx.abortTaken_none : (if kernel = true then (x.abortTaken kernel).abortK else (x.abortTaken kernel).abortT) = none := by
  cases kernel <;> rfl

end

section
variable (s : State) (c : Nat) (kernel : Bool) (code stage : Nat)

theorem State.ctx_abortResult : (s.abortResult c kernel code stage).ctx c = (s.ctx c).abortTaken kernel := State.ctx_updCtx_self ..

theorem State.ring_abortResult (r : Nat) : (s.abortResult c kernel code stage).ring c r = s.ring c r := by
  rw [State.ring, State.ctx_abortResult, Ctx.rings_abortTaken, ← State.ring]

theorem State.abortResult_code : (s.abortResult c kernel code stage).fld (abortStatus c kernel) 2 0 = code % 2 ^ (2 + 1 - 0) := by
  rw [State.abortResult, State.fld_updCtx, State.fld_setFld_disjoint _ _ _ (by decide) (by decide) (by decide),
    State.fld_setFld_self _ _ (by decide) (by decide)]

theorem State.abortResult_stage : (s.abortResult c kernel code stage).fld (abortStatus c kernel) 5 4 = stage % 2 ^ (5 + 1 - 4) := by
  rw [State.abortResult, State.fld_updCtx, State.fld_setFld_self _ _ (by decide) (by decide)]

theorem State.abortResult_regs : SameRegs [abortStatus c kernel] s (s.abortResult c kernel code stage) :=
  ((SameRegs.setFld s _ _ _ _).trans (.setFld _ _ _ _ _)).trans (.updCtx _ _ _ _)

theorem State.abortResult_frame : RegsAndCtxs s (s.abortResult c kernel code stage) := ⟨_, _, rfl⟩

end

/-- A request is only answered, with this code. -/
theorem abort_answered (s : State) (c : Nat) (kernel : Bool) {code : Nat} (small : code < 8) :
    s.abortResult c kernel code 0 = { s with ctxs := (s.abortResult c kernel code 0).ctxs, regs := (s.abortResult c kernel code 0).regs } ∧
      (s.abortResult c kernel code 0).fld (abortStatus c kernel) 2 0 = code ∧
      SameRegs [abortStatus c kernel] s (s.abortResult c kernel code 0) :=
  ⟨(State.abortResult_frame ..).eq, (State.abortResult_code ..).trans (Nat.mod_eq_of_lt small), State.abortResult_regs _ _ _ _ _⟩

theorem SameRegs.of_regs {l : List Nat} {s t : State} (straps : t.straps = s.straps) (regs : t.regs = s.regs) : SameRegs l s t := fun o _ => by
  rw [State.reg, State.reg, straps, regs]

/-! ## Where the sequencer finds the launch (R204) -/

theorem abortRequestArrive_pending {s : State} {c seq : Nat} {kernel : Bool}
    (pending : (if kernel = true then (s.ctx c).abortK else (s.ctx c).abortT) = some seq) {t : State} (takes : s.abort c seq kernel = t) :
    exec (.abortRequestArrive c kernel) s = .next t := by
  refine congrArg Host.Outcome.next (?_ : abortRequestArriveS c kernel s = t)
  rw [abortRequestArriveS, pending]
  exact takes

section
variable {s : State} {c seq : Nat} {kernel : Bool}

theorem State.abort_unknown (away : s.ringOn c (seq / 2 ^ 32) = false ∨ since32 (s.ring c (seq / 2 ^ 32)).tail (seq % 2 ^ 32) = 0 ∨
      2 ^ 31 < since32 (s.ring c (seq / 2 ^ 32)).tail (seq % 2 ^ 32)) : s.abort c seq kernel = s.abortResult c kernel 4 0 := by
  have out : (!s.ringOn c (seq / 2 ^ 32) || since32 (s.ring c (seq / 2 ^ 32)).tail (seq % 2 ^ 32) == 0 ||
      decide (2 ^ 31 < since32 (s.ring c (seq / 2 ^ 32)).tail (seq % 2 ^ 32))) = true := by
    rcases away with h | h | h
    · rw [h]; rfl
    · rw [h]; simp
    · rw [decide_eq_true h, Bool.or_true]
  exact if_pos out

variable (on : s.ringOn c (seq / 2 ^ 32) = true) (some_ : 0 < since32 (s.ring c (seq / 2 ^ 32)).tail (seq % 2 ^ 32))
  (near : since32 (s.ring c (seq / 2 ^ 32)).tail (seq % 2 ^ 32) ≤ 2 ^ 31)
include on some_ near

theorem State.abort_known : s.abort c seq kernel =
    match (s.ctx c).launch? seq with
    | some l =>
      if l.decision.isSome then s.abortResult c kernel 3 0
      else ((s.decide_ c seq (s.early 0x40 ((if kernel then 2 else 1) + 32))).stopLaunch c seq).abortResult c kernel 2 2
    | none =>
      match (s.ring c (seq / 2 ^ 32)).recs.find? fun k => k.count == seq % 2 ^ 32 with
      | some k =>
        if k.bad.isSome then s.abortResult c kernel 3 0
        else
          ((s.updRing c (seq / 2 ^ 32) fun g => { g with recs := g.recs.map fun x => if x.count == seq % 2 ^ 32 then
            { x with bad := some (s.early 0x40 ((if kernel then 2 else 1) + 16 * k.abortStage)) } else x }).countDecided c (seq / 2 ^ 32)).abortResult
            c kernel 2 k.abortStage
      | none =>
        if since32 (s.ring c (seq / 2 ^ 32)).tail (s.ring c (seq / 2 ^ 32)).head < since32 (s.ring c (seq / 2 ^ 32)).tail (seq % 2 ^ 32) then
          s.abortResult c kernel 3 0
        else if ((s.ctx c).marks ++ (s.ctx c).kept).any fun m => m.1 == seq then s.abortResult c kernel 3 0
        else if 4 ≤ (s.ctx c).marks.length then s.abortResult c kernel 5 0
        else ((s.updCtx c fun x => { x with marks := x.marks ++ [(seq, s.early 0x40 (if kernel then 2 else 1))] }).countDecided c
          (seq / 2 ^ 32)).abortResult c kernel 2 0 := by
  have here : ¬(!s.ringOn c (seq / 2 ^ 32) || since32 (s.ring c (seq / 2 ^ 32)).tail (seq % 2 ^ 32) == 0 ||
      decide (2 ^ 31 < since32 (s.ring c (seq / 2 ^ 32)).tail (seq % 2 ^ 32))) = true := by
    rw [on, decide_eq_false (Nat.not_lt.2 near)]
    simp only [Bool.not_true, Bool.false_or, Bool.or_false, beq_iff_eq]
    exact Nat.ne_of_gt some_
  exact if_neg here

theorem State.abort_dispatched {l : Launch} (found : (s.ctx c).launch? seq = some l) (open_ : l.decision = none) : s.abort c seq kernel =
    ((s.decide_ c seq (s.early 0x40 ((if kernel then 2 else 1) + 32))).stopLaunch c seq).abortResult c kernel 2 2 := by
  rw [State.abort_known on some_ near, found]
  exact if_neg (by simp [open_])

theorem State.abort_fetched {k : Rec} (absent : (s.ctx c).launch? seq = none)
    (waits : (s.ring c (seq / 2 ^ 32)).recs.find? (fun k => k.count == seq % 2 ^ 32) = some k) (open_ : k.bad = none) : s.abort c seq kernel =
    ((s.updRing c (seq / 2 ^ 32) fun g => { g with recs := g.recs.map fun x => if x.count == seq % 2 ^ 32 then
      { x with bad := some (s.early 0x40 ((if kernel then 2 else 1) + 16 * k.abortStage)) } else x }).countDecided c (seq / 2 ^ 32)).abortResult
      c kernel 2 k.abortStage := by
  rw [State.abort_known on some_ near, absent]
  simp only [waits]
  exact if_neg (by simp [open_])

section
variable (absent : (s.ctx c).launch? seq = none) (unfetched : ∀ k ∈ (s.ring c (seq / 2 ^ 32)).recs, k.count ≠ seq % 2 ^ 32)
include absent unfetched

theorem State.abort_unfetched : s.abort c seq kernel =
    if since32 (s.ring c (seq / 2 ^ 32)).tail (s.ring c (seq / 2 ^ 32)).head < since32 (s.ring c (seq / 2 ^ 32)).tail (seq % 2 ^ 32) then
      s.abortResult c kernel 3 0
    else if ((s.ctx c).marks ++ (s.ctx c).kept).any fun m => m.1 == seq then s.abortResult c kernel 3 0
    else if 4 ≤ (s.ctx c).marks.length then s.abortResult c kernel 5 0
    else ((s.updCtx c fun x => { x with marks := x.marks ++ [(seq, s.early 0x40 (if kernel then 2 else 1))] }).countDecided c
      (seq / 2 ^ 32)).abortResult c kernel 2 0 := by
  have missing : (s.ring c (seq / 2 ^ 32)).recs.find? (fun k => k.count == seq % 2 ^ 32) = none :=
    List.find?_eq_none.2 fun k mem same => unfetched k mem (by simpa using same)
  rw [State.abort_known on some_ near, absent]
  simp only [missing]

section
variable (ahead : since32 (s.ring c (seq / 2 ^ 32)).tail (seq % 2 ^ 32) ≤ since32 (s.ring c (seq / 2 ^ 32)).tail (s.ring c (seq / 2 ^ 32)).head)
  (unmarked : ∀ m ∈ (s.ctx c).marks ++ (s.ctx c).kept, m.1 ≠ seq)
include ahead unmarked

theorem State.abort_unmarked : s.abort c seq kernel =
    if 4 ≤ (s.ctx c).marks.length then s.abortResult c kernel 5 0
    else ((s.updCtx c fun x => { x with marks := x.marks ++ [(seq, s.early 0x40 (if kernel then 2 else 1))] }).countDecided c
      (seq / 2 ^ 32)).abortResult c kernel 2 0 := by
  have no : (((s.ctx c).marks ++ (s.ctx c).kept).any fun m => m.1 == seq) = false :=
    List.any_eq_false.2 fun m mem same => unmarked m mem (by simpa using same)
  rw [State.abort_unfetched on some_ near absent unfetched, if_neg (Nat.not_lt.2 ahead), no]
  rfl

end

end

theorem State.abort_completed (decided : (∃ l, (s.ctx c).launch? seq = some l ∧ l.decision ≠ none) ∨
      ((s.ctx c).launch? seq = none ∧ ∃ k, (s.ring c (seq / 2 ^ 32)).recs.find? (fun k => k.count == seq % 2 ^ 32) = some k ∧ k.bad ≠ none) ∨
      ((s.ctx c).launch? seq = none ∧ (∀ k ∈ (s.ring c (seq / 2 ^ 32)).recs, k.count ≠ seq % 2 ^ 32) ∧
        (since32 (s.ring c (seq / 2 ^ 32)).tail (s.ring c (seq / 2 ^ 32)).head < since32 (s.ring c (seq / 2 ^ 32)).tail (seq % 2 ^ 32) ∨
          ∃ m ∈ (s.ctx c).marks ++ (s.ctx c).kept, m.1 = seq))) : s.abort c seq kernel = s.abortResult c kernel 3 0 := by
  rcases decided with ⟨l, found, d⟩ | ⟨absent, k, waits, d⟩ | ⟨absent, unfetched, rest⟩
  · rw [State.abort_known on some_ near, found]
    exact if_pos (Option.isSome_iff_ne_none.2 d)
  · rw [State.abort_known on some_ near, absent]
    simp only [waits]
    exact if_pos (Option.isSome_iff_ne_none.2 d)
  · rw [State.abort_unfetched on some_ near absent unfetched]
    split
    · rfl
    next ahead =>
      obtain ⟨m, mem, same⟩ := rest.resolve_left ahead
      exact if_pos (List.any_eq_true.2 ⟨m, mem, by simpa using same⟩)

end

/-! ## The clause of O44 -/

/-- An abort is answered by where the sequencer finds the launch. -/
theorem abort_taken {s : State} {c seq : Nat} {kernel : Bool}
    (pending : (if kernel = true then (s.ctx c).abortK else (s.ctx c).abortT) = some seq) :
    let off := abortStatus c kernel
    let r := seq / 2 ^ 32
    let ahead := since32 (s.ring c r).tail (seq % 2 ^ 32)
    (s.ringOn c r = false ∨ ahead = 0 ∨ 2 ^ 31 < ahead →
      ∃ t, exec (.abortRequestArrive c kernel) s = .next t ∧ t = { s with ctxs := t.ctxs, regs := t.regs } ∧ t.fld off 2 0 = 4 ∧
        (if kernel = true then (t.ctx c).abortK else (t.ctx c).abortT) = none ∧ SameRegs [off] s t) ∧
    (s.ringOn c r = true → 0 < ahead → ahead ≤ 2 ^ 31 →
      (∀ l, (s.ctx c).launch? seq = some l → l.decision = none → s.ops = [] →
        ∃ t, exec (.abortRequestArrive c kernel) s = .next t ∧ t.fld off 2 0 = 2 ∧ t.fld off 5 4 = 2 ∧
          (((t.ctx c).launch? seq).map fun x => (x.decision.map fun d => (d.status, d.arg), x.stage)) =
            some (some (0x40, (if kernel = true then 2 else 1) + 32), .stopping) ∧
          (∀ x ∈ t.lanes, x.st ≠ .idle → x.ctx = c → x.seq = seq → x.stopped = true) ∧ t.cells = s.cells ∧ SameRegs [off] s t) ∧
      (∀ k, (s.ctx c).launch? seq = none → (s.ring c r).recs.find? (fun k => k.count == seq % 2 ^ 32) = some k → k.bad = none →
        ∃ t x, exec (.abortRequestArrive c kernel) s = .next t ∧ t.fld off 2 0 = 2 ∧ t.fld off 5 4 = k.abortStage ∧ x ∈ (t.ring c r).recs ∧
          x.count = k.count ∧ (x.bad.map fun d => d.status) = some 0x40 ∧ t.cells = s.cells ∧ t.lanes = s.lanes ∧ SameRegs [off] s t) ∧
      ((s.ctx c).launch? seq = none → (∀ k ∈ (s.ring c r).recs, k.count ≠ seq % 2 ^ 32) → ahead ≤ since32 (s.ring c r).tail (s.ring c r).head →
        (∀ m ∈ (s.ctx c).marks ++ (s.ctx c).kept, m.1 ≠ seq) →
        ((s.ctx c).marks.length < 4 →
          ∃ t d, exec (.abortRequestArrive c kernel) s = .next t ∧ t = { s with ctxs := t.ctxs, regs := t.regs } ∧ t.fld off 2 0 = 2 ∧
            t.fld off 5 4 = 0 ∧ (t.ctx c).marks = (s.ctx c).marks ++ [(seq, d)] ∧ d.status = 0x40 ∧ d.arg = (if kernel = true then 2 else 1) ∧
            (t.ring c r).decided = ((s.ring c r).decided + 1) % 2 ^ 32 ∧ SameRegs [off] s t) ∧
        (4 ≤ (s.ctx c).marks.length →
          ∃ t, exec (.abortRequestArrive c kernel) s = .next t ∧ t = { s with ctxs := t.ctxs, regs := t.regs } ∧ t.fld off 2 0 = 5 ∧
            (t.ctx c).marks = (s.ctx c).marks ∧ SameRegs [off] s t)) ∧
      ((∃ l, (s.ctx c).launch? seq = some l ∧ l.decision ≠ none) ∨
        ((s.ctx c).launch? seq = none ∧ ∃ k, (s.ring c r).recs.find? (fun k => k.count == seq % 2 ^ 32) = some k ∧ k.bad ≠ none) ∨
        ((s.ctx c).launch? seq = none ∧ (∀ k ∈ (s.ring c r).recs, k.count ≠ seq % 2 ^ 32) ∧
          (since32 (s.ring c r).tail (s.ring c r).head < ahead ∨ ∃ m ∈ (s.ctx c).marks ++ (s.ctx c).kept, m.1 = seq)) →
        ∃ t, exec (.abortRequestArrive c kernel) s = .next t ∧ t = { s with ctxs := t.ctxs, regs := t.regs } ∧ t.fld off 2 0 = 3 ∧
          SameRegs [off] s t)) := by
  refine ⟨fun away => ?unknown, fun on some_ near => ⟨fun l found open_ idle => ?dispatched, fun k absent waits open_ => ?fetched,
    fun absent unfetched ahead unmarked => ⟨fun room => ?marked, fun full => ?full⟩, fun decided => ?completed⟩⟩
  case unknown =>
    obtain ⟨frame, code, regs⟩ := abort_answered s c kernel (code := 4) (by decide)
    refine ⟨_, abortRequestArrive_pending pending (State.abort_unknown away), frame, code, ?_, regs⟩
    rw [State.ctx_abortResult, Ctx.abortTaken_none]
  case dispatched =>
    have noOps : (s.decide_ c seq (s.early 0x40 ((if kernel then 2 else 1) + 32))).ops = [] := idle
    refine ⟨_, abortRequestArrive_pending pending (State.abort_dispatched on some_ near found open_), State.abortResult_code ..,
      State.abortResult_stage .., ?_, State.stopLaunch_told noOps c seq, State.stopLaunch_cells noOps c seq, ?_⟩
    · rw [State.ctx_abortResult, Ctx.launch?_abortTaken, State.stopLaunch_launch? noOps c seq (State.launch?_decide_ _ found)]
      rfl
    · exact (SameRegs.of_regs (State.stopLaunch_straps noOps c seq) (State.stopLaunch_regs noOps c seq)).trans (State.abortResult_regs _ _ _ _ _)
  case fetched =>
    refine ⟨_, { k with bad := some (s.early 0x40 ((if kernel then 2 else 1) + 16 * k.abortStage)) },
      abortRequestArrive_pending pending (State.abort_fetched on some_ near absent waits open_), State.abortResult_code .., ?_, ?_, rfl, rfl, rfl, rfl, ?_⟩
    · rw [State.abortResult_stage]
      exact Nat.mod_eq_of_lt (by unfold Rec.abortStage; split <;> decide)
    · rw [State.ring_abortResult, State.countDecided, State.ring_updRing_self, State.ring_updRing_self]
      refine List.mem_map.2 ⟨k, List.mem_of_find?_eq_some waits, ?_⟩
      have named : (k.count == seq % 2 ^ 32) = true := by simpa using List.find?_some waits
      rw [named]
      rfl
    · exact (SameRegs.of_regs rfl rfl).trans (State.abortResult_regs _ _ _ _ _)
  case marked =>
    refine ⟨_, s.early 0x40 (if kernel then 2 else 1), abortRequestArrive_pending pending ((State.abort_unmarked on some_ near absent unfetched ahead
      unmarked).trans (if_neg (Nat.not_le.2 room))), rfl, State.abortResult_code .., State.abortResult_stage .., ?_, rfl, rfl, ?_, ?_⟩
    · rw [State.ctx_abortResult, Ctx.marks_abortTaken, State.countDecided, State.updRing, State.ctx_updCtx_self, State.ctx_updCtx_self]
      rfl
    · rw [State.ring_abortResult, State.countDecided, State.ring_updRing_self, State.ring, State.ctx_updCtx_self]
      rfl
    · exact (SameRegs.of_regs rfl rfl).trans (State.abortResult_regs _ _ _ _ _)
  case full =>
    obtain ⟨frame, code, regs⟩ := abort_answered s c kernel (code := 5) (by decide)
    refine ⟨_, abortRequestArrive_pending pending ((State.abort_unmarked on some_ near absent unfetched ahead unmarked).trans (if_pos full)), frame,
      code, ?_, regs⟩
    rw [State.ctx_abortResult, Ctx.marks_abortTaken]
  case completed =>
    obtain ⟨frame, code, regs⟩ := abort_answered s c kernel (code := 3) (by decide)
    exact ⟨_, abortRequestArrive_pending pending (State.abort_completed on some_ near decided), frame, code, regs⟩

end Sys2Proof.Machine
end

section
/-! SUPPORT. A detection that is not corrected: what it counts, and what it leaves (R344 to R349). -/
namespace Sys2Proof.Machine

open Sys2Proof

/-- The record alone, without the management attention that an uncorrected one raises. -/
def State.logs (s : State) (r : Report) : State :=
  let written := s.fld Reg.errLogWritten 31 0
  if !since32 written (s.fld Reg.errLogConsumed 31 0) == 64 then
    (s.putLog (written % 64) 0 (r.words written s.bell.now)).incWrap Reg.errLogWritten 31 0 1
  else if r.sev == 3 then s.putLog (since32 written 1 % 64) 0 (r.words (since32 written 1) s.bell.now)
  else s.incSat Reg.errLogWritten 63 32 1

theorem State.record_eq (s : State) (r : Report) : s.record r = if r.sev == 0 then s.logs r else (s.logs r).mgmt 4 := rfl

theorem RegsAndOut.logs (s : State) (r : Report) : RegsAndOut s (s.logs r) := by
  unfold State.logs
  dsimp only
  split
  · exact (RegsAndOut.putLog ..).trans (.setReg ..)
  · split
    · exact .putLog ..
    · exact .setReg ..

theorem State.reg_logs (s : State) (r : Report) {o : Nat} (log : o < 0x9000 ∨ 0x9800 ≤ o) (count : o ≠ Reg.errLogWritten) :
    (s.logs r).reg o = s.reg o := by
  unfold State.logs
  dsimp only
  split
  · rw [State.reg_incWrap, if_neg count, State.reg_putLog_record _ _ _ _ _ _ (Nat.mod_lt _ (by decide)) log]
  · split
    · rw [State.reg_putLog_record _ _ _ _ _ _ (Nat.mod_lt _ (by decide)) log]
    · rw [State.reg_incSat, if_neg count]

theorem RegsAndOut.record (s : State) (r : Report) : RegsAndOut s (s.record r) := by
  rw [State.record_eq]
  split
  · exact .logs s r
  · exact (RegsAndOut.logs s r).trans (.setReg ..)

/-- A register outside the log, its counter and the management attention keeps its word when a record is written. -/
theorem State.reg_record (s : State) (r : Report) {o : Nat} (log : o < 0x9000 ∨ 0x9800 ≤ o) (count : o ≠ Reg.errLogWritten) (attn : o ≠ Reg.ctxMgmt) :
    (s.record r).reg o = s.reg o := by
  rw [State.record_eq]
  split
  · exact s.reg_logs r log count
  · rw [State.mgmt, State.reg_setBitsIn, if_neg attn, s.reg_logs r log count]

theorem State.detect_uncorrected (s : State) {r : Report} (sev : r.sev ≠ 0) :
    s.detect r = ((s.errPulse r).incSat (Reg.errCnt r.det) 63 32 1).record r := by
  have no : (r.sev == 0) = false := by simpa using sev
  simp only [State.detect, no, Bool.false_and, Bool.false_eq_true, if_false]

theorem RegsAndOut.detect_uncorrected (s : State) {r : Report} (sev : r.sev ≠ 0) : RegsAndOut s (s.detect r) := by
  rw [State.detect_uncorrected s sev]
  exact ((RegsAndOut.errPulse s r).trans (.setReg ..)).trans (.record ..)

/-- The uncorrected errors of its detector are one more. -/
theorem State.fld_detect_count (s : State) {r : Report} (sev : r.sev ≠ 0) (det : r.det < 0x40) (count : Reg.errCnt r.det ≠ Reg.errLogWritten) :
    (s.detect r).fld (Reg.errCnt r.det) 63 32 = min (s.fld (Reg.errCnt r.det) 63 32 + 1) (2 ^ 32 - 1) := by
  have log : Reg.errCnt r.det < 0x9000 := by simp only [Reg.errCnt]; omega
  have attn : Reg.errCnt r.det ≠ Reg.ctxMgmt := by simp only [Reg.errCnt, Reg.ctxMgmt]; omega
  rw [State.detect_uncorrected s sev, State.fld, State.reg_record _ _ (.inl log) count attn, State.reg_incSat, if_pos rfl,
    bits_setBits_same _ _ _ _ (by decide) (by decide), State.fld, State.reg_errPulse, ← State.fld]
  exact Nat.mod_eq_of_lt (by simp only [sat]; omega)

end Sys2Proof.Machine
end

section
/-! PROOFS. The watch (O44, R210, R211). -/
namespace Sys2Proof.Machine

open Sys2Proof

/-! ## The launches that a sample looks at -/

theorem State.watchAll_append (s : State) (a b : List Nat) : s.watchAll (a ++ b) = (s.watchAll a).watchAll b := by
  induction a generalizing s with
  | nil => rfl
  | cons c r ih => exact ih _

/-- Contexts with no launch are passed over. -/
theorem State.watchAll_noLaunches {s : State} {cs : List Nat} (none : ∀ c ∈ cs, (s.ctx c).launches = []) : s.watchAll cs = s := by
  induction cs with
  | nil => rfl
  | cons c r ih =>
    rw [State.watchAll, none c List.mem_cons_self]
    exact ih fun d mem => none d (List.mem_cons_of_mem c mem)

theorem exists_range_split {c n : Nat} (h : c < n) : ∃ a b, List.range n = a ++ c :: b ∧ (∀ d ∈ a, d ≠ c) ∧ ∀ d ∈ b, d ≠ c := by
  obtain ⟨a, b, eq⟩ := List.append_of_mem (List.mem_range.2 h)
  have distinct : (a ++ c :: b).Nodup := eq ▸ List.nodup_range
  rw [List.nodup_append] at distinct
  obtain ⟨_, right, apart⟩ := distinct
  exact ⟨a, b, eq, fun d mem => apart d mem c List.mem_cons_self, fun d mem same => (List.nodup_cons.1 right).1 (same ▸ mem)⟩

section
variable {s : State} {c : Nat} {l : Launch} (only : (s.ctx c).launches = [l])
include only

theorem Ctx.launch?_only : (s.ctx c).launch? l.seq = some l := by
  simp [Ctx.launch?, only]

theorem State.launches_updLaunch_only (f : Launch → Launch) : ((s.updLaunch c l.seq f).ctx c).launches = [f l] := by
  simp [State.ctx_updLaunch, Ctx.updLaunch, only]

variable (inBuild : c < s.straps.contexts) (others : ∀ e, e ≠ c → (s.ctx e).launches = []) (unarmed : s.inject = none)
include inBuild others unarmed

/-- The one launch is sampled. -/
theorem watchSample_only {t : State} (sampled : s.watchOne c l.seq false = t) (still : ∀ e, e ≠ c → t.ctx e = s.ctx e) :
    exec .watchSample s = .next t := by
  obtain ⟨a, b, range, before, after⟩ := exists_range_split inBuild
  have here : s.watchCtx c ((s.ctx c).launches.map fun l => l.seq) = t := by
    rw [only, List.map_cons, List.map_nil, State.watchCtx, unarmed]
    exact sampled
  refine congrArg Host.Outcome.next (?_ : watchSampleS s = t)
  rw [watchSampleS, range, State.watchAll_append, State.watchAll_noLaunches fun d mem => others d (before d mem), State.watchAll, here]
  exact State.watchAll_noLaunches fun d mem => by rw [still d (after d mem), others d (after d mem)]

end

/-! ## One launch at a sample -/

section
variable {s : State} {c : Nat} {l : Launch} (found : (s.ctx c).launch? l.seq = some l) (sent : l.dispatched = true) (open_ : l.decision = none)
  (lead : l.fromLead = false)
include found sent open_ lead

theorem State.watchOne_eq : s.watchOne c l.seq false =
    if l.tally != l.watchTally then s.updLaunch c l.seq fun l => { l with watchAt := s.up, watchTally := l.tally, fired := false }
    else if !(s.lanesOf c l.seq).isEmpty && (s.lanesOf c l.seq).all s.timeOnly then s.updLaunch c l.seq fun l => { l with watchAt := s.up }
    else if !l.fired && decide (l.watchAt + l.window * usT ≤ s.up) then s.hang c l false
    else s := by
  simp only [State.watchOne, found, sent, open_, lead, Option.isSome_none, Bool.not_true, Bool.or_self, Bool.false_eq_true, if_false]

theorem State.watchOne_advanced (moved : l.tally ≠ l.watchTally) :
    s.watchOne c l.seq false = s.updLaunch c l.seq fun l => { l with watchAt := s.up, watchTally := l.tally, fired := false } := by
  rw [State.watchOne_eq found sent open_ lead, if_pos (by simpa using moved)]

variable (stands : l.tally = l.watchTally)
include stands

theorem State.watchOne_alone (alone : s.lanesOf c l.seq ≠ [] ∧ ∀ x ∈ s.lanesOf c l.seq, s.timeOnly x = true) :
    s.watchOne c l.seq false = s.updLaunch c l.seq fun l => { l with watchAt := s.up } := by
  rw [State.watchOne_eq found sent open_ lead, if_neg (by simp [stands]), if_pos (by simpa using alone)]

theorem State.watchOne_standing (busy : ¬(s.lanesOf c l.seq ≠ [] ∧ ∀ x ∈ s.lanesOf c l.seq, s.timeOnly x = true)) :
    s.watchOne c l.seq false = if !l.fired && decide (l.watchAt + l.window * usT ≤ s.up) then s.hang c l false else s := by
  rw [State.watchOne_eq found sent open_ lead, if_neg (by simp [stands]), if_neg (by simpa using busy)]

end

/-! ## A hang -/

theorem State.hang_eq (s : State) (c : Nat) (l : Launch) : ∃ r : Report, r.det = 0x10 ∧ r.sev = 1 ∧
    s.hang c l false = (((s.detect r).mgmt 1).criEvent 1).updLaunch c l.seq fun l => { l with fired := true } :=
  ⟨_, rfl, rfl, rfl⟩

section
variable (s : State) (c : Nat) (l : Launch)

theorem State.hang_frame : RegsAndOut (s.updLaunch c l.seq fun l => { l with fired := true }) (s.hang c l false) := by
  obtain ⟨r, _, sev, eq⟩ := s.hang_eq c l
  obtain ⟨regs, out, detects⟩ := RegsAndOut.detect_uncorrected s (r := r) (by simp [sev])
  rw [eq, detects]
  exact ⟨_, _, rfl⟩

theorem State.hang_reports : (s.hang c l false).flag Reg.criEvent 0 = true ∧ (s.hang c l false).flag Reg.ctxMgmt 1 = true ∧
    (s.hang c l false).fld (Reg.errCnt 0x10) 63 32 = min (s.fld (Reg.errCnt 0x10) 63 32 + 1) (2 ^ 32 - 1) := by
  obtain ⟨r, det, sev, eq⟩ := s.hang_eq c l
  have count := s.fld_detect_count (r := r) (by simp [sev]) (by simp [det]) (by simp [det, Reg.errCnt, Reg.errLogWritten])
  rw [eq]
  refine ⟨?_, ?_, ?_⟩
  · rw [State.updLaunch, State.flag_updCtx, State.criEvent, State.flag_setBitsIn _ _ _ _ (by decide)]
    simp
  · rw [State.updLaunch, State.flag_updCtx, State.criEvent, State.flag, State.reg_setBitsIn, if_neg (by decide), ← State.flag, State.flag_mgmt _ (by decide)]
  · rw [State.updLaunch, State.fld_updCtx, State.criEvent, State.fld, State.reg_setBitsIn, if_neg (by decide), State.mgmt, State.reg_setBitsIn,
      if_neg (by decide), ← State.fld, ← det, count]

end

/-- The clause of O44 on the watch. -/
theorem watch_samples {s : State} {c : Nat} {l : Launch} (inBuild : c < s.straps.contexts) (only : (s.ctx c).launches = [l])
    (others : ∀ e, e ≠ c → (s.ctx e).launches = []) (sent : l.dispatched = true) (open_ : l.decision = none) (lead : l.fromLead = false)
    (unarmed : s.inject = none) :
    let alone := s.lanesOf c l.seq ≠ [] ∧ ∀ x ∈ s.lanesOf c l.seq, s.timeOnly x = true
    (l.tally ≠ l.watchTally →
      ∃ t, exec .watchSample s = .next t ∧ t = { s with ctxs := t.ctxs } ∧
        (t.ctx c).launches = [{ l with watchAt := s.up, watchTally := l.tally, fired := false }]) ∧
    (l.tally = l.watchTally → alone → exec .watchSample s = .next (s.updLaunch c l.seq fun x => { x with watchAt := s.up })) ∧
    (l.tally = l.watchTally → ¬alone → l.fired = false → s.up < l.watchAt + 4000 * l.window → exec .watchSample s = .next s) ∧
    (l.tally = l.watchTally → ¬alone → l.fired = false → l.watchAt + 4000 * l.window ≤ s.up →
      ∃ t, exec .watchSample s = .next t ∧ (t.ctx c).launches = [{ l with fired := true }] ∧ t.flag Reg.criEvent 0 = true ∧
        t.flag Reg.ctxMgmt 1 = true ∧ t.fld (Reg.errCnt 0x10) 63 32 = min (s.fld (Reg.errCnt 0x10) 63 32 + 1) (2 ^ 32 - 1) ∧
        t.lanes = s.lanes ∧ t.cells = s.cells) ∧
    (l.tally = l.watchTally → ¬alone → l.fired = true → exec .watchSample s = .next s) := by
  have found := Ctx.launch?_only only
  have window : l.window * usT = 4000 * l.window := Nat.mul_comm ..
  have unmoved (f : Launch → Launch) : ∀ e, e ≠ c → (s.updLaunch c l.seq f).ctx e = s.ctx e := fun e other => State.ctx_updLaunch_ne s other _ f
  refine ⟨fun moved => ?advanced, fun stands alone => ?alone, fun stands busy fresh early => ?early, fun stands busy fresh late => ?hang,
    fun stands busy fired => ?fired⟩
  case advanced =>
    exact ⟨_, watchSample_only only inBuild others unarmed (State.watchOne_advanced found sent open_ lead moved) (unmoved _), rfl,
      State.launches_updLaunch_only only _⟩
  case alone =>
    exact watchSample_only only inBuild others unarmed (State.watchOne_alone found sent open_ lead stands alone) (unmoved _)
  case early =>
    refine watchSample_only only inBuild others unarmed ((State.watchOne_standing found sent open_ lead stands busy).trans (if_neg ?_)) fun _ _ => rfl
    rw [window, decide_eq_false (Nat.not_le.2 early), Bool.and_false]
    exact Bool.false_ne_true
  case hang =>
    obtain ⟨regs, out, frame⟩ := State.hang_frame s c l
    obtain ⟨event, attention, count⟩ := State.hang_reports s c l
    refine ⟨_, watchSample_only only inBuild others unarmed ((State.watchOne_standing found sent open_ lead stands busy).trans (if_pos ?_))
      fun e other => ?_, ?_, event, attention, count, ?_, ?_⟩
    · rw [fresh, window, decide_eq_true late]
      rfl
    · rw [frame]
      exact unmoved _ e other
    · rw [frame]
      exact State.launches_updLaunch_only only _
    · rw [frame]
      rfl
    · rw [frame]
      rfl
  case fired =>
    refine watchSample_only only inBuild others unarmed ((State.watchOne_standing found sent open_ lead stands busy).trans (if_neg ?_)) fun _ _ => rfl
    rw [fired]
    exact Bool.false_ne_true

end Sys2Proof.Machine
end

section
/-! SUPPORT. Records dropped from the rings, a launch that leaves its context, and a context left FAULTED (R206, R208). -/
namespace Sys2Proof.Machine

open Sys2Proof

/-! ## Records dropped -/

/-- The records of a ring that stay when the others are dropped: with `lead`, the decided ones at its front. -/
def Ring.stays (g : Ring) (lead : Bool) : List Rec := if lead then g.recs.takeWhile fun k => k.bad.isSome && k.here else []

/-- A ring with its other records dropped. -/
def Ring.dropped (g : Ring) (lead : Bool) : Ring :=
  let gone := g.recs.drop (g.stays lead).length
  let head := match gone.head? with | some k => k.count | none => g.head
  { g with recs := g.stays lead, head := head, held := false, served := [], failed := none, scanning := g.scanning || head != g.tail }

/-- The decisions that stand for the records dropped. -/
def Ring.keptOf (g : Ring) (r : Nat) (lead : Bool) : List (Nat × Decision) :=
  (g.recs.drop (g.stays lead).length).filterMap fun k => k.bad.map fun d => (r * 2 ^ 32 + k.count, d)

/-- A context with the records of one ring dropped. -/
def Ctx.dropRecs (x : Ctx) (r : Nat) (lead : Bool) : Ctx :=
  { x with rings := upd x.rings r fun g => g.dropped lead, kept := x.kept ++ (nth x.rings r).keptOf r lead }

section
variable (s : State) (c r : Nat) (lead : Bool)

theorem State.dropRecs_frame : ∃ q x, s.dropRecs c r lead = { s with reqs := q, ctxs := x } := ⟨_, _, rfl⟩

theorem State.ctx_dropRecs_ne {e : Nat} (other : e ≠ c) : (s.dropRecs c r lead).ctx e = s.ctx e := by
  rw [State.dropRecs, State.ctx_updCtx, if_neg other, State.ctx_updRing_ne _ other]
  rfl

theorem upd_congr {α : Type} [Inhabited α] {l : List α} {i : Nat} {f g : α → α} (same : f (nth l i) = g (nth l i)) : upd l i f = upd l i g := by
  fun_induction upd l i f with
  | case1 f => exact congrArg (fun x => [x]) same
  | case2 i f ih => rw [upd, ih same]
  | case3 a r f => exact congrArg (fun x => x :: r) same
  | case4 a r i f ih => rw [upd, ih same]

theorem State.ctx_dropRecs_self : (s.dropRecs c r lead).ctx c = (s.ctx c).dropRecs r lead := by
  rw [State.dropRecs, State.ctx_updCtx_self, State.updRing, State.ctx_updCtx_self, Ctx.updRing, Ctx.dropRecs]
  exact congrArg (fun q : List Ring => ({ s.ctx c with rings := q, kept := (s.ctx c).kept ++ (nth (s.ctx c).rings r).keptOf r lead } : Ctx))
    (upd_congr rfl)

end

/-! ## The records of every ring dropped -/

section
variable (s : State) (c : Nat) (lead : Bool)

theorem State.foldl_dropRecs (rs : List Nat) : (∃ q x, rs.foldl (fun s r => s.dropRecs c r lead) s = { s with reqs := q, ctxs := x }) ∧
    (∀ e, e ≠ c → (rs.foldl (fun s r => s.dropRecs c r lead) s).ctx e = s.ctx e) ∧
    (rs.foldl (fun s r => s.dropRecs c r lead) s).ctx c = rs.foldl (fun x r => x.dropRecs r lead) (s.ctx c) := by
  induction rs generalizing s with
  | nil => exact ⟨⟨_, _, rfl⟩, fun _ _ => rfl, rfl⟩
  | cons r rs ih =>
    obtain ⟨⟨q, x, frame⟩, others, own⟩ := ih (s.dropRecs c r lead)
    exact ⟨⟨q, x, frame⟩, fun e other => (others e other).trans (State.ctx_dropRecs_ne s c r lead other),
      own.trans (by rw [State.ctx_dropRecs_self]; rfl)⟩

theorem State.dropAllRecs_frame : ∃ q x, s.dropAllRecs c lead = { s with reqs := q, ctxs := x } := (s.foldl_dropRecs c lead _).1

theorem State.reg_dropAllRecs (o : Nat) : (s.dropAllRecs c lead).reg o = s.reg o := by
  obtain ⟨_, _, eq⟩ := s.dropAllRecs_frame c lead
  rw [eq]
  rfl

theorem State.cells_dropAllRecs : (s.dropAllRecs c lead).cells = s.cells := by
  obtain ⟨_, _, eq⟩ := s.dropAllRecs_frame c lead
  rw [eq]

theorem State.lanes_dropAllRecs : (s.dropAllRecs c lead).lanes = s.lanes := by
  obtain ⟨_, _, eq⟩ := s.dropAllRecs_frame c lead
  rw [eq]

theorem State.ctx_dropAllRecs_ne {e : Nat} (other : e ≠ c) : (s.dropAllRecs c lead).ctx e = s.ctx e := (s.foldl_dropRecs c lead _).2.1 e other

theorem State.ctx_dropAllRecs_self : (s.dropAllRecs c lead).ctx c = (List.range 4).foldl (fun x r => x.dropRecs r lead) (s.ctx c) :=
  (s.foldl_dropRecs c lead _).2.2

end

/-- What of a context records dropped leave as it was. -/
theorem Ctx.foldl_dropRecs (x : Ctx) (lead : Bool) (rs : List Nat) :
    ∃ rings kept, rs.foldl (fun x r => x.dropRecs r lead) x = { x with rings := rings, kept := kept } := by
  induction rs generalizing x with
  | nil => exact ⟨_, _, rfl⟩
  | cons r rs ih => exact ih (x.dropRecs r lead)

theorem Ctx.rings_foldl_dropRecs (x : Ctx) (lead : Bool) {rs : List Nat} (distinct : rs.Nodup) (i : Nat) :
    nth (rs.foldl (fun x r => x.dropRecs r lead) x).rings i = if i ∈ rs then (nth x.rings i).dropped lead else nth x.rings i := by
  induction rs generalizing x with
  | nil => rfl
  | cons r rs ih =>
    obtain ⟨fresh, distinct⟩ := List.nodup_cons.1 distinct
    rw [List.foldl_cons, ih _ distinct, Ctx.dropRecs, nth_upd]
    by_cases own : i = r
    · subst own
      simp [fresh]
    · simp [own]

section
variable (s : State) (c : Nat) (lead : Bool)

theorem State.dropAllRecs_ctx : ∃ rings kept, (s.dropAllRecs c lead).ctx c = { s.ctx c with rings := rings, kept := kept } := by
  rw [State.ctx_dropAllRecs_self]
  exact Ctx.foldl_dropRecs ..

theorem State.ring_dropAllRecs {i : Nat} (h : i < 4) : (s.dropAllRecs c lead).ring c i = (s.ring c i).dropped lead := by
  rw [State.ring, State.ctx_dropAllRecs_self, Ctx.rings_foldl_dropRecs _ _ List.nodup_range, if_pos (List.mem_range.2 h), ← State.ring]

end

/-! ## The context left FAULTED -/

section
variable (s : State) (c cause : Nat)

theorem State.ctx_errAttn (d : Nat) : (s.errAttn c cause).ctx d = s.ctx d := rfl

theorem State.errAttn_frame : ∃ r, s.errAttn c cause = { s with regs := r } := ⟨_, rfl⟩

theorem State.errAttn_regs : SameRegs [Reg.ctxAttn c] s (s.errAttn c cause) := (SameRegs.setBitsIn s _ _).trans (.setFld _ _ _ _ _)

theorem State.ctx_fault_self : (s.fault_ c cause).ctx c = { s.ctx c with st := if (s.ctx c).st == .teardown then (s.ctx c).st else .faulted } :=
  State.ctx_updCtx_self ..

theorem State.ctx_fault_ne {e : Nat} (other : e ≠ c) : (s.fault_ c cause).ctx e = s.ctx e := by
  rw [State.fault_, State.ctx_errAttn, State.ctx_updCtx, if_neg other]

theorem State.fault_frame : RegsAndCtxs s (s.fault_ c cause) := ⟨_, _, rfl⟩

theorem State.fault_regs : SameRegs [Reg.ctxAttn c] s (s.fault_ c cause) := (SameRegs.updCtx _ s _ _).trans (State.errAttn_regs _ c cause)

end

/-! ## A launch that leaves -/

section
variable (s : State) (c : Nat) (l : Launch) (d : Decision)

theorem RegsAndCtxs.refl (s : State) : RegsAndCtxs s s := ⟨_, _, rfl⟩

theorem RegsAndCtxs.cells {s t : State} (h : RegsAndCtxs s t) : t.cells = s.cells := by
  obtain ⟨_, _, rfl⟩ := h
  rfl

theorem RegsAndCtxs.lanes {s t : State} (h : RegsAndCtxs s t) : t.lanes = s.lanes := by
  obtain ⟨_, _, rfl⟩ := h
  rfl

/-- The two parts of what follows a launch's end: error attention for an exception, and FAULTED for those that ask it. -/
def State.showsExc (s : State) (c : Nat) (d : Decision) : State := if 1 ≤ d.status && decide (d.status < 0x40) then s.errAttn c 1 else s

def State.faultsOn (s : State) (c : Nat) (d : Decision) : State :=
  if faultsCtx d.status && (s.ctx c).st == .active then (s.updCtx c fun x => { x with st := .faulted }).errAttn c 2 else s

theorem State.afterLaunch_eq : s.afterLaunch c d = (s.showsExc c d).faultsOn c d := rfl

theorem State.showsExc_frame : ∃ r, s.showsExc c d = { s with regs := r } := by
  unfold State.showsExc
  split
  · exact ⟨_, rfl⟩
  · exact ⟨s.regs, rfl⟩

theorem State.showsExc_regs : SameRegs [Reg.ctxAttn c] s (s.showsExc c d) := by
  unfold State.showsExc
  split
  · exact s.errAttn_regs c 1
  · exact .refl _ s

theorem RegsAndCtxs.faultsOn : RegsAndCtxs s (s.faultsOn c d) := by
  unfold State.faultsOn
  split
  · exact ⟨_, _, rfl⟩
  · exact .refl s

theorem State.faultsOn_regs : SameRegs [Reg.ctxAttn c] s (s.faultsOn c d) := by
  unfold State.faultsOn
  split
  · exact (SameRegs.updCtx _ s c _).trans (State.errAttn_regs _ c 2)
  · exact .refl _ s

theorem State.ctx_faultsOn_ne {e : Nat} (other : e ≠ c) : (s.faultsOn c d).ctx e = s.ctx e := by
  unfold State.faultsOn
  split
  · rw [State.ctx_errAttn, State.ctx_updCtx, if_neg other]
  · rfl

theorem State.ctx_faultsOn_self : ∃ st, (st = (s.ctx c).st ∨ st = .faulted) ∧ (s.faultsOn c d).ctx c = { s.ctx c with st := st } := by
  unfold State.faultsOn
  split
  · exact ⟨.faulted, .inr rfl, (State.ctx_errAttn ..).trans (State.ctx_updCtx_self ..)⟩
  · exact ⟨(s.ctx c).st, .inl rfl, rfl⟩

theorem State.ctx_showsExc (e : Nat) : (s.showsExc c d).ctx e = s.ctx e := by
  obtain ⟨r, eq⟩ := s.showsExc_frame c d
  rw [eq]
  rfl

theorem RegsAndCtxs.afterLaunch : RegsAndCtxs s (s.afterLaunch c d) := by
  obtain ⟨r, eq⟩ := s.showsExc_frame c d
  have first : RegsAndCtxs s (s.showsExc c d) := ⟨r, _, eq⟩
  exact first.trans (.faultsOn ..)

theorem State.afterLaunch_regs : SameRegs [Reg.ctxAttn c] s (s.afterLaunch c d) := (s.showsExc_regs c d).trans (State.faultsOn_regs _ c d)

theorem State.ctx_afterLaunch_ne {e : Nat} (other : e ≠ c) : (s.afterLaunch c d).ctx e = s.ctx e :=
  (State.ctx_faultsOn_ne _ c d other).trans (s.ctx_showsExc c d e)

theorem State.ctx_afterLaunch_self : ∃ st, (st = (s.ctx c).st ∨ st = .faulted) ∧ (s.afterLaunch c d).ctx c = { s.ctx c with st := st } := by
  obtain ⟨st, from_, eq⟩ := State.ctx_faultsOn_self (s.showsExc c d) c d
  rw [State.ctx_showsExc] at from_ eq
  exact ⟨st, from_, eq⟩

/-- A context without the launches of a number. -/
def Ctx.without (x : Ctx) (seq : Nat) : Ctx := { x with launches := x.launches.filter fun y => y.seq != seq }

theorem State.retire_frame : RegsAndCtxs s (s.retire c l d) :=
  RegsAndCtxs.trans ⟨_, _, rfl⟩ (RegsAndCtxs.afterLaunch _ c d)

theorem State.retire_regs : SameRegs [Reg.ctxAttn c] s (s.retire c l d) :=
  (SameRegs.updCtx _ s _ _).trans (State.afterLaunch_regs _ c d)

theorem State.ctx_retire_ne {e : Nat} (other : e ≠ c) : (s.retire c l d).ctx e = s.ctx e := by
  rw [State.retire, State.ctx_afterLaunch_ne _ _ _ other, State.ctx_updCtx, if_neg other]

theorem State.ctx_retire_self : ∃ st, (st = (s.ctx c).st ∨ st = .faulted) ∧ (s.retire c l d).ctx c = { (s.ctx c).without l.seq with st := st } := by
  obtain ⟨st, from_, after⟩ := State.ctx_afterLaunch_self (s.updCtx c fun x => { x with launches := x.launches.filter fun y => y.seq != l.seq }) c d
  rw [State.ctx_updCtx_self] at from_ after
  exact ⟨st, from_, after⟩

theorem Ctx.without_absent (x : Ctx) (seq : Nat) : ∀ y ∈ (x.without seq).launches, y.seq ≠ seq := fun y mem => by
  simpa using (List.mem_filter.1 mem).2

end

end Sys2Proof.Machine
end

section
/-! PROOFS. A completion record that cannot be written (O44, R206). -/
namespace Sys2Proof.Machine

open Sys2Proof

/-! ## The slot it goes to -/

theorem maskHas_fld (s : State) (o : Nat) {hi i : Nat} (inside : i < hi + 1) : maskHas (s.fld o hi 0) i = s.flag o i := by
  have has : maskHas (s.fld o hi 0) i = (s.fld o hi 0).testBit i := by
    rw [Nat.testBit_eq_decide_div_mod_eq]
    rfl
  rw [has, State.fld, bits, Nat.testBit_mod_two_pow, State.flag, bit_eq_getLsbD]
  simp [inside, BitVec.testBit_toNat]

theorem State.lowestUndel_eq {s : State} {c i : Nat} (inside : i < 4) (lowest : ∀ j, j ≤ i → (s.flag (Reg.ctxUndelStatus c) j = true ↔ j < i)) :
    s.lowestUndel c = some i := by
  have used (j : Nat) (le : j ≤ i) : maskHas (s.fld (Reg.ctxUndelStatus c) 3 0) j = decide (j < i) := by
    rw [maskHas_fld s _ (by omega), Bool.eq_iff_iff, lowest j le, decide_eq_true_eq]
  rw [State.lowestUndel, List.find?_range_eq_some]
  refine ⟨?_, List.mem_range.2 inside, fun j lt => ?_⟩
  · rw [used i le_rfl, decide_eq_false (Nat.lt_irrefl i)]
    rfl
  · rw [used j (Nat.le_of_lt lt), decide_eq_true lt]
    rfl

section
variable (s : State) (c i : Nat) (ws : List Word)

theorem State.putUndel_frame : ∃ r, s.putUndel c ws (some i) = { s with regs := r } := ⟨_, rfl⟩

theorem State.flag_putUndel (inside : i < 64) : (s.putUndel c ws (some i)).flag (Reg.ctxUndelStatus c) i = true := by
  rw [State.putUndel, State.flag_setBitsIn _ _ _ _ inside, Nat.testBit_two_pow_self, Bool.or_true]

theorem ctxUndel_inj {c i j k : Nat} (same : Reg.ctxUndel c i j = Reg.ctxUndel c i k) : j = k := by
  simp only [Reg.ctxUndel] at same
  omega

theorem State.reg_putUndel {j : Nat} (slot : i < 4) (inside : j < 4) : (s.putUndel c ws (some i)).reg (Reg.ctxUndel c i j) = nth ws j := by
  have apart : Reg.ctxUndel c i j ≠ Reg.ctxUndelStatus c := by
    simp only [Reg.ctxUndel, Reg.ctxUndelStatus]
    omega
  rw [State.putUndel, State.reg_setBitsIn, if_neg apart]
  simp only [List.range_succ, List.range_zero, List.nil_append, List.foldl_append, List.foldl_cons, List.foldl_nil, State.reg_setReg]
  have same (k : Nat) : Reg.ctxUndel c i j = Reg.ctxUndel c i k ↔ j = k := ⟨ctxUndel_inj, fun h => h ▸ rfl⟩
  simp only [same]
  split_ifs with h3 h2 h1 h0
  · rw [h3]
  · rw [h2]
  · rw [h1]
  · rw [h0]
  · omega

end

/-! ## The state it leaves -/

/-- The record placed in its slot, with the write of the completion ring ended. -/
def State.undelivered (s : State) (c i : Nat) (l : Launch) (d : Decision) : State :=
  (s.putUndel c (s.cqWords (s.ctx c).phase l d) (some i)).updCtx c fun x => { x with cq := .idle }

/-- What a failed write of the record comes to. -/
def State.writeFailed (s : State) (c i : Nat) (l : Launch) (d : Decision) : State :=
  ((((s.undelivered c i l d).retire c l d).dropAllRecs c false).fault_ c 3).criEvent 2

section
variable {s : State} {c i : Nat} {l : Launch} {rest : List Launch} {d : Decision}

theorem exec_completionWriteFault (head : (s.ctx c).launches = l :: rest) (decided : l.decision = some d) (failed : (s.ctx c).cq = .failed)
    (inside : i < 4) (lowest : ∀ j, j ≤ i → (s.flag (Reg.ctxUndelStatus c) j = true ↔ j < i)) :
    exec (.completionWriteFault c) s = .next (s.writeFailed c i l d) := by
  refine congrArg Host.Outcome.next (?_ : completionWriteFaultS c s = _)
  simp only [completionWriteFaultS, head, failed, decided, State.lowestUndel_eq inside lowest]
  rfl

variable (s c i l d)

theorem State.undelivered_frame : RegsAndCtxs s (s.undelivered c i l d) := by
  obtain ⟨r, puts⟩ := s.putUndel_frame c i (s.cqWords (s.ctx c).phase l d)
  have placed : RegsAndCtxs s (s.putUndel c (s.cqWords (s.ctx c).phase l d) (some i)) := ⟨r, s.ctxs, puts⟩
  exact placed.trans (.updCtx ..)

theorem State.ctx_undelivered_self : (s.undelivered c i l d).ctx c = { s.ctx c with cq := .idle } := by
  obtain ⟨r, puts⟩ := s.putUndel_frame c i (s.cqWords (s.ctx c).phase l d)
  rw [State.undelivered, State.ctx_updCtx_self, puts]
  rfl

theorem State.ctx_undelivered_ne {e : Nat} (other : e ≠ c) : (s.undelivered c i l d).ctx e = s.ctx e := by
  obtain ⟨r, puts⟩ := s.putUndel_frame c i (s.cqWords (s.ctx c).phase l d)
  rw [State.undelivered, State.ctx_updCtx, if_neg other, puts]
  rfl

theorem State.writeFailed_reg {o : Nat} (attn : o ≠ Reg.ctxAttn c) (event : o ≠ Reg.criEvent) :
    (s.writeFailed c i l d).reg o = (s.undelivered c i l d).reg o := by
  have outside : o ∉ [Reg.ctxAttn c] := by simpa using attn
  rw [State.writeFailed, State.criEvent, State.reg_setBitsIn, if_neg event, State.fault_regs _ c 3 o outside, State.reg_dropAllRecs,
    State.retire_regs _ c l d o outside]

theorem State.cells_writeFailed : (s.writeFailed c i l d).cells = s.cells := by
  rw [State.writeFailed, State.criEvent, State.setBitsIn, State.setReg_cells, (State.fault_frame _ c 3).cells, State.cells_dropAllRecs,
    (State.retire_frame _ c l d).cells, (State.undelivered_frame s c i l d).cells]

theorem State.lanes_writeFailed : (s.writeFailed c i l d).lanes = s.lanes := by
  rw [State.writeFailed, State.criEvent, State.setBitsIn, State.setReg_lanes, (State.fault_frame _ c 3).lanes, State.lanes_dropAllRecs,
    (State.retire_frame _ c l d).lanes, (State.undelivered_frame s c i l d).lanes]

theorem State.ctx_criEvent (m e : Nat) : (s.criEvent m).ctx e = s.ctx e := rfl

theorem State.ctx_writeFailed_ne {e : Nat} (other : e ≠ c) : (s.writeFailed c i l d).ctx e = s.ctx e := by
  rw [State.writeFailed, State.ctx_criEvent, State.ctx_fault_ne _ c 3 other, State.ctx_dropAllRecs_ne _ c false other,
    State.ctx_retire_ne _ c l d other, State.ctx_undelivered_ne _ _ _ _ _ other]

theorem State.ctx_writeFailed_self (standing : (s.ctx c).st ≠ .teardown) : ∃ rings kept,
    (s.writeFailed c i l d).ctx c = { (s.ctx c).without l.seq with st := .faulted, cq := .idle, rings := rings, kept := kept } := by
  obtain ⟨st, from_, retires⟩ := (s.undelivered c i l d).ctx_retire_self c l d
  obtain ⟨rings, kept, drops⟩ := ((s.undelivered c i l d).retire c l d).dropAllRecs_ctx c false
  rw [State.ctx_undelivered_self] at from_ retires
  have stays : (st == .teardown) = false := by
    rcases from_ with h | h
    · simpa [h] using standing
    · rw [h]; rfl
  refine ⟨rings, kept, ?_⟩
  rw [State.writeFailed, State.ctx_criEvent, State.ctx_fault_self, drops, retires]
  simp only [stays]
  rfl

end

/-- The clause of O44 on a record that cannot be written. -/
theorem completion_write_fails {s : State} {c i : Nat} {l : Launch} {rest : List Launch} {d : Decision} (head : (s.ctx c).launches = l :: rest)
    (decided : l.decision = some d) (failed : (s.ctx c).cq = .failed) (standing : (s.ctx c).st ≠ .teardown) (inside : i < 4)
    (lowest : ∀ j, j ≤ i → (s.flag (Reg.ctxUndelStatus c) j = true ↔ j < i)) :
    ∃ t, exec (.completionWriteFault c) s = .next t ∧ t.flag (Reg.ctxUndelStatus c) i = true ∧ t.reg (Reg.ctxUndel c i 1) = word d.where_ ∧
      t.reg (Reg.ctxUndel c i 3) = word d.arg ∧ (t.ctx c).st = .faulted ∧ (t.ctx c).cq = .idle ∧ (∀ x ∈ (t.ctx c).launches, x.seq ≠ l.seq) ∧
      t.flag Reg.criEvent 1 = true ∧ t.cells = s.cells ∧ t.lanes = s.lanes ∧ ∀ e, e ≠ c → t.ctx e = s.ctx e := by
  obtain ⟨rings, kept, own⟩ := s.ctx_writeFailed_self c i l d standing
  have slot (j : Nat) : Reg.ctxUndel c i j ≠ Reg.ctxAttn c ∧ Reg.ctxUndel c i j ≠ Reg.criEvent := by
    simp only [Reg.ctxUndel, Reg.ctxAttn, Reg.criEvent]
    omega
  have status : Reg.ctxUndelStatus c ≠ Reg.ctxAttn c ∧ Reg.ctxUndelStatus c ≠ Reg.criEvent := by
    simp only [Reg.ctxUndelStatus, Reg.ctxAttn, Reg.criEvent]
    omega
  have words (j : Nat) (h : j < 4) : (s.writeFailed c i l d).reg (Reg.ctxUndel c i j) = nth (s.cqWords (s.ctx c).phase l d) j := by
    rw [State.writeFailed_reg _ _ _ _ _ (slot j).1 (slot j).2, State.undelivered, State.reg_updCtx, State.reg_putUndel _ _ _ _ inside h]
  refine ⟨_, exec_completionWriteFault head decided failed inside lowest, ?_, words 1 (by decide), words 3 (by decide), ?_, ?_, ?_, ?_,
    s.cells_writeFailed c i l d, s.lanes_writeFailed c i l d, fun e other => s.ctx_writeFailed_ne c i l d other⟩
  · rw [State.flag, State.writeFailed_reg _ _ _ _ _ status.1 status.2, State.undelivered, State.reg_updCtx]
    exact State.flag_putUndel _ _ _ _ (by omega)
  · rw [own]
  · rw [own]
  · rw [own]
    exact Ctx.without_absent _ _
  · rw [State.writeFailed, State.criEvent, State.flag_setBitsIn _ _ _ _ (by decide)]
    exact Bool.or_true _

end Sys2Proof.Machine
end

section
/-! SUPPORT. What the closing of a launch leaves alone: the lanes it still holds are freed, its gaps settled, its figures accounted for, and none
of this touches what its completion record is formed from, or where the record goes (R70, R199, R336). -/
namespace Sys2Proof.Machine

open Sys2Proof

/-! ## The relation -/

/-- Registers that closing a launch of a context may write: filler counts of tiles, the context's attention, NUM registers and user counters. -/
def FigureReg (c o : Nat) : Prop :=
  0x10000 ≤ o ∧ o < 0x18000 ∨ 0x200000 + 0x1000 * c ≤ o ∨ o = Reg.ctxAttn c ∨ o = Reg.ctxNumStatus c ∨ o = Reg.ctxNumTotal c

/-- A launch but for the events of its window. -/
def Launch.unfilled (l : Launch) : Launch := { l with events := [] }

/-- A launch but for the figures that closing it moves. -/
def Launch.unclosed (l : Launch) : Launch :=
  { l with events := [], accSat := 0, convSat := 0, nan := false, calib := false, ended := [], accounted := false }

/-- A context but for its figures, and for those of its launches that `p` leaves out. -/
def Ctx.core (p : Launch → Launch) (x : Ctx) : Ctx := { x with launches := x.launches.map p, fillEvents := 0, calibSet := none, energy := 0 }

/-- Only figures, lanes and power differ between two states; `p` says which figures of launches may. -/
structure Closing (p : Launch → Launch) (c : Nat) (s t : State) : Prop where
  frame : ∃ regs ctxs lanes tiles power free out,
    t = { s with regs := regs, ctxs := ctxs, lanes := lanes, tiles := tiles, power := power, free := free, out := out }
  leases : ∀ k, (t.tile k).lease = (s.tile k).lease
  ctxs : ∀ d, (t.ctx d).core p = (s.ctx d).core p
  regs : ∀ o, ¬FigureReg c o → t.reg o = s.reg o

namespace Closing

section
variable {p : Launch → Launch} {c : Nat}

theorem refl (s : State) : Closing p c s s := ⟨⟨_, _, _, _, _, _, _, rfl⟩, fun _ => rfl, fun _ => rfl, fun _ _ => rfl⟩

theorem trans {s t u : State} (h : Closing p c s t) (k : Closing p c t u) : Closing p c s u where
  frame := by
    obtain ⟨_, _, _, _, _, _, _, rfl⟩ := h.frame
    obtain ⟨_, _, _, _, _, _, _, rfl⟩ := k.frame
    exact ⟨_, _, _, _, _, _, _, rfl⟩
  leases t := (k.leases t).trans (h.leases t)
  ctxs d := (k.ctxs d).trans (h.ctxs d)
  regs o ho := (k.regs o ho).trans (h.regs o ho)

/-- The same, from the last step backwards. -/
theorem after {s t u : State} (k : Closing p c t u) (h : Closing p c s t) : Closing p c s u := h.trans k

/-! ## Updates of one unit -/

theorem setReg (s : State) {o : Nat} (figure : FigureReg c o) (v : Word) : Closing p c s (s.setReg o v) where
  frame := ⟨_, s.ctxs, s.lanes, s.tiles, s.power, s.free, s.out, rfl⟩
  leases _ := rfl
  ctxs _ := rfl
  regs o' ho := by
    have apart : o' ≠ o := fun same => ho (same ▸ figure)
    rw [State.reg_setReg, if_neg apart]

theorem setFld (s : State) {o : Nat} (figure : FigureReg c o) (hi lo v : Nat) : Closing p c s (s.setFld o hi lo v) := setReg s figure _
theorem setBitsIn (s : State) {o : Nat} (figure : FigureReg c o) (m : Nat) : Closing p c s (s.setBitsIn o m) := setReg s figure _
theorem incSat (s : State) {o : Nat} (figure : FigureReg c o) (hi lo n : Nat) : Closing p c s (s.incSat o hi lo n) := setReg s figure _
theorem incWrap (s : State) {o : Nat} (figure : FigureReg c o) (hi lo n : Nat) : Closing p c s (s.incWrap o hi lo n) := setReg s figure _

theorem updLane (s : State) (l : LaneId) (f : Lane → Lane) : Closing p c s (s.updLane l f) :=
  ⟨⟨s.regs, s.ctxs, _, s.tiles, s.power, s.free, s.out, rfl⟩, fun _ => rfl, fun _ => rfl, fun _ _ => rfl⟩

theorem updPower (s : State) (f : Power → Power) : Closing p c s (s.updPower f) :=
  ⟨⟨s.regs, s.ctxs, s.lanes, s.tiles, _, s.free, s.out, rfl⟩, fun _ => rfl, fun _ => rfl, fun _ _ => rfl⟩

theorem emit (s : State) (o : Out) : Closing p c s (s.emit o) :=
  ⟨⟨s.regs, s.ctxs, s.lanes, s.tiles, s.power, s.free, _, rfl⟩, fun _ => rfl, fun _ => rfl, fun _ _ => rfl⟩

theorem draw (s : State) : Closing p c s s.draw.2 :=
  ⟨⟨s.regs, s.ctxs, s.lanes, s.tiles, s.power, _, s.out, rfl⟩, fun _ => rfl, fun _ => rfl, fun _ _ => rfl⟩

theorem updTile (s : State) (t : Nat) {f : Tile → Tile} (keeps : ∀ x, (f x).lease = x.lease) : Closing p c s (s.updTile t f) where
  frame := ⟨s.regs, s.ctxs, s.lanes, _, s.power, s.free, s.out, rfl⟩
  leases k := by
    rw [State.tile_updTile]
    split
    next same => rw [keeps, same]
    next => rfl
  ctxs _ := rfl
  regs _ _ := rfl

theorem updCtx (s : State) (d : Nat) {f : Ctx → Ctx} (keeps : ∀ x, (f x).core p = x.core p) : Closing p c s (s.updCtx d f) where
  frame := ⟨s.regs, _, s.lanes, s.tiles, s.power, s.free, s.out, rfl⟩
  leases _ := rfl
  ctxs e := by
    rw [State.ctx_updCtx]
    split
    next same => rw [keeps, same]
    next => rfl
  regs o _ := State.reg_updCtx ..

theorem updLaunch (s : State) (d q : Nat) {f : Launch → Launch} (keeps : ∀ y, p (f y) = p y) : Closing p c s (s.updLaunch d q f) := by
  refine updCtx s d fun x => ?_
  have same : (p ∘ fun l => if l.seq == q then f l else l) = p := by
    funext y
    dsimp only [Function.comp]
    split
    · exact keeps y
    · rfl
  rw [Ctx.core, Ctx.core, Ctx.updLaunch, List.map_map, same]

/-! ## Lanes freed -/

theorem writeVolt (s : State) (opp : Nat) (rs : List Nat) : Closing p c s (s.writeVolt opp rs) := by
  induction rs generalizing s with
  | nil => exact .refl s
  | cons r rs ih =>
    rw [State.writeVolt]
    split
    · exact (emit s _).trans (ih _)
    · exact ih s

theorem setVolt (s : State) (opp : Nat) : Closing p c s (s.setVolt opp) := (writeVolt s opp _).trans (updPower _ _)

theorem startTransition (s : State) (target : Nat) (at_ : Option Nat) : Closing p c s (s.startTransition target at_) := by
  unfold State.startTransition
  split
  · split
    · exact updPower s _
    · exact (setVolt s target).trans (updPower _ _)
  · split
    · exact (setVolt s target).trans (updPower _ _)
    · exact updPower s _

theorem redecide (s : State) : Closing p c s s.redecide := by
  unfold State.redecide
  dsimp only
  split
  · exact .refl s
  · exact (updPower s _).trans (startTransition _ _ _)

end

section
variable {c : Nat}

theorem notesCalib (s : State) (l : LaneId) : Closing Launch.unclosed c s (s.notesCalib l) :=
  (updLane s l _).trans (trans (t := ((s.updLane l _).updLaunch _ _ fun y => { y with calib := true })) (updLaunch _ _ _ fun _ => rfl)
    (updCtx _ _ (f := fun y => { y with calibSet := some s.cyc }) fun _ => rfl))

theorem showsCalib (s : State) {o : Nat} (figure : FigureReg c o) (first : Bool) (ord seq : Nat) :
    Closing Launch.unclosed c s (s.showsCalib o first ord seq) := by
  cases first with
  | false => exact setBitsIn s figure 1
  | true => exact ((setFld s figure 11 8 ord).trans (setFld _ figure 47 32 seq)).trans (setBitsIn _ figure 1)

theorem attendsCalib (s : State) (irq : Bool) : Closing Launch.unclosed c s (s.attendsCalib c irq) := by
  cases irq with
  | false => exact .refl s
  | true => exact setBitsIn s (.inr (.inr (.inl rfl))) 4

theorem calibrationEventS {s : State} {l : LaneId} (own : (s.lane l).ctx = c) : Closing Launch.unclosed c s (calibrationEventS l s) := by
  by_cases due : (s.lane l).st ≠ .idle ∧ (s.lane l).calib = false ∧ 0 < (s.lane l).threshold ∧
      (s.lane l).threshold ≤ (s.lane l).accSat + (s.lane l).convSat
  · obtain ⟨runs, unmarked, enabled, reached⟩ := due
    have eq := Host.Outcome.next.inj (exec_calibrationEvent runs unmarked enabled reached)
    rw [eq, own]
    exact ((notesCalib s l).trans (showsCalib _ (.inr (.inr (.inr (.inl rfl)))) _ _ _)).trans (attendsCalib _ _)
  · have skips : Machine.calibrationEventS l s = s := if_pos (by
      by_contra no
      simp only [Bool.or_eq_true, not_or, beq_iff_eq, decide_eq_true_eq, Bool.not_eq_true] at no
      exact due ⟨no.1.1.1, no.1.1.2, Nat.pos_of_ne_zero no.1.2, Nat.le_of_not_lt no.2⟩)
    rw [skips]
    exact .refl s

/-- The tiles of a cluster note that its lane fell idle. -/
theorem idles (s : State) (f : Nat → Tile → Tile) (keeps : ∀ t x, (f t x).lease = x.lease) :
    Closing Launch.unclosed c s { s with tiles := s.tiles.mapIdx f } where
  frame := ⟨s.regs, s.ctxs, s.lanes, _, s.power, s.free, s.out, rfl⟩
  leases k := by
    simp only [State.tile, nth, List.getD_eq_getElem?_getD, List.getElem?_mapIdx]
    cases s.tiles[k]? with
    | none => rfl
    | some x => exact keeps k x
  ctxs _ := rfl
  regs _ _ := rfl

theorem freeLane {s : State} {l : LaneId} (own : (s.lane l).ctx = c) : Closing Launch.unclosed c s (s.freeLane l) := by
  unfold State.freeLane
  refine (calibrationEventS own).trans ((updLaunch _ _ _ ?figures).trans ((idles _ _ ?idle).trans ((updLane _ l _).trans (redecide _))))
  case figures => exact fun _ => rfl
  case idle =>
    intro t x
    split <;> rfl

theorem freeLanes (s : State) (seq : Nat) (ls : List LaneId) : Closing Launch.unclosed c s (s.freeLanes c seq ls) := by
  induction ls generalizing s with
  | nil => exact .refl s
  | cons l r ih =>
    rw [State.freeLanes]
    split
    next held =>
      simp only [Bool.and_eq_true, beq_iff_eq] at held
      exact (freeLane held.1.2).trans ((updLane _ l _).trans (ih _))
    next => exact (updLane _ l _).trans (ih _)

/-! ## Gaps settled -/

section
variable {p : Launch → Launch} (fills : ∀ l : Launch, ∀ e, p { l with events := e } = p l)
include fills

theorem energyEvent (s : State) (d seq k n : Nat) : Closing p c s (s.energyEvent d seq k n) := by
  unfold State.energyEvent
  refine after (updPower _ _) (updLaunch s d seq ?_)
  exact fun y => fills y _

theorem fillers (s : State) {t : Nat} (tile : t < 16) (n : Nat) : Closing p c s (s.fillers t n) := by
  have figure : FigureReg c (Reg.sthArmFillcnt (t / 4) (t % 4)) := .inl (by simp only [Reg.sthArmFillcnt]; omega)
  unfold State.fillers
  dsimp only
  split
  · split
    · exact after (energyEvent fills _ _ _ _ _) (incWrap s figure _ _ _)
    · refine after (updPower _ _) (after (updCtx _ _ ?_) (incWrap s figure _ _ _))
      exact fun _ => rfl
  · exact incWrap s figure _ _ _

theorem settleGap (s : State) {t : Nat} (tile : t < 16) : Closing p c s (s.settleGap t) := by
  unfold State.settleGap
  split
  · dsimp only
    split
    · exact .refl s
    · refine after (fillers fills _ tile _) (after (updTile _ t ?_) (draw s))
      exact fun _ => rfl
  · exact .refl s

theorem settleGaps (s : State) {ts : List Nat} (tiles : ∀ t ∈ ts, t < 16) : Closing p c s (s.settleGaps ts) := by
  induction ts generalizing s with
  | nil => exact .refl s
  | cons t r ih =>
    exact (settleGap fills s (tiles t List.mem_cons_self)).trans (ih _ fun k mem => tiles k (List.mem_cons_of_mem t mem))

end

theorem leaseTiles_lt (s : State) (d : Nat) : ∀ t ∈ s.leaseTiles d, t < 16 := fun _ mem => List.mem_range.1 (List.mem_filter.1 mem).1

/-! ## The accounts (R336) -/

theorem takeEnergy (s : State) (d : Nat) (l : Launch) : Closing Launch.unclosed c s (s.takeEnergy d l).2 := by
  refine after (updLaunch _ _ _ ?_) (updPower s _)
  exact fun _ => rfl

theorem addWork (s : State) (j : Nat) (ns : List Nat) : Closing Launch.unclosed c s (s.addWork c j ns) := by
  induction ns generalizing s j with
  | nil => exact .refl s
  | cons n r ih => exact (incWrap s (.inr (.inl (by simp only [Reg.ctxUcnt]; omega))) _ _ _).trans (ih _ _)

theorem accountLaunch (s : State) (l : Launch) : Closing Launch.unclosed c s (s.accountLaunch c l) := by
  unfold State.accountLaunch
  split
  · exact .refl s
  · have user (o : Nat) (h : 0x200000 + 0x1000 * c ≤ o) : FigureReg c o := .inr (.inl h)
    have total : FigureReg c (Reg.ctxNumTotal c) := .inr (.inr (.inr (.inr rfl)))
    have status : FigureReg c (Reg.ctxNumStatus c) := .inr (.inr (.inr (.inl rfl)))
    refine after (setBitsIn _ status _) (after (incSat _ total _ _ _) (after (incSat _ total _ _ _) (after (setReg _ (user _ ?ulast) _)
      (after (setReg _ (user _ ?uenergy) _) (after (updCtx _ c ?total) (after (incWrap _ (user _ ?ucnt) _ _ _) (after (addWork _ 0 l.work)
        (takeEnergy s c l))))))))
    case total => exact fun _ => rfl
    case ucnt => simp only [Reg.ctxUcnt]; omega
    case uenergy => simp only [Reg.ctxUenergy]; omega
    case ulast => simp only [Reg.ctxUlast]; omega

theorem account (s : State) (seq : Nat) : Closing Launch.unclosed c s (s.account c seq) := by
  have settles : Closing Launch.unclosed c s (s.settleGaps (s.leaseTiles c)) := settleGaps (fun _ _ => rfl) s (leaseTiles_lt s c)
  unfold State.account
  dsimp only
  split
  · exact settles.trans (accountLaunch _ _)
  · exact settles

end

end Closing

end Sys2Proof.Machine
end

section
/-! PROOFS. A launch that ends at a member of a gang (O44, R291, R459). -/
namespace Sys2Proof.Machine

open Sys2Proof

/-! ## The launch found again -/

theorem Ctx.launch?_map {p : Launch → Launch} (keeps : ∀ l, (p l).seq = l.seq) (x : Ctx) (q : Nat) :
    (x.core p).launch? q = (x.launch? q).map p := by
  have same : (fun l : Launch => l.seq == q) ∘ p = fun l => l.seq == q := by
    funext l
    simp [keeps]
  rw [Ctx.launch?, Ctx.core, List.find?_map, same, ← Ctx.launch?]

/-- What closing a launch leaves of it. -/
theorem Closing.launch? {p : Launch → Launch} {c : Nat} {s t : State} (h : Closing p c s t) (keeps : ∀ l, (p l).seq = l.seq) {d q : Nat} {l : Launch}
    (found : (s.ctx d).launch? q = some l) : ∃ l', (t.ctx d).launch? q = some l' ∧ p l' = p l := by
  have same : ((t.ctx d).launch? q).map p = some (p l) := by
    rw [← Ctx.launch?_map keeps, h.ctxs, Ctx.launch?_map keeps, found]
    rfl
  exact Option.map_eq_some_iff.1 same

theorem Closing.cells {p : Launch → Launch} {c : Nat} {s t : State} (h : Closing p c s t) : t.cells = s.cells := by
  obtain ⟨_, _, _, _, _, _, _, rfl⟩ := h.frame
  rfl

/-! ## Lanes that do not run the launch -/

/-- Does the lane run the launch? -/
def Lane.runs (c seq : Nat) (x : Lane) : Bool := x.st != .idle && x.ctx == c && x.seq == seq

/-- Where no lane runs the launch, none is freed; the launch leaves their queues. -/
theorem State.freeLanes_idle {s : State} {c seq : Nat} {ls : List LaneId} (idle : ∀ l ∈ ls, (s.lane l).runs c seq = false) :
    ∃ lanes, s.freeLanes c seq ls = { s with lanes := lanes } := by
  induction ls generalizing s with
  | nil => exact ⟨s.lanes, rfl⟩
  | cons l r ih =>
    have here : ((s.lane l).st != .idle && (s.lane l).ctx == c && (s.lane l).seq == seq) = false := idle l List.mem_cons_self
    rw [State.freeLanes]
    simp only [here, Bool.false_eq_true, if_false]
    refine ih fun k mem => ?_
    have before := idle k (List.mem_cons_of_mem l mem)
    rw [State.lane_updLane]
    split
    next same =>
      have lane : s.lane l = s.lane k := by rw [State.lane, State.lane, same]
      rw [lane]
      split <;> exact before
    next => exact before

theorem State.runs_of_lanesOf {s : State} {c seq : Nat} (idle : s.lanesOf c seq = []) : ∀ l ∈ s.allLanes, (s.lane l).runs c seq = false :=
  fun l mem => by simpa [Lane.runs] using List.filter_eq_nil_iff.1 idle l mem

/-! ## The clause of O44 -/

theorem launch?_seq {x : Ctx} {q : Nat} {l : Launch} (found : x.launch? q = some l) : l.seq = q := by simpa using List.find?_some found

theorem endReportS_fromLead {s : State} {c seq : Nat} {l : Launch} (found : (s.ctx c).launch? seq = some l) (lead : l.fromLead = true) :
    endReportS c seq none s = s.memberEnd c l := by
  simp only [endReportS, found, lead, if_true]

/-- The member's share as it is reported: the launch leaves the context, and its figures go to the lead. -/
def State.reportsEnd (s : State) (c seq : Nat) (l : Launch) : State :=
  ((s.takeEnergy c l).2.updCtx c fun x => x.without seq).emit
    (.gangEnd c seq ⟨(s.takeEnergy c l).1, l.runSt, l.thrSt, l.unrec, l.work, l.accSat, l.convSat, l.nan, l.calib⟩)

theorem State.memberEnd_still {s : State} {c seq : Nat} {l : Launch} (found : (s.ctx c).launch? seq = some l) (live : l.live = [])
    (still : s.launchStill c seq = true) (idle : s.lanesOf c seq = []) :
    ∃ u l', Closing Launch.unfilled c s u ∧ l'.unfilled = l.unfilled ∧ s.memberEnd c l = u.reportsEnd c seq l' := by
  obtain ⟨lanes, frees⟩ := State.freeLanes_idle (State.runs_of_lanesOf idle)
  have num := launch?_seq found
  have freed : Closing Launch.unfilled c s { s with lanes := lanes } :=
    ⟨⟨s.regs, s.ctxs, lanes, s.tiles, s.power, s.free, s.out, rfl⟩, fun _ => rfl, fun _ => rfl, fun _ _ => rfl⟩
  have settled : Closing Launch.unfilled c s (({ s with lanes := lanes } : State).settleGaps (s.leaseTiles c)) :=
    freed.trans (Closing.settleGaps (fun _ _ => rfl) _ (Closing.leaseTiles_lt s c))
  obtain ⟨l', found', same⟩ := settled.launch? (fun _ => rfl) found
  refine ⟨_, l', settled, same, ?_⟩
  have goes : ¬(!l.live.isEmpty && l.stage != .stopping || !s.launchStill c l.seq) = true := by simp [live, num, still]
  rw [State.memberEnd, if_neg goes, num, frees]
  have tiles : ({ s with lanes := lanes } : State).leaseTiles c = s.leaseTiles c := rfl
  have num' := launch?_seq found'
  simp only [found', Option.getD_some, num']
  rfl

theorem State.memberEnd_waits {s : State} {c : Nat} {l : Launch} (live : l.live ≠ []) (runs : l.stage ≠ .stopping) : s.memberEnd c l = s :=
  if_pos (by simp [live, runs])

/-- A member reports its share and its first exception to the lead. -/
theorem member_reports {s : State} {c seq : Nat} {l : Launch} (found : (s.ctx c).launch? seq = some l) (lead : l.fromLead = true) :
    (l.live = [] → s.launchStill c seq = true → s.lanesOf c seq = [] →
      ∃ t f, exec (.endReport c ⟨seq, none⟩) s = .next t ∧ (∀ x ∈ (t.ctx c).launches, x.seq ≠ seq) ∧ Out.gangEnd c seq f ∈ t.out ∧
        f.accSat = l.accSat ∧ f.convSat = l.convSat ∧ f.nan = l.nan ∧ f.calib = l.calib ∧ t.cells = s.cells) ∧
    (l.live ≠ [] → l.stage ≠ .stopping → exec (.endReport c ⟨seq, none⟩) s = .next s) ∧
    (∀ e, l.decision = none → firstExc l.excs = some e →
      ∃ t, exec (.exceptionReport c ⟨seq, none⟩) s = .next t ∧ t = { s with ctxs := t.ctxs, out := t.out } ∧
        (t.ctx c).launch? seq = some { l with decision := some ⟨e.exc.code, e.exc.pc, e.exc.arg, e.exc.operand, e.exc.tile, e.cluster⟩ } ∧
        t.out = s.out ++ [.gangReport c seq ⟨e.time, e.cluster % 16, e.opNo, e.exc.code, e.exc.pc, e.exc.arg, e.exc.operand, e.exc.tile⟩]) := by
  refine ⟨fun live still idle => ?ends, fun live runs => ?waits, fun e open_ first => ?exception⟩
  case ends =>
    obtain ⟨u, l', closing, same, ends⟩ := State.memberEnd_still found live still idle
    have accSat := congrArg Launch.accSat same
    have convSat := congrArg Launch.convSat same
    have nan := congrArg Launch.nan same
    have calib := congrArg Launch.calib same
    refine ⟨_, _, congrArg Host.Outcome.next ((endReportS_fromLead found lead).trans ends), ?_, List.mem_append_right _ (List.mem_singleton_self _),
      accSat, convSat, nan, calib, closing.cells⟩
    have left : ((u.reportsEnd c seq l').ctx c) = ((u.takeEnergy c l').2.ctx c).without seq := State.ctx_updCtx_self ..
    rw [left]
    exact Ctx.without_absent _ _
  case waits => exact congrArg Host.Outcome.next ((endReportS_fromLead found lead).trans (State.memberEnd_waits live runs))
  case exception =>
    exact ⟨_, congrArg Host.Outcome.next (exceptionReportS_reports found open_ first lead), rfl, State.launch?_updLaunch found fun _ => rfl, rfl⟩

end Sys2Proof.Machine
end

section
/-! SUPPORT. Bytes and words, and what placing a record on the completion ring leaves (R199 to R202). -/
namespace Sys2Proof.Machine

open Sys2Proof

/-! ## Words as bytes -/

theorem length_leBytes (n v : Nat) : (leBytes n v).length = n := by
  induction n generalizing v with
  | zero => rfl
  | succ n ih => rw [leBytes, List.length_cons, ih]

theorem leNat_leBytes (n v : Nat) : leNat (leBytes n v) = v % 256 ^ n := by
  induction n generalizing v with
  | zero => simp [leBytes, leNat, Nat.mod_one]
  | succ n ih =>
    have byte : (BitVec.ofNat 8 v).toNat = v % 256 := BitVec.toNat_ofNat ..
    rw [leBytes, leNat, ih, byte, Nat.pow_succ', Nat.mod_mul]

theorem leNat_leBytes_word (w : Word) : leNat (leBytes 8 w.toNat) = w.toNat := by
  rw [leNat_leBytes]
  exact Nat.mod_eq_of_lt w.isLt

theorem toNat_word (n : Nat) : (word n).toNat = n % 2 ^ 64 := BitVec.toNat_ofNat ..

/-- The bytes of four words. -/
def recordBytes (ws : List Word) : List Byte := (ws.map fun w => leBytes 8 w.toNat).flatten

theorem length_recordBytes (a b c d : Word) : (recordBytes [a, b, c, d]).length = 32 := by
  simp [recordBytes, length_leBytes]

section
variable (a b c d : Word)

theorem recordBytes_four : recordBytes [a, b, c, d] = leBytes 8 a.toNat ++ (leBytes 8 b.toNat ++ (leBytes 8 c.toNat ++ leBytes 8 d.toNat)) := by
  simp [recordBytes]

theorem leNat_recordBytes_first : leNat ((recordBytes [a, b, c, d]).take 8) = a.toNat := by
  rw [recordBytes_four, List.take_left' (length_leBytes 8 _), leNat_leBytes_word]

theorem leNat_recordBytes_second : leNat (((recordBytes [a, b, c, d]).drop 8).take 8) = b.toNat := by
  rw [recordBytes_four, List.drop_left' (length_leBytes 8 _), List.take_left' (length_leBytes 8 _), leNat_leBytes_word]

theorem leNat_recordBytes_last : leNat ((recordBytes [a, b, c, d]).drop 24) = d.toNat := by
  have three : (leBytes 8 a.toNat ++ (leBytes 8 b.toNat ++ leBytes 8 c.toNat)).length = 24 := by simp [length_leBytes]
  have joined : recordBytes [a, b, c, d] = (leBytes 8 a.toNat ++ (leBytes 8 b.toNat ++ leBytes 8 c.toNat)) ++ leBytes 8 d.toNat := by
    simp [recordBytes]
  rw [joined, List.drop_left' three, leNat_leBytes_word]

end

theorem State.rdBytes_take (s : State) (a m n : Nat) (h : m ≤ n) : s.rdBytes a m = (s.rdBytes a n).take m := by
  rw [State.rdBytes, State.rdBytes, ← List.map_take, List.take_range, Nat.min_eq_left h]

theorem State.rdBytes_drop (s : State) (a k n : Nat) : s.rdBytes (a + k) n = (s.rdBytes a (k + n)).drop k := by
  apply List.ext_getElem
  · simp [State.rdBytes]
  · intro i h1 h2
    simp [State.rdBytes, Nat.add_assoc]

/-! ## A record in memory -/

theorem State.markDirty_cells (s : State) (a : Nat) : (s.markDirty a).cells = s.cells := by
  unfold State.markDirty
  split <;> rfl

theorem State.store_cells (s : State) (a : Nat) (bs : List Byte) : (s.store a bs).cells = (s.wrBytes a bs).cells := by
  unfold State.store
  dsimp only
  split
  · rfl
  · rw [State.markDirty_cells, State.markDirty_cells]

theorem State.markDirty_frame (s : State) (a : Nat) : ∃ tiles, s.markDirty a = { s with tiles := tiles } := by
  unfold State.markDirty
  split
  · exact ⟨_, rfl⟩
  · exact ⟨_, rfl⟩
  · exact ⟨s.tiles, rfl⟩

theorem State.store_frame (s : State) (a : Nat) (bs : List Byte) : ∃ cells tiles, s.store a bs = { s with cells := cells, tiles := tiles } := by
  have wrote : s.wrBytes a bs = { s with cells := (s.wrBytes a bs).cells } :=
    congrArg (fun t : State => { t with cells := (s.wrBytes a bs).cells }) (s.wrBytes_frame a bs)
  unfold State.store
  dsimp only
  split
  · exact ⟨_, s.tiles, wrote⟩
  · obtain ⟨t1, first⟩ := (s.wrBytes a bs).markDirty_frame a
    obtain ⟨t2, second⟩ := ((s.wrBytes a bs).markDirty a).markDirty_frame (a + bs.length - 1)
    rw [second, first, wrote]
    exact ⟨_, _, rfl⟩

theorem State.rd_of_cells {s t : State} (h : t.cells = s.cells) (a : Nat) : t.rd a = s.rd a := by
  rw [State.rd, State.rd, h]

theorem State.rdBytes_of_cells {s t : State} (h : t.cells = s.cells) (a n : Nat) : t.rdBytes a n = s.rdBytes a n := by
  simp only [State.rdBytes, State.rd_of_cells h]

/-- What a record of four words stored at an address reads as. -/
theorem State.rdNat_record {s t : State} {a : Nat} {w0 w1 w2 w3 : Word} (h : t.cells = (s.wrBytes a (recordBytes [w0, w1, w2, w3])).cells) :
    t.rdNat a 8 = w0.toNat ∧ t.rdNat (a + 8) 8 = w1.toNat ∧ t.rdNat (a + 24) 8 = w3.toNat := by
  have all : t.rdBytes a 32 = recordBytes [w0, w1, w2, w3] := by
    rw [State.rdBytes_of_cells h, ← length_recordBytes w0 w1 w2 w3, State.rdBytes_wrBytes]
  refine ⟨?_, ?_, ?_⟩
  · rw [State.rdNat, State.rdBytes_take t a 8 32 (by decide), all, leNat_recordBytes_first]
  · rw [State.rdNat, State.rdBytes_drop, State.rdBytes_take t a 16 32 (by decide), all, List.drop_take, leNat_recordBytes_second]
  · rw [State.rdNat, State.rdBytes_drop, all, leNat_recordBytes_last]

/-! ## The record's first word (R200) -/

theorem fields_nil : fields [] = 0 := rfl

theorem fields_cons (lo v : Nat) (r : List (Nat × Nat)) : fields ((lo, v) :: r) = v * 2 ^ lo + fields r := by
  rw [fields, List.map_cons, List.sum_cons, ← fields]

/-- A completion record's first word (R200): phase, SCALE-MISALIGN's operand and tile, the cluster, the gang member, calib, nan, ring, status and
sequence number. -/
def recordWord (p o t c g k n r st q : Nat) : Word :=
  word (fields [(63, p), (56, o), (52, t), (48, c), (44, g), (43, k), (42, n), (40, r), (32, st), (0, q)])

section
variable {p o t c g k n r st q : Nat} (hp : p ≤ 1) (ho : o < 4) (ht : t < 16) (hc : c < 16) (hg : g < 8) (hk : k ≤ 1) (hn : n ≤ 1) (hr : r < 4)
  (hs : st < 256) (hq : q < 2 ^ 32)
include hp ho ht hc hg hk hn hr hs hq

theorem toNat_recordWord : (recordWord p o t c g k n r st q).toNat =
    p * 2 ^ 63 + (o * 2 ^ 56 + (t * 2 ^ 52 + (c * 2 ^ 48 + (g * 2 ^ 44 + (k * 2 ^ 43 + (n * 2 ^ 42 + (r * 2 ^ 40 + (st * 2 ^ 32 + q)))))))) := by
  rw [recordWord, toNat_word]
  simp only [fields_cons, fields_nil, pow_zero, Nat.mul_one, Nat.add_zero]
  exact Nat.mod_eq_of_lt (by omega)

/-- The fields of the first word stand side by side. -/
theorem recordWord_fields : (recordWord p o t c g k n r st q).toNat / 2 ^ 63 = p ∧ (recordWord p o t c g k n r st q).toNat % 2 ^ 32 = q ∧
    (recordWord p o t c g k n r st q).toNat / 2 ^ 40 % 4 = r ∧ (recordWord p o t c g k n r st q).toNat / 2 ^ 32 % 256 = st := by
  rw [toNat_recordWord hp ho ht hc hg hk hn hr hs hq]
  omega

end

end Sys2Proof.Machine
end

section
/-! PROOFS. The completion record written to its ring, in scratch or in host memory (O44, R199 to R202). -/
namespace Sys2Proof.Machine

open Sys2Proof

/-! ## The words of the record (R200, R201) -/

theorem State.cqWords_fields (s : State) (phase : Bool) (l : Launch) (d : Decision) : ∃ w0 w2, s.cqWords phase l d = [w0, word d.where_, w2, word d.arg] ∧
    w0.toNat / 2 ^ 63 = (if phase = true then 1 else 0) ∧ w0.toNat % 2 ^ 32 = l.seq % 2 ^ 32 ∧ w0.toNat / 2 ^ 40 % 4 = l.ring % 4 ∧
    w0.toNat / 2 ^ 32 % 256 = d.status % 256 := by
  have bit_le (b : Bool) : (if b = true then 1 else 0) ≤ 1 := by cases b <;> decide
  have part (b : Bool) (x : Nat) {n : Nat} (h : 0 < n) : (if b = true then x % n else 0) < n := by
    cases b
    · exact h
    · exact Nat.mod_lt _ h
  refine ⟨_, _, rfl, ?_⟩
  exact recordWord_fields (bit_le _) (part _ _ (by decide)) (part _ _ (by decide)) (part _ _ (by decide)) (part _ _ (by decide)) (bit_le _) (bit_le _)
    (Nat.mod_lt _ (by decide)) (Nat.mod_lt _ (by decide)) (Nat.mod_lt _ (by decide))

/-! ## The ring moved on (R199) -/

section
variable (s : State) (c : Nat)

/-- The held records counted, and the time from which the first of them waits. -/
def State.attnCounts (s : State) (c : Nat) : State :=
  if s.fld (Reg.ctxAttn c) 63 48 == 0 then
    (s.incSat (Reg.ctxAttn c) 63 48 1).updCtx c fun x => { x with modFrom := some (s.incSat (Reg.ctxAttn c) 63 48 1).up }
  else s.incSat (Reg.ctxAttn c) 63 48 1

theorem State.attnHeld_eq : s.attnHeld c =
    if max 1 ((s.attnCounts c).fld (Reg.ctxIrq c) 31 24) ≤ s.fld (Reg.ctxAttn c) 63 48 + 1 then (s.attnCounts c).setBitsIn (Reg.ctxAttn c) 1
    else s.attnCounts c := rfl

theorem State.attnCounts_frame : RegsAndCtxs s (s.attnCounts c) := by
  unfold State.attnCounts
  split
  · exact (RegsAndCtxs.setReg ..).trans (.updCtx ..)
  · exact .setReg ..

theorem State.ctx_attnCounts_self : ∃ m, (s.attnCounts c).ctx c = { s.ctx c with modFrom := m } := by
  unfold State.attnCounts
  split
  · exact ⟨_, by rw [State.ctx_updCtx_self, State.ctx_incSat]⟩
  · exact ⟨(s.ctx c).modFrom, State.ctx_incSat ..⟩

/-- Completion attention changes registers, and when the moderation of the context began. -/
theorem State.attnHeld_frame : RegsAndCtxs s (s.attnHeld c) := by
  rw [State.attnHeld_eq]
  split
  · exact (s.attnCounts_frame c).trans (.setReg ..)
  · exact s.attnCounts_frame c

theorem State.ctx_attnHeld_self : ∃ m, (s.attnHeld c).ctx c = { s.ctx c with modFrom := m } := by
  rw [State.attnHeld_eq]
  split
  · rw [State.ctx_setBitsIn]
    exact s.ctx_attnCounts_self c
  · exact s.ctx_attnCounts_self c

/-- The counts of a context whose record has been written to the ring. -/
def Ctx.wrote (size : Nat) (x : Ctx) : Ctx :=
  { x with
    written := (x.written + 1) % 2 ^ 32, reserved := x.reserved - 1, phase := if (x.written + 1) % size == 0 then !x.phase else x.phase
    cq := .idle }

variable (l : Launch) (d : Decision)

theorem State.wroteCq_eq : s.wroteCq c l d =
    if l.irq then ((s.updCtx c (Ctx.wrote (2 ^ s.fld (Reg.ctxCqCfg c) 12 8))).retire c l d).attnHeld c
    else (s.updCtx c (Ctx.wrote (2 ^ s.fld (Reg.ctxCqCfg c) 12 8))).retire c l d := rfl

theorem State.wroteCq_frame : RegsAndCtxs s (s.wroteCq c l d) := by
  have retires := (RegsAndCtxs.updCtx s c (Ctx.wrote (2 ^ s.fld (Reg.ctxCqCfg c) 12 8))).trans (State.retire_frame _ c l d)
  rw [State.wroteCq_eq]
  split
  · exact retires.trans (State.attnHeld_frame ..)
  · exact retires

theorem State.ctx_wroteCq_self : ∃ st m, (s.wroteCq c l d).ctx c =
    { ((s.ctx c).wrote (2 ^ s.fld (Reg.ctxCqCfg c) 12 8)).without l.seq with st := st, modFrom := m } := by
  obtain ⟨st, _, retires⟩ := (s.updCtx c (Ctx.wrote (2 ^ s.fld (Reg.ctxCqCfg c) 12 8))).ctx_retire_self c l d
  rw [State.ctx_updCtx_self] at retires
  rw [State.wroteCq_eq]
  split
  · obtain ⟨m, attends⟩ := ((s.updCtx c (Ctx.wrote (2 ^ s.fld (Reg.ctxCqCfg c) 12 8))).retire c l d).ctx_attnHeld_self c
    exact ⟨st, m, by rw [attends, retires]⟩
  · exact ⟨st, _, retires⟩

theorem RegsAndCtxs.out {s t : State} (h : RegsAndCtxs s t) : t.out = s.out := by
  obtain ⟨_, _, rfl⟩ := h
  rfl

end

/-! ## What closing the launch leaves for its record -/

/-- An address below the host's half names no host memory. -/
theorem State.whereIs_low_ne_host (s : State) (d : Nat) {pa : Nat} (a : Nat) (low : ¬(pa / 2 ^ 55 % 2 == 1) = true) : s.whereIs d pa ≠ .host a := by
  rw [State.whereIs, if_neg low]
  dsimp only
  split
  · simp
  · split
    next j _ =>
      generalize (if (pa / 2 ^ 43 % 4096 == s.fld (Reg.fabJobCfg j) 39 28) = true then 0xFFF else pa / 2 ^ 43 % 4096) = f
      split <;> simp
    next => simp

namespace Closing

section
variable {p : Launch → Launch} {c : Nat} {s u : State} (h : Closing p c s u)
include h

theorem straps : u.straps = s.straps := by
  obtain ⟨_, _, _, _, _, _, _, rfl⟩ := h.frame
  rfl

theorem inject : u.inject = s.inject := by
  obtain ⟨_, _, _, _, _, _, _, rfl⟩ := h.frame
  rfl

theorem tlb : u.tlb = s.tlb := by
  obtain ⟨_, _, _, _, _, _, _, rfl⟩ := h.frame
  rfl

theorem hostHeld : u.hostHeld = s.hostHeld := by
  obtain ⟨_, _, _, _, _, _, _, rfl⟩ := h.frame
  rfl

/-- A register of the context's kernel page that shows no figure. -/
theorem reg_kernel {k : Nat} (page : k < 0x1000) (other : k ≠ 0x38 ∧ k ≠ 0x308 ∧ k ≠ 0x310) :
    u.reg (0x100000 + k + 0x1000 * c) = s.reg (0x100000 + k + 0x1000 * c) := by
  refine h.regs _ ?_
  simp only [FigureReg, Reg.ctxAttn, Reg.ctxNumStatus, Reg.ctxNumTotal]
  omega

theorem fld_kernel {k : Nat} (page : k < 0x1000) (other : k ≠ 0x38 ∧ k ≠ 0x308 ∧ k ≠ 0x310) (hi lo : Nat) :
    u.fld (0x100000 + k + 0x1000 * c) hi lo = s.fld (0x100000 + k + 0x1000 * c) hi lo := by
  rw [State.fld, h.reg_kernel page other, ← State.fld]

theorem undelStatus : u.fld (Reg.ctxUndelStatus c) 3 0 = s.fld (Reg.ctxUndelStatus c) 3 0 := h.fld_kernel (k := 0x280) (by decide) (by decide) 3 0

theorem cqSize : u.fld (Reg.ctxCqCfg c) 12 8 = s.fld (Reg.ctxCqCfg c) 12 8 := h.fld_kernel (k := 0x148) (by decide) (by decide) 12 8

theorem cqVa (w : Nat) : u.cqVa c w = s.cqVa c w := by
  have base : u.fld (Reg.ctxCqBase c) 63 5 = s.fld (Reg.ctxCqBase c) 63 5 := h.fld_kernel (k := 0x140) (by decide) (by decide) 63 5
  rw [State.cqVa, State.cqVa, base, h.cqSize]

theorem leaseTiles (d : Nat) : u.leaseTiles d = s.leaseTiles d := by
  simp only [State.leaseTiles, h.leases]

theorem leaseClusters (d : Nat) : u.leaseClusters d = s.leaseClusters d := by
  simp only [State.leaseClusters, h.leaseTiles]

theorem clusterRange (k : Nat) : u.clusterRange c k = s.clusterRange c k := by
  have word : u.reg (Reg.ctxLeaseCs c) = s.reg (Reg.ctxLeaseCs c) := h.reg_kernel (k := 0x18) (by decide) (by decide)
  rw [State.clusterRange, State.clusterRange, word]

theorem leaseAddr (a : Nat) : u.leaseAddr c a = s.leaseAddr c a := by
  simp only [State.leaseAddr, h.leaseTiles, h.leaseClusters, h.clusterRange]

theorem inLease (a : Nat) : u.inLease c a = s.inLease c a := by
  simp only [State.inLease, h.straps, h.leases, h.leaseClusters, h.clusterRange]

theorem hpaOf (a : Nat) : u.hpaOf a = s.hpaOf a := by
  have map : u.reg Reg.memMap = s.reg Reg.memMap := h.regs _ (by simp only [FigureReg, Reg.memMap, Reg.ctxAttn, Reg.ctxNumStatus, Reg.ctxNumTotal]; omega)
  have base : u.reg Reg.memHpa = s.reg Reg.memHpa := h.regs _ (by simp only [FigureReg, Reg.memHpa, Reg.ctxAttn, Reg.ctxNumStatus, Reg.ctxNumTotal]; omega)
  have bytes : u.dataBytes = s.dataBytes := by
    simp only [State.dataBytes, State.memCount, State.memMask, State.chanCap, State.fld, map]
  have range : u.fld Reg.memHpa 54 12 = s.fld Reg.memHpa 54 12 := by rw [State.fld, base, ← State.fld]
  have on : u.flag Reg.memHpa 0 = s.flag Reg.memHpa 0 := by rw [State.flag, base, ← State.flag]
  rw [State.hpaOf, State.hpaOf, range, on, bytes]

theorem whereIs_host {d pa a : Nat} (host : s.whereIs d pa = .host a) : u.whereIs d pa = .host a := by
  by_cases high : (pa / 2 ^ 55 % 2 == 1) = true
  · rw [State.whereIs, if_pos high] at host ⊢
    rw [h.hpaOf]
    exact host
  · exact absurd host (s.whereIs_low_ne_host d a high)

/-- The context's counts. -/
theorem counts : (u.ctx c).written = (s.ctx c).written ∧ (u.ctx c).reserved = (s.ctx c).reserved ∧ (u.ctx c).phase = (s.ctx c).phase ∧
    (u.ctx c).gen = (s.ctx c).gen := by
  have core := h.ctxs c
  exact ⟨(congrArg Ctx.written core :), (congrArg Ctx.reserved core :), (congrArg Ctx.phase core :), (congrArg Ctx.gen core :)⟩

end

end Closing

/-! ## Where the record goes -/

theorem State.whereIs_ownPhys (s : State) (c : Nat) {a : Nat} (h : a < 2 ^ 43) : s.whereIs c (ownPhys a) = .own a := by
  have low : ¬(ownPhys a / 2 ^ 55 % 2 == 1) = true := by
    simp only [ownPhys, beq_iff_eq]
    omega
  have field : (ownPhys a / 2 ^ 43 % 4096 == 0xFFF) = true := by
    simp only [ownPhys, beq_iff_eq]
    omega
  have place : ownPhys a % 2 ^ 43 = a := by
    simp only [ownPhys]
    omega
  rw [State.whereIs, if_neg low]
  simp only [field, place, if_true]

/-- A record for the context's own scratch is stored, and the ring moves on. -/
theorem State.cqTry_scratch {u : State} {c a : Nat} (l : Launch) (d : Decision) (ws : List Word) (tag : vaTag (u.cqVa c (u.ctx c).written) = 3)
    (lease : u.leaseAddr c (u.cqVa c (u.ctx c).written % 2 ^ 60) = some a) (low : scratchBase ≤ a) (high : a < 2 ^ 43) (first : u.inLease c a = true)
    (last : u.inLease c (a + 31) = true) : u.cqTry c l d ws = (u.store a (recordBytes ws)).wroteCq c l d := by
  have found : u.xlate crierCache c (u.ctx c).gen (u.cqVa c (u.ctx c).written) 2 = (.ok (ownPhys a) false, u) := by
    simp only [State.xlate, tag, lease]
  rw [State.cqTry]
  simp only [found, State.cqStore, u.whereIs_ownPhys c high, Bool.false_eq_true, if_false, if_pos low, first, last, Bool.and_self, if_true]
  rfl

/-- A record for host memory is sent there, and the ring moves on. -/
theorem State.cqTry_host {u : State} {c h : Nat} (l : Launch) (d : Decision) (ws : List Word) {e : TlbEnt} (unarmed : u.inject = none)
    (tag : vaTag (u.cqVa c (u.ctx c).written) = 1) (ok : tagOk (u.cqVa c (u.ctx c).written) = true)
    (entry : u.tlb.find? (fun e => e.covers crierCache c (u.ctx c).gen (u.cqVa c (u.ctx c).written)) = some e) (writes : e.w = true)
    (plain : e.untrans = false) (place : u.whereIs c (e.phys + (u.cqVa c (u.ctx c).written - e.page)) = .host h) (open_ : u.hostHeld = false) :
    u.cqTry c l d ws = ((u.tlbPut e).emit (.mwr h (recordBytes ws))).wroteCq c l d := by
  have quiet : u.cacheHit crierCache = false := by
    simp only [State.cacheHit, State.injHits, unarmed, Bool.false_and]
  have rights : rightsOk e.r e.w e.atomic 2 = true := by
    rw [writes]
    simp [rightsOk, maskHas]
  have counted : u.countTc crierCache true = u := if_pos (by decide)
  have found : u.xlate crierCache c (u.ctx c).gen (u.cqVa c (u.ctx c).written) 2 =
      (.ok (e.phys + (u.cqVa c (u.ctx c).written - e.page)) false, u.tlbPut e) := by
    simp only [State.xlate, tag, ok, if_true, State.lookup, entry, quiet, Bool.false_eq_true, if_false, counted, rights, plain]
  have put : (u.tlbPut e).whereIs c (e.phys + (u.cqVa c (u.ctx c).written - e.page)) = .host h := place
  have held : (u.tlbPut e).hostHeld = false := open_
  rw [State.cqTry]
  simp only [found, State.cqStore, put, held, Bool.false_eq_true, if_false]
  rfl

/-! ## The record of the oldest launch -/

section
variable {s : State} {c : Nat} {l : Launch} {rest : List Launch} {d : Decision} (head : (s.ctx c).launches = l :: rest) (decided : l.decision = some d)
  (still : s.launchStill c l.seq = true) (left : l.gangLeft = []) (lead : l.fromLead = false) (free : (s.ctx c).cq = .idle ∨ (s.ctx c).cq = .walk)
  (standing : (s.ctx c).rst = none) (unarmed : s.inject = none) (room : s.fld (Reg.ctxUndelStatus c) 3 0 = 0)
include head decided still left lead free standing unarmed room

theorem exec_completionRecordWrite : ∃ u l', Closing Launch.unclosed c s u ∧ l'.unclosed = l.unclosed ∧
    exec (.completionRecordWrite c) s = .next (u.cqTry c l' d (u.cqWords (u.ctx c).phase l' d)) := by
  have closing : Closing Launch.unclosed c s ((s.freeLanes c l.seq s.allLanes).account c l.seq) :=
    (Closing.freeLanes s l.seq _).trans (Closing.account _ _)
  have found : (s.ctx c).launch? l.seq = some l := by simp [Ctx.launch?, head]
  obtain ⟨l', found', same⟩ := closing.launch? (fun _ => rfl) found
  refine ⟨_, l', closing, same, ?_⟩
  have goes : ¬(!s.launchStill c l.seq || !l.gangLeft.isEmpty || l.fromLead || !((s.ctx c).cq == .idle || (s.ctx c).cq == .walk) ||
      (s.ctx c).rst.isSome) = true := by
    rcases free with h | h <;> simp [still, left, lead, h, standing]
  have empty : ¬(((s.freeLanes c l.seq s.allLanes).account c l.seq).fld (Reg.ctxUndelStatus c) 3 0 != 0) = true := by
    rw [closing.undelStatus, room]
    decide
  refine congrArg Host.Outcome.next (?_ : completionRecordWriteS c s = _)
  unfold completionRecordWriteS
  rw [head]
  simp only [decided]
  rw [if_neg goes, if_neg empty, closing.inject, unarmed, found']
  rfl

/-- The clause of O44 on a completion ring in scratch. -/
theorem record_written_scratch {a : Nat} (tag : vaTag (s.cqVa c (s.ctx c).written) = 3)
    (lease : s.leaseAddr c (s.cqVa c (s.ctx c).written % 2 ^ 60) = some a) (low : scratchBase ≤ a) (high : a < 2 ^ 43)
    (first : s.inLease c a = true) (last : s.inLease c (a + 31) = true) :
    ∃ t, exec (.completionRecordWrite c) s = .next t ∧ (t.ctx c).written = ((s.ctx c).written + 1) % 2 ^ 32 ∧
      (t.ctx c).reserved = (s.ctx c).reserved - 1 ∧
      ((t.ctx c).phase = if ((s.ctx c).written + 1) % 2 ^ s.fld (Reg.ctxCqCfg c) 12 8 = 0 then !(s.ctx c).phase else (s.ctx c).phase) ∧
      (∀ x ∈ (t.ctx c).launches, x.seq ≠ l.seq) ∧
      t.rdNat a 8 / 2 ^ 63 = (if (s.ctx c).phase = true then 1 else 0) ∧ t.rdNat a 8 % 2 ^ 32 = l.seq % 2 ^ 32 ∧
      t.rdNat a 8 / 2 ^ 40 % 4 = l.ring % 4 ∧ t.rdNat a 8 / 2 ^ 32 % 256 = d.status % 256 ∧ t.rdNat (a + 8) 8 = d.where_ % 2 ^ 64 ∧
      t.rdNat (a + 24) 8 = d.arg % 2 ^ 64 ∧ (∀ a', a' < a ∨ a + 32 ≤ a' → t.rd a' = s.rd a') := by
  obtain ⟨u, l', closing, same, runs⟩ := exec_completionRecordWrite head decided still left lead free standing unarmed room
  obtain ⟨written, reserved, phase, -⟩ := closing.counts
  have num : l'.seq = l.seq := (congrArg Launch.seq same :)
  have ring : l'.ring = l.ring := (congrArg Launch.ring same :)
  obtain ⟨w0, w2, words, wPhase, wSeq, wRing, wStatus⟩ := u.cqWords_fields (u.ctx c).phase l' d
  have stores : u.cqTry c l' d (u.cqWords (u.ctx c).phase l' d) = (u.store a (recordBytes (u.cqWords (u.ctx c).phase l' d))).wroteCq c l' d := by
    refine State.cqTry_scratch l' d _ ?_ ?_ low high ((closing.inLease _).trans first) ((closing.inLease _).trans last)
    · rw [written, closing.cqVa, tag]
    · rw [written, closing.cqVa, closing.leaseAddr, lease]
  rw [stores, words] at runs
  obtain ⟨cells, tiles, frame⟩ := u.store_frame a (recordBytes [w0, word d.where_, w2, word d.arg])
  obtain ⟨st, m, own⟩ := (u.store a (recordBytes [w0, word d.where_, w2, word d.arg])).ctx_wroteCq_self c l' d
  have ctx : (u.store a (recordBytes [w0, word d.where_, w2, word d.arg])).ctx c = u.ctx c := by rw [frame]; rfl
  have size : (u.store a (recordBytes [w0, word d.where_, w2, word d.arg])).fld (Reg.ctxCqCfg c) 12 8 = s.fld (Reg.ctxCqCfg c) 12 8 := by
    rw [frame, ← closing.cqSize]; rfl
  rw [ctx, size, num] at own
  have stored : ((u.store a (recordBytes [w0, word d.where_, w2, word d.arg])).wroteCq c l' d).cells =
      (u.wrBytes a (recordBytes [w0, word d.where_, w2, word d.arg])).cells := by
    rw [(State.wroteCq_frame _ c l' d).cells, State.store_cells]
  obtain ⟨read0, read1, read3⟩ := State.rdNat_record stored
  refine ⟨_, runs, ?_, ?_, ?_, ?_, ?_, ?_, ?_, ?_, read1.trans (toNat_word _), read3.trans (toNat_word _), fun a' outside => ?_⟩
  · rw [own, ← written]; rfl
  · rw [own, ← reserved]; rfl
  · rw [own, ← written, ← phase]
    simp only [Ctx.without, Ctx.wrote, beq_iff_eq]
  · rw [own]
    exact Ctx.without_absent _ _
  · rw [read0, wPhase, phase]
  · rw [read0, wSeq, num]
  · rw [read0, wRing, ring]
  · rw [read0, wStatus]
  · rw [State.rd_of_cells stored, State.rd_wrBytes, length_recordBytes, if_neg (by omega), State.rd_of_cells closing.cells]

/-- The clause of O44 on a completion ring in host memory. -/
theorem record_written_host {h : Nat} {e : TlbEnt} (tag : vaTag (s.cqVa c (s.ctx c).written) = 1) (ok : tagOk (s.cqVa c (s.ctx c).written) = true)
    (entry : s.tlb.find? (fun e => e.covers crierCache c (s.ctx c).gen (s.cqVa c (s.ctx c).written)) = some e) (writes : e.w = true)
    (plain : e.untrans = false) (place : s.whereIs c (e.phys + (s.cqVa c (s.ctx c).written - e.page)) = .host h) (open_ : s.hostHeld = false) :
    ∃ t bs, exec (.completionRecordWrite c) s = .next t ∧ Out.mwr h bs ∈ t.out ∧ bs.length = 32 ∧
      (t.ctx c).written = ((s.ctx c).written + 1) % 2 ^ 32 ∧ (∀ x ∈ (t.ctx c).launches, x.seq ≠ l.seq) ∧ t.cells = s.cells ∧
      leNat (bs.take 8) / 2 ^ 63 = (if (s.ctx c).phase = true then 1 else 0) ∧ leNat (bs.take 8) % 2 ^ 32 = l.seq % 2 ^ 32 ∧
      leNat (bs.take 8) / 2 ^ 32 % 256 = d.status % 256 ∧ leNat ((bs.drop 8).take 8) = d.where_ % 2 ^ 64 ∧
      leNat (bs.drop 24) = d.arg % 2 ^ 64 := by
  obtain ⟨u, l', closing, same, runs⟩ := exec_completionRecordWrite head decided still left lead free standing unarmed room
  obtain ⟨written, -, phase, gen⟩ := closing.counts
  have num : l'.seq = l.seq := (congrArg Launch.seq same :)
  obtain ⟨w0, w2, words, wPhase, wSeq, -, wStatus⟩ := u.cqWords_fields (u.ctx c).phase l' d
  have va : u.cqVa c (u.ctx c).written = s.cqVa c (s.ctx c).written := by rw [written, closing.cqVa]
  have sends := State.cqTry_host l' d (u.cqWords (u.ctx c).phase l' d) (closing.inject.trans unarmed) (va ▸ tag) (va ▸ ok)
    (by rw [closing.tlb, gen, va]; exact entry) writes plain (by rw [va]; exact closing.whereIs_host place) (closing.hostHeld.trans open_)
  rw [sends, words] at runs
  let v := (u.tlbPut e).emit (.mwr h (recordBytes [w0, word d.where_, w2, word d.arg]))
  obtain ⟨st, m, own⟩ := v.ctx_wroteCq_self c l' d
  have frame := v.wroteCq_frame c l' d
  have ctx : v.ctx c = u.ctx c := rfl
  rw [ctx, num] at own
  refine ⟨_, recordBytes [w0, word d.where_, w2, word d.arg], runs, ?_, length_recordBytes .., ?_, ?_, ?_, ?_, ?_, ?_,
    (leNat_recordBytes_second ..).trans (toNat_word _), (leNat_recordBytes_last ..).trans (toNat_word _)⟩
  · exact frame.out ▸ List.mem_append_right _ (List.mem_singleton_self _)
  · exact (congrArg Ctx.written own).trans (by rw [← written]; rfl)
  · exact fun x mem => Ctx.without_absent _ _ x ((congrArg Ctx.launches own) ▸ mem)
  · exact frame.cells.trans closing.cells
  · rw [leNat_recordBytes_first, wPhase, phase]
  · rw [leNat_recordBytes_first, wSeq, num]
  · rw [leNat_recordBytes_first, wStatus]

end

/-- Settles O44: each clause is the lemma on its event; what closing a launch leaves alone carries the clauses on its record. -/
theorem launchesEnd : Obligations.LaunchesEnd := by
  unfold Obligations.LaunchesEnd
  refine ⟨?decided, ?member, ?reports, ?aborts, ?scratch, ?host, ?undelivered, ?watch⟩
  case decided => exact fun s c seq l found open_ lead => launch_decided found open_ lead
  case member => exact fun s c seq m l found => member_heard found
  case reports => exact fun s c seq l found lead => member_reports found lead
  case aborts => exact fun s c seq kernel pending => abort_taken pending
  case scratch =>
    exact fun s c a l rest d head decided still left lead free standing unarmed room tag lease low high first last =>
      record_written_scratch head decided still left lead free standing unarmed room tag lease low high first last
  case host =>
    exact fun s c h l rest d e head decided still left lead free standing unarmed room tag ok entry writes plain place open_ =>
      record_written_host head decided still left lead free standing unarmed room tag ok entry writes plain place open_
  case undelivered =>
    exact fun s c i l rest d head decided failed standing inside lowest => completion_write_fails head decided failed standing inside lowest
  case watch =>
    exact fun s c l inBuild only others sent open_ lead unarmed => watch_samples inBuild only others sent open_ lead unarmed

end Sys2Proof.Machine
end

section
/-! PROOFS. The Crier's fetch engines: a ring gone idle, a record that arrives, a not-before tick that comes (O43, R191 to R195). -/
namespace Sys2Proof.Machine

open Sys2Proof

theorem State.updRing_frame (s : State) (c r : Nat) (f : Ring → Ring) : s.updRing c r f = { s with ctxs := (s.updRing c r f).ctxs } := rfl

/-! ## A ring with nothing to fetch (R191) -/

/-- With nothing to fetch a ring forgets a doorbell that came meanwhile, or goes idle. -/
theorem ring_goes_idle {s : State} {c r : Nat} (scanning : (s.ring c r).scanning = true) (empty : (s.ring c r).head = (s.ring c r).tail) :
    ∃ t, exec (.ringScan c r) s = .next t ∧ t = { s with ctxs := t.ctxs } ∧ (∀ d, d ≠ c → t.ctx d = s.ctx d) ∧
      t.ring c r = if (s.ring c r).pending = true then { s.ring c r with pending := false } else { s.ring c r with scanning := false } := by
  have runs : exec (.ringScan c r) s = .next (if (s.ring c r).pending then s.updRing c r fun g => { g with pending := false }
      else s.updRing c r fun g => { g with scanning := false }) := by
    refine congrArg Host.Outcome.next (?_ : ringScanS c r s = _)
    simp only [ringScanS, scanning, empty, Bool.not_true, Bool.false_eq_true, if_false, BEq.rfl, if_true]
  refine ⟨_, runs, ?_⟩
  split
  · exact ⟨State.updRing_frame .., fun d other => State.ctx_updRing_ne s other r _, State.ring_updRing_self ..⟩
  · exact ⟨State.updRing_frame .., fun d other => State.ctx_updRing_ne s other r _, State.ring_updRing_self ..⟩

/-! ## A not-before tick (R195, R198) -/

/-- The head record of a ring comes on time: its tick is now, it was fetched early enough, and the context's lanes are free for it. -/
def State.onTime (s : State) (c t : Nat) (k : Rec) : Bool :=
  decide (s.bell.now ≤ t) && decide (k.fetchedAt + 8000 ≤ t) && s.mayDispatch c && s.lanes.all fun l => l.ctx != c || (l.st == .idle && l.waiting.isEmpty)

theorem State.onTime_iff {s : State} {c t : Nat} {k : Rec} (due : t ≤ s.bell.now) : s.onTime c t k = true ↔ s.bell.now = t ∧ k.fetchedAt + 8000 ≤ t ∧
    s.mayDispatch c = true ∧ ∀ x ∈ s.lanes, x.ctx ≠ c ∨ (x.st = .idle ∧ x.waiting = []) := by
  have now : s.bell.now ≤ t ↔ s.bell.now = t := ⟨fun h => Nat.le_antisymm h due, fun h => h.le⟩
  simp only [State.onTime, Bool.and_eq_true, decide_eq_true_eq, List.all_eq_true, Bool.or_eq_true, bne_iff_ne, beq_iff_eq, List.isEmpty_iff, now]
  tauto

theorem mapIdx_head {α : Type} (f : α → α) (l : List α) : (l.mapIdx fun i x => if i == 0 then f x else x) = match l with
    | [] => []
    | x :: r => f x :: r := by
  cases l with
  | nil => rfl
  | cons x r =>
    rw [List.mapIdx_cons]
    refine congrArg (List.cons (f x)) (List.ext_getElem (by simp) fun i h1 h2 => ?_)
    simp

/-- A not-before tick waits, and releases the head record once it has come. -/
theorem not_before_releases {s : State} {c r T : Nat} {k : Rec} (head : (s.ring c r).recs.head? = some k) (tick : k.nb = some T) (here : k.here = true)
    (held : k.released = false) :
    (s.bell.now < T → exec (.notBeforeRelease c r) s = .next s) ∧
    (T ≤ s.bell.now → ∃ t b, exec (.notBeforeRelease c r) s = .next t ∧ t = { s with ctxs := t.ctxs } ∧
      (t.ring c r).recs.head? = some { k with released := true, onTime := b } ∧ (t.ring c r).recs.tail = (s.ring c r).recs.tail ∧
      (b = true ↔ s.bell.now = T ∧ k.fetchedAt + 8000 ≤ T ∧ s.mayDispatch c = true ∧
        ∀ x ∈ s.lanes, x.ctx ≠ c ∨ (x.st = .idle ∧ x.waiting = []))) := by
  have step : notBeforeReleaseS c r s = if !k.here || k.released || decide (s.bell.now < T) then s
      else s.updRing c r fun g => { g with recs := g.recs.mapIdx fun i x => if i == 0 then { x with released := true, onTime := s.onTime c T k } else x } := by
    simp only [notBeforeReleaseS, head, tick]
    rfl
  obtain ⟨rest, recs⟩ := List.head?_eq_some_iff.1 head
  constructor
  · intro early
    exact congrArg Host.Outcome.next (step.trans (if_pos (by rw [decide_eq_true early, Bool.or_true])))
  · intro due
    have now : ¬(!k.here || k.released || decide (s.bell.now < T)) = true := by
      rw [here, held, decide_eq_false (Nat.not_lt.2 due)]
      decide
    refine ⟨_, s.onTime c T k, congrArg Host.Outcome.next (step.trans (if_neg now)), State.updRing_frame .., ?_, ?_, State.onTime_iff due⟩
    · rw [State.ring_updRing_self, mapIdx_head, recs]
      rfl
    · rw [State.ring_updRing_self, mapIdx_head, recs]
      rfl

/-! ## A record that arrives (R192 to R195) -/

section
variable (s : State) (c r n : Nat) (bs : List Byte)

/-- Word `i` of a record. -/
def recordAt (bs : List Byte) (i : Nat) : Word := word (leNat ((bs.drop (8 * i)).take 8))

/-- The not-before tick that a record's header asks for; none where its cadence is none. -/
def State.recordTick : Option (Option Nat) :=
  match bits (recordAt bs 2) 1 0 with
  | 1 => some (some (recordAt bs 1).toNat)
  | 2 => (s.cadFor c (bits (recordAt bs 2) 5 2)).map fun (p : Nat × Nat) => some (cadRelease p.1 p.2 (recordAt bs 1).toInt s.bell.now).2
  | _ => some none

/-- The decision that a record's header makes. -/
def State.recordFault : Option Decision :=
  match headerBad (recordAt bs), s.recordTick c bs with
  | some o, _ => some (s.early 0x41 o)
  | none, none => some (s.early xTIMEINVALID 0)
  | none, some _ => none

/-- A record as it stands once its bytes have come. -/
def State.recordCome (now : Nat) (k : Rec) : Rec :=
  { k with here := true, entry := (recordAt bs 0).toNat, consts := padTo 192 (bs.drop 64), irq := bit (recordAt bs 2) 8, keep := bit (recordAt bs 2) 7,
           watch := bits (recordAt bs 2) 47 32, nb := (s.recordTick c bs).getD none, fetchedAt := now,
           bad := if k.bad.isSome then k.bad else s.recordFault c bs }

/-- A launch that its header decides is counted, unless it is decided already. -/
def State.recordCounts : State := if (s.recordFault c bs).isSome && !(s.ring c r).decidedAt n then s.countDecided c r else s

theorem State.now_recordCounts : (s.recordCounts c r n bs).bell.now = s.bell.now := by
  unfold State.recordCounts
  split <;> rfl

theorem State.gotRecord_eq : s.gotRecord c r n bs = (s.recordCounts c r n bs).updRing c r fun g =>
    { g with served := [], recs := g.recs.map fun k => if k.count == n && !k.here then s.recordCome c bs s.bell.now k else k } := by
  have step : s.gotRecord c r n bs = (s.recordCounts c r n bs).updRing c r fun g => { g with
      served := [], recs := g.recs.map fun k => if k.count == n && !k.here then s.recordCome c bs (s.recordCounts c r n bs).bell.now k else k } := rfl
  rw [step, State.now_recordCounts]

/-- The header is good, and its cadence, if it names one, is granted. -/
def State.recordGood : Prop := headerBad (recordAt bs) = none ∧ (bits (recordAt bs 2) 1 0 = 2 → s.cadFor c (bits (recordAt bs 2) 5 2) ≠ none)

theorem State.recordTick_none : s.recordTick c bs = none ↔ bits (recordAt bs 2) 1 0 = 2 ∧ s.cadFor c (bits (recordAt bs 2) 5 2) = none := by
  unfold State.recordTick
  split
  next one => simp [one]
  next two => simp [two]
  next _ _ two => exact ⟨fun h => by simp at h, fun h => absurd h.1 two⟩

theorem State.recordFault_none : s.recordFault c bs = none ↔ s.recordGood c bs := by
  unfold State.recordFault State.recordGood
  cases head : headerBad (recordAt bs) with
  | some o => simp
  | none =>
    have tick := s.recordTick_none c bs
    cases asked : s.recordTick c bs with
    | none =>
      obtain ⟨two, refused⟩ := tick.1 asked
      simp [two, refused]
    | some x =>
      rw [asked] at tick
      simp only [true_and, true_iff]
      exact fun two refused => absurd (tick.2 ⟨two, refused⟩) (by simp)

theorem State.recordCounts_frame : s.recordCounts c r n bs = { s with ctxs := (s.recordCounts c r n bs).ctxs } := by
  unfold State.recordCounts
  split <;> rfl

theorem State.ring_recordCounts : (s.recordCounts c r n bs).ring c r =
    { s.ring c r with decided := ((s.recordCounts c r n bs).ring c r).decided } := by
  unfold State.recordCounts
  split
  · rw [State.countDecided, State.ring_updRing_self]
  · rfl

theorem State.decided_recordCounts_kept (kept : s.recordGood c bs ∨ (s.ring c r).decidedAt n = true) :
    ((s.recordCounts c r n bs).ring c r).decided = (s.ring c r).decided := by
  have no : ((s.recordFault c bs).isSome && !(s.ring c r).decidedAt n) = false := by
    rcases kept with good | already
    · rw [(s.recordFault_none c bs).2 good]
      rfl
    · rw [already]
      exact Bool.and_false _
  rw [State.recordCounts, no]
  rfl

theorem State.decided_recordCounts_more (more : ¬(s.recordGood c bs ∨ (s.ring c r).decidedAt n = true)) :
    ((s.recordCounts c r n bs).ring c r).decided = ((s.ring c r).decided + 1) % 2 ^ 32 := by
  rw [not_or, Bool.not_eq_true] at more
  have some_ : (s.recordFault c bs).isSome = true := by
    rw [Option.isSome_iff_ne_none]
    exact fun none_ => more.1 ((s.recordFault_none c bs).1 none_)
  rw [State.recordCounts, some_, more.2, State.countDecided]
  exact congrArg Ring.decided (s.ring_updRing_self c r _)

end

section
variable {s : State} {c r : Nat} {k : Rec} {q : Req} (oldest : (s.ring c r).recs.find? (fun k => !k.here) = some k)
  (asked : s.reqs.find? (fun q => q.dest == .record c r k.count && q.gen == (s.ctx c).gen && !q.dropped) = some q) (host : q.path = .host)
include oldest asked host

theorem exec_recordFetch (bs : List Byte) : exec (.recordFetch c r bs) s = .next ((s.dropReq q.tag).gotRecord c r k.count bs) := by
  refine congrArg Host.Outcome.next (?_ : recordFetchS c r bs s = _)
  simp only [recordFetchS, oldest, asked, host, BEq.rfl, if_true]

end

theorem padTo_of_length {n : Nat} {l : List (BitVec 8)} (h : l.length = n) : padTo n l = l := by
  rw [padTo, h, Nat.sub_self, List.replicate_zero, List.append_nil, ← h, List.take_length]

/-- The clause of O43 on a record that arrives. -/
theorem record_arrives {s : State} {c r : Nat} {bs : List Byte} {k : Rec} {q : Req} (oldest : (s.ring c r).recs.find? (fun k => !k.here) = some k)
    (asked : s.reqs.find? (fun q => q.dest == .record c r k.count && q.gen == (s.ctx c).gen && !q.dropped) = some q) (host : q.path = .host)
    (length : bs.length = 256) :
    let w := fun i => word (leNat ((bs.drop (8 * i)).take 8))
    let cad := s.cadFor c (bits (w 2) 5 2)
    let good := headerBad w = none ∧ (bits (w 2) 1 0 = 2 → cad ≠ none)
    ∃ t x, exec (.recordFetch c r bs) s = .next t ∧ t = { s with reqs := t.reqs, ctxs := t.ctxs } ∧ (∀ y ∈ t.reqs, y.tag ≠ q.tag ∧ y ∈ s.reqs) ∧
      x ∈ (t.ring c r).recs ∧ x.count = k.count ∧ x.here = true ∧ x.fetchedAt = s.bell.now ∧ x.entry = (w 0).toNat ∧ x.consts = bs.drop 64 ∧
      x.irq = bit (w 2) 8 ∧ x.keep = bit (w 2) 7 ∧ x.watch = bits (w 2) 47 32 ∧
      (bits (w 2) 1 0 = 0 → x.nb = none) ∧ (bits (w 2) 1 0 = 1 → x.nb = some (w 1).toNat) ∧
      (∀ p, bits (w 2) 1 0 = 2 → cad = some p → x.nb = some (cadRelease p.1 p.2 (w 1).toInt s.bell.now).2) ∧
      (∀ d, k.bad = some d → x.bad = some d) ∧ (k.bad = none → good → x.bad = none) ∧
      (∀ o, k.bad = none → headerBad w = some o → (x.bad.map fun d => (d.status, d.arg)) = some (0x41, o)) ∧
      (k.bad = none → headerBad w = none → bits (w 2) 1 0 = 2 → cad = none → (x.bad.map fun d => (d.status, d.arg)) = some (xTIMEINVALID, 0)) ∧
      ((t.ring c r).decided = if good ∨ (s.ring c r).decidedAt k.count = true then (s.ring c r).decided else ((s.ring c r).decided + 1) % 2 ^ 32) := by
  intro w cad good
  have u : (s.dropReq q.tag).gotRecord c r k.count bs = _ := State.gotRecord_eq ..
  have counts := (s.dropReq q.tag).ring_recordCounts c r k.count bs
  have ring : (s.dropReq q.tag).ring c r = s.ring c r := rfl
  have absent : k.here = false := by simpa using List.find?_some oldest
  have consts : padTo 192 (bs.drop 64) = bs.drop 64 := padTo_of_length (by rw [List.length_drop, length])
  have unchosen (free : k.bad = none) : (if k.bad.isSome then k.bad else s.recordFault c bs) = s.recordFault c bs := by rw [free]; rfl
  have fault : (s.dropReq q.tag).recordFault c bs = s.recordFault c bs := rfl
  refine ⟨_, (s.dropReq q.tag).recordCome c bs s.bell.now k, exec_recordFetch oldest asked host bs, ?frame, ?reqs, ?mem, rfl, rfl, rfl, rfl, consts, rfl,
    rfl, rfl, fun zero => ?nb0, fun one => ?nb1, fun p two granted => ?nb2, fun d already => ?already, fun free ok => ?good,
    fun o free bad => ?header, fun free ok two none_ => ?cadence, ?decided⟩
  case frame =>
    rw [u, State.updRing_frame, State.recordCounts_frame]
    rfl
  case reqs =>
    rw [u, State.updRing_frame, State.recordCounts_frame]
    intro y mem
    obtain ⟨old, tag⟩ := List.mem_filter.1 mem
    exact ⟨by simpa using tag, old⟩
  case mem =>
    rw [u, State.ring_updRing_self, counts, ring]
    refine List.mem_map.2 ⟨k, List.mem_of_find?_eq_some oldest, ?_⟩
    simp only [BEq.rfl, absent, Bool.not_false, Bool.and_self, if_true]
    rfl
  case nb0 =>
    have tick : s.recordTick c bs = some none := by
      have : bits (recordAt bs 2) 1 0 = 0 := zero
      rw [State.recordTick, this]
      rfl
    exact congrArg (fun x => Option.getD x none) tick
  case nb1 =>
    have tick : s.recordTick c bs = some (some (w 1).toNat) := by
      have : bits (recordAt bs 2) 1 0 = 1 := one
      rw [State.recordTick, this]
      rfl
    exact congrArg (fun x => Option.getD x none) tick
  case nb2 =>
    have tick : s.recordTick c bs = some (some (cadRelease p.1 p.2 (w 1).toInt s.bell.now).2) := by
      have kind : bits (recordAt bs 2) 1 0 = 2 := two
      have grant : s.cadFor c (bits (recordAt bs 2) 5 2) = some p := granted
      rw [State.recordTick, kind]
      simp only [grant]
      rfl
    exact congrArg (fun x => Option.getD x none) tick
  case already =>
    have keeps : (if k.bad.isSome then k.bad else s.recordFault c bs) = some d := by rw [already]; rfl
    exact keeps
  case good => exact (unchosen free).trans ((s.recordFault_none c bs).2 ok)
  case header =>
    have decides : s.recordFault c bs = some (s.early 0x41 o) := by
      have head : headerBad (recordAt bs) = some o := bad
      rw [State.recordFault, head]
    exact congrArg (Option.map fun d : Decision => (d.status, d.arg)) ((unchosen free).trans decides)
  case cadence =>
    have decides : s.recordFault c bs = some (s.early xTIMEINVALID 0) := by
      have head : headerBad (recordAt bs) = none := ok
      rw [State.recordFault, head, (s.recordTick_none c bs).2 ⟨two, none_⟩]
    exact congrArg (Option.map fun d : Decision => (d.status, d.arg)) ((unchosen free).trans decides)
  case decided =>
    rw [u, State.ring_updRing_self]
    split
    next kept => exact (s.dropReq q.tag).decided_recordCounts_kept c r k.count bs kept
    next more => exact (s.dropReq q.tag).decided_recordCounts_more c r k.count bs more

end Sys2Proof.Machine
end

section
/-! PROOFS. A record that cannot be fetched (O43, R208). -/
namespace Sys2Proof.Machine

open Sys2Proof

/-! ## The launches it decides -/

theorem State.ring_dropRecs (s : State) (c r i : Nat) (lead : Bool) :
    (s.dropRecs c r lead).ring c i = if i = r then (s.ring c r).dropped lead else s.ring c i := by
  rw [State.ring, State.ctx_dropRecs_self, Ctx.dropRecs, nth_upd]
  rfl

/-- The decision of the launch of entry `n` of a ring, whose fetch failed at an address. -/
def State.fetchFault (s : State) (c r n va : Nat) : Decision := { s.early xTRANSLATIONFAULT va with where_ := s.ringVa c r n }

/-- The launch of the entry whose fetch failed: as it was decided, or TRANSLATION_FAULT. -/
def State.failedLaunch (s : State) (c r n va : Nat) (k : Rec) : Launch := s.launchOf c r { k with bad := some (k.bad.getD (s.fetchFault c r n va)) }

/-- The failed entry's launch is counted, unless it is decided already. -/
def State.countsFailed (s : State) (c r : Nat) (k : Rec) : State := if k.bad.isSome then s else s.countDecided c r

/-- A context in which launches have taken their places, each with a completion entry. -/
def Ctx.places (ls : List Launch) (x : Ctx) : Ctx := { x with reserved := x.reserved + ls.length, launches := x.launches ++ ls }

theorem State.ring_places (s : State) (c : Nat) (ls : List Launch) (i : Nat) : (s.updCtx c (Ctx.places ls)).ring c i = s.ring c i := by
  rw [State.ring, State.ctx_updCtx_self]
  rfl

/-- The launches up to the failed entry take their places, and their records leave the ring. -/
def State.placesDecided (s : State) (c r n va : Nat) (before : List Rec) (k : Rec) : State :=
  ((s.countsFailed c r k).updCtx c (Ctx.places (before.map (s.launchOf c r) ++ [s.failedLaunch c r n va k]))).updRing c r
    fun g => { g with recs := g.recs.drop (before.length + 1) }

/-- The ring's other records dropped, with its head behind the failed entry. -/
def State.restartsBehind (s : State) (c r n : Nat) : State := (s.dropRecs c r false).updRing c r fun g => { g with head := (n + 1) % 2 ^ 32 }

theorem exec_recordFetchFault {s : State} {c r n va : Nat} {before : List Rec} {k : Rec} {rest : List Rec} (failed : (s.ring c r).failed = some (n, va))
    (recs : (s.ring c r).recs = before ++ k :: rest) (earlier : ∀ b ∈ before, b.count ≠ n) (here : k.count = n) :
    exec (.recordFetchFault c r) s = .next (if !before.all fun k => k.bad.isSome then s
      else (((s.placesDecided c r n va before k).restartsBehind c r n).dropAllRecs c true).fault_ c 2) := by
  have front : (s.ring c r).recs.takeWhile (fun k => k.count != n) = before := by
    rw [recs, List.takeWhile_append_of_pos fun b mem => by simpa using earlier b mem, List.takeWhile_cons_of_neg (by simp [here]), List.append_nil]
  have back : (s.ring c r).recs.drop before.length = k :: rest := by
    rw [recs, List.drop_left]
  refine congrArg Host.Outcome.next (?_ : recordFetchFaultS c r s = _)
  simp only [recordFetchFaultS, failed, front, back]
  rfl

/-! ## What is left of the ring and of the context -/

section
variable (s : State) (c r n va : Nat) (before : List Rec) (k : Rec)

theorem State.countsFailed_frame : ∃ x, s.countsFailed c r k = { s with ctxs := x } := by
  unfold State.countsFailed
  split
  · exact ⟨s.ctxs, rfl⟩
  · exact ⟨_, rfl⟩

theorem State.ctx_countsFailed_ne {d : Nat} (other : d ≠ c) : (s.countsFailed c r k).ctx d = s.ctx d := by
  unfold State.countsFailed
  split
  · rfl
  · exact State.ctx_updRing_ne s other r _

theorem State.ctx_countsFailed_self : ∃ rings, (s.countsFailed c r k).ctx c = { s.ctx c with rings := rings } := by
  unfold State.countsFailed
  split
  · exact ⟨_, rfl⟩
  · exact ⟨_, State.ctx_updCtx_self ..⟩

theorem State.ring_countsFailed (i : Nat) : (s.countsFailed c r k).ring c i = { s.ring c i with
    decided := if i = r ∧ k.bad = none then ((s.ring c r).decided + 1) % 2 ^ 32 else (s.ring c i).decided } := by
  unfold State.countsFailed
  cases bad : k.bad with
  | some d => simp
  | none =>
    simp only [Option.isSome_none, Bool.false_eq_true, if_false, State.countDecided, State.ring_updRing, true_and, and_true]
    split
    next same => rw [same]
    next => rfl

theorem State.ring_placesDecided (i : Nat) : (s.placesDecided c r n va before k).ring c i = { (s.countsFailed c r k).ring c i with
    recs := if i = r then (s.ring c r).recs.drop (before.length + 1) else (s.ring c i).recs } := by
  have records (j : Nat) : ((s.countsFailed c r k).ring c j).recs = (s.ring c j).recs := by rw [State.ring_countsFailed]
  rw [State.placesDecided, State.ring_updRing, State.ring_places, State.ring_places]
  by_cases own : i = r
  · subst own
    simp only [and_self, if_true, records]
  · simp only [own, and_false, if_false, ← records]

theorem State.ring_restartsBehind (i : Nat) : (s.restartsBehind c r n).ring c i =
    if i = r then { (s.ring c r).dropped false with head := (n + 1) % 2 ^ 32 } else s.ring c i := by
  rw [State.restartsBehind, State.ring_updRing, State.ring_dropRecs, State.ring_dropRecs]
  by_cases own : i = r
  · simp [own]
  · simp [own]

theorem State.ring_fault (u : State) (cause i : Nat) : (u.fault_ c cause).ring c i = u.ring c i := by
  rw [State.ring, State.ctx_fault_self, ← State.ring]

/-- What a failed fetch comes to. -/
def State.fetchFailed : State := (((s.placesDecided c r n va before k).restartsBehind c r n).dropAllRecs c true).fault_ c 2

theorem State.ring_fetchFailed {i : Nat} (h : i < 4) : (s.fetchFailed c r n va before k).ring c i =
    (((s.placesDecided c r n va before k).restartsBehind c r n).ring c i).dropped true := by
  rw [State.fetchFailed, State.ring_fault, State.ring_dropAllRecs _ c true h]

theorem Ring.dropped_restarted (g : Ring) (h : Nat) : (({ g.dropped false with head := h } : Ring).dropped true).decided = g.decided ∧
    (({ g.dropped false with head := h } : Ring).dropped true).head = h ∧ (({ g.dropped false with head := h } : Ring).dropped true).failed = none ∧
    (({ g.dropped false with head := h } : Ring).dropped true).recs = [] := ⟨rfl, rfl, rfl, rfl⟩

/-- The ring of the failed entry is empty, with its head behind it. -/
theorem State.ring_fetchFailed_self (h : r < 4) :
    ((s.fetchFailed c r n va before k).ring c r).decided =
      (if k.bad = none then ((s.ring c r).decided + 1) % 2 ^ 32 else (s.ring c r).decided) ∧
    ((s.fetchFailed c r n va before k).ring c r).head = (n + 1) % 2 ^ 32 ∧ ((s.fetchFailed c r n va before k).ring c r).failed = none ∧
    ((s.fetchFailed c r n va before k).ring c r).recs = [] := by
  obtain ⟨decided, rest⟩ := Ring.dropped_restarted ((s.placesDecided c r n va before k).ring c r) ((n + 1) % 2 ^ 32)
  rw [State.ring_fetchFailed _ _ _ _ _ _ _ h, State.ring_restartsBehind, if_pos rfl]
  refine ⟨decided.trans ?_, rest⟩
  rw [State.ring_placesDecided, State.ring_countsFailed]
  simp only [true_and]

theorem State.recs_fetchFailed_ne {i : Nat} (h : i < 4) (other : i ≠ r) : ((s.fetchFailed c r n va before k).ring c i).recs =
    (s.ring c i).recs.takeWhile fun k => k.bad.isSome && k.here := by
  have records : ((s.placesDecided c r n va before k).ring c i).recs = (s.ring c i).recs := by
    rw [State.ring_placesDecided, if_neg other]
  rw [State.ring_fetchFailed _ _ _ _ _ _ _ h, State.ring_restartsBehind, if_neg other, ← records]
  rfl

theorem State.ctx_placesDecided_self : ∃ rings, (s.placesDecided c r n va before k).ctx c = { s.ctx c with
    rings := rings, reserved := (s.ctx c).reserved + (before.length + 1)
    launches := (s.ctx c).launches ++ (before.map (s.launchOf c r) ++ [s.failedLaunch c r n va k]) } := by
  obtain ⟨rings, counts⟩ := s.ctx_countsFailed_self c r k
  refine ⟨upd rings r fun g => { g with recs := g.recs.drop (before.length + 1) }, ?_⟩
  rw [State.placesDecided, State.updRing, State.ctx_updCtx_self, State.ctx_updCtx_self, counts, Ctx.places, List.length_append, List.length_map,
    List.length_singleton]
  rfl

theorem State.ctx_fetchFailed_self (standing : (s.ctx c).st ≠ .teardown) : ∃ rings kept, (s.fetchFailed c r n va before k).ctx c = { s.ctx c with
    rings := rings, kept := kept, reserved := (s.ctx c).reserved + (before.length + 1), st := .faulted
    launches := (s.ctx c).launches ++ (before.map (s.launchOf c r) ++ [s.failedLaunch c r n va k]) } := by
  obtain ⟨rings, places⟩ := s.ctx_placesDecided_self c r n va before k
  obtain ⟨rings', kept, drops⟩ := ((s.placesDecided c r n va before k).restartsBehind c r n).dropAllRecs_ctx c true
  have stays : ((s.ctx c).st == .teardown) = false := by simpa using standing
  refine ⟨rings', kept, ?_⟩
  rw [State.fetchFailed, State.ctx_fault_self, drops, State.restartsBehind, State.updRing, State.ctx_updCtx_self, State.ctx_dropRecs_self, places]
  simp only [Ctx.updRing, Ctx.dropRecs, stays, Bool.false_eq_true, if_false]

theorem State.ctx_fetchFailed_ne {d : Nat} (other : d ≠ c) : (s.fetchFailed c r n va before k).ctx d = s.ctx d := by
  rw [State.fetchFailed, State.ctx_fault_ne _ c 2 other, State.ctx_dropAllRecs_ne _ c true other, State.restartsBehind, State.ctx_updRing_ne _ other,
    State.ctx_dropRecs_ne _ _ _ _ other, State.placesDecided, State.ctx_updRing_ne _ other, State.ctx_updCtx, if_neg other,
    State.ctx_countsFailed_ne _ _ _ _ other]

theorem State.dropped_frame : ∃ q x, ((s.placesDecided c r n va before k).restartsBehind c r n).dropAllRecs c true = { s with reqs := q, ctxs := x } := by
  obtain ⟨x1, counts⟩ := s.countsFailed_frame c r k
  have placed : ∃ x, s.placesDecided c r n va before k = { s with ctxs := x } := by
    rw [State.placesDecided, counts]
    exact ⟨_, rfl⟩
  obtain ⟨x2, places⟩ := placed
  have restarted : ∃ q x, (s.placesDecided c r n va before k).restartsBehind c r n = { s with reqs := q, ctxs := x } := by
    obtain ⟨q, x, drops⟩ := (s.placesDecided c r n va before k).dropRecs_frame c r false
    rw [State.restartsBehind, drops, places]
    exact ⟨_, _, rfl⟩
  obtain ⟨q3, x3, restarts⟩ := restarted
  obtain ⟨q4, x4, drops⟩ := ((s.placesDecided c r n va before k).restartsBehind c r n).dropAllRecs_frame c true
  rw [drops, restarts]
  exact ⟨_, _, rfl⟩

theorem State.fetchFailed_frame : (s.fetchFailed c r n va before k).cells = s.cells ∧ (s.fetchFailed c r n va before k).lanes = s.lanes ∧
    SameRegs [Reg.ctxAttn c] s (s.fetchFailed c r n va before k) := by
  obtain ⟨q, x, drops⟩ := s.dropped_frame c r n va before k
  have faults := (((s.placesDecided c r n va before k).restartsBehind c r n).dropAllRecs c true).fault_frame c 2
  have regs := (((s.placesDecided c r n va before k).restartsBehind c r n).dropAllRecs c true).fault_regs c 2
  refine ⟨faults.cells.trans (by rw [drops]), faults.lanes.trans (by rw [drops]), fun o other => (regs o other).trans ?_⟩
  rw [drops]
  rfl

end

/-- The clause of O43 on a record that cannot be fetched. -/
theorem record_fetch_fails {s : State} {c r n va : Nat} {before : List Rec} {k : Rec} {rest : List Rec} (failed : (s.ring c r).failed = some (n, va))
    (recs : (s.ring c r).recs = before ++ k :: rest) (earlier : ∀ b ∈ before, b.count ≠ n) (here : k.count = n) (ring : r < 4)
    (standing : (s.ctx c).st ≠ .teardown) :
    ((∃ b ∈ before, b.bad = none) → exec (.recordFetchFault c r) s = .next s) ∧
    ((∀ b ∈ before, b.bad ≠ none) →
      ∃ t ls l, exec (.recordFetchFault c r) s = .next t ∧ (t.ctx c).launches = (s.ctx c).launches ++ ls ++ [l] ∧
        ls.map (fun x => x.seq) = before.map (fun b => r * 2 ^ 32 + b.count) ∧ ls.map (fun x => x.decision) = before.map (fun b => b.bad) ∧
        l.seq = r * 2 ^ 32 + n ∧ (∀ d, k.bad = some d → l.decision = some d) ∧
        (k.bad = none → (l.decision.map fun d => (d.status, d.where_, d.arg)) = some (xTRANSLATIONFAULT, s.ringVa c r n, va)) ∧
        ((t.ring c r).decided = if k.bad = none then ((s.ring c r).decided + 1) % 2 ^ 32 else (s.ring c r).decided) ∧
        (t.ctx c).reserved = (s.ctx c).reserved + before.length + 1 ∧ (t.ring c r).head = (n + 1) % 2 ^ 32 ∧ (t.ring c r).failed = none ∧
        (t.ring c r).recs = [] ∧ (∀ i, i < 4 → i ≠ r → (t.ring c i).recs = (s.ring c i).recs.takeWhile fun k => k.bad.isSome && k.here) ∧
        (t.ctx c).st = .faulted ∧ (∀ d, d ≠ c → t.ctx d = s.ctx d) ∧ t.cells = s.cells ∧ t.lanes = s.lanes ∧ SameRegs [Reg.ctxAttn c] s t) := by
  have runs := exec_recordFetchFault failed recs earlier here
  refine ⟨fun open_ => ?waits, fun decided => ?fails⟩
  case waits =>
    obtain ⟨b, mem, bad⟩ := open_
    have some_ : (!before.all fun k => k.bad.isSome) = true := by
      rw [Bool.not_eq_true', List.all_eq_false]
      exact ⟨b, mem, by simp [bad]⟩
    rw [runs, if_pos some_]
  case fails =>
    have all : ¬(!before.all fun k => k.bad.isSome) = true := by
      have every : (before.all fun k => k.bad.isSome) = true :=
        List.all_eq_true.2 fun b mem => Option.isSome_iff_ne_none.2 (decided b mem)
      rw [every]
      decide
    rw [if_neg all] at runs
    obtain ⟨rings, kept, own⟩ := s.ctx_fetchFailed_self c r n va before k standing
    obtain ⟨count, head, cleared, empty⟩ := s.ring_fetchFailed_self c r n va before k ring
    obtain ⟨cells, lanes, regs⟩ := s.fetchFailed_frame c r n va before k
    refine ⟨s.fetchFailed c r n va before k, before.map (s.launchOf c r), s.failedLaunch c r n va k, runs, ?launches, ?seqs, ?decisions, ?seq, fun d bad => ?kept,
      fun bad => ?fault, count, ?reserved, head, cleared, empty,
      fun i h other => s.recs_fetchFailed_ne c r n va before k h other, ?st, fun d other => s.ctx_fetchFailed_ne c r n va before k other, cells, lanes, regs⟩
    case launches => rw [own, List.append_assoc]
    case seqs => rw [List.map_map]; rfl
    case decisions => rw [List.map_map]; rfl
    case seq => rw [← here]; rfl
    case kept =>
      have stands : some (k.bad.getD (s.fetchFault c r n va)) = some d := by rw [bad]; rfl
      exact stands
    case fault =>
      have new : some (k.bad.getD (s.fetchFault c r n va)) = some (s.fetchFault c r n va) := by rw [bad]; rfl
      exact congrArg (Option.map fun d : Decision => (d.status, d.where_, d.arg)) new
    case reserved => rw [own, Nat.add_assoc]
    case st => rw [own]

end Sys2Proof.Machine
end

section
/-! PROOFS. Dispatch (O43, R196, R198, R291). -/
namespace Sys2Proof.Machine

open Sys2Proof

/-! ## The lanes that a launch goes to (R127) -/

theorem laneIx_ne {a b : LaneId} (cluster : a.cl ≠ b.cl) (ha : a.n < 4) (hb : b.n < 4) : laneIx a ≠ laneIx b := by
  simp only [laneIx]
  omega

section
variable (s : State) (c : Nat)

theorem State.laneFor_cl (k : Nat) : (s.laneFor c k).cl = k := by
  unfold State.laneFor
  split <;> rfl

theorem State.laneFor_n (k : Nat) : (s.laneFor c k).n < 4 := by
  unfold State.laneFor
  split
  next n found => exact List.mem_range.1 (List.mem_of_find?_eq_some found)
  next => exact Nat.mod_lt _ (by decide)

/-- The lane of a cluster is chosen by the lanes there and by the lease. -/
theorem State.laneFor_congr {s t : State} {c k : Nat} (lanes : ∀ n, n < 4 → t.lane ⟨k, n⟩ = s.lane ⟨k, n⟩) (tiles : t.leaseTiles c = s.leaseTiles c) :
    t.laneFor c k = s.laneFor c k := by
  have same : (List.range 4).find? (fun n => (t.lane ⟨k, n⟩).ctx == c && ((t.lane ⟨k, n⟩).st != .idle || !(t.lane ⟨k, n⟩).waiting.isEmpty)) =
      (List.range 4).find? fun n => (s.lane ⟨k, n⟩).ctx == c && ((s.lane ⟨k, n⟩).st != .idle || !(s.lane ⟨k, n⟩).waiting.isEmpty) :=
    List.find?_congr fun n mem => by rw [lanes n (List.mem_range.1 mem)]
  rw [State.laneFor, State.laneFor, same, tiles]

/-- A lane that a launch is sent to. -/
def Lane.sent (c gen seq : Nat) (x : Lane) : Lane :=
  { (if x.st == .idle then { x with ctx := c, gen := gen } else x) with waiting := x.waiting ++ [seq] }

theorem State.sendLanes_cons (seq k : Nat) (ks : List Nat) :
    s.sendLanes c seq (k :: ks) = (s.updLane (s.laneFor c k) (Lane.sent c (s.ctx c).gen seq)).sendLanes c seq ks := rfl

theorem State.sendLanes_frame (seq : Nat) (ks : List Nat) : ∃ lanes, s.sendLanes c seq ks = { s with lanes := lanes } := by
  induction ks generalizing s with
  | nil => exact ⟨s.lanes, rfl⟩
  | cons k r ih =>
    obtain ⟨lanes, eq⟩ := ih (s.updLane (s.laneFor c k) (Lane.sent c (s.ctx c).gen seq))
    exact ⟨lanes, (s.sendLanes_cons c seq k r).trans eq⟩

/-- A lane of another cluster is left alone. -/
theorem State.lane_sendLanes_ne (seq : Nat) {ks : List Nat} {l : LaneId} (real : l.n < 4) (other : l.cl ∉ ks) :
    (s.sendLanes c seq ks).lane l = s.lane l := by
  induction ks generalizing s with
  | nil => rfl
  | cons k r ih =>
    rw [List.mem_cons, not_or] at other
    have apart : laneIx l ≠ laneIx (s.laneFor c k) := laneIx_ne (by rw [s.laneFor_cl]; exact other.1) real (s.laneFor_n c k)
    rw [State.sendLanes_cons, ih _ other.2, State.lane_updLane, if_neg apart]

/-- The lane of each cluster listed has the launch at the end of its queue. -/
theorem State.waiting_sendLanes (seq : Nat) {ks : List Nat} (distinct : ks.Nodup) : ∀ k ∈ ks,
    ((s.sendLanes c seq ks).lane (s.laneFor c k)).waiting = (s.lane (s.laneFor c k)).waiting ++ [seq] := by
  induction ks generalizing s with
  | nil => exact fun k mem => absurd mem List.not_mem_nil
  | cons j r ih =>
    obtain ⟨fresh, distinct⟩ := List.nodup_cons.1 distinct
    intro k mem
    rw [State.sendLanes_cons]
    by_cases own : k = j
    · subst own
      rw [State.lane_sendLanes_ne _ c seq (s.laneFor_n c k) (by rw [s.laneFor_cl]; exact fresh), State.lane_updLane_self]
      rfl
    · have later := (List.mem_cons.1 mem).resolve_left own
      have apart (l : LaneId) (cl : l.cl = k) (real : l.n < 4) :
          (s.updLane (s.laneFor c j) (Lane.sent c (s.ctx c).gen seq)).lane l = s.lane l := by
        rw [State.lane_updLane, if_neg (laneIx_ne (by rw [cl, s.laneFor_cl]; exact own) real (s.laneFor_n c j))]
      have chosen : (s.updLane (s.laneFor c j) (Lane.sent c (s.ctx c).gen seq)).laneFor c k = s.laneFor c k :=
        State.laneFor_congr (fun n h => apart ⟨k, n⟩ rfl h) rfl
      have sent := ih (s.updLane (s.laneFor c j) (Lane.sent c (s.ctx c).gen seq)) distinct k later
      rw [chosen, apart _ (s.laneFor_cl c k) (s.laneFor_n c k)] at sent
      exact sent

theorem State.leaseClusters_nodup : (s.leaseClusters c).Nodup := List.nodup_range.filter _

end

/-! ## The other members of a gang (R291) -/

theorem State.gangCounts_frame (s : State) (ms : List Nat) : ∃ f, (s.gangCounts ms).2 = { s with free := f } := by
  induction ms generalizing s with
  | nil => exact ⟨s.free, rfl⟩
  | cons m r ih => exact ih s.draw.2

section
variable (s : State) (c : Nat) (g : GangLaunch) (own total before : Nat)

theorem State.dispatchOthers_out (ps : List (Nat × Nat)) : ∃ os, s.dispatchOthers c g own total before ps = { s with out := s.out ++ os } ∧
    (ps = [] → os = []) ∧ ∀ p ∈ ps, p.2 ≠ 0 → ∃ x, Out.gangTell p.1 c (.launch x) ∈ os ∧ x.seq = g.seq ∧ x.entry = g.entry ∧ x.consts = g.consts := by
  induction ps generalizing s before with
  | nil => exact ⟨[], by rw [List.append_nil]; rfl, fun _ => rfl, fun p mem => absurd mem List.not_mem_nil⟩
  | cons p r ih =>
    obtain ⟨m, n⟩ := p
    rw [State.dispatchOthers]
    by_cases none : n = 0
    · subst none
      obtain ⟨os, eq, -, told⟩ := ih s (before + 0)
      refine ⟨os, eq, fun none => absurd none (List.cons_ne_nil _ _), fun p mem some_ => ?_⟩
      exact told p ((List.mem_cons.1 mem).resolve_left fun same => some_ (by rw [same])) some_
    · have tells : ¬(n == 0) = true := by simpa using none
      rw [if_neg tells]
      obtain ⟨os, eq, -, told⟩ := ih (s.emit (.gangTell m c (.launch { g with more := own + total - n, before := own + before }))) (before + n)
      refine ⟨.gangTell m c (.launch { g with more := own + total - n, before := own + before }) :: os, ?_,
        fun none => absurd none (List.cons_ne_nil _ _), fun p mem some_ => ?_⟩
      · rw [eq, State.emit, List.append_assoc]
        rfl
      · rcases List.mem_cons.1 mem with rfl | later
        · exact ⟨_, List.mem_cons_self, rfl, rfl, rfl⟩
        · obtain ⟨x, out, same⟩ := told p later some_
          exact ⟨x, List.mem_cons_of_mem _ out, same⟩

end

end Sys2Proof.Machine
end

section
/-! PROOFS. What a dispatch leaves at the lead and at a member of a gang (O43, R196, R198, R291). -/
namespace Sys2Proof.Machine

open Sys2Proof

/-! ## A launch that joins its context -/

/-- How many clusters of each other member of the gang take the launch. -/
def State.gangShare (s : State) (k : Rec) : List (Nat × Nat) × State :=
  if s.ganged && k.bad.isNone then s.gangCounts ((List.range s.gangN).drop 1) else ([], s)

/-- The launch of a record, with the clusters of the other members. -/
def State.launchWith (s : State) (c r : Nat) (k : Rec) (ms : List (Nat × Nat)) : Launch :=
  { s.launchOf c r k with gangMore := (ms.map (·.2)).sum, gangLeft := (ms.filter fun p => p.2 != 0).map (·.1) }

/-- The launch joins the context, and its record leaves the ring. -/
def State.joins (s : State) (c r : Nat) (l : Launch) (rest : List Rec) : State :=
  ((s.takeTurn c r).updCtx c (Ctx.places [l])).updRing c r fun g => { g with recs := rest }

/-- The launch is sent to the lanes of its clusters, whose domains start to wake. -/
def State.sends (s : State) (c : Nat) (l : Launch) : State := (s.sendLanes c l.seq l.clusters).wakeFor c

/-- What the lead tells the other members of a launch. -/
def Launch.told (l : Launch) : GangLaunch := ⟨l.ring, l.seq, l.entry, l.consts, l.nb, l.inTime, 0, 0⟩

/-- A launch that starts late is counted (R198, R392). -/
def State.countsLate (s : State) (late : Bool) : State := if late then (s.incWrap Reg.criLate 63 0 1).criEvent 8 else s

section
variable (s : State) (c r : Nat) (l : Launch) (rest : List Rec)

theorem State.joins_frame : s.joins c r l rest = { s with ctxs := (s.joins c r l rest).ctxs } := rfl

theorem State.ctx_joins_ne {d : Nat} (other : d ≠ c) : (s.joins c r l rest).ctx d = s.ctx d := by
  rw [State.joins, State.ctx_updRing_ne _ other, State.ctx_updCtx, if_neg other, State.takeTurn, State.ctx_updCtx, if_neg other]

theorem State.ctx_joins_self : ((s.joins c r l rest).ctx c).launches = (s.ctx c).launches ++ [l] ∧
    ((s.joins c r l rest).ctx c).reserved = (s.ctx c).reserved + 1 := by
  rw [State.joins, State.updRing, State.ctx_updCtx_self, State.ctx_updCtx_self, State.takeTurn, State.ctx_updCtx_self]
  exact ⟨rfl, rfl⟩

theorem State.ring_joins_self : ((s.joins c r l rest).ring c r).recs = rest ∧ ((s.joins c r l rest).ring c r).decided = (s.ring c r).decided := by
  rw [State.joins, State.ring_updRing_self, State.ring_places]
  refine ⟨rfl, ?_⟩
  have turn : (s.takeTurn c r).ring c r = { s.ring c r with used := ((s.takeTurn c r).ring c r).used } := by
    rw [State.takeTurn, State.ring, State.ctx_updCtx_self]
    simp only [nth_upd_self]
    rfl
  rw [turn]

theorem State.sends_frame : ∃ lanes tiles clusters, s.sends c l = { s with lanes := lanes, tiles := tiles, clusters := clusters } := by
  obtain ⟨lanes, eq⟩ := s.sendLanes_frame c l.seq l.clusters
  rw [State.sends, eq]
  exact ⟨_, _, _, rfl⟩

theorem State.waiting_sends (clusters : l.clusters = s.leaseClusters c) : ∀ k ∈ s.leaseClusters c,
    ((s.sends c l).lane (s.laneFor c k)).waiting = (s.lane (s.laneFor c k)).waiting ++ [l.seq] := by
  have sent := s.waiting_sendLanes c l.seq (s.leaseClusters_nodup c)
  rw [← clusters] at sent ⊢
  exact sent

end

section
variable (s : State)

theorem State.countsLate_frame (late : Bool) : ∃ r, s.countsLate late = { s with regs := r } := by
  unfold State.countsLate
  split
  · exact ⟨_, rfl⟩
  · exact ⟨s.regs, rfl⟩

theorem State.countsLate_late : (s.countsLate true).fld Reg.criLate 63 0 = (s.fld Reg.criLate 63 0 + 1) % 2 ^ 64 ∧
    (s.countsLate true).flag Reg.criEvent 3 = true ∧ SameRegs [Reg.criLate, Reg.criEvent] s (s.countsLate true) := by
  have step : s.countsLate true = (s.incWrap Reg.criLate 63 0 1).criEvent 8 := rfl
  rw [step, State.criEvent]
  refine ⟨?_, ?_, fun o other => ?_⟩
  · rw [State.fld, State.reg_setBitsIn, if_neg (by decide), State.reg_incWrap, if_pos rfl, bits_setBits_same _ _ _ _ (by decide) (by decide)]
  · rw [State.flag_setBitsIn _ _ _ _ (by decide)]
    exact Bool.or_true _
  · simp only [List.mem_cons, List.not_mem_nil, or_false, not_or] at other
    rw [State.reg_setBitsIn, if_neg other.2, State.reg_incWrap, if_neg other.1]

theorem State.gangShare_frame (k : Rec) : ∃ f, (s.gangShare k).2 = { s with free := f } := by
  unfold State.gangShare
  split
  · exact s.gangCounts_frame _
  · exact ⟨s.free, rfl⟩

theorem State.gangShare_alone {k : Rec} (alone : s.ganged = false) : s.gangShare k = ([], s) := by
  rw [State.gangShare, alone]
  rfl

end

/-! ## The dispatch -/

/-- The lanes and the other members take the launch; a late one is counted. -/
def State.starts (s : State) (c : Nat) (k : Rec) (l : Launch) (ms : List (Nat × Nat)) : State :=
  ((s.sends c l).dispatchOthers c l.told l.clusters.length (ms.map (·.2)).sum 0 ms).countsLate (s.startsLate c k)

/-- A dispatch, once the other members' shares are known: the launch joins its context, and starts unless it is decided. -/
def State.dispatchWith (s : State) (c r : Nat) (k : Rec) (rest : List Rec) (ms : List (Nat × Nat)) : State :=
  match k.bad with
  | some _ => s.joins c r (s.launchWith c r k ms) rest
  | none => (s.joins c r (s.launchWith c r k ms) rest).starts c k (s.launchWith c r k ms) ms

section
variable {s : State} {c r : Nat} {k : Rec} {rest : List Rec} (may : s.mayDispatch c = true) (pick : s.pickRing c = some r)
  (recs : (s.ring c r).recs = k :: rest) (unarmed : s.inject = none)
include may pick recs unarmed

theorem exec_dispatch : exec (.dispatch ⟨c, none⟩) s = .next ((s.gangShare k).2.dispatchWith c r k rest (s.gangShare k).1) := by
  have quiet : s.injHits 0x12 48 = false := by rw [State.injHits, unarmed]
  refine congrArg Host.Outcome.next (?_ : dispatchS c s = _)
  simp only [dispatchS, may, pick, recs, quiet, Bool.not_true, Bool.false_eq_true, if_false]
  rfl

theorem exec_dispatch_decided {d : Decision} (bad : k.bad = some d) :
    exec (.dispatch ⟨c, none⟩) s = .next (s.joins c r (s.launchWith c r k []) rest) := by
  have alone : s.gangShare k = ([], s) := by
    rw [State.gangShare, bad]
    exact if_neg (by simp)
  rw [exec_dispatch may pick recs unarmed, alone, State.dispatchWith, bad]

theorem exec_dispatch_starts (good : k.bad = none) : exec (.dispatch ⟨c, none⟩) s = .next
    (((s.gangShare k).2.joins c r ((s.gangShare k).2.launchWith c r k (s.gangShare k).1) rest).starts c k
      ((s.gangShare k).2.launchWith c r k (s.gangShare k).1) (s.gangShare k).1) := by
  rw [exec_dispatch may pick recs unarmed, State.dispatchWith, good]

end

/-! ## What a start leaves -/

section
variable (s : State) (c : Nat) (k : Rec) (l : Launch) (ms : List (Nat × Nat))

/-- What a start sends to the other members, before a late one is counted. -/
theorem State.starts_frame : ∃ lanes tiles clusters os, s.starts c k l ms =
      ({ s with lanes := lanes, tiles := tiles, clusters := clusters, out := s.out ++ os } : State).countsLate (s.startsLate c k) ∧
    (∀ x, (nth lanes x) = nth (s.sends c l).lanes x) ∧ (ms = [] → os = []) ∧
    ∀ p ∈ ms, p.2 ≠ 0 → ∃ x, Out.gangTell p.1 c (.launch x) ∈ os ∧ x.seq = l.seq ∧ x.entry = l.entry ∧ x.consts = l.consts := by
  obtain ⟨lanes, tiles, clusters, sends⟩ := s.sends_frame c l
  obtain ⟨os, tells, silent, told⟩ := (s.sends c l).dispatchOthers_out c l.told l.clusters.length (ms.map (·.2)).sum 0 ms
  refine ⟨lanes, tiles, clusters, os, ?_, fun x => by rw [sends], silent, told⟩
  rw [State.starts, tells, sends]

end

/-! ## The clause of O43 on dispatches -/

theorem State.startsLate_untimed (s : State) {c : Nat} {k : Rec} (untimed : k.nb = none) : s.startsLate c k = false := by
  rw [State.startsLate, untimed]

theorem State.startsLate_missed (s : State) {c : Nat} {k : Rec} (timed : k.nb ≠ none) (missed : k.onTime = false) : s.startsLate c k = true := by
  obtain ⟨t, tick⟩ := Option.ne_none_iff_exists'.1 timed
  rw [State.startsLate, tick]
  simp only [missed]
  rfl

/-- Nothing that says how a launch starts differs where only free values have been drawn and contexts changed. -/
theorem State.joins_drawn {s u : State} {f : Nat} (drawn : u = { s with free := f }) (c r : Nat) (l : Launch) (rest : List Rec) :
    u.joins c r l rest = { s with free := f, ctxs := (u.joins c r l rest).ctxs } := by
  rw [State.joins_frame, drawn]

/-- A dispatch of a launch that is not decided. -/
theorem dispatch_starts {s : State} {c r : Nat} {k : Rec} {rest : List Rec} (may : s.mayDispatch c = true) (pick : s.pickRing c = some r)
    (recs : (s.ring c r).recs = k :: rest) (unarmed : s.inject = none) (good : k.bad = none) :
    ∃ t l, exec (.dispatch ⟨c, none⟩) s = .next t ∧
        t = { s with ctxs := t.ctxs, lanes := t.lanes, tiles := t.tiles, clusters := t.clusters, regs := t.regs, free := t.free, out := t.out } ∧
        (t.ctx c).launches = (s.ctx c).launches ++ [l] ∧ (t.ctx c).reserved = (s.ctx c).reserved + 1 ∧ (t.ring c r).recs = rest ∧
        (t.ring c r).decided = (s.ring c r).decided ∧ l.seq = r * 2 ^ 32 + k.count ∧ l.entry = k.entry ∧ l.consts = k.consts ∧ l.irq = k.irq ∧
        l.keep = k.keep ∧ l.clusters = s.leaseClusters c ∧ l.numCtrl = s.reg (Reg.ctxNumCtrl c) ∧ l.decision = none ∧ l.stage = .waiting ∧
        (∀ kk ∈ s.leaseClusters c, (t.lane (s.laneFor c kk)).waiting = (s.lane (s.laneFor c kk)).waiting ++ [l.seq]) ∧
        (∀ d, d ≠ c → t.ctx d = s.ctx d) ∧
        (s.ganged = false → t.out = s.out ∧ t.free = s.free ∧ l.gangLeft = []) ∧
        (∀ m ∈ l.gangLeft, ∃ g, Out.gangTell m c (.launch g) ∈ t.out ∧ g.seq = l.seq ∧ g.entry = k.entry ∧ g.consts = k.consts) ∧
        (k.nb = none → t.regs = s.regs) ∧
        (k.nb ≠ none → k.onTime = false →
          t.fld Reg.criLate 63 0 = (s.fld Reg.criLate 63 0 + 1) % 2 ^ 64 ∧ t.flag Reg.criEvent 3 = true ∧ SameRegs [Reg.criLate, Reg.criEvent] s t) ∧
        (s.startsLate c k = false → t.regs = s.regs) := by
  obtain ⟨f, drawn⟩ := s.gangShare_frame k
  have runs := exec_dispatch_starts may pick recs unarmed good
  have alone : s.ganged = false → (s.gangShare k).1 = [] ∧ s.free = f := fun h => by
    rw [State.gangShare_alone s h] at drawn ⊢
    exact ⟨rfl, congrArg State.free drawn⟩
  rw [drawn] at runs
  generalize (s.gangShare k).1 = ms at runs alone
  generalize isLaunch : ({ s with free := f } : State).launchWith c r k ms = l at runs
  have clusters : l.clusters = s.leaseClusters c := by
    rw [← isLaunch]
    exact if_pos (by rw [good]; rfl)
  have left : l.gangLeft = (ms.filter fun p => p.2 != 0).map (·.1) := by rw [← isLaunch]; rfl
  have others (d : Nat) (other : d ≠ c) := ({ s with free := f } : State).ctx_joins_ne c r l rest other
  obtain ⟨launches, reserved⟩ := ({ s with free := f } : State).ctx_joins_self c r l rest
  obtain ⟨records, decided⟩ := ({ s with free := f } : State).ring_joins_self c r l rest
  have joined := ({ s with free := f } : State).joins_frame c r l rest
  generalize ({ s with free := f } : State).joins c r l rest = u at runs others launches reserved records decided joined
  have lease : u.leaseClusters c = s.leaseClusters c := by rw [joined]; rfl
  have chosen (kk : Nat) : u.laneFor c kk = s.laneFor c kk := by rw [joined]; rfl
  have before (x : LaneId) : u.lane x = s.lane x := by rw [joined]; rfl
  have late : u.startsLate c k = s.startsLate c k := by rw [joined]; rfl
  have sent := u.waiting_sends c l (clusters.trans lease.symm)
  obtain ⟨lanes, tiles, ks, os, started, lane, silent, told⟩ := u.starts_frame c k l ms
  rw [started, late] at runs
  obtain ⟨q, counted⟩ := ({ u with lanes := lanes, tiles := tiles, clusters := ks, out := u.out ++ os } : State).countsLate_frame (s.startsLate c k)
  have regs : u.regs = s.regs := by rw [joined]
  have quiet : s.startsLate c k = false →
      (({ u with lanes := lanes, tiles := tiles, clusters := ks, out := u.out ++ os } : State).countsLate (s.startsLate c k)).regs = s.regs := fun no => by
    rw [no]
    exact regs
  refine ⟨_, l, runs, ?frame, ?launches, ?reserved, ?records, ?decided, ?seq, ?entry, ?consts, ?irq, ?keep, clusters, ?numCtrl, ?decision, ?stage,
    fun kk mem => ?waiting, fun d other => ?others, fun h => ?alone, fun m mem => ?told, fun untimed => quiet (s.startsLate_untimed untimed),
    fun timed missed => ?late, quiet⟩
  case frame =>
    rw [counted, joined]
  case launches =>
    rw [counted]
    exact launches
  case reserved =>
    rw [counted]
    exact reserved
  case records =>
    rw [counted]
    exact records
  case decided =>
    rw [counted]
    exact decided
  case seq => rw [← isLaunch]; rfl
  case entry => rw [← isLaunch]; rfl
  case consts => rw [← isLaunch]; rfl
  case irq => rw [← isLaunch]; rfl
  case keep => rw [← isLaunch]; rfl
  case numCtrl => rw [← isLaunch]; rfl
  case decision => rw [← isLaunch]; exact good
  case stage => rw [← isLaunch]; rfl
  case waiting =>
    have now := sent kk (lease ▸ mem)
    rw [chosen, before, State.lane, ← lane] at now
    rw [counted]
    exact now
  case others =>
    rw [counted]
    exact others d other
  case alone =>
    obtain ⟨nobody, kept⟩ := alone h
    refine ⟨?_, ?_, ?_⟩
    · rw [counted, silent nobody, joined]
      exact List.append_nil _
    · rw [counted, joined]
      exact kept.symm
    · rw [left, nobody]
      rfl
  case told =>
    rw [left, List.mem_map] at mem
    obtain ⟨p, mem, rfl⟩ := mem
    obtain ⟨mem, some_⟩ := List.mem_filter.1 mem
    obtain ⟨x, out, seq, entry, consts⟩ := told p mem (by simpa using some_)
    refine ⟨x, ?_, seq, entry.trans ?_, consts.trans ?_⟩
    · rw [counted]
      exact List.mem_append_right _ out
    · rw [← isLaunch]; rfl
    · rw [← isLaunch]; rfl
  case late =>
    rw [s.startsLate_missed timed missed]
    obtain ⟨count, event, same⟩ := ({ u with lanes := lanes, tiles := tiles, clusters := ks, out := u.out ++ os } : State).countsLate_late
    have words (o : Nat) : ({ u with lanes := lanes, tiles := tiles, clusters := ks, out := u.out ++ os } : State).reg o = s.reg o := by
      rw [joined]
      rfl
    refine ⟨?_, event, fun o other => (same o other).trans (words o)⟩
    rw [count, State.fld, words, ← State.fld]

/-- The clause of O43 on a dispatch. -/
theorem dispatch_takes {s : State} {c r : Nat} {k : Rec} {rest : List Rec} (may : s.mayDispatch c = true) (pick : s.pickRing c = some r)
    (recs : (s.ring c r).recs = k :: rest) (unarmed : s.inject = none) {d : Decision} (bad : k.bad = some d) :
    ∃ t l, exec (.dispatch ⟨c, none⟩) s = .next t ∧ t = { s with ctxs := t.ctxs } ∧ (t.ctx c).launches = (s.ctx c).launches ++ [l] ∧
        (t.ctx c).reserved = (s.ctx c).reserved + 1 ∧ l.seq = r * 2 ^ 32 + k.count ∧ l.decision = some d ∧ l.clusters = [] ∧
        (t.ring c r).recs = rest ∧ (t.ring c r).decided = (s.ring c r).decided := by
  obtain ⟨launches, reserved⟩ := s.ctx_joins_self c r (s.launchWith c r k []) rest
  obtain ⟨records, decided⟩ := s.ring_joins_self c r (s.launchWith c r k []) rest
  have none_ : (s.launchWith c r k []).clusters = [] := if_neg (by rw [bad]; exact Bool.false_ne_true)
  exact ⟨_, _, exec_dispatch_decided may pick recs unarmed bad, State.joins_frame .., launches, reserved, rfl, bad, none_, records, decided⟩

/-! ## A member of a gang (R291) -/

/-- The launch that a member makes of what the lead tells it. -/
def State.memberLaunchOf (s : State) (c : Nat) (g : GangLaunch) : Launch :=
  { s.launchOf c g.ring { (default : Rec) with
      count := g.seq % 2 ^ 32, entry := g.entry, consts := g.consts, nb := g.nb, onTime := g.onTime, bad := none } with
    seq := g.seq, gangMore := g.more, gangBefore := g.before, fromLead := true }

/-- The clause of O43 on a launch that the lead dispatches here. -/
theorem member_launches {s : State} {c : Nat} {g : GangLaunch} (member : s.gangM ≠ 0) (active : (s.ctx c).st = .active) (standing : (s.ctx c).rst = none)
    (new : (s.ctx c).launch? g.seq = none) :
    ∃ t l, exec (.dispatch ⟨c, some (.launch g)⟩) s = .next t ∧
        t = { s with ctxs := t.ctxs, lanes := t.lanes, tiles := t.tiles, clusters := t.clusters } ∧ (t.ctx c).launches = (s.ctx c).launches ++ [l] ∧
        l.seq = g.seq ∧ l.entry = g.entry ∧ l.consts = g.consts ∧ l.fromLead = true ∧ l.clusters = s.leaseClusters c ∧ l.decision = none ∧
        (∀ kk ∈ s.leaseClusters c, (t.lane (s.laneFor c kk)).waiting = (s.lane (s.laneFor c kk)).waiting ++ [g.seq]) := by
  have goes : ¬(s.gangM == 0 || (s.ctx c).st != .active || (s.ctx c).rst.isSome || ((s.ctx c).launch? g.seq).isSome) = true := by
    simp [member, active, standing, new]
  have runs : exec (.dispatch ⟨c, some (.launch g)⟩) s = .next
      ((s.updCtx c fun x => { x with launches := x.launches ++ [s.memberLaunchOf c g] }).sends c (s.memberLaunchOf c g)) :=
    congrArg Host.Outcome.next (if_neg goes)
  have sent := (s.updCtx c fun x => { x with launches := x.launches ++ [s.memberLaunchOf c g] }).waiting_sends c (s.memberLaunchOf c g) rfl
  obtain ⟨lanes, tiles, clusters, frame⟩ :=
    (s.updCtx c fun x => { x with launches := x.launches ++ [s.memberLaunchOf c g] }).sends_frame c (s.memberLaunchOf c g)
  rw [frame] at runs sent
  refine ⟨_, s.memberLaunchOf c g, runs, rfl, ?_, rfl, rfl, rfl, rfl, rfl, rfl, sent⟩
  exact congrArg Ctx.launches (State.ctx_updCtx_self s c fun x => { x with launches := x.launches ++ [s.memberLaunchOf c g] })

/-- The clause of O43 on a launch that the lead stops here. -/
theorem member_stops {s : State} {c q : Nat} {l : Launch} (member : s.gangM ≠ 0) (idle : s.ops = []) (found : (s.ctx c).launch? q = some l) :
    ∃ t, exec (.dispatch ⟨c, some (.stop q)⟩) s = .next t ∧ (((t.ctx c).launch? q).map fun x => x.stage) = some .stopping ∧
        (∀ x ∈ t.lanes, x.st ≠ .idle → x.ctx = c → x.seq = q → x.stopped = true) ∧ t.cells = s.cells ∧ t.regs = s.regs := by
  have runs : exec (.dispatch ⟨c, some (.stop q)⟩) s = .next (s.stopLaunch c q) :=
    congrArg Host.Outcome.next (if_neg (by simpa using member))
  refine ⟨_, runs, ?_, State.stopLaunch_told idle c q, State.stopLaunch_cells idle c q, State.stopLaunch_regs idle c q⟩
  rw [State.stopLaunch_launch? idle c q found]
  rfl

/-- The lead is told nothing. -/
theorem lead_keeps {s : State} (c q : Nat) (g : GangLaunch) (lead : s.gangM = 0) : exec (.dispatch ⟨c, some (.launch g)⟩) s = .next s ∧
    exec (.dispatch ⟨c, some (.stop q)⟩) s = .next s ∧ exec (.dispatch ⟨c, some .reset⟩) s = .next s := by
  have first : (s.gangM == 0) = true := by simpa using lead
  have waits : (s.gangM == 0 || (s.ctx c).st != .active || (s.ctx c).rst.isSome || ((s.ctx c).launch? g.seq).isSome) = true := by
    rw [first]
    rfl
  exact ⟨congrArg Host.Outcome.next (if_pos waits), congrArg Host.Outcome.next (if_pos first), congrArg Host.Outcome.next (if_pos first)⟩

end Sys2Proof.Machine
end

section
/-! SUPPORT. What the block's shared parts leave alone: the contexts, the lanes and memory (R18, R127). A lemma for each update says that it keeps
them, so that simp carries the fact through any of their compositions. -/
namespace Sys2Proof.Machine

open Sys2Proof

/-- The contexts, the lanes and memory. -/
def State.core (s : State) : List Ctx × List Lane × List Host.Cell := (s.ctxs, s.lanes, s.cells)

theorem State.core_ext {s t : State} (ctxs : t.ctxs = s.ctxs) (lanes : t.lanes = s.lanes) (cells : t.cells = s.cells) : t.core = s.core := by
  rw [State.core, ctxs, lanes, cells, State.core]

theorem State.ctxs_of_core {s t : State} (h : t.core = s.core) : t.ctxs = s.ctxs := congrArg Prod.fst h
theorem State.lanes_of_core {s t : State} (h : t.core = s.core) : t.lanes = s.lanes := congrArg (fun x => x.2.1) h
theorem State.cells_of_core {s t : State} (h : t.core = s.core) : t.cells = s.cells := congrArg (fun x => x.2.2) h

section
variable (s : State)

/-! ## Updates of one unit -/

@[simp] theorem core_setReg (o : Nat) (v : Word) : (s.setReg o v).core = s.core := State.core_ext rfl rfl rfl
@[simp] theorem core_setFld (o hi lo v : Nat) : (s.setFld o hi lo v).core = s.core := State.core_ext rfl rfl rfl
@[simp] theorem core_setBitsIn (o m : Nat) : (s.setBitsIn o m).core = s.core := State.core_ext rfl rfl rfl
@[simp] theorem core_incSat (o hi lo n : Nat) : (s.incSat o hi lo n).core = s.core := State.core_ext rfl rfl rfl
@[simp] theorem core_incWrap (o hi lo n : Nat) : (s.incWrap o hi lo n).core = s.core := State.core_ext rfl rfl rfl
@[simp] theorem core_updTile (t : Nat) (f : Tile → Tile) : (s.updTile t f).core = s.core := State.core_ext rfl rfl rfl
@[simp] theorem core_updBarrow (b : Nat) (f : Barrow → Barrow) : (s.updBarrow b f).core = s.core := State.core_ext rfl rfl rfl
@[simp] theorem core_updMem (f : MemCtl → MemCtl) : (s.updMem f).core = s.core := State.core_ext rfl rfl rfl
@[simp] theorem core_updChan (n : Nat) (f : Chan → Chan) : (s.updChan n f).core = s.core := State.core_ext rfl rfl rfl
@[simp] theorem core_updPower (f : Power → Power) : (s.updPower f).core = s.core := State.core_ext rfl rfl rfl
@[simp] theorem core_updOp (id : Nat) (f : Op → Op) : (s.updOp id f).core = s.core := State.core_ext rfl rfl rfl
@[simp] theorem core_dropOp (id : Nat) : (s.dropOp id).core = s.core := State.core_ext rfl rfl rfl
@[simp] theorem core_emit (o : Out) : (s.emit o).core = s.core := State.core_ext rfl rfl rfl
@[simp] theorem core_addReq (r : Req) : (s.addReq r).core = s.core := State.core_ext rfl rfl rfl
@[simp] theorem core_tlbPut (e : TlbEnt) : (s.tlbPut e).core = s.core := State.core_ext rfl rfl rfl
@[simp] theorem core_draw : s.draw.2.core = s.core := State.core_ext rfl rfl rfl
@[simp] theorem core_tlb (l : List TlbEnt) : State.core { s with tlb := l } = s.core := State.core_ext rfl rfl rfl
@[simp] theorem core_xreqs (l : List XReq) : State.core { s with xreqs := l } = s.core := State.core_ext rfl rfl rfl
@[simp] theorem core_barGroups (l : List BarGroup) : State.core { s with barGroups := l } = s.core := State.core_ext rfl rfl rfl

/-! ## Events and the log -/

@[simp] theorem core_memOut (c a : Nat) : (s.memOut c a).core = s.core := by simp [State.memOut, State.memEvent]
@[simp] theorem core_barEvent (m : Nat) : (s.barEvent m).core = s.core := by simp [State.barEvent]
@[simp] theorem core_noteFault (c va e need n : Nat) : (s.noteFault c va e need n).core = s.core := by simp [State.noteFault, State.xltEvent]
@[simp] theorem core_mgmt (i : Nat) : (s.mgmt i).core = s.core := by simp [State.mgmt]
@[simp] theorem core_disarm : s.disarm.core = s.core := (core_setFld ..).trans (State.core_ext rfl rfl rfl)

@[simp] theorem core_fabEvent (m : Nat) : (s.fabEvent m).core = s.core := by
  unfold State.fabEvent
  split
  · rfl
  · dsimp only
    split <;> rfl

@[simp] theorem core_putLog (i j : Nat) (ws : List Word) : (s.putLog i j ws).core = s.core := by
  induction ws generalizing s j with
  | nil => rfl
  | cons w r ih => simp [State.putLog, ih]

@[simp] theorem core_record (r : Report) : (s.record r).core = s.core := by
  unfold State.record
  dsimp only
  split_ifs <;> simp

@[simp] theorem core_errPulse (r : Report) : (s.errPulse r).core = s.core := by
  unfold State.errPulse
  dsimp only
  split
  · split <;> simp
  · simp
  · simp
  · rfl

@[simp] theorem core_detect (r : Report) : (s.detect r).core = s.core := by
  unfold State.detect
  dsimp only
  split_ifs <;> simp

@[simp] theorem core_countEcc (a : Nat) (bad : Bool) : (s.countEcc a bad).core = s.core := by
  unfold State.countEcc
  split
  · split <;> simp
  · split <;> simp
  · rfl

@[simp] theorem core_checkScr (c : Option (Nat × Nat)) (q : Option Nat) (a : Nat) : (s.checkScr c q a).2.core = s.core := by
  unfold State.checkScr
  split <;> simp

/-! ## The link -/

@[simp] theorem core_dropHead (w : Nat) : (s.dropHead w).core = s.core := by simp [State.dropHead]

@[simp] theorem core_sendPort (p : Nat) (own : Bool) (slot : Option Nat) (h : Head) : (s.sendPort p own slot h).core = s.core := by
  unfold State.sendPort
  split
  · rfl
  · simp

@[simp] theorem core_originate (slot : Option Nat) (job dst : Nat) (m : Msg) : (s.originate slot job dst m).core = s.core := by
  unfold State.originate
  dsimp only
  split
  · rfl
  · split
    · rfl
    · split <;> simp

@[simp] theorem core_sendJob (j b g t : Nat) (body : MsgBody) : (s.sendJob j b g t body).core = s.core := by
  unfold State.sendJob
  split <;> simp

@[simp] theorem core_sendPeer (slot c j t : Nat) (body : MsgBody) : (s.sendPeer slot c j t body).core = s.core := by
  unfold State.sendPeer
  split
  · split <;> simp
  · simp

@[simp] theorem core_tell (c : Nat) (m : GangMsg) (l : List Nat) : (s.tell c m l).core = s.core := by
  induction l generalizing s with
  | nil => rfl
  | cons k r ih => simp [State.tell, ih]

/-! ## Reads of attached memory -/

@[simp] theorem core_queueReads (t c : Nat) (l : List Nat) : (s.queueReads t c l).core = s.core := by
  induction l generalizing s with
  | nil => rfl
  | cons a r ih => simp [State.queueReads, ih]

@[simp] theorem core_acceptRead (r : Req) : (s.acceptRead r).core = s.core := by simp [State.acceptRead]

/-! ## Translation -/

@[simp] theorem core_countTc (c : Nat) (hit : Bool) : (s.countTc c hit).core = s.core := by
  unfold State.countTc
  split_ifs <;> rfl

@[simp] theorem core_lookup (ch c g va need : Nat) : (s.lookup ch c g va need).2.core = s.core := by
  unfold State.lookup
  split
  · simp
  · dsimp only
    split_ifs <;> simp

@[simp] theorem core_xlate (ch c g va need : Nat) : (s.xlate ch c g va need).2.core = s.core := by
  unfold State.xlate
  split
  case h_1 => split <;> simp
  case h_2 =>
    split
    · rfl
    · split <;> simp
  case h_3 => split <;> rfl
  case h_4 => rfl

@[simp] theorem core_sendAts (x : XReq) : (s.sendAts x).core = s.core := by
  unfold State.sendAts
  split <;> simp

@[simp] theorem core_takeWalkers (n : Nat) : (s.takeWalkers n).core = s.core := by
  induction n generalizing s with
  | zero => rfl
  | succ n ih =>
    rw [State.takeWalkers]
    split
    · split
      · rw [ih, core_xreqs]
      · rfl
    · rfl

@[simp] theorem core_startX (e ch c g va need : Nat) : (s.startX e ch c g va need).2.core = s.core := by
  unfold State.startX
  dsimp only
  split_ifs
  · rfl
  · rfl
  · exact (core_takeWalkers ..).trans (State.core_ext rfl rfl rfl)
  · exact (core_sendAts ..).trans (State.core_ext rfl rfl rfl)

/-! ## Voltage and clock -/

@[simp] theorem core_writeVolt (o : Nat) (l : List Nat) : (s.writeVolt o l).core = s.core := by
  induction l generalizing s with
  | nil => rfl
  | cons r rs ih =>
    rw [State.writeVolt, ih]
    split <;> simp

@[simp] theorem core_setVolt (o : Nat) : (s.setVolt o).core = s.core := by simp [State.setVolt]

@[simp] theorem core_startTransition (t : Nat) (a : Option Nat) : (s.startTransition t a).core = s.core := by
  unfold State.startTransition
  split_ifs <;> simp

@[simp] theorem core_redecide : s.redecide.core = s.core := by
  unfold State.redecide
  dsimp only
  split_ifs <;> simp

@[simp] theorem core_retireSlot (c : Nat) : (s.retireSlot c).core = s.core := by
  unfold State.retireSlot
  split <;> simp

@[simp] theorem core_dropAbort (o : Nat) : (s.dropAbort o).core = s.core := by
  unfold State.dropAbort
  split <;> simp

/-! ## What a context reset captures -/

@[simp] theorem core_drawBytes (n : Nat) : (s.drawBytes n).2.core = s.core := by
  induction n generalizing s with
  | zero => rfl
  | succ n ih => simp [State.drawBytes, ih]

@[simp] theorem core_captureLane (c k : Nat) : (s.captureLane c k).2.core = s.core := by
  unfold State.captureLane
  split <;> simp [State.laneImage]

@[simp] theorem core_captureLanes (c : Nat) (l : List Nat) : (s.captureLanes c l).2.core = s.core := by
  induction l generalizing s with
  | nil => rfl
  | cons k r ih => simp [State.captureLanes, ih]

@[simp] theorem core_descImages (l : List QDesc) : (s.descImages l).2.core = s.core := by
  induction l generalizing s with
  | nil => rfl
  | cons q r ih =>
    have image : (s.descImage q).2 = s := by
      unfold State.descImage
      split <;> rfl
    simp [State.descImages, ih, image]

@[simp] theorem core_capture (c : Nat) : (s.capture c).2.core = s.core := by simp [State.capture]

/-! ## Barrow operations -/

@[simp] theorem core_setBarSt (b : Nat) (st : BarSt) : (s.setBarSt b st).core = s.core := State.core_ext rfl rfl rfl

@[simp] theorem core_restBarrow (b : Nat) : (s.restBarrow b).core = s.core := by
  unfold State.restBarrow
  split <;> simp

@[simp] theorem core_updQ (b op : Nat) (f : QDesc → QDesc) : (s.updQ b op f).core = s.core := State.core_ext rfl rfl rfl
@[simp] theorem core_updSeg (b op k : Nat) (f : Seg → Seg) : (s.updSeg b op k f).core = s.core := State.core_ext rfl rfl rfl
@[simp] theorem core_reapSegs (b op : Nat) : (s.reapSegs b op).core = s.core := State.core_ext rfl rfl rfl
@[simp] theorem core_gotPiece (b op k i : Nat) (bs : List Byte) : (s.gotPiece b op k i bs).core = s.core := State.core_ext rfl rfl rfl
@[simp] theorem core_sentDst (b op k i : Nat) (w : Bool) (n : Nat) : (s.sentDst b op k i w n).core = s.core := State.core_ext rfl rfl rfl

@[simp] theorem core_timeoutInj (b : Nat) (r : Req) : (s.timeoutInj b r).2.core = s.core := by
  unfold State.timeoutInj
  split <;> simp

@[simp] theorem core_formSeg (b op k : Nat) : (s.formSeg b op k).core = s.core := by
  unfold State.formSeg
  split
  · split <;> simp
  · rfl

@[simp] theorem core_budgetState (b : Nat) : (s.budgetState b).core = s.core := by
  unfold State.budgetState
  dsimp only
  split
  · simp
  · split <;> simp

@[simp] theorem core_spendTx (b : Nat) : (s.spendTx b).core = s.core := by
  unfold State.spendTx
  split
  · exact State.core_ext rfl rfl rfl
  · rfl

end

end Sys2Proof.Machine
end

section
/-! PROOFS. The Crier fetches the entry at the head of a ring (O43, R191, R192). -/
namespace Sys2Proof.Machine

open Sys2Proof

/-- What the fetch of a record leaves alone once it has begun: its ring's head and tail, the records that the ring holds, the lanes and memory. -/
def State.fetchFrame (s : State) (c r : Nat) : Nat × Nat × List Nat × List Lane × List Host.Cell :=
  ((s.ring c r).head, (s.ring c r).tail, (s.ring c r).recs.map fun k => k.count, s.lanes, s.cells)

section
variable {s : State} {c r : Nat}

theorem State.fetchFrame_of_core {t : State} (h : t.core = s.core) : t.fetchFrame c r = s.fetchFrame c r := by
  have ring : t.ring c r = s.ring c r := by rw [State.ring, State.ring, State.ctx, State.ctx, State.ctxs_of_core h]
  rw [State.fetchFrame, State.fetchFrame, ring, State.lanes_of_core h, State.cells_of_core h]

theorem State.fetchFrame_updRing {f : Ring → Ring} (kept : ∀ g, (f g).head = g.head ∧ (f g).tail = g.tail ∧
    (f g).recs.map (fun k => k.count) = g.recs.map fun k => k.count) : (s.updRing c r f).fetchFrame c r = s.fetchFrame c r := by
  obtain ⟨head, tail, recs⟩ := kept (s.ring c r)
  rw [State.fetchFrame, State.ring_updRing_self, head, tail, recs]
  rfl

/-- Records changed one by one, each keeping its number, keep their numbers. -/
theorem map_count_map {f : Rec → Rec} (h : ∀ k, (f k).count = k.count) (l : List Rec) : (l.map f).map (fun k => k.count) = l.map fun k => k.count := by
  rw [List.map_map]
  exact List.map_congr_left fun k _ => h k

theorem fetchFrame_countDecided : (s.countDecided c r).fetchFrame c r = s.fetchFrame c r := by
  refine State.fetchFrame_updRing fun g => ?_
  exact ⟨rfl, rfl, rfl⟩

theorem fetchFrame_gotRecord (n : Nat) (bs : List Byte) : (s.gotRecord c r n bs).fetchFrame c r = s.fetchFrame c r := by
  rw [State.gotRecord_eq]
  refine (State.fetchFrame_updRing fun g => ?_).trans ?_
  · refine ⟨rfl, rfl, map_count_map (fun k => ?_) g.recs⟩
    split <;> rfl
  · rw [State.recordCounts]
    split
    · exact fetchFrame_countDecided
    · rfl

theorem fetchFrame_recFailed (n va : Nat) : (s.recFailed c r n va).fetchFrame c r = s.fetchFrame c r := by
  rw [State.recFailed]
  refine (State.fetchFrame_updRing fun g => ?_).trans ?_
  · refine ⟨rfl, rfl, map_count_map (fun k => ?_) g.recs⟩
    split <;> rfl
  · split
    · rfl
    · exact fetchFrame_countDecided

theorem fetchFrame_waitFault (page cause n : Nat) : (s.waitFault page cause (.record c r n)).fetchFrame c r = s.fetchFrame c r := by
  rw [State.waitFault]
  refine (State.fetchFrame_updRing fun g => ?_).trans (State.fetchFrame_of_core (core_noteFault ..))
  exact ⟨rfl, rfl, rfl⟩

theorem fetchFrame_recFrom (n va pa : Nat) (ut : Bool) : (s.recFrom c r n va pa ut).fetchFrame c r = s.fetchFrame c r := by
  unfold State.recFrom
  dsimp only
  split
  case h_1 p _ =>
    split_ifs
    · exact (fetchFrame_gotRecord ..).trans (State.fetchFrame_of_core (core_checkScr ..))
    · exact (fetchFrame_recFailed ..).trans (State.fetchFrame_of_core (core_checkScr ..))
    · exact fetchFrame_waitFault ..
    · exact (fetchFrame_recFailed ..).trans (State.fetchFrame_of_core (core_memOut ..))
    · exact State.fetchFrame_of_core (core_acceptRead ..)
    · rfl
  case h_2 =>
    split
    · rfl
    · exact State.fetchFrame_of_core (by simp)
  case h_3 =>
    split
    · rfl
    · exact State.fetchFrame_of_core (by simp)
  case h_4 => exact fetchFrame_recFailed ..

/-- The fetch of a record, as far as it goes, keeps the ring's head and tail and the records it holds. -/
theorem fetchFrame_recFetch (n : Nat) : (s.recFetch c r n).fetchFrame c r = s.fetchFrame c r := by
  unfold State.recFetch
  dsimp only
  have found : ((s.xlate crierCache c (s.ctx c).gen (s.ringVa c r n) 1).2).fetchFrame c r = s.fetchFrame c r :=
    State.fetchFrame_of_core (core_xlate ..)
  have walks (u : State) (g va : Nat) : ((u.startX 28 crierCache c g va 1).2).fetchFrame c r = u.fetchFrame c r :=
    State.fetchFrame_of_core (core_startX ..)
  split
  · rfl
  · split
    · exact (fetchFrame_recFrom ..).trans found
    · exact (fetchFrame_waitFault ..).trans found
    · split
      · exact (fetchFrame_waitFault ..).trans ((walks ..).trans found)
      · split
        · refine (State.fetchFrame_updRing fun g => ?_).trans ((walks ..).trans found)
          exact ⟨rfl, rfl, rfl⟩
        · exact (walks ..).trans found

end

section
variable (s : State) (c r : Nat)

/-- The decision that a mark, or an earlier fetch, has made of the launch at a ring's head (R203, R204). -/
def State.headDecision : Option Decision :=
  (((s.ctx c).marks ++ (s.ctx c).kept).find? fun m => m.1 == r * 2 ^ 32 + (s.ring c r).head).map fun m => m.2

/-- The marks of the launch at a ring's head are spent. -/
def State.spendMarks : State :=
  s.updCtx c fun x => { x with marks := x.marks.filter fun m => m.1 != r * 2 ^ 32 + (s.ring c r).head
                               kept := x.kept.filter fun m => m.1 != r * 2 ^ 32 + (s.ring c r).head }

/-- A ring whose head moves past an entry, and that holds a record for it. -/
def State.takeEntry (u : State) : State :=
  u.updRing c r fun g => { g with head := ((s.ring c r).head + 1) % 2 ^ 32
                                  recs := g.recs ++ [{ Rec.fresh (s.ring c r).head with bad := s.headDecision c r }] }

/-- The turn that the context has had in the round (R197). -/
def State.tookTurn (u : State) : State := if u.flag (Reg.ctxSubmit c) 16 then { u with turnTimed := c } else { u with turnOther := c }

theorem ringScan_fetches (wants : s.wantsFetch c r = true) (turn : s.fetchTurn c = true) (unarmed : s.inject = none) :
    exec (.ringScan c r) s = .next ((State.tookTurn c (s.takeEntry c r (s.spendMarks c r))).recFetch c r (s.ring c r).head) := by
  have ready : (s.ring c r).scanning = true ∧ ((s.ring c r).head == (s.ring c r).tail) = false := by
    simp only [State.wantsFetch, Bool.and_eq_true, bne_iff_ne] at wants
    simp only [wants, beq_eq_false_iff_ne, ne_eq, not_false_eq_true, and_self]
  have calm : s.injHits 0x12 48 = false := by rw [State.injHits, unarmed]
  refine congrArg Host.Outcome.next (?_ : ringScanS c r s = _)
  simp only [ringScanS, ready, calm, wants, turn, Bool.not_true, Bool.or_self, Bool.false_eq_true, if_false]
  rfl

theorem core_tookTurn (u : State) : (State.tookTurn c u).core = u.core := by
  unfold State.tookTurn
  split
  · exact State.core_ext rfl rfl rfl
  · exact State.core_ext rfl rfl rfl

end

/-- The clause of O43 on the fetch of an entry. -/
theorem ring_fetches {s : State} {c r : Nat} (wants : s.wantsFetch c r = true) (turn : s.fetchTurn c = true) (unarmed : s.inject = none) :
    ∃ t, exec (.ringScan c r) s = .next t ∧ (t.ring c r).head = ((s.ring c r).head + 1) % 2 ^ 32 ∧ (t.ring c r).tail = (s.ring c r).tail ∧
      (t.ring c r).recs.map (fun k => k.count) = (s.ring c r).recs.map (fun k => k.count) ++ [(s.ring c r).head] ∧ t.cells = s.cells ∧
      t.lanes = s.lanes := by
  have kept := (fetchFrame_recFetch (s.ring c r).head).trans
    (State.fetchFrame_of_core (c := c) (r := r) (core_tookTurn c (s.takeEntry c r (s.spendMarks c r))))
  have ring : (s.spendMarks c r).ring c r = s.ring c r := by rw [State.ring, State.spendMarks, State.ctx_updCtx_self, State.ring]
  simp only [State.fetchFrame, State.takeEntry, State.ring_updRing_self, ring, List.map_append, Prod.mk.injEq] at kept
  obtain ⟨head, tail, recs, lanes, cells⟩ := kept
  exact ⟨_, ringScan_fetches s c r wants turn unarmed, head, tail, recs, cells, lanes⟩

end Sys2Proof.Machine
end

section
/-! SUPPORT. The generation of a context and the launches it holds (R199, R354): which updates leave them alone. A lemma for each update, so that
simp carries the fact through any of their compositions. -/
namespace Sys2Proof.Machine

open Sys2Proof

/-- By context, its generation and the sequence numbers of the launches it holds. -/
def shapeOf (x : List Ctx × List Lane × List Host.Cell) (c : Nat) : Nat × List Nat := ((nth x.1 c).gen, (nth x.1 c).launches.map fun l => l.seq)

theorem shapeOf_core (s : State) (c : Nat) : shapeOf s.core c = ((s.ctx c).gen, (s.ctx c).launches.map fun l => l.seq) := rfl

theorem shape_of_ctxs {s t : State} (h : t.ctxs = s.ctxs) : shapeOf t.core = shapeOf s.core := by
  funext c
  rw [shapeOf_core, shapeOf_core, State.ctx, State.ctx, h]

/-- A step that keeps them, taken for each entry of a list, keeps them. -/
theorem shape_foldl {α : Type} {f : State → α → State} (h : ∀ s a, shapeOf (f s a).core = shapeOf s.core) (s : State) (l : List α) :
    shapeOf (l.foldl f s).core = shapeOf s.core := by
  induction l generalizing s with
  | nil => rfl
  | cons a l ih => exact (ih (f s a)).trans (h s a)

section
variable (s : State)

/-! ## Updates of one unit -/

/-- A context's own state but for its generation and its launches. -/
theorem shape_updCtx {c : Nat} {f : Ctx → Ctx} (h : ∀ x, (f x).gen = x.gen ∧ (f x).launches.map (fun l => l.seq) = x.launches.map fun l => l.seq) :
    shapeOf (s.updCtx c f).core = shapeOf s.core := by
  funext d
  rw [shapeOf_core, shapeOf_core, State.ctx_updCtx]
  split
  next own => rw [(h _).1, (h _).2, own]
  next => rfl

@[simp] theorem shape_updLane (l : LaneId) (f : Lane → Lane) : shapeOf (s.updLane l f).core = shapeOf s.core := shape_of_ctxs rfl
@[simp] theorem shape_lanes (l : List Lane) : shapeOf (State.core { s with lanes := l }) = shapeOf s.core := shape_of_ctxs rfl
@[simp] theorem shape_nextTag (n : Nat) : shapeOf (State.core { s with nextTag := n }) = shapeOf s.core := shape_of_ctxs rfl
@[simp] theorem shape_wr (a : Nat) (b : Byte) : shapeOf (s.wr a b).core = shapeOf s.core := shape_of_ctxs rfl

/-- A launch updated keeps its number (R204). -/
theorem shape_updLaunch {c q : Nat} {f : Launch → Launch} (h : ∀ x, (f x).seq = x.seq) : shapeOf (s.updLaunch c q f).core = shapeOf s.core := by
  refine shape_updCtx s fun x => ⟨rfl, ?_⟩
  rw [Ctx.updLaunch, List.map_map]
  refine List.map_congr_left fun l _ => ?_
  rw [Function.comp]
  split
  · exact h l
  · rfl

/-! ## Memory -/

@[simp] theorem shape_wrBytes (a : Nat) (l : List Byte) : shapeOf (s.wrBytes a l).core = shapeOf s.core := by
  induction l generalizing s a with
  | nil => rfl
  | cons b r ih => simp [State.wrBytes, ih]

@[simp] theorem shape_wrList (l : List (Nat × Byte)) : shapeOf (s.wrList l).core = shapeOf s.core := by
  induction l generalizing s with
  | nil => rfl
  | cons b r ih => simp [State.wrList, ih]

@[simp] theorem shape_markDirty (a : Nat) : shapeOf (s.markDirty a).core = shapeOf s.core := by
  unfold State.markDirty
  split <;> simp

@[simp] theorem shape_store (a : Nat) (l : List Byte) : shapeOf (s.store a l).core = shapeOf s.core := by
  unfold State.store
  dsimp only
  split <;> simp

@[simp] theorem shape_queueWrites (t c a : Nat) (bs : List Byte) (l : List Nat) : shapeOf (s.queueWrites t c a bs l).core = shapeOf s.core := by
  induction l generalizing s with
  | nil => rfl
  | cons n r ih => simp [State.queueWrites, ih]

@[simp] theorem shape_acceptWrite (r : Req) (bs : List Byte) : shapeOf (s.acceptWrite r bs).2.core = shapeOf s.core := by
  unfold State.acceptWrite
  dsimp only
  split <;> simp

@[simp] theorem shape_reduceAt (f op n : Nat) (bs : List Byte) (a : Nat) : shapeOf (s.reduceAt f op n bs a).2.core = shapeOf s.core := by
  induction n generalizing s bs a with
  | zero => rfl
  | succ n ih => simp [State.reduceAt, ih]

/-! ## Launches and operations that stop -/

@[simp] theorem shape_stickyNan (c : Nat) (n : Bool) : shapeOf (s.stickyNan c n).core = shapeOf s.core := by
  unfold State.stickyNan
  split <;> simp

@[simp] theorem shape_countSat (l : LaneId) (a c : Nat) (n : Bool) : shapeOf (s.countSat l a c n).core = shapeOf s.core := by simp [State.countSat]

@[simp] theorem shape_landPrefix (t : Nat) (o : Op) : shapeOf (s.landPrefix t o).core = shapeOf s.core := by
  simp only [State.landPrefix, shape_stickyNan, shape_countSat, shape_wrList, core_draw]

@[simp] theorem shape_stopOp (o : Op) : shapeOf (s.stopOp o).core = shapeOf s.core := by
  unfold State.stopOp
  dsimp only
  split
  · rfl
  · split <;> simp
  · split
    · rfl
    · rw [core_dropOp, core_barGroups]
      exact shape_updCtx s fun _ => ⟨rfl, rfl⟩
  · simp
  · split_ifs <;> simp
  · rfl
  · split <;> simp

@[simp] theorem shape_stopOps (l : List Op) : shapeOf (s.stopOps l).core = shapeOf s.core := by
  induction l generalizing s with
  | nil => rfl
  | cons o r ih => simp [State.stopOps, ih]

@[simp] theorem shape_stopLaunch (c q : Nat) : shapeOf (s.stopLaunch c q).core = shapeOf s.core := by
  have stopping (u : State) : shapeOf (u.updLaunch c q fun l => { l with stage := .stopping }).core = shapeOf u.core :=
    shape_updLaunch u fun _ => rfl
  simp only [State.stopLaunch, shape_stopOps, stopping, shape_lanes]
  split
  · split <;> simp
  · rfl

@[simp] theorem shape_raiseAt (c q cl n : Nat) (e : Exc) : shapeOf (s.raiseAt c q cl n e).core = shapeOf s.core := by
  unfold State.raiseAt
  split
  · split
    · simp
    · rw [shape_stopLaunch]
      exact shape_updLaunch s fun _ => rfl
  · rfl

/-! ## Energy and work (R387) -/

@[simp] theorem shape_energyEvent (c q k n : Nat) : shapeOf (s.energyEvent c q k n).core = shapeOf s.core := by
  rw [State.energyEvent, core_updPower]
  exact shape_updLaunch s fun _ => rfl

@[simp] theorem shape_workUp (c q k n : Nat) : shapeOf (s.workUp c q k n).core = shapeOf s.core := shape_updLaunch s fun _ => rfl

@[simp] theorem shape_scrEnergy (c q a n : Nat) : shapeOf (s.scrEnergy c q a n).core = shapeOf s.core := by
  unfold State.scrEnergy
  dsimp only
  split <;> simp

@[simp] theorem shape_fillers (t n : Nat) : shapeOf (s.fillers t n).core = shapeOf s.core := by
  unfold State.fillers
  dsimp only
  split
  · split
    · simp
    · rw [core_updPower]
      refine (shape_updCtx _ fun x => ?_).trans (congrArg shapeOf (core_incWrap ..))
      exact ⟨rfl, rfl⟩
  · simp

@[simp] theorem shape_settleGap (t : Nat) : shapeOf (s.settleGap t).core = shapeOf s.core := by
  unfold State.settleGap
  split
  · dsimp only
    split
    · rfl
    · simp
  · rfl

@[simp] theorem shape_awningTile (t : Nat) : shapeOf (s.awningTile t).core = shapeOf s.core := by simp [State.awningTile]

/-! ## Barrows go on -/

@[simp] theorem shape_settle (b op : Nat) : shapeOf (s.settle b op).core = shapeOf s.core := by
  unfold State.settle
  dsimp only
  split
  · split
    · split
      · simp
      · split
        · simp
        · rw [shape_raiseAt]
          split
          · refine (shape_updCtx _ fun x => ?_).trans (by simp)
            exact ⟨rfl, rfl⟩
          · simp
    · simp
  · simp

@[simp] theorem shape_failOp (b op c a : Nat) : shapeOf (s.failOp b op c a).core = shapeOf s.core := by
  unfold State.failOp
  split <;> simp

@[simp] theorem shape_failSeg (b op k c a : Nat) : shapeOf (s.failSeg b op k c a).core = shapeOf s.core := by simp [State.failSeg]

@[simp] theorem shape_takeTokens (c b n : Nat) : shapeOf (s.takeTokens c b n).2.core = shapeOf s.core := by
  have paid (f : Ctx → Ctx) (gen : ∀ x, (f x).gen = x.gen) (launches : ∀ x, (f x).launches = x.launches) :
      shapeOf (s.updCtx c f).core = shapeOf s.core := shape_updCtx s fun x => ⟨gen x, by rw [launches x]⟩
  unfold State.takeTokens
  dsimp only
  split_ifs
  · rfl
  · exact paid _ (by intro; rfl) (by intro; rfl)
  · exact paid _ (by intro; rfl) (by intro; rfl)

theorem shape_of_takeTokens {c b n : Nat} {ok : Bool} {t : State} (h : s.takeTokens c b n = (ok, t)) : shapeOf t.core = shapeOf s.core := by
  rw [← shape_takeTokens s c b n, h]

@[simp] theorem shape_sendSrc (b op k i : Nat) : shapeOf (s.sendSrc b op k i).core = shapeOf s.core := by
  unfold State.sendSrc
  split
  · split
    · split
      · dsimp only
        split
        case h_1 => split_ifs <;> simp
        case h_2 => split_ifs <;> simp
        case h_3 =>
          split
          · rfl
          · split
            next h => exact shape_of_takeTokens s h
            next h => simp [shape_of_takeTokens s h]
        case h_4 => simp
      · rfl
    · rfl
  · rfl

@[simp] theorem shape_sendDst (b op k i : Nat) : shapeOf (s.sendDst b op k i).core = shapeOf s.core := by
  unfold State.sendDst
  split
  · split
    · split
      · dsimp only
        split
        case h_1 => split_ifs <;> simp
        case h_2 => split_ifs <;> simp
        case h_3 =>
          split
          · rfl
          · split
            next h => exact shape_of_takeTokens s h
            next h => simp [shape_of_takeTokens s h]
        case h_4 => simp
      · rfl
    · rfl
  · rfl

@[simp] theorem shape_sendSrcs (b op k : Nat) (l : List Nat) : shapeOf (s.sendSrcs b op k l).core = shapeOf s.core := by
  induction l generalizing s with
  | nil => rfl
  | cons i r ih => simp [State.sendSrcs, ih]

@[simp] theorem shape_sendDsts (b op k : Nat) (l : List Nat) : shapeOf (s.sendDsts b op k l).core = shapeOf s.core := by
  induction l generalizing s with
  | nil => rfl
  | cons i r ih => simp [State.sendDsts, ih]

@[simp] theorem shape_pumpSeg (b op k : Nat) : shapeOf (s.pumpSeg b op k).core = shapeOf s.core := by
  unfold State.pumpSeg
  split
  · split <;> simp
  · rfl

@[simp] theorem shape_pumpSegs (b op : Nat) (l : List Nat) : shapeOf (s.pumpSegs b op l).core = shapeOf s.core := by
  induction l generalizing s with
  | nil => rfl
  | cons k r ih => simp [State.pumpSegs, ih]

@[simp] theorem shape_rebind (b op : Nat) : shapeOf (s.rebind b op).core = shapeOf s.core := by
  unfold State.rebind
  split
  · split <;> simp
  · rfl

@[simp] theorem shape_pumpOps (b : Nat) (l : List Nat) : shapeOf (s.pumpOps b l).core = shapeOf s.core := by
  induction l generalizing s with
  | nil => rfl
  | cons op r ih =>
    rw [State.pumpOps, ih]
    split <;> simp

@[simp] theorem shape_pumpAll (l : List Nat) : shapeOf (s.pumpAll l).core = shapeOf s.core := by
  induction l generalizing s with
  | nil => rfl
  | cons b r ih => simp [State.pumpAll, State.pump, ih]

@[simp] theorem shape_pumpBarrows : shapeOf s.pumpBarrows.core = shapeOf s.core := by simp [State.pumpBarrows]

end

end Sys2Proof.Machine
end

section
/-! PROOFS. A member of a gang is reset as its lead tells it (R291, R354), and the fetches and dispatches of the Crier together (O43). -/
namespace Sys2Proof.Machine

open Sys2Proof

theorem State.gen_of_shape {s t : State} (h : shapeOf t.core = shapeOf s.core) (c : Nat) : (t.ctx c).gen = (s.ctx c).gen :=
  congrArg (fun x => (x c).1) h

theorem State.noLaunches_of_shape {s t : State} (h : shapeOf t.core = shapeOf s.core) {c : Nat} (none_ : (s.ctx c).launches = []) :
    (t.ctx c).launches = [] := by
  have same : (t.ctx c).launches.map (fun l => l.seq) = (s.ctx c).launches.map fun l => l.seq := congrArg (fun x => (x c).2) h
  rw [none_] at same
  exact List.map_eq_nil_iff.1 same

/-- A context purged holds no launch, and is of the generation it was of (R354). -/
theorem State.purge_empties (s : State) (c : Nat) : ((s.purge c).ctx c).gen = (s.ctx c).gen ∧ ((s.purge c).ctx c).launches = [] := by
  have landed (l : List Op) : shapeOf (l.foldl (fun s o => match o.st, o.unit with
      | .running, .tile t => if iCls o.iw == 9 then s.landPrefix t o else s
      | _, _ => s) s).core = shapeOf s.core := by
    refine shape_foldl (fun u o => ?_) s l
    split
    · split <;> simp
    · rfl
  rw [State.purge]
  dsimp only
  refine ⟨(State.gen_of_shape (congrArg shapeOf (core_takeWalkers ..)) c).trans ?_,
    State.noLaunches_of_shape (congrArg shapeOf (core_takeWalkers ..)) ?_⟩
  · rw [State.ctx_updCtx_self]
    exact State.gen_of_shape (landed _) c
  · rw [State.ctx_updCtx_self]

/-- A context reset that begins takes the next generation, and discards the launches. -/
theorem State.beginReset_empties {s : State} {c : Nat} (cause : Nat) (destroy command : Bool) (taken : (s.ctx c).st ≠ .free)
    (standing : (s.ctx c).rst = none) : ((s.beginReset c cause destroy command).ctx c).gen = ((s.ctx c).gen + 1) % 256 ∧
      ((s.beginReset c cause destroy command).ctx c).launches = [] := by
  have goes : ¬ ((s.ctx c).rst.isSome || (s.ctx c).st == .free) = true := by simp [taken, standing]
  obtain ⟨u, after, gen⟩ : ∃ u : State, shapeOf (s.beginReset c cause destroy command).core = shapeOf (u.purge c).core ∧
      (u.ctx c).gen = ((s.ctx c).gen + 1) % 256 := by
    simp only [State.beginReset]
    rw [if_neg goes]
    apply Exists.intro
    refine ⟨?after, ?gen⟩
    case after => rw [shape_pumpBarrows, core_setReg, core_dropAbort, core_dropAbort, shape_foldl fun u t => by simp]
    case gen =>
      have told (v : State) : shapeOf (if cause == 4 && v.ganged && v.gangM == 0 then v.tell c .reset ((List.range v.gangN).drop 1) else v).core =
          shapeOf v.core := by
        split
        · rw [core_tell]
        · rfl
      refine (State.gen_of_shape ((congrArg shapeOf (core_retireSlot ..)).trans (told _)) c).trans ?_
      rw [State.ctx_updCtx_self]
      refine congrArg (fun n => (n + 1) % 256) (State.gen_of_shape (congrArg shapeOf ?_) c)
      split <;> simp
  obtain ⟨kept, none_⟩ := u.purge_empties c
  exact ⟨((State.gen_of_shape after c).trans kept).trans gen, State.noLaunches_of_shape after none_⟩

/-- The clause of O43 on a reset that the lead begins here. -/
theorem member_resets {s : State} {c : Nat} (member : s.gangM ≠ 0) (taken : (s.ctx c).st ≠ .free) (standing : (s.ctx c).rst = none) :
    ∃ t, exec (.dispatch ⟨c, some .reset⟩) s = .next t ∧ ((t.ctx c).rst.map fun r => r.cause) = some 4 ∧
        (t.ctx c).gen = ((s.ctx c).gen + 1) % 256 ∧ (t.ctx c).launches = [] :=
  ⟨_, congrArg Host.Outcome.next (if_neg (by simpa using member)), (State.beginReset_begins 4 false false taken standing).2,
    State.beginReset_empties 4 false false taken standing⟩

/-- Settles O43: a ring that goes idle or fetches, the record that comes or fails, its tick, the dispatch of its launch, and the lead's word to
a member are each one command of the Crier's, whose effect a lemma of its own gives. -/
theorem crierFetchesAndDispatches : Obligations.CrierFetchesAndDispatches := by
  unfold Obligations.CrierFetchesAndDispatches
  refine ⟨?idle, ?fetch, ?record, ?fault, ?release, ?dispatch, ?member⟩
  case idle => exact fun s c r scanning empty => ring_goes_idle scanning empty
  case fetch => exact fun s c r wants turn unarmed => ring_fetches wants turn unarmed
  case record => exact fun s c r bs k q oldest asked host length => record_arrives oldest asked host length
  case fault => exact fun s c r n va before k rest failed recs others count ring active => record_fetch_fails failed recs others count ring active
  case release => exact fun s c r T k head tick here held => not_before_releases head tick here held
  case dispatch =>
    exact fun s c r k rest may pick recs unarmed => ⟨fun good => dispatch_starts may pick recs unarmed good,
      fun d bad => dispatch_takes may pick recs unarmed bad⟩
  case member =>
    exact fun s c q g => ⟨fun lead => lead_keeps c q g lead, fun member active standing new => member_launches member active standing new,
      fun l member idle found => member_stops member idle found, fun member taken standing => member_resets member taken standing⟩

end Sys2Proof.Machine
end
